-- ==== Sys2Proof/Word.lean ====
section
/-!
DEFINITION. The word types of the Pelter adapter engine (PAE) and the index types of its units.
Bit 0 is the least significant bit everywhere (R7).
-/

namespace Sys2Proof

/-- One byte of memory, of a block or of a message. -/
abbrev Byte := BitVec 8

/-- One register word: the register space holds 32-bit registers only (R453). -/
abbrev Word := BitVec 32

/-- The bits of an FP32 value (R60). -/
abbrev F32 := BitVec 32

/-- A chip coordinate: X in 5:0, Y in 11:6, Z in 17:12 (R351). -/
abbrev Coord := BitVec 18

/-- A request descriptor (Table SERVE-1). -/
abbrev Desc := BitVec 512

/-- A row tag (Table ARITH-3). -/
abbrev RowTag := BitVec 64

/-- A step-program instruction word (R118). -/
abbrev IWord := BitVec 128

/-- A partition number (R372). -/
abbrev Part := Fin 16

/-- An adapter core (R14). -/
abbrev CoreIx := Fin 64

/-- A cluster (R14). -/
abbrev ClusterIx := Fin 8

/-- A Weurrus port: 0 X+, 1 X−, 2 Y+, 3 Y−, 4 Z+, 5 Z− (R326). -/
abbrev PortIx := Fin 6

/-- A request face: 0 the P-face, 1 the D-face (Table SERVE-9). -/
abbrev FaceIx := Fin 2

/-- A requester of the register space: 0 root, 1 + p the manager of partition p (R453). -/
abbrev Requester := Fin 17

/-- An issue queue of Table ISA-1. -/
abbrev QueueIx := Fin 216

/-- One of the four HBM controllers (R14). -/
abbrev HbmIx := Fin 4

/-- One of the eight program slots (R122). -/
abbrev PSlot := Fin 8

end Sys2Proof
end

