-- ==== Sys2Proof/Syntax.lean ====
section
/-!
DEFINITION. The commands the PAE takes, one constructor of `Instr` for each row of the spec's table of operations
and events, and the data they carry. Formats to which the spec gives a bit layout are carried as those bits, and the
machine reads their fields (Machine/Operands.lean); operands the spec names without a layout are carried as fields.
-/

namespace Sys2Proof

/-- An entry of a partition's RESQ ring: the partition commands of Tables RES-6 and CTRL-7. The spec gives the
code in byte 0 and the operands' names; the layout of the residency operands is not given (log entry 6). -/
inductive ResCmd where
  /-- LOAD (code 0x01): slot, version, area, cold offset, length; SHSET of the new record by R210. -/
  | load (slot version area cold len shset : Nat)
  /-- SHLOAD (0x02). -/
  | shload (slot version area cold len shset : Nat)
  /-- SHROWS (0x03). -/
  | shrows (slot version area cold len shset : Nat)
  /-- SEAL (0x04). -/
  | seal (slot : Nat)
  /-- PUBLISH (0x05). -/
  | publish (slot : Nat)
  /-- DROP (0x06). -/
  | drop (slot : Nat)
  /-- SAVE (0x07): slot, version, key slot, cold offset. -/
  | save (slot version key cold : Nat)
  /-- EVICT (0x08): slot, SAVE flag, key slot, cold offset. -/
  | evict (slot : Nat) (save : Bool) (key cold : Nat)
  /-- MIRROR (0x09). -/
  | mirror (slot version area : Nat) (owner : Coord) (ownerSlot rank tmask : Nat) (scale : F32) (tag : Word)
  /-- SETATTR (0x0A). -/
  | setattr (slot : Nat) (train : Bool) (tag : Word)
  /-- TWRITE (0x10): the tensor index, the address of the descriptor image, and the image read there. -/
  | twrite (index addr : Nat) (image : BitVec 512)
  /-- KEEP (0x11). -/
  | keep (slot : Nat)
  /-- DISCARD (0x12). -/
  | discard (slot : Nat)
  /-- HPSET (0x13): set index and the five FP32 values. -/
  | hpset (set : Nat) (lr beta1 beta2 eps wd : F32)
  /-- A code of Table CTRL-7 that is reserved. -/
  | reserved (code : Nat)
  deriving DecidableEq, Repr

/-- A page descriptor (Table RCC-5) with its fields separated. -/
structure PageDesc where
  /-- ADDR. -/
  addr : Nat := 0
  /-- FILL, committed positions. -/
  fill : Nat := 0
  /-- STATE: 0 FREE, 1 LIVE, 2 HOLD, 3 MOVING. -/
  st : Nat := 0
  /-- FMT: false B16, true F8v. -/
  f8 : Bool := false
  /-- REF. -/
  ref : Nat := 0
  /-- GEN. -/
  gen : Nat := 0
  /-- SLOT. -/
  slot : Nat := 0
  /-- VERSION. -/
  version : Nat := 0
  deriving DecidableEq, Repr

/-- A page list (Table RCC-6): NPAGES and CLEN of the header and the entries (DESC, GEN). -/
structure PageList where
  /-- NPAGES. -/
  npages : Nat := 0
  /-- CLEN, committed positions. -/
  clen : Nat := 0
  /-- The entries, (DESC, GEN); DESC 0xFFFFFF is ABSENT. -/
  ents : List (Nat × Nat) := []
  deriving DecidableEq, Repr

/-- A store by firmware into a table of a partition that the spec lets firmware write in place. It becomes visible
with the ring-index write that carries it (log entry 7). -/
inductive FwStore where
  /-- Replica-set entry (R209). -/
  | repset (index : Nat) (entry : BitVec 256)
  /-- Shard-set entry (R246). -/
  | shardset (index : Nat) (entry : BitVec 512)
  /-- The 16 bytes of a page descriptor (Table RCC-5). -/
  | pagedesc (index : Nat) (entry : BitVec 128)
  /-- The bytes of a page list at an address (Table RCC-6): header and entries; a prefix handle is such a list (R182). -/
  | pagelist (addr : Nat) (bytes : List Byte)
  /-- A prefix handle and the address of its page list (R182). -/
  | handle (pfx addr : Nat)
  deriving DecidableEq, Repr

/-- Entries that firmware wrote into a ring before advancing its writer's index (R465, R471). -/
inductive RingEnts where
  /-- None: the index is a reader's. -/
  | none
  /-- RESQ entries. -/
  | resq (ents : List ResCmd)
  /-- RCCQ entries (Table REGS-9). -/
  | rccq (ents : List (BitVec 256))
  /-- RCCF entries: descriptor indices (Table REGS-7). -/
  | rccf (ents : List Nat)
  deriving DecidableEq, Repr

/-- A token report (Table SERVE-6): the 16-byte header and the 16 token fields. -/
structure TokenReport where
  /-- The header. -/
  hdr : BitVec 128
  /-- The token fields. -/
  toks : List Word
  deriving DecidableEq, Repr

/-- An exchange message (R345): the header of Table PLANE-7 and the body. -/
structure Msg where
  /-- The 32-byte header. -/
  hdr : BitVec 256
  /-- The body. -/
  body : List Byte
  deriving DecidableEq, Repr

/-- A flit as received: its 256 bytes (Table PLANE-3), and whether it lay in a correctable codeword (R332). -/
structure RxFlit where
  /-- The bytes, byte 0 first. -/
  bytes : List Byte
  /-- The codewords that hold it were correctable. -/
  fecOk : Bool
  deriving DecidableEq, Repr

/-- One sample set of the telemetry (R447). -/
structure Telemetry where
  /-- PAE power, 1 mW. -/
  total : BitVec 20
  /-- Power of the four stacks, 10 mW. -/
  stackPower : BitVec 16
  /-- Module input voltage, 1 mV. -/
  vin : BitVec 16
  /-- Energy of the sample, 1 µJ, to be accumulated. -/
  energy : Nat
  /-- Island powers, 10 mW, islands 0 to 19. -/
  islands : List (BitVec 16)
  deriving DecidableEq, Repr

/-- The reasons for which the control core restarts, halts or repairs (R398, R400). -/
inductive CcFault where
  /-- Uncorrectable error in the data SRAM. -/
  | dataSram
  /-- Uncorrectable error in the register file. -/
  | regFile
  /-- Parity error in the pipeline. -/
  | pipeline
  /-- Uncorrectable error in a checkpoint read; `both` when both areas are lost. -/
  | ckptRead (both : Bool)
  /-- Uncorrectable error in the instruction SRAM. -/
  | instrSram
  deriving DecidableEq, Repr

/-- Where a transient fault was detected in the running step (R433). -/
structure StepFault where
  /-- SRC of Table REL-4. -/
  src : Nat
  /-- Index of the first affected word. -/
  word : Nat
  /-- Cycle of detection. -/
  cycle : Nat
  /-- The core whose work is affected. -/
  core : CoreIx
  /-- Array of the core. -/
  array : Fin 4
  /-- Half. -/
  half : Bool
  /-- Batch row of the first poisoned row. -/
  row : Nat
  deriving DecidableEq, Repr

/-- The windows of a CONFIGURE (R408): base and count of each. -/
structure Windows where
  /-- HBM window, 256 MiB units. -/
  hbmBase : Nat := 0
  /-- HBM units. -/
  hbmCount : Nat := 0
  /-- Cold-tier window, 1 GiB units. -/
  coldBase : Nat := 0
  /-- Cold-tier units. -/
  coldCount : Nat := 0
  /-- Slot window. -/
  slotBase : Nat := 0
  /-- Slots. -/
  slotCount : Nat := 0
  /-- Tensor window. -/
  tensBase : Nat := 0
  /-- Tensor indices. -/
  tensCount : Nat := 0
  /-- Record window. -/
  reqBase : Nat := 0
  /-- Records. -/
  reqCount : Nat := 0
  /-- Ring window. -/
  ringBase : Nat := 0
  /-- Rings. -/
  ringCount : Nat := 0
  deriving DecidableEq, Repr

/-- The requester of an SPDM KEY_EXCHANGE: the SHA-384 digest of its leaf public key, and whether the mutual
authentication of R379 verified. -/
structure SpdmPeer where
  /-- Digest of the requester's key. -/
  digest : List Byte
  /-- Mutual authentication succeeded. -/
  mutualOk : Bool
  deriving DecidableEq, Repr

/-- A command of the block: one constructor for each row of the table. The docstring of each says the rule. -/
inductive Instr where
  /-- COLD_RESET (R413). -/
  | coldReset
  /-- PLL_LOCK_DONE (R414). -/
  | pllLockDone
  /-- HBM_TRAINING_DONE (R415): the stack that failed after repair, if one did. -/
  | hbmTrainingDone (failed : Option (Fin 4))
  /-- AUTUMN_WIPE_DONE (R390). -/
  | autumnWipeDone
  /-- STEP_SYNC_EDGE (R314): the width of the pulse in ns. -/
  | stepSyncEdge (widthNs : Nat)
  /-- PWR_WARN_ASSERT (R445). -/
  | pwrWarnAssert
  /-- PWR_WARN_RELEASE (R445). -/
  | pwrWarnRelease
  /-- SVC_DRAIN (R367). -/
  | svcDrain
  /-- DRAIN_COMPLETE (R367). -/
  | drainComplete
  /-- WATCHDOG_EXPIRY (R398). -/
  | watchdogExpiry
  /-- RESTART_COMPLETE (R398). -/
  | restartComplete
  /-- CHECKPOINT_COMPLETE (R395). -/
  | checkpointComplete
  /-- PATROL_SCRUB (R424): the data unit read and the symbol errors its codeword holds. -/
  | patrolScrub (unit : Nat) (errs : List (Fin 72 × Byte))
  /-- TEMP_SAMPLE (R446): the twelve readings, 0.1 °C. -/
  | tempSample (readings : List Nat)
  /-- TELEMETRY_REFRESH (R447). -/
  | telemetryRefresh (sample : Telemetry)
  /-- FATAL_ERROR (R437): SRC of Table REL-4. -/
  | fatalError (src : Nat)
  /-- STEP_REPLAY (R434): the fault that asks for it. -/
  | stepReplay (fault : StepFault)
  /-- ADMISSION_CLOSE (R270). -/
  | admissionClose
  /-- MARCH (R132). -/
  | march
  /-- MARCH_DEADLINE (R309). -/
  | marchDeadline
  /-- BOUNDARY (R25). -/
  | boundary
  /-- SEGMENTATION_DONE (R45). -/
  | segmentationDone
  /-- HANDOVER_CHECK_DONE (R178). -/
  | handoverCheckDone
  /-- TAIL_COMMIT (R180). -/
  | tailCommit
  /-- RESULT_RELEASE (R280). -/
  | resultRelease (face : FaceIx)
  /-- RING_WRITE (R283): the output ring. -/
  | ringWrite (ring : Fin 16384)
  /-- HOLD_EXPIRY (R289): partition and hold-table index. -/
  | holdExpiry (part : Part) (index : Fin 65536)
  /-- NOP (R132). -/
  | nop (queue : QueueIx)
  /-- WAIT (R120). -/
  | wait (queue : QueueIx)
  /-- HFILL (R145). -/
  | hfill (cluster : ClusterIx)
  /-- TFILL (R147). -/
  | tfill (core : CoreIx)
  /-- STREAM (R134). -/
  | stream (core : CoreIx)
  /-- CONV (R138). -/
  | conv (core : CoreIx)
  /-- REDUCE_Q (R148). -/
  | reduceQ (cluster : ClusterIx)
  /-- REDUCE_RCC (R170). -/
  | reduceRcc (cluster : ClusterIx)
  /-- REDUCE_U (R206). -/
  | reduceU (cluster : ClusterIx)
  /-- REDUCE_PART (R247). -/
  | reducePart (cluster : ClusterIx)
  /-- VEC_ADD (R113). -/
  | vecAdd (core : CoreIx)
  /-- VEC_SUB (R113). -/
  | vecSub (core : CoreIx)
  /-- VEC_MUL (R113). -/
  | vecMul (core : CoreIx)
  /-- VEC_FMA (R113). -/
  | vecFma (core : CoreIx)
  /-- VEC_MAX (R113). -/
  | vecMax (core : CoreIx)
  /-- VEC_MIN (R113). -/
  | vecMin (core : CoreIx)
  /-- VEC_SCALE2 (R113). -/
  | vecScale2 (core : CoreIx)
  /-- VEC_EXPMAX (R113). -/
  | vecExpmax (core : CoreIx)
  /-- VEC_CMP (R149). -/
  | vecCmp (core : CoreIx)
  /-- VEC_SELECT (R149). -/
  | vecSelect (core : CoreIx)
  /-- CVT (R149). -/
  | cvt (core : CoreIx)
  /-- FACEIN_ACT (R151): the block from the host. -/
  | faceinAct (face : FaceIx) (block : List Byte)
  /-- FACEIN_GRAD (R199). -/
  | faceinGrad (face : FaceIx) (block : List Byte)
  /-- FACEIN_QRY (R187). -/
  | faceinQry (face : FaceIx) (block : List Byte)
  /-- FACEIN_PROB (R187). -/
  | faceinProb (face : FaceIx) (block : List Byte)
  /-- FACEIN_LOGIT (R294). -/
  | faceinLogit (face : FaceIx) (block : List Byte)
  /-- FACEOUT_BITMAP (R55). -/
  | faceoutBitmap (face : FaceIx)
  /-- FACEOUT_DELTA (R152). -/
  | faceoutDelta (face : FaceIx)
  /-- FACEOUT_IGRAD (R201). -/
  | faceoutIgrad (face : FaceIx)
  /-- FACEOUT_SCORE (R186). -/
  | faceoutScore (face : FaceIx)
  /-- FACEOUT_VDELTA (R186). -/
  | faceoutVdelta (face : FaceIx)
  /-- FACEOUT_TOPK (R296). -/
  | faceoutTopk (face : FaceIx)
  /-- XSEND (R154). -/
  | xsend (port : PortIx)
  /-- XRECV (R154). -/
  | xrecv (port : PortIx)
  /-- MACC (R155). -/
  | macc (core : CoreIx)
  /-- MOPT (R217). -/
  | mopt (hbm : HbmIx)
  /-- MREGEN (R220). -/
  | mregen (hbm : HbmIx)
  /-- RCC_UWRITE (R179). -/
  | rccUwrite
  /-- RCC_KPASS (R167). -/
  | rccKpass
  /-- RCC_VPASS (R168). -/
  | rccVpass
  /-- PSUM_MSG (R248). -/
  | psumMsg (m : Msg)
  /-- ROWREQ_MSG (R251). -/
  | rowreqMsg (m : Msg)
  /-- ROWS_MSG (R251). -/
  | rowsMsg (m : Msg)
  /-- GRAD_MSG (R211). -/
  | gradMsg (m : Msg)
  /-- AGREE_MSG (R213). -/
  | agreeMsg (m : Msg)
  /-- DIGEST_MSG (R225). -/
  | digestMsg (m : Msg)
  /-- LATE_MSG (R309). -/
  | lateMsg (m : Msg)
  /-- DONE_MSG (R309). -/
  | doneMsg (m : Msg)
  /-- SYNC_MSG (R314). -/
  | syncMsg (m : Msg)
  /-- NOTICE_MSG (R321). -/
  | noticeMsg (m : Msg)
  /-- ADMIT_MSG (R347). -/
  | admitMsg (m : Msg)
  /-- TSYNC_MSG (R304): the port and the local receive timestamp, in 2^-6 ns. -/
  | tsyncMsg (port : PortIx) (rxStamp : Nat) (m : Msg)
  /-- TDIG_MSG (R226). -/
  | tdigMsg (m : Msg)
  /-- LINKEV_MSG (R362). -/
  | linkevMsg (m : Msg)
  /-- MSG_FORWARD (R348): the port it came in on, and whether it is in the detour class. -/
  | msgForward (port : PortIx) (det : Bool) (m : Msg)
  /-- FLIT_TX (R331). -/
  | flitTx (port : PortIx)
  /-- DATA_FLIT_RX (R333). -/
  | dataFlitRx (port : PortIx) (flit : RxFlit)
  /-- CTRL_FLIT_RX (R338). -/
  | ctrlFlitRx (port : PortIx) (flit : RxFlit)
  /-- NAK_RX (R335). -/
  | nakRx (port : PortIx) (flit : RxFlit)
  /-- NAK_TIMEOUT (R333). -/
  | nakTimeout (port : PortIx)
  /-- PMD_TRAINING_DONE (R327). -/
  | pmdTrainingDone (port : PortIx)
  /-- HELLO_TX (R355). -/
  | helloTx (port : PortIx)
  /-- HELLO_RX (R354): the 448 bytes of the hello. -/
  | helloRx (port : PortIx) (hello : List Byte)
  /-- DISCOVERY_TIMEOUT (R354). -/
  | discoveryTimeout (port : PortIx)
  /-- LINK_DOWN (R337): the reason code of Table PLANE-11. -/
  | linkDown (port : PortIx) (reason : Fin 16)
  /-- RETRAIN_TIMER (R366). -/
  | retrainTimer (port : PortIx)
  /-- SYNC_EXCHANGE (R304): the transmit timestamp, in 2^-6 ns. -/
  | syncExchange (port : PortIx) (txStamp : Nat)
  /-- HOLDOVER_EXPIRY (R307). -/
  | holdoverExpiry
  /-- CLOSURE_TIMEOUT (R363). -/
  | closureTimeout
  /-- NEW (R260). -/
  | new (face : FaceIx) (queue : Part) (d : Desc)
  /-- CANCEL (R285). -/
  | cancel (face : FaceIx) (queue : Part) (d : Desc)
  /-- PAUSE (R288). -/
  | pause (face : FaceIx) (queue : Part) (d : Desc)
  /-- RESUME (R290). -/
  | resume (face : FaceIx) (queue : Part) (d : Desc)
  /-- REPIN (R287). -/
  | repin (face : FaceIx) (queue : Part) (d : Desc)
  /-- PFXDROP (R259). -/
  | pfxdrop (face : FaceIx) (queue : Part) (d : Desc)
  /-- TOKEN_REPORT (R267). -/
  | tokenReport (face : FaceIx) (r : TokenReport)
  /-- HOLD_COMPLETE (R288): partition and hold-table index. -/
  | holdComplete (part : Part) (index : Fin 65536)
  /-- RESUME_COMPLETE (R290): partition, hold-table index, and the sealed record read back from the cold tier. -/
  | resumeComplete (part : Part) (index : Fin 65536) (object : List Byte)
  /-- LOAD (R239): the partition whose command ring is served. -/
  | load (part : Part)
  /-- SHLOAD (R239). -/
  | shload (part : Part)
  /-- SHROWS (R241). -/
  | shrows (part : Part)
  /-- SEAL (R241). -/
  | seal (part : Part)
  /-- SEAL_REBUILD_DONE (R241): the slot whose rebuild ended. -/
  | sealRebuildDone (part : Part) (slot : Nat)
  /-- PUBLISH (R244). -/
  | publish (part : Part)
  /-- DROP (R239). -/
  | drop (part : Part)
  /-- SAVE (R237). -/
  | save (part : Part)
  /-- EVICT (R239). -/
  | evict (part : Part)
  /-- MIRROR (R250). -/
  | mirror (part : Part)
  /-- SETATTR (R239). -/
  | setattr (part : Part)
  /-- IMAGE_CHECK_DONE (R484): the bytes read from the cold tier for the partition's oldest image command. -/
  | imageCheckDone (part : Part) (image : List Byte)
  /-- AREA_FREED (R239). -/
  | areaFreed (part : Part)
  /-- TWRITE (R195). -/
  | twrite (part : Part)
  /-- KEEP (R227). -/
  | keep (part : Part)
  /-- DISCARD (R227). -/
  | discard (part : Part)
  /-- HPSET (R216). -/
  | hpset (part : Part)
  /-- SHARE (R183): the partition whose RCCQ ring is served. -/
  | share (part : Part)
  /-- RELEASE (R183). -/
  | release (part : Part)
  /-- HOLD (R183). -/
  | hold (part : Part)
  /-- RESTORE (R183). -/
  | restore (part : Part)
  /-- WIPE (R183). -/
  | wipe (part : Part)
  /-- PAGE_MOVE_DONE (R384): the descriptor whose move ended, and, for a RESTORE, the object read back. -/
  | pageMoveDone (part : Part) (desc : Nat) (object : List Byte)
  /-- GET_PINFO (R371): the session and the PART byte. -/
  | getPinfo (session : Fin 8) (part : Byte) (body : List Byte)
  /-- CLAIM (R374). -/
  | claim (session : Fin 8) (part : Byte) (body : List Byte)
  /-- PUT_PKEY (R383). -/
  | putPkey (session : Fin 8) (part : Byte) (body : List Byte)
  /-- KEYED_CLEAR_DONE (R374). -/
  | keyedClearDone (part : Part)
  /-- PUT_KEY (R380). -/
  | putKey (session : Fin 8) (part slot : Byte) (body : List Byte)
  /-- DEL_KEY (R380). -/
  | delKey (session : Fin 8) (part slot : Byte) (body : List Byte)
  /-- SET_POLICY (R380). -/
  | setPolicy (session : Fin 8) (part : Byte) (body : List Byte)
  /-- PRESET in the owner's session (R376). -/
  | presetSession (session : Fin 8) (part : Byte) (body : List Byte)
  /-- PUT_LINKKEY (R380). -/
  | putLinkkey (session : Fin 8) (part : Byte) (body : List Byte)
  /-- PARTITION_WIPE_DONE (R417). -/
  | partitionWipeDone (part : Part)
  /-- GET_VERSION (R379). -/
  | getVersion
  /-- GET_CAPABILITIES (R379). -/
  | getCapabilities
  /-- NEGOTIATE_ALGORITHMS (R379): the requester offers P-384, SHA-384 and AES-256-GCM. -/
  | negotiateAlgorithms (offersAll : Bool)
  /-- GET_DIGESTS (R379). -/
  | getDigests
  /-- GET_CERTIFICATE (R379): the certificate slot. -/
  | getCertificate (slot : Byte)
  /-- CHALLENGE (R379): the certificate slot and the transcript to be signed. -/
  | challenge (slot : Byte) (transcript : List Byte)
  /-- GET_MEASUREMENTS (R386): the measurement index, 0xFF for all. -/
  | getMeasurements (index : Byte) (transcript : List Byte)
  /-- KEY_EXCHANGE (R379). -/
  | keyExchange (peer : SpdmPeer)
  /-- FINISH (R379). -/
  | finish (session : Fin 8)
  /-- HEARTBEAT (R379). -/
  | heartbeat (session : Fin 8)
  /-- SESSION_EXPIRY (R379). -/
  | sessionExpiry (session : Fin 8)
  /-- KEY_UPDATE (R379). -/
  | keyUpdate (session : Fin 8)
  /-- END_SESSION (R379). -/
  | endSession (session : Fin 8)
  /-- SET_ENDPOINT_ID (R405). -/
  | setEndpointId (eid : Byte)
  /-- GET_ENDPOINT_ID (R405). -/
  | getEndpointId
  /-- GET_ENDPOINT_UUID (R405). -/
  | getEndpointUuid
  /-- GET_MCTP_VERSION_SUPPORT (R405). -/
  | getMctpVersionSupport (msgType : Byte)
  /-- GET_MESSAGE_TYPE_SUPPORT (R405). -/
  | getMessageTypeSupport
  /-- GET_VENDOR_DEFINED_MSG_SUPPORT (R405). -/
  | getVendorDefinedMsgSupport
  /-- GET_IDENT (R408). -/
  | getIdent (seq : BitVec 16)
  /-- GET_STATUS (R408). -/
  | getStatus (seq : BitVec 16)
  /-- REG_READ (R454). -/
  | regRead (seq : BitVec 16) (page : Byte) (offset : BitVec 16) (count : Byte) (channel : BitVec 16)
  /-- RWL_WRITE (R454). -/
  | rwlWrite (seq : BitVec 16) (page : Byte) (offset : BitVec 16) (value : Word)
  /-- FW_BEGIN (R404): the image length and its SHA-384. -/
  | fwBegin (seq : BitVec 16) (len : Nat) (digest : List Byte)
  /-- FW_DATA (R408). -/
  | fwData (seq : BitVec 16) (offset : Nat) (bytes : List Byte)
  /-- FW_END (R402). -/
  | fwEnd (seq : BitVec 16)
  /-- IMAGE_VERIFY_DONE (R402). -/
  | imageVerifyDone
  /-- FW_ACTIVATE (R403). -/
  | fwActivate (seq : BitVec 16) (epoch : BitVec 64)
  /-- PROVISION (R388). -/
  | provision (seq : BitVec 16)
  /-- COMMISSION (R388). -/
  | commission (seq : BitVec 16)
  /-- DEPROVISION (R388). -/
  | deprovision (seq : BitVec 16)
  /-- ENTER_SERVICE (R388). -/
  | enterService (seq : BitVec 16)
  /-- RETURN (R388). -/
  | returnCmd (seq : BitVec 16)
  /-- REPROVISION (R388). -/
  | reprovision (seq : BitVec 16)
  /-- RETIRE (R388). -/
  | retire (seq : BitVec 16)
  /-- COLD_GRANT (R408): host base address, size in GiB. -/
  | coldGrant (seq : BitVec 16) (base : BitVec 64) (gib : Nat)
  /-- SLICE_ADMIT (R409): cold offset, length, SHA-384 of the plan. -/
  | sliceAdmit (seq : BitVec 16) (cold len : BitVec 64) (digest : List Byte)
  /-- SLICE_ADMIT_DONE (R409): the bytes of the plan as read. -/
  | sliceAdmitDone (plan : List Byte)
  /-- SLICE_START (R412): N0 and T0. -/
  | sliceStart (seq : BitVec 16) (n0 t0 : BitVec 64)
  /-- SLICE_LEAVE (R375). -/
  | sliceLeave (seq : BitVec 16)
  /-- EPOCH_PEND (R408): cold offset, length, SHA-384, step S, and the bytes of the block as read. -/
  | epochPend (seq : BitVec 16) (cold len : BitVec 64) (digest : List Byte) (step : BitVec 64) (block : List Byte)
  /-- EPOCH_ABORT (R408). -/
  | epochAbort (seq : BitVec 16)
  /-- PROG_LOAD (R128): slot, cold offset, length, SHA-384. -/
  | progLoad (seq : BitVec 16) (slot : Nat) (cold len : BitVec 64) (digest : List Byte)
  /-- PROG_LOAD_DONE (R160): the bytes of the container as read. -/
  | progLoadDone (container : List Byte)
  /-- PROG_DROP (R408). -/
  | progDrop (seq : BitVec 16) (slot : Nat)
  /-- CONFIGURE (R373). -/
  | configure (seq : BitVec 16) (part : Nat) (win : Windows)
  /-- UNCONFIGURE (R408). -/
  | unconfigure (seq : BitVec 16) (part : Nat)
  /-- PRESET by the operator (R417). -/
  | preset (seq : BitVec 16) (part : Nat)
  /-- CORE_ASSIGN (R377). -/
  | coreAssign (seq : BitVec 16) (core part : Nat)
  /-- PCMD (R410). -/
  | pcmd (seq : BitVec 16) (part : Nat) (entry : ResCmd)
  /-- RESET of kind 0x0 (R413). -/
  | resetCold (seq : BitVec 16)
  /-- RESET of kind 0x1 (R413). -/
  | resetPort (seq : BitVec 16) (port : Nat)
  /-- RESET of kind 0x2 (R398). -/
  | resetRestart (seq : BitVec 16)
  /-- SELFTEST (R439): the core mask. -/
  | selftest (seq : BitVec 16) (mask : BitVec 64)
  /-- SELFTEST_DONE (R439): for each array 4 × core + array, the bad columns found. -/
  | selftestDone (bad : List (Nat × List (Fin 32)))
  /-- FUSE_BYPASS (R110). -/
  | fuseBypass (seq : BitVec 16) (core array column : Nat)
  /-- CHSEL_WRITE (R461). -/
  | chselWrite (req : Requester) (page : Fin 32) (value : Word)
  /-- PAIR_LO_READ (R463). -/
  | pairLoRead (req : Requester) (page : Fin 32) (offset : BitVec 12)
  /-- INT_STATUS_CLEAR (R462). -/
  | intStatusClear (req : Requester) (page : Fin 32) (value : Word)
  /-- ID_ASTAT_CLEAR (R469). -/
  | idAstatClear (req : Requester) (value : Word)
  /-- UU_TFLAG_CLEAR (R85). -/
  | uuTflagClear (req : Requester) (value : Word)
  /-- KICK (R400). -/
  | kick (req : Requester) (value : Word)
  /-- RB_ACK (R280): the face's own register on the host side. -/
  | rbAck (face : FaceIx) (value : Word)
  /-- RING_INDEX_WRITE (R465), with what firmware stored before it. -/
  | ringIndexWrite (req : Requester) (page : Fin 32) (offset : BitVec 12) (value : Word) (ents : RingEnts)
      (stores : List FwStore)
  /-- RING_CONFIG_WRITE (R465). -/
  | ringConfigWrite (req : Requester) (page : Fin 32) (offset : BitVec 12) (value : Word)
  /-- CORE_BYP_WRITE (R475). -/
  | coreBypWrite (req : Requester) (value : Word)
  /-- PW_ISL_REQ (R442). -/
  | pwIslReq (req : Requester) (value : Word)
  /-- ISLAND_STATE_REACHED (R441). -/
  | islandStateReached (island : Fin 20)
  /-- SG_NEXT_WRITE (R474), with the row tags firmware stored in the tag array before it. -/
  | sgNextWrite (req : Requester) (value : Word) (tags : List RowTag)
  /-- SEGCAP_WRITE (R38): the partition manager page. -/
  | segcapWrite (req : Requester) (part : Part) (value : Word)
  /-- LSCALE_WRITE (R202): LSCALE, or LSRUN when `run`. -/
  | lscaleWrite (req : Requester) (part : Part) (run : Bool) (value : Word)
  /-- REGISTER_WRITE (R464): any other register. The address is within the page and need not be aligned (R455). -/
  | registerWrite (req : Requester) (page : Fin 32) (offset : BitVec 12) (value : Word)
  /-- IMAGE_WRITE_DONE (R237). -/
  | imageWriteDone (part : Part)
  /-- CONTROL_CORE_FAULT (R398). -/
  | controlCoreFault (fault : CcFault)
  /-- FUSE_LOAD_DONE (R414): the straps as sampled. -/
  | fuseLoadDone (straps : Coord)
  /-- BOOT_ROM_MEASURED (R414): the SHA-384 of the boot ROM. -/
  | bootRomMeasured (digest : List Byte)
  /-- FIRMWARE_START_DONE (R414). -/
  | firmwareStartDone
  /-- REGISTER_READ (R458). -/
  | registerRead (req : Requester) (page : Fin 32) (offset : BitVec 12)
  deriving DecidableEq, Repr

end Sys2Proof
end

