-- ==== Sys2Proof/Decode.lean ====
section
/-!
DEFINITION. The command that a word spells by the table's bits. The table gives no row any bits: the PAE takes its commands
from pins, faces, ports, the management channel and the register space, so no word spells one (log entry 63).
-/

namespace Sys2Proof

/-- The command of an nbits-wide word: none, for the table numbers no bits. -/
def decodeTableWord (_nbits _w : Nat) : Option Instr := none

end Sys2Proof
end

