-- ==== Sys2Proof/Machine/Bits.lean ====
section
/-!
DEFINITION. Bit fields, sign extension and byte order: little-endian everywhere (R8), bit 0 least significant (R7).
-/

namespace Sys2Proof.Machine

/-- The n bits of v from bit `lo` up. -/
def fld {w : Nat} (v : BitVec w) (lo n : Nat) : Nat := (v.toNat >>> lo) % 2 ^ n

/-- Bit `i` of v. -/
def bitAt {w : Nat} (v : BitVec w) (i : Nat) : Bool := (v.toNat >>> i) % 2 == 1

/-- The n bits of a number from bit `lo` up. -/
def nfld (v lo n : Nat) : Nat := (v >>> lo) % 2 ^ n

/-- An n-bit field read as two's complement. -/
def sgn (n v : Nat) : Int := if v < 2 ^ (n - 1) then (v : Int) else (v : Int) - 2 ^ n

/-- Two's complement of an integer in n bits, as a number. -/
def twos (n : Nat) (v : Int) : Nat := (v % (2 ^ n : Nat)).toNat

/-- A value placed at bit `lo` of a word. -/
def put (lo v : Nat) : Nat := v <<< lo

/-- A flag as a number. -/
def b2n (b : Bool) : Nat := if b then 1 else 0

/-- Bytes, byte 0 first, as a number. -/
def leNat : List Byte → Nat
  | [] => 0
  | b :: r => b.toNat + 256 * leNat r

/-- The n low bytes of a number, byte 0 first. -/
def leBytes : Nat → Nat → List Byte
  | 0, _ => []
  | n + 1, v => BitVec.ofNat 8 v :: leBytes n (v / 256)

/-- The n low bytes of a number, most significant first. -/
def beBytes (n v : Nat) : List Byte := (leBytes n v).reverse

/-- Bytes, most significant first, as a number. -/
def beNat (l : List Byte) : Nat := leNat l.reverse

/-- The n bytes at offset `o` of a list; zero beyond its end. -/
def slice (l : List Byte) (o n : Nat) : List Byte :=
  let t := (l.drop o).take n
  t ++ List.replicate (n - t.length) 0

/-- The number in n little-endian bytes at offset `o`. -/
def leAt (l : List Byte) (o n : Nat) : Nat := leNat (slice l o n)

/-- Lists cut into pieces of n; the last may be shorter. -/
def chunk {α : Type} (n : Nat) : Nat → List α → List (List α)
  | 0, _ => []
  | k + 1, l => l.take n :: chunk n k (l.drop n)

/-- Smallest multiple of n at or above v. -/
def roundUp (n v : Nat) : Nat := (v + n - 1) / n * n

/-- Quotient rounded up. -/
def cdiv (v n : Nat) : Nat := (v + n - 1) / n

/-- An update of one element of a vector; no effect beyond its end. -/
def vset {α : Type} {n : Nat} (v : Vector α n) (i : Nat) (x : α) : Vector α n := v.setIfInBounds i x

/-- An element of a vector changed by a function. -/
def vmod {α : Type} {n : Nat} (v : Vector α n) (i : Fin n) (f : α → α) : Vector α n := v.set i (f v[i])

/-- Saturating increment at a limit. -/
def satAdd (limit v n : Nat) : Nat := min limit (v + n)

/-- The positions of the elements of a list that satisfy p. -/
def positions {α : Type} (p : α → Bool) (l : List α) : List Nat :=
  (l.zipIdx.filter (fun x => p x.1)).map Prod.snd

end Sys2Proof.Machine
end

