-- ==== Sys2Proof/Config.lean ====
section
/-!
DEFINITION. The values that the spec leaves free, and the constants it fixes for stepping B0.
A free value is an opaque constant: nothing can be proved of it but that it is the same at the same index.
-/

namespace Sys2Proof.Config

/-- The free values (log entry 1): `free w i` is the i-th value of w bits that the spec leaves to a random source, to a
standard the spec does not restate, or to the implementation. The machine applies it to its counter `freeIx`. -/
opaque free (w : Nat) : Nat → BitVec w

/-- The bytes of the fuse map that measurement 4 of Table SEC-8 covers: the spec gives no layout. Arguments: IDSER and the
blown bypass fuses (array 4 × core + array, column). -/
opaque fuseMap : BitVec 32 → List (Nat × Nat) → List (BitVec 8)

/-- The bytes of the provisioning record that measurement 3 of Table SEC-8 covers: the spec gives no layout. Arguments:
COORD_SRC, TH_THROTTLE, TH_TRIP and the record's count. -/
opaque provRecord : Bool → BitVec 11 → BitVec 11 → Nat → List (BitVec 8)

/-- KiB of the input journal that a number of inputs fills, read modulo 8,193: the spec does not give the sizes of the
recorded inputs (log entry 1). -/
opaque journalKib : Nat → BitVec 14

/-- The clocks of an ACTIVE island stand gated at an extended tick (R442): which words can issue within the next array-clock
cycles is a matter of time that the model does not count (log entry 119). -/
opaque islandGated : Nat → BitVec 64 → Bool

/-- STEPPING of stepping B0 (R1, Table REGS-5). -/
def stepping : Nat := 0xB0

/-- Bytes of the whole HBM: four stacks of 64 GiB (Table SCOPE-3). -/
def hbmBytes : Nat := 2 ^ 38

/-- Bytes of one HBM unit, 256 MiB (Table SEC-2). -/
def hbmUnit : Nat := 2 ^ 28

/-- Bytes of one cold-tier unit, 1 GiB (Table SEC-2). -/
def coldUnit : Nat := 2 ^ 30

/-- Bytes of one core store, 4 MiB (R87). -/
def coreStoreBytes : Nat := 2 ^ 22

/-- Lines of the adapter part of a cluster cache: 32 MiB less the 384 KiB segment area, in 64-byte lines (R43, R91). -/
def cacheLines : Nat := (2 ^ 25 - 393216) / 64

/-- Saturation value of the partitions' 64-bit counters (R40). -/
def counterMax : Nat := 0xFFFFFFFFFFFFFFFE

/-- The slot index that names no adapter (R31). -/
def baseOnly : Nat := 0xFFFF

/-- The strand limit of a step (R159). -/
def maxStrands : Nat := 4194304

end Sys2Proof.Config
end

