-- ==== Sys2Proof/Machine/State.lean ====
section
/-!
DEFINITION. The state of the PAE, unit by unit, as plain data, and the state right after a cold reset has begun
(BOOTPH 0x0 of Table CTRL-9). Tables and memories are sparse lists in one canonical form.
Reset values the spec does not give are named in log entry 2.
-/

namespace Sys2Proof.Machine

/-- A sparse table: entries by strictly rising key, none equal to the table's default entry. -/
abbrev Tab (α : Type) := List (Nat × α)

/-- An addressed memory of bytes; an unlisted address reads as zero (log entry 3). -/
abbrev Memory := List Host.Cell

/-! ### Errors (Tables REL-1, REL-6) -/

/-- Error classes (Table REL-1). -/
inductive ErrClass where
  /-- CORRECTED. -/
  | corrected
  /-- CONTAINED. -/
  | contained
  /-- FATAL. -/
  | fatal
  /-- EVENT. -/
  | event
  deriving DecidableEq, Repr

/-- An error entry (Table REL-6). -/
structure ErrEntry where
  /-- STEP. -/
  step : BitVec 64 := 0
  /-- CODE of Table REL-7. -/
  code : Nat := 0
  /-- CLASS. -/
  cls : ErrClass := .event
  /-- PART; 0 in a chip-log entry. -/
  part : Nat := 0
  /-- CHIP. -/
  chip : Bool := false
  /-- SRC of Table REL-4. -/
  src : Nat := 0
  /-- AUX. -/
  aux : Nat := 0
  /-- INFO0. -/
  info0 : Nat := 0
  /-- INFO1. -/
  info1 : Nat := 0
  deriving DecidableEq, Repr

/-! ### The security unit's non-volatile store and the fuses (R387, R378) -/

/-- Life-cycle states (Table SEC-9). -/
inductive LifeCycle where
  /-- 0b000. -/
  | blank
  /-- 0b001. -/
  | provisioned
  /-- 0b010. -/
  | operational
  /-- 0b011. -/
  | service
  /-- 0b100. -/
  | retired
  deriving DecidableEq, Repr

/-- The RWL fields, as registers and as the provisioning record keeps them (R387, R446, R370). -/
structure Rwl where
  /-- COORD_SRC. -/
  coordSrc : Bool := false
  /-- TH_THROTTLE, 0.1 °C. -/
  thThrottle : BitVec 11 := 0x41A
  /-- TH_TRIP, 0.1 °C. -/
  thTrip : BitVec 11 := 0x4B0
  deriving DecidableEq, Repr

/-- Fuses and the non-volatile store. No reset changes it but what a rule names. -/
structure Nv where
  /-- IDSER (Table SEC-4). -/
  idser : Word := 0
  /-- IDKEY, the private key; none once RETIRE has destroyed it. -/
  idkey : Option (BitVec 384) := some 1
  /-- IDPUB, the uncompressed public point. -/
  idpub : List Byte := []
  /-- SHA-384 of IDPUB, fused (SEC_IDDIG_DATA). -/
  iddig : List Byte := []
  /-- ID_PEN. -/
  pen : Word := 0
  /-- Endpoint UUID (R405). -/
  uuid : BitVec 128 := 0
  /-- The certificate chain of slot 0 (Table SEC-5). -/
  chain : List Byte := []
  /-- SHA-384 of the Fuholt firmware signing key, fused (R402). -/
  fwKeyHash : List Byte := []
  /-- The signing key's public point, whose hash is fused. -/
  fwKey : List Byte := []
  /-- Blown bypass fuses: array 4 × core + array, and physical column. -/
  bypass : List (Fin 256 × Fin 32) := []
  /-- Life-cycle state. -/
  lc : LifeCycle := .blank
  /-- The provisioning record, when there is one. -/
  prov : Option Rwl := none
  /-- Count of provisioning records written, the monotonic counter of R387. -/
  provCount : Nat := 0
  /-- Autumn wipes since manufacture, saturating at 0xFFFE. -/
  wipes : Nat := 0
  /-- SVN_MIN (R403). -/
  svnMin : Nat := 0
  /-- First value of the image counter beyond the reserved block (R237). -/
  imgReserved : Nat := 0
  /-- The last fatal entry (R432). -/
  lastFatal : Option ErrEntry := none
  deriving DecidableEq, Repr

/-! ### Control core (chapter CTRL) -/

/-- A firmware image that verified: the header fields of Table CTRL-2 the chip uses. -/
structure FwImage where
  /-- FWVER. -/
  fwver : Word := 0
  /-- SVN. -/
  svn : Nat := 0
  /-- ABI. -/
  abi : Nat := 0
  /-- SHA-384 of the image (Table SEC-8, index 2). -/
  digest : List Byte := []
  deriving DecidableEq, Repr

/-- State of the image slot (SLOTST of Table CTRL-13). -/
inductive SlotSt where
  /-- 0b00. -/
  | empty
  /-- 0b01. -/
  | staging
  /-- 0b10. -/
  | running
  /-- 0b11. -/
  | pending
  deriving DecidableEq, Repr

/-- A management response (Tables CTRL-3, CTRL-4): status code and body. -/
structure MgmtRsp where
  /-- CMD. -/
  cmd : Nat := 0
  /-- SEQ. -/
  seq : BitVec 16 := 0
  /-- STATUS. -/
  status : Nat := 0
  /-- Body bytes. -/
  body : List Byte := []
  deriving DecidableEq, Repr

/-- A command answered PENDING, with what its completion needs (R407). -/
inductive PendWork where
  /-- FW_END. -/
  | fwEnd
  /-- A life-cycle transition to the state. -/
  | transition (dest : LifeCycle)
  /-- SLICE_ADMIT: length and digest of the plan. -/
  | sliceAdmit (len : Nat) (digest : List Byte)
  /-- PROG_LOAD: slot, length, digest. -/
  | progLoad (slot : PSlot) (len : Nat) (digest : List Byte)
  /-- PRESET of a partition by the operator. -/
  | preset (part : Part)
  /-- SELFTEST with its core mask. -/
  | selftest (mask : BitVec 64)
  deriving DecidableEq, Repr

/-- The control core (Tables CTRL-1, CTRL-13). -/
structure Cc where
  /-- BOOTPH of Table CTRL-9; 9 BOOTFAIL, 10 HALTED. -/
  bootph : Nat := 0
  /-- BOOTERR. -/
  booterr : Nat := 0
  /-- The phase-0x2 measurement of the boot ROM. -/
  romDigest : List Byte := []
  /-- The running image; none in the boot ROM. -/
  image : Option FwImage := none
  /-- Image slot state. -/
  slotSt : SlotSt := .empty
  /-- Length the staging was begun with. -/
  slotLen : Nat := 0
  /-- Digest the staging was begun with. -/
  slotDigest : List Byte := []
  /-- Bytes staged. -/
  slotBytes : Memory := []
  /-- The accepted image in the slot. -/
  slotImage : Option FwImage := none
  /-- The epoch named by FW_ACTIVATE for a pending activation. -/
  activateAt : Option (BitVec 64) := none
  /-- WDOG_T. -/
  wdogT : BitVec 31 := 0x124F80
  /-- The last write of KICK, as an extended tick. -/
  wdogKick : Nat := 0
  /-- CC_RESTART.COUNT. -/
  restarts : Nat := 0
  /-- CC_RESTART.CAUSE. -/
  restartCause : Nat := 0
  /-- Steps of the latest restarts, newest first (R400). -/
  restartSteps : List (BitVec 64) := []
  /-- A restart is replaying the journal. -/
  restarting : Bool := false
  /-- Step of the newer complete checkpoint; none before the first. -/
  ckptStep : Option (BitVec 64) := none
  /-- Step of the older complete checkpoint. -/
  ckptOld : Option (BitVec 64) := none
  /-- Area of the newer checkpoint: false A, true B. -/
  ckptArea : Bool := false
  /-- Step of the checkpoint being copied. -/
  ckptCopy : Option (BitVec 64) := none
  /-- Inputs recorded when the older complete checkpoint, the newer one and the copy in progress began (R396). -/
  ckptMarks : Nat × Nat × Nat := (0, 0, 0)
  /-- MCTP endpoint ID. -/
  eid : Byte := 0
  /-- SEQ of the last request carried out. -/
  lastSeq : BitVec 16 := 0
  /-- The response to the last request. -/
  lastRsp : MgmtRsp := {}
  /-- The incomplete command answered PENDING. -/
  pendCmd : Option (Nat × BitVec 16 × PendWork) := none
  /-- CMD, SEQ and STATUS of the last PENDING command (GET_STATUS). -/
  pendLast : Nat × BitVec 16 × Nat := (0, 0, 0)
  /-- RWL_WRITEs that came while a transition's wipe ran: SEQ, page, offset, value (Table REGS-16). -/
  rwlHeld : List (BitVec 16 × Byte × BitVec 16 × Word) := []
  deriving DecidableEq, Repr

/-! ### Security unit (chapter SEC) -/

/-- An SPDM session (R379). -/
structure Session where
  /-- Digest of the requester's leaf key. -/
  digest : List Byte := []
  /-- Mutual authentication took place. -/
  mutualOk : Bool := false
  /-- FINISH has been answered. -/
  established : Bool := false
  /-- Session key material, replaced by KEY_UPDATE. -/
  key : BitVec 256 := 0
  /-- Extended tick of the last message that keeps it alive. -/
  alive : Nat := 0
  deriving DecidableEq, Repr

/-- The security unit's volatile state (Tables SEC-4, SEC-14). -/
structure Sec where
  /-- WIPING. -/
  wiping : Bool := true
  /-- LASTWIPE: false cold reset, true transition. -/
  lastWipe : Bool := false
  /-- ZKEY. -/
  zkey : Option (BitVec 512) := none
  /-- LKEY. -/
  lkey : Option (BitVec 256) := none
  /-- Image counter: the next value to issue (R237). -/
  imgCtr : Nat := 0
  /-- Algorithms have been negotiated (R379). -/
  negotiated : Bool := false
  /-- Open sessions, by session number. -/
  sessions : Vector (Option Session) 8 := Vector.replicate 8 none
  /-- The life-cycle state to commit when the running wipe ends (R388). -/
  pendLc : Option LifeCycle := none
  deriving DecidableEq, Repr

/-! ### Register space (chapter REGS) -/

/-- The common header fields of a page that are state (Table REGS-2). -/
structure PageHdr where
  /-- IEN. -/
  ien : Bool := false
  /-- INT_STATUS. -/
  intStatus : Byte := 0
  /-- INT_ENABLE. -/
  intEnable : Byte := 0
  deriving DecidableEq, Repr

/-- What each requester holds as its own copy (R461, R463, R469). -/
structure ReqCopy where
  /-- CHSEL by page; 0 where unlisted. -/
  chsel : Tab Nat := []
  /-- CORE_COLF_IDX. -/
  colfIdx : BitVec 7 := 0
  /-- UU_TIDX. -/
  uuTidx : BitVec 18 := 0
  /-- SEC_IDDIG_IDX. -/
  iddigIdx : BitVec 4 := 0
  /-- ERR_LOG_IDX. -/
  logIdx : BitVec 13 := 0
  /-- PL_RT_IDX. -/
  rtIdx : BitVec 15 := 0
  /-- Latched _HI halves, by page × 4096 + offset of the _HI register (R463). -/
  hiLatch : Tab (Option Word) := []
  /-- ID_ASTAT: page, offset, cause; none when VALID is 0. -/
  astat : Option (Nat × Nat × Nat) := none
  deriving DecidableEq, Repr

/-- The register space's own state. -/
structure Regs where
  /-- Page headers. -/
  pages : Vector PageHdr 32 := Vector.replicate 32 {}
  /-- Requester copies. -/
  reqs : Vector ReqCopy 17 := Vector.replicate 17 {}
  /-- ID_AREF. -/
  aref : Nat := 0
  /-- Inputs of the control core recorded in the input journal since the Autumn wipe (R396). -/
  inputs : Nat := 0
  deriving DecidableEq, Repr

/-! ### March counter (chapter STEP) -/

/-- The March counter (Table STEP-8 and R302 to R316). -/
structure March where
  /-- Step number. -/
  step : BitVec 64 := 0
  /-- Extended tick: WRAP in 63:48, tick count in 47:0 (R302). -/
  tick : BitVec 64 := 0
  /-- P. -/
  period : Nat := 0
  /-- G in force. -/
  guard : Nat := 0x1000
  /-- G written, for the next epoch. -/
  guardNext : Nat := 0x1000
  /-- FLOOD_MEAS. -/
  floodMeas : Nat := 0
  /-- ROOT. -/
  root : Bool := false
  /-- SYNCM. -/
  syncm : Bool := false
  /-- ADMIT. -/
  admitter : Bool := false
  /-- SYNC_EN. -/
  syncEn : Bool := false
  /-- Pending correction R, in ticks. -/
  corr : Int := 0
  /-- LOCKED. -/
  locked : Bool := false
  /-- HOLDOVER, with the tick at which it began. -/
  holdover : Option Nat := none
  /-- PARENT port; none for the root. -/
  parent : Option PortIx := none
  /-- Last offset from the parent, 2^-6 ns. -/
  offset : Int := 0
  /-- Consecutive exchanges within ±1 ns (R306). -/
  okRun : Nat := 0
  /-- Rate trim in ppm, −200 to 200. -/
  trim : Int := 0
  /-- OVERRUNS. -/
  overruns : Nat := 0
  /-- MISSES. -/
  misses : Nat := 0
  /-- SYNC_IGN. -/
  syncIgn : Nat := 0
  /-- FENCED. -/
  fenced : Bool := false
  /-- REFUSED, one bit per port. -/
  refused : Vector Bool 6 := Vector.replicate 6 false
  /-- E of the latest boundary; none before T0 (R316). -/
  eLast : Option Nat := none
  /-- Scheduled boundary S of the running step. -/
  sNext : Nat := 0
  /-- Tick of the last accepted edge. -/
  lastEdge : Option Nat := none
  /-- The error e held for the closing boundary (R314). -/
  heldErr : Option Int := none
  /-- Sources of the LATE messages collected for the running step. -/
  lates : List Coord := []
  /-- DONE messages collected: source and arrival tick. -/
  dones : List (Coord × Nat) := []
  /-- This chip flooded LATE. -/
  ownLate : Bool := false
  /-- The MARCH word has issued, at this tick. -/
  arrived : Option Nat := none
  /-- A NOTICE makes the chip fence at the boundary that closes this step: its STEP and its sender (R321). -/
  notice : Option (BitVec 64 × Coord) := none
  /-- Agreement words received for the step about to open, by port: the 64-byte AGREE payload. -/
  agrees : Vector (Option (BitVec 512)) 6 := Vector.replicate 6 none
  /-- Agreement words sent for the step about to open, by port (R319). -/
  agreeSent : Vector (Option (BitVec 512)) 6 := Vector.replicate 6 none
  /-- A BARRIER_MISS is to be recorded in the next status word (R311). -/
  missNext : Bool := false
  /-- The plan's starting values have been taken (R303). -/
  started : Bool := false
  /-- N0 and T0 of an accepted SLICE_START. -/
  start : Option (BitVec 64 × Nat) := none
  deriving DecidableEq, Repr

/-! ### Plane and ports (chapter PLANE) -/

/-- A link of the box, named by its chip lower in the port's axis and the axis 0 X, 1 Y, 2 Z. -/
abbrev Link := Coord × Fin 3

/-- A link event (R362). -/
structure LinkEv where
  /-- TYPE: 0 DOWN, 1 UP, 2 DRAIN. -/
  typ : Nat := 0
  /-- PORT of the reporter. -/
  port : PortIx := 0
  /-- Reason code. -/
  reason : Nat := 0
  /-- Reporting chip. -/
  src : Coord := 0
  /-- ORIGIN, extended tick. -/
  origin : Nat := 0
  deriving DecidableEq, Repr

/-- One position of the slice plan (Table CTRL-6). -/
structure PlanEnt where
  /-- IDDIG. -/
  iddig : List Byte := []
  /-- WIDTHS, two bits per port. -/
  widths : BitVec 16 := 0
  deriving DecidableEq, Repr

/-- The slice plan in force (Table CTRL-6). -/
structure Plan where
  /-- SLICE. -/
  slice : Word := 0
  /-- ORG. -/
  org : Coord := 0
  /-- DX, DY, DZ. -/
  dim : Nat × Nat × Nat := (1, 1, 1)
  /-- A sync master is named. -/
  syncNamed : Bool := false
  /-- EPOCH of the first step. -/
  epoch : BitVec 64 := 0
  /-- START_STEP. -/
  startStep : BitVec 64 := 0
  /-- START_TICK. -/
  startTick : BitVec 64 := 0
  /-- ADMIT. -/
  admitter : Coord := 0
  /-- SYNCM. -/
  syncm : Coord := 0
  /-- G. -/
  guard : Nat := 0
  /-- SLOWNER. -/
  slowner : List Byte := []
  /-- Positions in the index order of R358. -/
  ents : List PlanEnt := []
  /-- SHA-384 of the plan. -/
  digest : List Byte := []
  deriving DecidableEq, Repr

/-- Slice states (SSTATE of Table PLANE-17). -/
inductive SliceSt where
  /-- NONE. -/
  | none
  /-- FORMING. -/
  | forming
  /-- ACTIVE. -/
  | active
  /-- DEGRADED. -/
  | degraded
  /-- SPLIT. -/
  | split
  /-- DRAINING. -/
  | draining
  /-- DRAINED. -/
  | drained
  deriving DecidableEq, Repr

/-- The plane (Table PLANE-17 and R350 to R367). -/
structure Plane where
  /-- RWL fields in force; the two thermal ones belong to the power page. -/
  rwl : Rwl := {}
  /-- Sampled straps. -/
  strap : Coord := 0
  /-- Coordinate in force. -/
  coord : Coord := 0
  /-- Coordinate valid. -/
  coordOk : Bool := false
  /-- SSTATE. -/
  st : SliceSt := .none
  /-- The slice plan in force. -/
  plan : Option Plan := none
  /-- DRAIN_REQ. -/
  drainReq : Bool := false
  /-- A SLICE_LEAVE waits for the next boundary (Table CTRL-5). -/
  leaving : Bool := false
  /-- Cut set. -/
  cut : List Link := []
  /-- Link events received and not yet applied. -/
  events : List LinkEv := []
  /-- Normal-class routes by destination index; UNREACHABLE where unlisted. -/
  rtNormal : Tab Byte := []
  /-- Detour-class routes. -/
  rtDetour : Tab Byte := []
  /-- ROUTE_DROP. -/
  routeDrop : Nat := 0
  /-- EPOCH_DROP. -/
  epochDrop : Nat := 0
  /-- SRC_DROP. -/
  srcDrop : Nat := 0
  /-- PART_DROP. -/
  partDrop : Nat := 0
  /-- DUP. -/
  dup : Nat := 0
  /-- STRAY. -/
  stray : Nat := 0
  /-- Messages delivered: STEP, SRC, KIND, MSG (Table PLANE-9, order 4). -/
  seen : List (BitVec 64 × Coord × Nat × Nat) := []
  /-- Floods sent on before their own command delivered them, named in the same way. -/
  passed : List (BitVec 64 × Coord × Nat × Nat) := []
  /-- MSG number of this chip's next LINKEV. -/
  linkevNo : Nat := 0
  /-- Host base and size in GiB of the cold grant (R408). -/
  grant : Option (BitVec 64 × Nat) := none
  deriving DecidableEq, Repr

/-- Link states (Table PLANE-12). -/
inductive LinkSt where
  /-- DISABLED. -/
  | disabled
  /-- BORDER. -/
  | border
  /-- TRAINING. -/
  | training
  /-- HELLO. -/
  | hello
  /-- HELD. -/
  | held
  /-- UP. -/
  | up
  /-- DOWN. -/
  | down
  /-- FENCED. -/
  | fenced
  deriving DecidableEq, Repr

/-- Keys of one epoch of a link: transmit and receive key and salt, and the last CTR accepted under the receive key. -/
structure LinkKey where
  /-- Configuration epoch. -/
  epoch : Nat := 0
  /-- Configuration epoch modulo 4 (KEP). -/
  kep : Nat := 0
  /-- Transmit key. -/
  txKey : BitVec 256 := 0
  /-- Transmit salt. -/
  txSalt : BitVec 48 := 0
  /-- Receive key. -/
  rxKey : BitVec 256 := 0
  /-- Receive salt. -/
  rxSalt : BitVec 48 := 0
  /-- Last CTR accepted; none when the key is fresh (R343). -/
  lastCtr : Option Nat := none
  deriving DecidableEq, Repr

/-- A DATA flit as the sender keeps it for replay: the header fields fixed at first sending and the payload. -/
structure TxFlit where
  /-- VC. -/
  vc : Fin 4 := 0
  /-- DET. -/
  det : Bool := false
  /-- SOM. -/
  som : Bool := false
  /-- EOM. -/
  eom : Bool := false
  /-- SEQ. -/
  seq : Nat := 0
  /-- PLEN. -/
  plen : Nat := 0
  /-- The 224 payload bytes. -/
  payload : List Byte := []
  /-- Times sent (R337). -/
  sent : Nat := 0
  /-- It holds a whole message of KIND MARCH (R336). -/
  isMarch : Bool := false
  /-- Where its message came from: a port, or 6 for this chip (R339). -/
  src : Fin 7 := 6
  deriving DecidableEq, Repr

/-- One link port (Table PLANE-16 and R326 to R344). -/
structure PortSt where
  /-- WIDTH written: 0 8 lanes, 1 4, 2 2. -/
  widthCfg : Nat := 0
  /-- WIDTH in force. -/
  width : Nat := 0
  /-- EN. -/
  en : Bool := false
  /-- STATE. -/
  st : LinkSt := .disabled
  /-- REASON. -/
  reason : Nat := 0
  /-- KEYAGE. -/
  keyage : Bool := false
  /-- Neighbour's coordinate, port and attested flag. -/
  neigh : Coord × Nat × Bool := (0, 0, false)
  /-- DELAY, 2^-6 ns. -/
  delay : Nat := 0
  /-- Codewords corrected. -/
  fecCorr : Nat := 0
  /-- Codewords uncorrectable. -/
  fecUnc : Nat := 0
  /-- Flits failing R332. -/
  crcFail : Nat := 0
  /-- NAKS. -/
  naks : Nat := 0
  /-- RESENDS. -/
  resends : Nat := 0
  /-- TAGFAIL. -/
  tagFail : Nat := 0
  /-- DOWNS. -/
  downs : Nat := 0
  /-- Extended ticks of the latest times declared DOWN (R366). -/
  downTimes : List Nat := []
  /-- FLAP holds the link until a new epoch. -/
  flap : Bool := false
  /-- Transmit counter. -/
  ctr : Nat := 0
  /-- Keys, the one in use first, a pending epoch's after it. -/
  keys : List LinkKey := []
  /-- Next DATA sequence number to send. -/
  txSeq : Nat := 0
  /-- Unacknowledged DATA flits, oldest first (R334). -/
  replay : List TxFlit := []
  /-- Flits of the replay buffer still to be resent (R335). -/
  resend : List Nat := []
  /-- Repeats still to send of a MARCH flit: its SEQ and how many (R336). -/
  rept : Option (Nat × Nat) := none
  /-- DATA flits waiting to be sent, by output buffer VC × 2 + DET. -/
  txq : Vector (List TxFlit) 8 := Vector.replicate 8 []
  /-- The source whose message holds an output buffer until its EOM (R339). -/
  hold : Vector (Option (Fin 7)) 8 := Vector.replicate 8 none
  /-- The source last served on an output buffer. -/
  turn : Vector (Fin 7) 8 := Vector.replicate 8 6
  /-- Next sequence number expected. -/
  rxSeq : Nat := 0
  /-- A DATA flit has been accepted since the link came up. -/
  rxAny : Bool := false
  /-- A gap awaits its flit: the NAK has been sent (true) or not yet (false). -/
  gap : Option Bool := none
  /-- A NAK is to go out in the next flit. -/
  nakDue : Bool := false
  /-- Credits held, by buffer. -/
  credit : Vector Nat 8 := #v[96, 32, 384, 128, 48, 16, 32, 16]
  /-- Last CCNT seen, by buffer. -/
  ccSeen : Vector Nat 8 := Vector.replicate 8 0
  /-- Flits freed from the receive buffer since the link came up, by buffer. -/
  freed : Vector Nat 8 := Vector.replicate 8 0
  /-- Receive buffers: payload bytes of the flits held, with SOM, EOM and PLEN. -/
  rxq : Vector (List TxFlit) 8 := Vector.replicate 8 []
  /-- Buffer whose credit count follows in the next flit (CSEL). -/
  csel : Fin 8 := 0
  /-- The port's last nonce sent and last nonce received (R353). -/
  nonce : BitVec 128 := 0
  /-- Last nonce received. -/
  peerNonce : BitVec 128 := 0
  /-- The nonce sent before the last one. -/
  prevNonce : BitVec 128 := 0
  /-- The two nonces of the bring-up, this end's first: the salt of the link's keys (R340). -/
  keyNonces : BitVec 128 × BitVec 128 := (0, 0)
  /-- A hello that echoes this port's nonce and passes order 3 of Table PLANE-11 has come in this bring-up. -/
  helloSeen : Bool := false
  /-- An UP port owes the hello of a new epoch (R355). -/
  helloDue : Bool := false
  /-- The epoch of the bring-up at which the width in force was taken (R329). -/
  widthEpoch : Option Nat := none
  /-- The neighbour's expected digest check has passed in this bring-up. -/
  attested : Bool := false
  /-- LINKEV UP flooded by this end and by the other end (R366). -/
  upSent : Bool := false
  /-- The other end has flooded UP. -/
  upSeen : Bool := false
  /-- MSG of the next TSYNC on the link (Table PLANE-8). -/
  tsyncNo : Nat := 0
  /-- XSEQ of the next sync exchange started on the link, and T1 of the one in flight. -/
  syncSeq : Nat := 0
  /-- T1 of the exchange in flight. -/
  syncT1 : Option Nat := none
  deriving DecidableEq, Repr

/-! ### Epoch and programs (chapters ARITH, RCC, ISA) -/

/-- A target descriptor (Table ARITH-1). -/
structure Target where
  /-- D_IN. -/
  din : Nat := 0
  /-- D_OUT. -/
  dout : Nat := 0
  /-- IN_EXP. -/
  inExp : Int := 0
  /-- TYPE: 0 PLAIN, 1 KEY, 2 VALUE, 3 HEAD. -/
  typ : Nat := 0
  /-- EN. -/
  en : Bool := false
  /-- RBLK. -/
  rblk : Nat := 0
  /-- FACES: bit 0 the P-face, bit 1 the D-face. -/
  faces : Nat := 0
  /-- VBASE. -/
  vbase : Nat := 0
  deriving DecidableEq, Repr

/-- An attention descriptor (Table RCC-1). -/
structure AttDesc where
  /-- KTGT. -/
  ktgt : Nat := 0
  /-- VTGT. -/
  vtgt : Nat := 0
  /-- KEN. -/
  ken : Bool := false
  /-- VEN. -/
  ven : Bool := false
  /-- HDIM code: 0 64, 1 128, 2 256. -/
  hdim : Nat := 0
  /-- KVH. -/
  kvh : Nat := 0
  /-- QPK. -/
  qpk : Nat := 0
  /-- QEXP. -/
  qexp : Int := 0
  /-- EN. -/
  en : Bool := false
  deriving DecidableEq, Repr

/-- A configuration epoch (R408): number, descriptors and guard. -/
structure Epoch where
  /-- EPOCH. -/
  num : BitVec 64 := 0
  /-- The 16 target descriptors. -/
  targets : Vector Target 16 := Vector.replicate 16 {}
  /-- The 8 attention descriptors. -/
  atts : Vector AttDesc 8 := Vector.replicate 8 {}
  /-- G. -/
  guard : Nat := 0
  deriving DecidableEq, Repr

/-- A plan entry (Table ISA-4). -/
structure PlanRow where
  /-- MAXROWS. -/
  maxRows : Nat := 0
  /-- RMAX. -/
  rmax : Nat := 0
  /-- CLFIRST. -/
  clFirst : Nat := 0
  /-- CLN. -/
  cln : Nat := 0
  /-- ABASE, granule. -/
  abase : Nat := 0
  /-- OBASE, granule. -/
  obase : Nat := 0
  /-- ASTR, granules. -/
  astr : Nat := 0
  /-- OSTR, granules. -/
  ostr : Nat := 0
  deriving DecidableEq, Repr

/-- An issuer table entry (Table ISA-3). -/
structure Issuer where
  /-- FIRST. -/
  first : Nat := 0
  /-- COUNT. -/
  count : Nat := 0
  /-- ISSUER. -/
  queue : Nat := 0
  deriving DecidableEq, Repr

/-- A loaded step program (Table ISA-2). -/
structure Program where
  /-- EPOCH. -/
  epoch : BitVec 64 := 0
  /-- STEP_CYCLES. -/
  stepCycles : Nat := 0
  /-- TOKENS. -/
  tokens : Nat := 0
  /-- TLPAIRS. -/
  tlpairs : Nat := 0
  /-- PRESENT, two bits per array. -/
  present : BitVec 512 := 0
  /-- Issuer table. -/
  issuers : List Issuer := []
  /-- Plan table. -/
  plan : List PlanRow := []
  /-- Convolution descriptors (Table ISA-9). -/
  descs : List (BitVec 256) := []
  /-- Instruction words. -/
  words : List IWord := []
  /-- First 64 bits of the container's digest. -/
  digest64 : BitVec 64 := 0
  deriving DecidableEq, Repr

/-! ### Cores and clusters (chapter CORE) -/

/-- A tile as an array holds it: codes by depth-major position, format, scale byte, shape (R86). -/
structure Tile where
  /-- Codes, element (depth j, lane ℓ) at j × lanes + ℓ. -/
  codes : List Byte := []
  /-- Stationary format: false F8v, true F8g. -/
  f8g : Bool := false
  /-- Scale exponent, two's complement. -/
  scale : Byte := 0
  /-- Loaded from an entry whose fill failed R93. -/
  poisoned : Bool := false
  /-- Loaded from a line that holds an uncorrectable read (Table REL-3). -/
  bad : Bool := false
  /-- Loaded from an entry whose TFILL was skipped (R136). -/
  skipped : Bool := false
  /-- Loaded from an entry whose TFILL named a tile outside its region (R147). -/
  region : Bool := false
  /-- An array word has loaded it from its staging entry (R147). -/
  taken : Bool := false
  deriving DecidableEq, Repr

/-- A latch with the flags beside it (R80, R81). -/
structure Latch where
  /-- Coordinate word (Table FMT-11). -/
  coord : BitVec 64 := 0
  /-- INV. -/
  inv : Bool := false
  /-- NAN. -/
  nan : Bool := false
  /-- OVF. -/
  ovf : Bool := false
  deriving DecidableEq, Repr

/-- The bypass fields of one array (Table REGS-11). -/
structure Bypass where
  /-- COL. -/
  col : Nat := 0
  /-- EN. -/
  en : Bool := false
  /-- DIS. -/
  dis : Bool := false
  deriving DecidableEq, Repr

/-- A quantised row that a reduction delivers to the feeder queues (R148). -/
structure QRow where
  /-- F8v codes, one per rank. -/
  codes : List Byte := []
  /-- Row exponent e (R48). -/
  exp : Int := 0
  /-- v was not finite: the delta is canonical NaN (R49). -/
  bad : Bool := false
  /-- Segment entry of the REDUCE word. -/
  seg : Nat := 0
  deriving DecidableEq, Repr

/-- One adapter core (Table CORE-1). -/
structure CoreSt where
  /-- CORE_PART in force: 0 to 15, or 0x1F. -/
  part : Nat := 0x1F
  /-- CORE_PART written, taken at action 9. -/
  partNext : Nat := 0x1F
  /-- Partition that owned the core in the last completed step (R459). -/
  partLast : Nat := 0x1F
  /-- Core store. -/
  store : Memory := []
  /-- Weight staging entries, index 8 × array + entry; none is empty. -/
  staging : Vector (Option Tile) 32 := Vector.replicate 32 none
  /-- Stationary registers, index 4 × array + 2 × register + half: the codes of the half's 16 columns, column after column in
working order, codes not listed +0; each half has its own format, exponent and marks (R95, R107, R117). -/
  held : Vector Tile 16 := Vector.replicate 16 {}
  /-- Rows that reductions have delivered, by reduction number × 65536 + position. -/
  feed : Tab QRow := []
  /-- Segment entry + 1 of the last reduction delivered, by reduction number. -/
  feedSeg : Tab Nat := []
  /-- Outputs of HEAD targets after step 7 of Table ARITH-5, by output address (R293). -/
  head : Tab F32 := []
  /-- Exception latches: array half 2 × array + half, then the vector unit at 8. -/
  latches : Vector Latch 9 := Vector.replicate 9 {}
  /-- Snapshot of the latches at the last sealing (R476). -/
  snap : Vector Latch 9 := Vector.replicate 9 {}
  /-- Bypass fields written. -/
  bypNext : Vector Bypass 4 := Vector.replicate 4 {}
  /-- Bypass fields in force. -/
  byp : Vector Bypass 4 := Vector.replicate 4 {}
  /-- WIPED: the core store was wiped at the last boundary. -/
  wiped : Bool := false
  /-- Stall cycles of the last completed step. -/
  stall : Nat := 0
  /-- Gated multiplier-cycles since cold reset. -/
  gated : Nat := 0
  /-- Residue faults by 32 × array + column. -/
  colFaults : Tab Nat := []
  deriving DecidableEq, Repr

/-- A cluster-cache line (R91). -/
structure CacheLine where
  /-- Valid bit. -/
  valid : Bool := false
  /-- Fill-pending bit. -/
  pend : Bool := false
  /-- Partition tag. -/
  part : Part := 0
  /-- The 64 bytes. -/
  bytes : List Byte := []
  /-- Scale byte, in the first line of a tile. -/
  scale : Byte := 0
  /-- Format bit, in the first line of a tile: true F8g. -/
  f8g : Bool := false
  /-- The line holds an uncorrectable read (Table REL-3). -/
  bad : Bool := false
  deriving DecidableEq, Repr

/-- A region tag (R146). -/
structure RegionTag where
  /-- Slot. -/
  slot : Nat := 0
  /-- Version. -/
  version : Nat := 0
  /-- Target. -/
  target : Nat := 0
  /-- Matrix: true B. -/
  matB : Bool := false
  /-- First tile. -/
  tile : Nat := 0
  /-- Tiles. -/
  ntiles : Nat := 0
  /-- Partition. -/
  part : Part := 0
  deriving DecidableEq, Repr

/-- A block sum in a reduction (R142, R247): tree level, index at that level, rank group, position and the lanes. -/
structure RedNode where
  /-- Tree level; 0 for a block sum. -/
  level : Nat := 0
  /-- Block or node index. -/
  node : Nat := 0
  /-- Rank group. -/
  rgrp : Nat := 0
  /-- Position of the segment. -/
  pos : Nat := 0
  /-- Lane values. -/
  lanes : List F32 := []
  deriving DecidableEq, Repr

/-- One cluster: its cache and its reductions. -/
structure ClusterSt where
  /-- Adapter lines of the cache, by line number. -/
  lines : Tab CacheLine := []
  /-- Region tags, by first line. -/
  regions : Tab RegionTag := []
  /-- Fills elided (R146). -/
  hits : Nat := 0
  /-- Nodes received, by reduction number. -/
  reds : Tab (List RedNode) := []
  /-- Rank vectors delivered to the RCC unit, by reduction × 65536 + batch row. -/
  uvals : Tab (List F32) := []
  /-- The segment area: offset and bytes of each part that segmentation has written; all else of it is zero (R43, R44). -/
  segArea : List (Nat × List Byte) := []
  deriving DecidableEq, Repr

/-! ### Adapters (chapters ARITH, RES, TRAIN) -/

/-- Residency states (Table ARITH-2). -/
inductive SlotState where
  /-- FREE. -/
  | free
  /-- LOADING. -/
  | loading
  /-- RESIDENT. -/
  | resident
  /-- EVICTING. -/
  | evicting
  deriving DecidableEq, Repr

/-- An adapter slot table entry (Table ARITH-2). -/
structure SlotEnt where
  /-- STATE. -/
  st : SlotState := .free
  /-- PUBLIC. -/
  pub : Bool := false
  /-- TRAIN. -/
  train : Bool := false
  /-- FROZEN. -/
  frozen : Bool := false
  /-- SHARDED. -/
  sharded : Bool := false
  /-- PART. -/
  part : Part := 0
  /-- RANK. -/
  rank : Nat := 0
  /-- TMASK. -/
  tmask : BitVec 16 := 0
  /-- VERSION of the published record. -/
  version : Nat := 0
  /-- SHADOW. -/
  shadow : Nat := 0
  /-- SCALE. -/
  scale : F32 := 0
  /-- HOME. -/
  home : Coord := 0
  /-- TILEDIR. -/
  tiledir : Nat := 0
  /-- TAG. -/
  tag : Word := 0
  deriving DecidableEq, Repr

/-- Version record states (Table RES-2). -/
inductive VState where
  /-- EMPTY. -/
  | empty
  /-- BUILDING. -/
  | building
  /-- SEALED. -/
  | sealed
  /-- PUBLISHED. -/
  | published
  /-- RETAINED. -/
  | retained
  deriving DecidableEq, Repr

/-- A version record (Table RES-2) with what its construction needs. -/
structure VRec where
  /-- VSTATE. -/
  st : VState := .empty
  /-- MIRROR. -/
  mirror : Bool := false
  /-- VERSION. -/
  version : Nat := 0
  /-- PINS. -/
  pins : Nat := 0
  /-- AREA. -/
  area : Nat := 0
  /-- ALEN. -/
  alen : Nat := 0
  /-- SHSET; 0xFFF none. -/
  shset : Nat := 0xFFF
  /-- OSLOT. -/
  oslot : Nat := 0
  /-- OWNER. -/
  owner : Coord := 0
  /-- Made by SHROWS (Table RES-6). -/
  byRows : Bool := false
  /-- A SEAL has been accepted and its rebuild runs. -/
  sealing : Bool := false
  /-- A PUBLISH is pending. -/
  pubPend : Bool := false
  /-- Values written by patches and not yet rebuilt: matrix 2 × target + MAT, element index of R196, FP32 value. -/
  patch : List (Nat × Nat × F32) := []
  /-- Arrival bits of a mirror: matrix 2 × target + MAT and tile number, of the tiles that have come. -/
  arrived : List (Nat × Nat) := []
  /-- Order of acceptance of the MIRROR command (R250). -/
  mirNo : Nat := 0
  /-- RESQ ring index of the command that builds the record. -/
  cmdIx : Nat := 0
  deriving DecidableEq, Repr

/-- An EVICT accepted for the next boundary (R239). -/
structure EvictReq where
  /-- Partition. -/
  part : Part := 0
  /-- RESQ ring index. -/
  index : Nat := 0
  /-- Slot. -/
  slot : Nat := 0
  /-- SAVE flag. -/
  save : Bool := false
  /-- Key slot. -/
  key : Nat := 0
  /-- Cold offset. -/
  cold : Nat := 0
  deriving DecidableEq, Repr

/-- Tensor descriptor states (Table TRAIN-2). -/
inductive TState where
  /-- EMPTY. -/
  | empty
  /-- ACTIVE. -/
  | active
  /-- HELD. -/
  | held
  deriving DecidableEq, Repr

/-- A tensor descriptor (Table TRAIN-2) with the flags the update units keep beside it (R85, R212). -/
structure Tensor where
  /-- STATE. -/
  st : TState := .empty
  /-- MAT: true B. -/
  matB : Bool := false
  /-- TARGET. -/
  target : Nat := 0
  /-- PART. -/
  part : Part := 0
  /-- SLOT. -/
  slot : Nat := 0
  /-- VERSION. -/
  version : Nat := 0
  /-- W of the descriptor. -/
  w : Int := 0
  /-- W in force since the accumulator was last cleared (R79). -/
  wForce : Int := 0
  /-- HSET. -/
  hset : Nat := 0
  /-- NLAYERS. -/
  nlayers : Nat := 0
  /-- STEPS. -/
  steps : Nat := 0
  /-- BC1. -/
  bc1 : F32 := 0
  /-- BC2. -/
  bc2 : F32 := 0
  /-- MASTER. -/
  master : Nat := 0
  /-- MOMENTS. -/
  moments : Nat := 0
  /-- ACC. -/
  acc : Nat := 0
  /-- WORK. -/
  work : Nat := 0
  /-- REPSET; 0xFFF none. -/
  repset : Nat := 0xFFF
  /-- DIGINT. -/
  digint : Nat := 0
  /-- Touched bit of the running step. -/
  touched : Bool := false
  /-- TOUCHED as the register shows it: touched in the last step. -/
  touchedLast : Bool := false
  /-- Step flag WIN. -/
  stepWin : Bool := false
  /-- Step flag NAN. -/
  stepNan : Bool := false
  /-- OUTCNT, the elements whose sum lies outside ±(2^95 − 1) (R212). -/
  outcnt : Nat := 0
  /-- Sticky WIN. -/
  win : Bool := false
  /-- Sticky NAN. -/
  nan : Bool := false
  /-- Sticky OVF. -/
  ovf : Bool := false
  /-- Sticky flags that an event of the running step has set (WIN, NAN, OVF in bits 0 to 2; R477). -/
  stepSet : BitVec 3 := 0
  /-- Sticky flags whose error entry has been added (WIN, NAN, OVF in bits 0 to 2). -/
  told : BitVec 3 := 0
  /-- Contributions have been added since the accumulator was last cleared (R79). -/
  dirty : Bool := false
  /-- Took an optimizer step at action 2 of the running step (R220). -/
  stepped : Bool := false
  deriving DecidableEq, Repr

/-- A hyperparameter set (R216). -/
structure HpSet where
  /-- VALID. -/
  valid : Bool := false
  /-- LR. -/
  lr : F32 := 0
  /-- BETA1. -/
  beta1 : F32 := 0
  /-- BETA2. -/
  beta2 : F32 := 0
  /-- EPS. -/
  eps : F32 := 0
  /-- WD. -/
  wd : F32 := 0
  deriving DecidableEq, Repr

/-! ### Rings -/

/-- A ring group or output ring: base, LOG2N, the two indices, the entries between them, and, for a ring the PAE
writes, the entries that wait for room (R465, R481). -/
structure Ring (ε : Type) where
  /-- Base address register pair. -/
  base : BitVec 64 := 0
  /-- LOG2N; 0 not configured. -/
  log2n : Nat := 0
  /-- Writer's index. -/
  wr : BitVec 16 := 0
  /-- Reader's index. -/
  rd : BitVec 16 := 0
  /-- Entries from the reader's index to the writer's. -/
  ents : List ε := []
  /-- Entries waiting for room. -/
  wait : List ε := []
  deriving DecidableEq, Repr

/-- Completion status of R240. -/
inductive CplStatus where
  /-- OK. -/
  | ok
  /-- STATE. -/
  | state
  /-- BOUNDS. -/
  | bounds
  /-- INTEGRITY. -/
  | integrity
  /-- REFUSED. -/
  | refused
  deriving DecidableEq, Repr

/-- A residency completion entry (R240). -/
structure ResCpl where
  /-- The command's ring index. -/
  index : Nat := 0
  /-- The slot. -/
  slot : Nat := 0
  /-- Kind: false DONE, true FREED. -/
  freed : Bool := false
  /-- Status. -/
  status : CplStatus := .ok
  /-- The area of a FREED entry. -/
  area : Nat := 0
  deriving DecidableEq, Repr

/-- A page command completion (Table REGS-9). -/
structure RccCpl where
  /-- INDEX. -/
  index : Nat := 0
  /-- CMD. -/
  cmd : Nat := 0
  /-- STATUS. -/
  status : CplStatus := .ok
  /-- DESC. -/
  desc : Nat := 0
  deriving DecidableEq, Repr

/-! ### Serving (chapter SERVE) -/

/-- Record states (Table SERVE-4). -/
inductive RecState where
  /-- FREE. -/
  | free
  /-- QUEUED. -/
  | queued
  /-- RUNNING. -/
  | running
  /-- PAUSING. -/
  | pausing
  /-- RESUMING. -/
  | resuming
  /-- ENDING. -/
  | ending
  deriving DecidableEq, Repr

/-- A request record (Table SERVE-3), with what firmware remembers of the request between steps. -/
structure ReqRec where
  /-- STATE. -/
  st : RecState := .free
  /-- PART. -/
  part : Part := 0
  /-- STREAM. -/
  stream : Bool := false
  /-- SPEC. -/
  spec : Bool := false
  /-- CHUNK. -/
  chunk : Bool := false
  /-- GRAD. -/
  grad : Bool := false
  /-- FACE. -/
  face : FaceIx := 0
  /-- DROPSEEN. -/
  dropSeen : Bool := false
  /-- DROPRSN. -/
  dropRsn : Nat := 0
  /-- SLOT. -/
  slot : Nat := 0xFFFF
  /-- VERSION. -/
  version : Nat := 0
  /-- RING. -/
  ring : Nat := 0
  /-- RINGEN. -/
  ringEn : Bool := false
  /-- CTFULL. -/
  ctFull : Bool := false
  /-- SEQ. -/
  seq : BitVec 64 := 0
  /-- PLEFT. -/
  pleft : Nat := 0
  /-- MAXNEW. -/
  maxNew : Nat := 0
  /-- NEWDONE. -/
  newDone : Nat := 0
  /-- WIN. -/
  win : Nat := 1
  /-- TAILN. -/
  tailn : Nat := 0
  /-- PLIST. -/
  plist : Nat := 0
  /-- CTAB. -/
  ctab : Nat := 0
  /-- TOPK. -/
  topk : Nat := 0
  /-- PRES. -/
  pres : F32 := 0
  /-- FREQ. -/
  freq : F32 := 0
  /-- MULT. -/
  mult : F32 := 0
  /-- LAST_TOK. -/
  lastTok : Word := 0
  /-- ADMSTEP. -/
  admStep : BitVec 64 := 0
  /-- OUTCRC. -/
  outcrc : BitVec 64 := 0
  /-- ADMNO. -/
  admNo : Nat := 0
  /-- Step for which the descriptor was taken (R261). -/
  takenFor : BitVec 64 := 0
  /-- The token fields of the request's previous accepted report (R282). -/
  nextToks : List Word := []
  /-- The handle of the hold from which the request was resumed, until it is admitted again (R270). -/
  fromHold : Option Nat := none
  /-- It waits as not run in a void step: its place in that admission record (R270). -/
  notRun : Option Nat := none
  /-- Its last chunk was cut by a budget: the next one heads order 2 (Table SERVE-15). -/
  split : Bool := false
  deriving DecidableEq, Repr

/-- Completion record states (Table SERVE-8). -/
inductive CState where
  /-- EMPTY. -/
  | empty
  /-- LIVE. -/
  | live
  /-- DONE. -/
  | done
  /-- CANCELLED. -/
  | cancelled
  /-- HELD. -/
  | held
  /-- EXPIRED. -/
  | expired
  deriving DecidableEq, Repr

/-- A completion record (Table SERVE-8). -/
structure Compl where
  /-- SEQ. -/
  seq : BitVec 64 := 0
  /-- REQ. -/
  req : Nat := 0
  /-- CSTATE. -/
  st : CState := .empty
  /-- NEWDONE. -/
  newDone : Nat := 0
  /-- OUTCRC. -/
  outcrc : BitVec 64 := 0
  /-- WHEN. -/
  when_ : BitVec 64 := 0
  /-- A CANCEL made the held request expire: a repeat of it meets STATE (R278); the model's own field. -/
  byCancel : Bool := false
  deriving DecidableEq, Repr

/-- Hold states (Table SERVE-12). RESERVED is a free entry set aside for a PAUSE taken (R288); ENDED has expired. -/
inductive HoldSt where
  /-- FREE. -/
  | free
  /-- Set aside for a PAUSE. -/
  | reserved
  /-- MOVING. -/
  | moving
  /-- HELD. -/
  | held
  /-- RESTORING. -/
  | restoring
  /-- Expired: it reads FREE, and at the next action 5 its pin falls (R289). -/
  | ended
  deriving DecidableEq, Repr

/-- A hold entry (Table SERVE-12). -/
structure Hold where
  /-- HSTATE. -/
  st : HoldSt := .free
  /-- GEN. -/
  gen : Nat := 0
  /-- SEQ. -/
  seq : BitVec 64 := 0
  /-- COLD. -/
  cold : Nat := 0
  /-- SLOT. -/
  slot : Nat := 0
  /-- VERSION. -/
  version : Nat := 0
  /-- EXPIRY, extended tick. -/
  expiry : Nat := 0
  /-- Low 32 bits of the image counter in the handle (R288). -/
  ctr : Word := 0
  /-- Record index while MOVING or RESTORING. -/
  req : Nat := 0
  /-- TTL minutes of the PAUSE. -/
  ttl : Nat := 0
  /-- Bytes of the sealed record and count table in the cold tier. -/
  len : Nat := 0
  /-- Pages of the request, the shared ones among them (R288). -/
  pages : PageList := {}
  /-- NEWDONE of the request, for its completion record (R277). -/
  newDone : Nat := 0
  /-- OUTCRC of the request, for its completion record. -/
  outcrc : BitVec 64 := 0
  /-- A CANCEL has made it expire (R286). -/
  cancelled : Bool := false
  deriving DecidableEq, Repr

/-- A count table (Table SERVE-13) and its spill list. -/
structure CountTab where
  /-- Entries: token and count. -/
  ents : List (Word × Nat) := []
  /-- Spilled tokens. -/
  spill : List Word := []
  /-- Tail tokens of the running step. -/
  tail : List Word := []
  deriving DecidableEq, Repr

/-- A request admitted to a step (Table SERVE-7) with what becomes of it in the step. -/
structure Adm where
  /-- REQ. -/
  req : Nat := 0
  /-- PART. -/
  part : Part := 0
  /-- Face. -/
  face : FaceIx := 0
  /-- ROWS. -/
  rows : Nat := 0
  /-- AKIND. -/
  akind : Nat := 0
  /-- FIRST. -/
  first : Nat := 0
  /-- SEQ. -/
  seq : BitVec 64 := 0
  /-- Its rows are decode rows. -/
  decode : Bool := false
  /-- It generates in the step: a report is awaited (R267). -/
  gen : Bool := false
  /-- The accepted report: header and tokens. -/
  report : Option TokenReport := none
  /-- The report came after admission had closed (R275). -/
  lateRep : Bool := false
  /-- Its prefill completes in the step. -/
  prefillEnd : Bool := false
  /-- The request is cancelled in the step. -/
  cancelled : Bool := false
  /-- RCC hand-over code (Table RCC-7). -/
  rcc : Nat := 0
  /-- Fold count. -/
  fold : Nat := 0
  /-- It ended in the step. -/
  done : Bool := false
  /-- Its entry goes to the ring only (R283). -/
  diverted : Bool := false
  /-- RINGEN of the request at the opening boundary, and its ring. -/
  ringEn : Bool := false
  /-- Ring. -/
  ring : Nat := 0
  /-- Its rows were cut by what was left of a budget (Table SERVE-15). -/
  split : Bool := false
  deriving DecidableEq, Repr

/-- A descriptor taken, which acts at the boundary that opens the step for which it was taken (R261). -/
structure Taken where
  /-- The step. -/
  step : BitVec 64 := 0
  /-- The face that took it. -/
  face : FaceIx := 0
  /-- The descriptor. -/
  desc : Desc := 0
  /-- It was accepted. -/
  ok : Bool := false
  /-- Record index of the request it acts on. -/
  req : Nat := 0
  /-- Hold-table index of a PAUSE, a RESUME or a CANCEL of a held request. -/
  hold : Nat := 0
  /-- The place of its answer among the answers of its face and step; none on a chip that only takes it over. -/
  ans : Option Nat := none
  deriving DecidableEq, Repr

/-- Result-entry status of an answer (Table SERVE-10). -/
inductive AnsStatus where
  /-- OK. -/
  | ok
  /-- DUP. -/
  | dup
  /-- STALE_SEQ. -/
  | staleSeq
  /-- STATE. -/
  | state
  /-- BOUNDS. -/
  | bounds
  /-- UNKNOWN. -/
  | unknown
  /-- EXPIRED. -/
  | expired
  /-- PART. -/
  | part
  deriving DecidableEq, Repr

/-- A result entry (Table SERVE-10). -/
structure ResEntry where
  /-- REQ. -/
  req : Nat := 0
  /-- PART. -/
  part : Nat := 0
  /-- DONE. -/
  done : Bool := false
  /-- CANCELLED. -/
  cancelled : Bool := false
  /-- DIVERTED. -/
  diverted : Bool := false
  /-- DROP. -/
  drop : Bool := false
  /-- DRSN. -/
  drsn : Nat := 0
  /-- RCC. -/
  rcc : Nat := 0
  /-- CTFULL. -/
  ctFull : Bool := false
  /-- ROWS. -/
  rows : Nat := 0
  /-- K, the rows folded. -/
  k : Nat := 0
  /-- STATUS. -/
  status : AnsStatus := .ok
  /-- CSTATE of a DUP answer. -/
  cstate : CState := .empty
  /-- SEQ. -/
  seq : BitVec 64 := 0
  /-- CLEN. -/
  clen : Nat := 0
  /-- NEWDONE. -/
  newDone : Nat := 0
  /-- LAST_TOK. -/
  lastTok : Word := 0
  /-- OUTCRC. -/
  outcrc : BitVec 64 := 0
  /-- AUX. -/
  aux : BitVec 64 := 0
  deriving DecidableEq, Repr

/-- A result batch (Table SERVE-9). -/
structure Batch where
  /-- FACE. -/
  face : FaceIx := 0
  /-- VOID reason, 0 none. -/
  void : Nat := 0
  /-- STEP. -/
  step : BitVec 64 := 0
  /-- STATUS. -/
  status : BitVec 64 := 0
  /-- PSLOT. -/
  pslot : Nat := 0
  /-- PDIGEST. -/
  pdigest : BitVec 64 := 0
  /-- LS of the 16 partitions. -/
  ls : List Nat := []
  /-- Admission entries. -/
  adms : List Adm := []
  /-- Result entries, then answers. -/
  ents : List ResEntry := []
  /-- Entries for output rings, written at action 10 (R283). -/
  ringEnts : List (Nat × ResEntry) := []
  deriving DecidableEq, Repr

/-- A request face (Table REGS-15). -/
structure FaceSt where
  /-- RB_CAP. -/
  rbCap : Nat := 0x4000
  /-- RB_CAP with which the running step was admitted (R273). -/
  rbCapStep : Nat := 0x4000
  /-- RB_CAP with which the next step was admitted. -/
  rbCapNext : Nat := 0x4000
  /-- RB0 and RB1: address and size. -/
  bufs : Vector (BitVec 64 × Word) 2 := Vector.replicate 2 (0, 0)
  /-- Buffer free for a batch. -/
  acks : Vector Bool 2 := Vector.replicate 2 true
  /-- A release waits. -/
  waiting : Bool := false
  /-- Scheduled blocks of the last step late from the host. -/
  fcLate : Nat := 0
  /-- Those of the running step. -/
  lateNow : Nat := 0
  /-- Sealed batches waiting for release, oldest first. -/
  sealed : List Batch := []
  /-- Answers for the running step's batch. -/
  current : List ResEntry := []
  /-- Answers for the next step's batch. -/
  answers : List ResEntry := []
  /-- Answers for the batch after it (R261). -/
  answersLater : List ResEntry := []
  /-- Reports refused in the running step. -/
  refusals : List ResEntry := []
  /-- Ring entries to be written: ring and entry. -/
  ringOut : List (Nat × ResEntry) := []
  deriving DecidableEq, Repr

/-! ### Partitions -/

/-- Partition states (Table SEC-3). -/
inductive PState where
  /-- IDLE. -/
  | idle
  /-- CONFIGURED. -/
  | configured
  /-- CLAIMED. -/
  | claimed
  /-- KEYING. -/
  | keying
  /-- KEYED. -/
  | keyed
  /-- RESETTING. -/
  | resetting
  deriving DecidableEq, Repr

/-- The partition manager's writable registers (Tables SERVE-16, TRAIN-4, REGS-6). -/
structure PRegs where
  /-- SEG_CAP. -/
  segCap : Nat := 0x100
  /-- ADM_CLOSE. -/
  admClose : Nat := 0
  /-- TOK_STEP. -/
  tokStep : Nat := 0x1000
  /-- TOK_WIN. -/
  tokWin : Nat := 0x100000
  /-- WIN_STEPS. -/
  winSteps : Nat := 0x100
  /-- CHUNK_MAX. -/
  chunkMax : Nat := 0x10000
  /-- TOPK_MAX. -/
  topkMax : Nat := 0x40
  /-- TTL_MAX. -/
  ttlMax : Nat := 0x5A0
  /-- TTL_DEF. -/
  ttlDef : Nat := 0x3C
  /-- PDFMT: true FP32. -/
  pdfmt : Bool := false
  /-- DDFMT. -/
  ddfmt : Bool := false
  /-- RCC_EFMT: true F8v. -/
  efmt : Bool := false
  /-- RCC_PGSZ. -/
  pgsz : Nat := 0x80
  /-- REC base. -/
  recBase : BitVec 48 := 0
  /-- CPL base. -/
  cplBase : BitVec 48 := 0
  /-- HOLD base. -/
  holdBase : BitVec 48 := 0
  /-- HP base. -/
  hpBase : BitVec 48 := 0
  /-- RCCD base. -/
  rccdBase : BitVec 48 := 0
  /-- RCC_DESC_COUNT. -/
  rccdCount : Nat := 0
  /-- RS base. -/
  rsBase : BitVec 48 := 0
  /-- SS base. -/
  ssBase : BitVec 48 := 0
  /-- LS_MIN. -/
  lsMin : Nat := 0
  /-- LS_MAX. -/
  lsMax : Nat := 0x28
  /-- LS_RUN. -/
  lsRun : Nat := 0x3E8
  deriving DecidableEq, Repr

/-- The loss scale of a partition (Table TRAIN-4). -/
structure LossScale where
  /-- LS in force. -/
  ls : Nat := 0x10
  /-- LS written, for the next epoch. -/
  lsNext : Option Nat := none
  /-- LS_CLEAN. -/
  lsClean : Nat := 0
  deriving DecidableEq, Repr

/-- An image or cold-tier command under way (R229, R237). -/
inductive ColdWork where
  /-- LOAD, SHLOAD, SHROWS into a record that stands, SHROWS that made its record (kind 0, 1, 2, 3): ring index and operands. -/
  | read (kind : Nat) (index slot version area cold len shset : Nat)
  /-- An image being written: ring index, slot, version, key slot, cold offset, last of its command, the image. -/
  | write (index slot version key cold : Nat) (last evict : Bool) (image : List Byte)
  deriving DecidableEq, Repr

/-- An area being freed: it is zeroed before its FREED entry (R239). -/
structure FreeReq where
  /-- Ring index of the command that frees it. -/
  index : Nat := 0
  /-- Slot. -/
  slot : Nat := 0
  /-- Area. -/
  area : Nat := 0
  /-- Bytes. -/
  len : Nat := 0
  deriving DecidableEq, Repr

/-- Tile digests of a peer for a frozen adapter (Table PLANE-20). -/
structure TDig where
  /-- Peer. -/
  src : Coord := 0
  /-- Partition. -/
  part : Part := 0
  /-- TAG. -/
  tag : Word := 0
  /-- VERSION. -/
  version : Nat := 0
  /-- TARGET. -/
  target : Nat := 0
  /-- MAT: true B. -/
  matB : Bool := false
  /-- FIRST. -/
  first : Nat := 0
  /-- Digests, in tile order. -/
  digs : List (BitVec 64) := []
  deriving DecidableEq, Repr

/-- A page move under way: HOLD or RESTORE of Table RCC-8. -/
structure PageMove where
  /-- Descriptor. -/
  desc : Nat := 0
  /-- Ring index of the command. -/
  index : Nat := 0
  /-- A HOLD; else a RESTORE. -/
  hold : Bool := true
  /-- Where the page goes: cold offset of a HOLD, frame of a RESTORE. -/
  dest : Nat := 0
  deriving DecidableEq, Repr

/-- The events counted in a step, added to the 64-bit counters at sealing (R472). -/
structure Counts where
  /-- Drops (R37). -/
  drop : Nat := 0
  /-- RCC_MISS. -/
  rccMiss : Nat := 0
  /-- TRAIN_DISCARD. -/
  trainDiscard : Nat := 0
  /-- TRAIN_SKIP. -/
  trainSkip : Nat := 0
  /-- RES_DISCARD. -/
  resDiscard : Nat := 0
  /-- DUP. -/
  dup : Nat := 0
  /-- SPEC_ZERO. -/
  specZero : Nat := 0
  deriving DecidableEq, Repr

/-- One partition: what Table SEC-2 gives it. -/
structure PartSt where
  /-- PSTATE. -/
  st : PState := .idle
  /-- The keyed clear or partition wipe has ended: the next boundary changes the state (R374). -/
  ready : Bool := false
  /-- A PRESET is taken and waits for the boundary (R376); true when the operator sent it. -/
  presetPend : Option Bool := none
  /-- The chip has left its slice: the wipe that runs ends in IDLE (R375). -/
  toIdle : Bool := false
  /-- OWNER. -/
  owner : Option (List Byte) := none
  /-- OPCNT and OPERR in force. -/
  policy : BitVec 2 := 0
  /-- POLICY for the next boundary. -/
  policyNext : Option (BitVec 2) := none
  /-- Windows in force. -/
  win : Windows := {}
  /-- Windows as written: the request and ring windows take effect at the next boundary (R301). -/
  winNext : Windows := {}
  /-- Registers as written. -/
  regs : PRegs := {}
  /-- Registers in force since the last boundary. -/
  force : PRegs := {}
  /-- Loss scale. -/
  loss : LossScale := {}
  /-- PKEY. -/
  pkey : Option (BitVec 256) := none
  /-- MKEY. -/
  mkey : Option (BitVec 512) := none
  /-- CKEY. -/
  ckey : Option (BitVec 512) := none
  /-- IKEY. -/
  ikey : Option (BitVec 256) := none
  /-- AKEY 0 to 63. -/
  akeys : Vector (Option (BitVec 256)) 64 := Vector.replicate 64 none
  /-- RESQ. -/
  resq : Ring ResCmd := {}
  /-- RESC. -/
  resc : Ring ResCpl := {}
  /-- RCCQ. -/
  rccq : Ring (BitVec 256) := {}
  /-- RCCC. -/
  rccc : Ring RccCpl := {}
  /-- RCCF. -/
  rccf : Ring Nat := {}
  /-- RCCF entries in force since the opening boundary: how many the PAE may take (R176). -/
  rccfOpen : Nat := 0
  /-- RCCR. -/
  rccr : Ring Nat := {}
  /-- ER. -/
  er : Ring ErrEntry := {}
  /-- ER_LOST. -/
  erLost : Nat := 0
  /-- Page moves under way (R183). -/
  moves : List PageMove := []
  /-- Image and cold-tier commands under way, oldest first. -/
  cold : List ColdWork := []
  /-- Areas freed and being zeroed, oldest first (R239). -/
  freeing : List FreeReq := []
  /-- DROP counter. -/
  drop : Nat := 0
  /-- RCC_MISS. -/
  rccMiss : Nat := 0
  /-- TRAIN_DISCARD. -/
  trainDiscard : Nat := 0
  /-- TRAIN_SKIP. -/
  trainSkip : Nat := 0
  /-- RES_DISCARD. -/
  resDiscard : Nat := 0
  /-- DUP. -/
  dup : Nat := 0
  /-- SPEC_ZERO. -/
  specZero : Nat := 0
  /-- Events counted since the last sealing. -/
  counted : Counts := {}
  /-- H, highest SEQ taken. -/
  seqHigh : BitVec 64 := 0
  /-- PSTRANDS. -/
  strands : Nat := 0
  /-- Completion table, by SEQ modulo 2^20. -/
  compl : Tab Compl := []
  /-- Hold table. -/
  holds : Tab Hold := []
  /-- Hyperparameter sets in force. -/
  hps : Tab HpSet := []
  /-- Hyperparameter sets accepted for the next boundary. -/
  hpsNext : List (Nat × HpSet) := []
  /-- Replica-set table. -/
  repsets : Tab (BitVec 256) := []
  /-- Shard-set table. -/
  shards : Tab (BitVec 512) := []
  /-- Page descriptors. -/
  pdescs : Tab PageDesc := []
  /-- Page lists and prefix handles, by address. -/
  plists : Tab PageList := []
  /-- Page descriptors as they stood at the opening boundary (R182). -/
  pdescsOpen : Tab PageDesc := []
  /-- Page lists as they stood at the opening boundary (R182). -/
  plistsOpen : Tab PageList := []
  /-- Prefix handles in use: address of the list by PFX. -/
  handles : Tab Nat := []
  /-- Count tables, by record index. -/
  ctabs : Tab CountTab := []
  /-- Descriptors in the partition's queue on each face. -/
  dqFill : Vector Nat 2 := Vector.replicate 2 0
  /-- Credits held by the host on each face. -/
  dqCred : Vector Nat 2 := Vector.replicate 2 0x400
  /-- Descriptors refused on each face. -/
  dqRefused : Vector Nat 2 := Vector.replicate 2 0
  /-- Descriptors queued for the step after the next, on each face (R261). -/
  dqLater : Vector Nat 2 := Vector.replicate 2 0
  /-- Rows admitted in earlier steps, newest first (R273). -/
  admHist : List Nat := []
  /-- Admission numbers given out. -/
  admCount : Nat := 0
  /-- MIRROR commands accepted (R250). -/
  mirCount : Nat := 0
  deriving DecidableEq, Repr

/-! ### Segment unit, RCC unit, running step -/

/-- A segment entry (Table ARITH-8) with the slot data its words need. -/
structure Seg where
  /-- SLOT. -/
  slot : Nat := 0
  /-- PART. -/
  part : Part := 0
  /-- ROW_OFFSET. -/
  off : Nat := 0
  /-- ROW_COUNT. -/
  count : Nat := 0
  /-- VERSION. -/
  version : Nat := 0
  /-- RANK. -/
  rank : Nat := 0
  deriving DecidableEq, Repr

/-- The segment unit (Table REGS-10). -/
structure SegUnit where
  /-- SG_TAGS. -/
  tagsAddr : BitVec 48 := 0
  /-- The tag array that firmware stored (R474). -/
  tagArray : List RowTag := []
  /-- SG_NEXT.ROWS. -/
  rows : Nat := 0
  /-- SG_NEXT.PSLOT. -/
  pslot : PSlot := 0
  /-- SG_NEXT.VALID. -/
  valid : Bool := false
  /-- SG_LAST.SEG_COUNT. -/
  lastSegs : Nat := 0
  /-- SG_LAST.FIT. -/
  lastFit : Bool := false
  /-- SG_LAST.VOID. -/
  lastVoid : Nat := 0
  /-- ADAPTED. -/
  lastAdapted : Nat := 0
  /-- BATCH. -/
  lastBatch : Nat := 0
  /-- CYCLES. -/
  lastCycles : Nat := 0
  /-- STRANDS. -/
  lastStrands : Nat := 0
  deriving DecidableEq, Repr

/-- The RCC unit page (Table REGS-14). -/
structure RccUnit where
  /-- RC_HCHK. -/
  hchk : Nat := 0
  /-- RC_COPY. -/
  copy : Nat := 0
  /-- RC_SERVED. -/
  served : Nat := 0
  /-- RC_MISSED. -/
  missed : Nat := 0
  /-- RC_KPASS. -/
  kpass : Nat := 0
  /-- RC_VPASS. -/
  vpass : Nat := 0
  /-- RC_HELD. -/
  held : Nat := 0
  deriving DecidableEq, Repr

/-- A request in the hand-over check (R175, R176). -/
structure RccReq where
  /-- REQ. -/
  req : Nat := 0
  /-- PART. -/
  part : Part := 0
  /-- Batch rows of the request, ascending. -/
  rows : List Nat := []
  /-- CLEN at the opening boundary. -/
  clen : Nat := 0
  /-- Code of Table RCC-7. -/
  code : Nat := 0
  /-- Slot and version of the pin. -/
  slot : Nat := 0
  /-- Version. -/
  version : Nat := 0
  /-- Entries walked. -/
  list : PageList := {}
  /-- The copy of the shared last page: page position, source descriptor, copy. -/
  copy : Option (Nat × Nat × Nat) := none
  /-- Fresh pages: page position and descriptor. -/
  fresh : List (Nat × Nat) := []
  deriving DecidableEq, Repr

/-- An exchange message delivered and waiting for its XRECV (R348). -/
structure InMsg where
  /-- SRC. -/
  src : Coord := 0
  /-- PART. -/
  part : Nat := 0
  /-- KIND. -/
  kind : Nat := 0
  /-- MSG. -/
  msg : Nat := 0
  /-- Body. -/
  body : List Byte := []
  deriving DecidableEq, Repr

/-- A QRY, PROB or LOGIT block of the step (R184, R294). -/
structure InBlock where
  /-- KIND of Table ISA-14. -/
  kind : Nat := 0
  /-- Face. -/
  face : FaceIx := 0
  /-- Descriptor or target. -/
  target : Nat := 0
  /-- Layer. -/
  layer : Nat := 0
  /-- ADDR of its word. -/
  addr : Nat := 0
  /-- ROUTE of its word. -/
  route : Bool := false
  /-- Its bytes; none when it was refused. -/
  bytes : Option (List Byte) := none
  deriving DecidableEq, Repr

/-- A SCORE or VDELTA block made in the step: per listed request, rows and heads in order, the values. -/
structure MadeBlock where
  /-- KIND of Table ISA-14. -/
  kind : Nat := 0
  /-- Attention descriptor. -/
  desc : Nat := 0
  /-- Layer. -/
  layer : Nat := 0
  /-- Values of each listed request. -/
  vals : List (List F32) := []
  deriving DecidableEq, Repr

/-- The running step. -/
structure Run where
  /-- A step is open. -/
  isOpen : Bool := false
  /-- Extended tick of the opening boundary; cycle 0 follows 32 array-clock cycles later, 7 cycles in 4 ticks. -/
  openTick : Nat := 0
  /-- Selected slot. -/
  pslot : PSlot := 0
  /-- The program running (the slot's contents at the opening boundary). -/
  prog : Option Program := none
  /-- Void reason, 0 none (Table SERVE-9). -/
  void : Nat := 0
  /-- Segmentation is done. -/
  segmented : Bool := false
  /-- The hand-over check is done. -/
  checked : Bool := false
  /-- Row tags of the batch. -/
  tags : List RowTag := []
  /-- Drop reason of each row, 0 none. -/
  drops : List Nat := []
  /-- Segment entries. -/
  segs : List Seg := []
  /-- Row list. -/
  rowList : List Nat := []
  /-- Zero-row bitmap of each target: the rows marked. -/
  zero : Vector (List Nat) 16 := Vector.replicate 16 []
  /-- Strands by partition. -/
  strands : Vector Nat 16 := Vector.replicate 16 0
  /-- Words issued, by queue. -/
  ptr : Tab Nat := []
  /-- Words that have issued and still wait for what completes them: queue and word index, in issue order (R119). -/
  flight : List (Nat × Nat) := []
  /-- Completions counted, by token. -/
  tokens : Tab Nat := []
  /-- Status byte, by word index. -/
  status : Tab Byte := []
  /-- Rows poisoned at a face (R482). -/
  poison : List (FaceIx × Nat) := []
  /-- GRAD blocks refused: face, target, layer (R198). -/
  gradRefused : List (FaceIx × Nat × Nat) := []
  /-- QRY, PROB or LOGIT blocks taken. -/
  blocks : List InBlock := []
  /-- SCORE and VDELTA blocks made. -/
  made : List MadeBlock := []
  /-- Requests of the hand-over check, in order of first row. -/
  rcc : List RccReq := []
  /-- Messages waiting for their XRECV. -/
  inbox : List InMsg := []
  /-- Descriptors taken from the free queues by the hand-over check, and the bad ones passed over (R176, R177). -/
  rccTaken : List (Part × Nat) := []
  /-- GRAD payloads handed off for other homes: the bytes of GRAD tiles, by home. -/
  gradOut : List (Coord × List Byte) := []
  /-- Mirror tiles to ask for, by owner: ROWREQ bytes formed at the opening boundary (R250). -/
  rowreq : List (Coord × List Byte) := []
  /-- ROWREQs received from peers: source and bytes. -/
  rowreqIn : List (Coord × Nat × List Byte) := []
  /-- Replica digests formed at the opening boundary: slot, version, digest (R224). -/
  digests : List (Nat × Nat × BitVec 64) := []
  /-- Training summary (R213). -/
  summary : BitVec 32 := 0
  /-- An AGREE of the step has been received or none is awaited: the sweep has run. -/
  swept : Bool := false
  /-- Entries of words for the error rings: word index, partition, entry. -/
  wordErrs : List (Nat × Part × ErrEntry) := []
  /-- Other entries for the error rings. -/
  otherErrs : List (Part × ErrEntry) := []
  /-- Partitions that have received an entry in the step. -/
  errParts : BitVec 16 := 0
  /-- Last action of Table ENGINE-5 performed, 0 to 6. -/
  acted : Nat := 0
  /-- Result batches have been sealed. -/
  sealedUp : Bool := false
  /-- The admitted requests of the step. -/
  adms : List Adm := []
  /-- Issue is held by a fault (R433). -/
  held : Bool := false
  /-- Faults of the step that are not replayed, each with its physical column (Table CORE-9). -/
  hw : List (StepFault × Nat) := []
  /-- The step has been replayed. -/
  replayed : Bool := false
  /-- Bytes in the replay log. -/
  logBytes : Nat := 0
  /-- The log has stopped. -/
  logStopped : Bool := false
  /-- Outgoing words completed before a replay: word indices that send nothing (Table REL-8, order 5). -/
  sentWords : List Nat := []
  /-- Logged payloads: word index and bytes. -/
  log : List (Nat × List Byte) := []
  /-- A CORRECTED error occurred. -/
  corrected : Bool := false
  /-- Step 2 of Table PLANE-13 acted. -/
  linkFault : Bool := false
  /-- The power warning or a throttle was in force. -/
  pwr : Bool := false
  /-- An adapter was frozen. -/
  froze : Bool := false
  /-- Some partition's training step was skipped. -/
  skipped : Bool := false
  /-- Partitions for which TRAIN_SKIP has counted in the step (R215, R216). -/
  skipParts : BitVec 16 := 0
  /-- The mirrors whose missing tiles the step's ROWREQ words ask for (R250): number, owner, the owner's slot, version, rank. -/
  asked : List (Nat × Coord × Nat × Nat × Nat) := []
  /-- Mirror tiles written in the step, whose arrival bits are set at the boundary (R251, R254): number of the mirror, matrix,
  tile. -/
  rowsGot : List (Nat × Nat × Nat) := []
  /-- Mirrors that a REFUSED tile ends at the boundary, by number (R252, R254). -/
  mirEnd : List Nat := []
  /-- An overrun to be recorded in the status word, and, once it is formed, one that it records. -/
  overrun : Bool := false
  /-- The boundary that closes the step has waited for RB_ACK or for a larger buffer (R280). -/
  waited : Bool := false
  /-- BARRIER_MISS to be recorded (R311). -/
  barrierMiss : Bool := false
  /-- Routes cut in the step: XRECVs from these sources get NO_SOURCE. -/
  noSource : List Coord := []
  deriving DecidableEq, Repr

/-- Admission for the next step (R270 to R276). -/
structure Admission where
  /-- Admission has closed in the running step. -/
  closed : Bool := false
  /-- The requests admitted to the next step. -/
  next : List Adm := []
  /-- ADMIT messages received for the next step: MSG, LAST, body (R347). -/
  input : List (Nat × Bool × List Byte) := []
  /-- The list from the admitting chip is complete, or this is the admitting chip. -/
  complete : Bool := false
  /-- Descriptors taken whose boundary has not come, in the order taken. -/
  taken : List Taken := []
  /-- Record indices whose report has been accepted for the running step. -/
  reps : List Nat := []
  /-- Those of the step before it (R267). -/
  prevReps : List Nat := []
  deriving DecidableEq, Repr

/-! ### Error and power units -/

/-- The error unit (Table REL-15). -/
structure ErrUnit where
  /-- REPLAY_EN. -/
  replayEn : Bool := true
  /-- ECC_MODE written. -/
  eccNext : Nat := 0
  /-- ECC_MODE in force. -/
  ecc : Nat := 0
  /-- COLTH. -/
  colth : Nat := 0x10
  /-- SCRUB_H. -/
  scrubH : Nat := 0x18
  /-- CORR and CONT by SRC. -/
  cnt : Tab (Nat × Nat) := []
  /-- Steps replayed. -/
  replays : Nat := 0
  /-- Faults not eligible. -/
  notElig : Nat := 0
  /-- Fatal record: SRC and step. -/
  fatal : Option (Nat × BitVec 64) := none
  /-- Chip log, oldest first, at most 1,024. -/
  log : List ErrEntry := []
  /-- ERR_LOG_PROD. -/
  prod : BitVec 10 := 0
  /-- Codewords scrubbed in the pass. -/
  scrubbed : Nat := 0
  /-- Data units that hold an uncorrectable codeword. -/
  badUnits : List Nat := []
  /-- ST_RES by core. -/
  stRes : Tab (BitVec 28) := []
  deriving DecidableEq, Repr

/-- Island power states (R441). -/
inductive IslSt where
  /-- ACTIVE. -/
  | active
  /-- GATED. -/
  | gated
  /-- RETAIN. -/
  | retain
  /-- OFF. -/
  | off
  deriving DecidableEq, Repr

/-- One island (Table REL-17). -/
structure Island where
  /-- REQ. -/
  req : IslSt := .active
  /-- The request has been taken at a boundary and the island is on its way. -/
  going : Bool := false
  /-- STATE. -/
  st : IslSt := .active
  /-- POWER. -/
  power : BitVec 16 := 0
  deriving DecidableEq, Repr

/-- The power and telemetry unit (Table REL-17). -/
structure Power where
  /-- PW_DUTY. -/
  duty : Nat := 1
  /-- Islands 0 to 19. -/
  islands : Vector Island 20 := Vector.replicate 20 {}
  /-- Warning taken as asserted. -/
  warn : Bool := false
  /-- Throttle for temperature in force. -/
  hot : Bool := false
  /-- Ticks at which every reading was first 5 °C below the threshold. -/
  coolSince : Option Nat := none
  /-- COUNT of assertions. -/
  warns : Nat := 0
  /-- TEL_P. -/
  total : BitVec 20 := 0
  /-- TEL_HBM. -/
  stackPower : BitVec 16 := 0
  /-- TEL_VIN. -/
  vin : BitVec 16 := 0
  /-- TEL_EN. -/
  energy : BitVec 64 := 0
  /-- Sensor readings. -/
  temps : Vector Nat 12 := Vector.replicate 12 0
  deriving DecidableEq, Repr

/-! ### Outputs -/

/-- What the chip sends, in order. -/
inductive Out where
  /-- A management response. -/
  | mgmt (r : MgmtRsp)
  /-- A report to the management controller: what happened. -/
  | notify (what : String)
  /-- An MCTP control response. -/
  | mctp (what : String) (body : List Byte)
  /-- An SPDM response. -/
  | spdm (what : String) (body : List Byte)
  /-- A session command's response: session, CMD, STATUS, body. -/
  | session (s cmd status : Nat) (body : List Byte)
  /-- A block to the host: face, KIND, target, layer, bytes. -/
  | face (f : FaceIx) (kind target layer : Nat) (bytes : List Byte)
  /-- A credit for the partition's queue on a face. -/
  | credit (f : FaceIx) (part : Part)
  /-- A result batch written to the host buffer (Table SERVE-9). -/
  | batch (f : FaceIx) (buf : Nat) (data : List Byte)
  /-- A release refused with a bounds status: the batch exceeds its buffer (R301). -/
  | oversize (f : FaceIx) (buf : Nat)
  /-- A result entry written to an output ring (Table SERVE-10). -/
  | ring (n : Nat) (data : List Byte)
  /-- A message handed to the link layer on a port. -/
  | msg (port : PortIx) (m : Msg)
  /-- A flood that leaves the chip. -/
  | flood (m : Msg)
  /-- A flit or hello on the lanes of a port. -/
  | flit (port : PortIx) (bytes : List Byte)
  /-- Bytes written to the cold tier at an offset of a partition's window. -/
  | cold (part : Part) (offset : Nat) (bytes : List Byte)
  /-- Cold-tier bytes wiped: offset and length. -/
  | coldWipe (part : Part) (offset len : Nat)
  /-- The value a register read returns. -/
  | reg (req : Requester) (page offset : Nat) (value : Word)
  deriving DecidableEq, Repr

/-- Reasons for which a step of the model stops with a fault. No command of the table has one (NOTES, Stops). -/
inductive Fault where
  /-- A memory access outside the address space the spec lays out; raised by no meaning: every meaning checks its
  addresses first. Safe. -/
  | address
  deriving DecidableEq, Repr

/-- Reasons for which the model has no meaning for a command. -/
inductive Refusal where
  /-- Raised by an arm of exec whose command has no meaning yet. Safe: nothing is claimed of it. -/
  | notModelled (mnemonic : String)
  deriving DecidableEq, Repr

/-- The state of the PAE. -/
structure State where
  /-- The commands waiting, first in first out. -/
  pending : List Instr := []
  /-- What the chip has sent, oldest first. -/
  out : List Out := []
  /-- Index of the next free value (log entry 1); the model's own field. -/
  freeIx : Nat := 0
  /-- Fuses and non-volatile store. -/
  nv : Nv := {}
  /-- Control core. -/
  cc : Cc := {}
  /-- Security unit. -/
  sec : Sec := {}
  /-- Register space. -/
  regs : Regs := {}
  /-- March counter. -/
  mc : March := {}
  /-- Plane. -/
  plane : Plane := {}
  /-- Ports. -/
  ports : Vector PortSt 6 := Vector.replicate 6 {}
  /-- Configuration epoch in force; none before the first step. -/
  epoch : Option Epoch := none
  /-- Pending epoch and the step at whose opening boundary it takes effect. -/
  epochPend : Option (Epoch × BitVec 64) := none
  /-- Program slots. -/
  progs : Vector (Option Program) 8 := Vector.replicate 8 none
  /-- Instruction-status areas of the program slots, a byte for each word index (R161); a byte not listed is CLEAN. -/
  instStatus : Vector (Tab Byte) 8 := Vector.replicate 8 []
  /-- Cores. -/
  cores : Vector CoreSt 64 := Vector.replicate 64 {}
  /-- Clusters. -/
  clusters : Vector ClusterSt 8 := Vector.replicate 8 {}
  /-- HBM bytes of the partition windows. -/
  hbm : Memory := []
  /-- Adapter slot table. -/
  slots : Tab SlotEnt := []
  /-- Version record table, record k of slot n at 4n + k. -/
  vrecs : Tab VRec := []
  /-- SETATTR writes for the next boundary: slot, TRAIN, TAG. -/
  attrNext : List (Nat × Bool × Word) := []
  /-- EVICTs for the next boundary. -/
  evictNext : List EvictReq := []
  /-- Loads verified, to become RESIDENT at the next boundary: slots. -/
  residentNext : List Nat := []
  /-- Tensor table. -/
  tensors : Tab Tensor := []
  /-- Tensor writes accepted for the next boundary. -/
  tensorNext : List (Nat × Tensor) := []
  /-- Tile digests received for frozen adapters and not yet compared (R226). -/
  tdigs : List TDig := []
  /-- KEEP (false) and DISCARD (true) accepted for the next boundary, by slot. -/
  freezeNext : List (Nat × Bool) := []
  /-- Update units: contributions added, elements stepped at the last action 2. -/
  uuAdd : Vector Nat 32 := Vector.replicate 32 0
  /-- Elements stepped at the last action 2. -/
  uuOpt : Vector Nat 32 := Vector.replicate 32 0
  /-- Busy update-clock cycles of the last step. -/
  uuBusy : Vector Nat 32 := Vector.replicate 32 0
  /-- Operations of the running step, one a cycle (R222). -/
  uuNow : Vector Nat 32 := Vector.replicate 32 0
  /-- Request records. -/
  recs : Tab ReqRec := []
  /-- Partitions. -/
  parts : Vector PartSt 16 := Vector.replicate 16 {}
  /-- Output rings. -/
  rings : Tab (Ring ResEntry) := []
  /-- Request faces. -/
  faces : Vector FaceSt 2 := Vector.replicate 2 {}
  /-- Segment unit. -/
  seg : SegUnit := {}
  /-- RCC unit. -/
  rcc : RccUnit := {}
  /-- Running step. -/
  run : Run := {}
  /-- Admission. -/
  adm : Admission := {}
  /-- Error unit. -/
  err : ErrUnit := {}
  /-- Power and telemetry. -/
  pw : Power := {}
  deriving DecidableEq, Repr

/-- The machine right after a cold reset: every register at its reset value, phase 0x0 of Table CTRL-9, no table
holding an entry, no command waiting. Values the spec does not give are those of log entry 2. -/
def State.reset : State := {}

end Sys2Proof.Machine
end

