-- ==== Sys2Proof/Machine/Tab.lean ====
section
/-!
DEFINITION. Sparse tables and byte memories in one canonical form: keys strictly rising, no entry equal to what an
unlisted key reads as. Every operation keeps that form (Laws/Tab.lean).
-/

namespace Sys2Proof.Machine

/-- The entry of a table at a key; `d` where none is listed. -/
def tabGet {α : Type} (d : α) : Tab α → Nat → α
  | [], _ => d
  | (j, v) :: r, k => if j = k then v else tabGet d r k

/-- The table with its entry at a key replaced; an entry equal to `d` is not listed. -/
def tabSet {α : Type} [DecidableEq α] (d : α) : Tab α → Nat → α → Tab α
  | [], k, x => if x = d then [] else [(k, x)]
  | (j, v) :: r, k, x =>
    if j < k then (j, v) :: tabSet d r k x
    else if j = k then (if x = d then r else (k, x) :: r)
    else (if x = d then (j, v) :: r else (k, x) :: (j, v) :: r)

/-- The table with one entry changed by a function. -/
def tabMod {α : Type} [DecidableEq α] (d : α) (t : Tab α) (k : Nat) (f : α → α) : Tab α :=
  tabSet d t k (f (tabGet d t k))

/-- Every listed key is at least k, keys rise strictly and no entry is `d`. -/
def tabWfFrom {α : Type} [DecidableEq α] (d : α) : Nat → Tab α → Bool
  | _, [] => true
  | k, (j, v) :: r => decide (k ≤ j) && decide (v ≠ d) && tabWfFrom d (j + 1) r

/-- The canonical form of a table. -/
def tabWf {α : Type} [DecidableEq α] (d : α) (t : Tab α) : Bool := tabWfFrom d 0 t

/-- The table without the entries whose key lies in [lo, lo + n). -/
def tabClear {α : Type} (t : Tab α) (lo n : Nat) : Tab α := t.filter (fun e => decide (e.1 < lo ∨ lo + n ≤ e.1))

/-- A byte of a memory; an unlisted byte reads as zero (log entry 3). -/
def memByte (m : Memory) (a : Nat) : Byte := tabGet 0 m a

/-- n bytes of a memory from an address. -/
def memRead (m : Memory) (a : Nat) : Nat → List Byte
  | 0 => []
  | n + 1 => memByte m a :: memRead m (a + 1) n

/-- Bytes written from an address up. -/
def memWrite : Memory → Nat → List Byte → Memory
  | m, _, [] => m
  | m, a, b :: r => memWrite (tabSet 0 m a b) (a + 1) r

/-- The little-endian number in n bytes of a memory. -/
def memNat (m : Memory) (a n : Nat) : Nat :=
  (memRead m a n).foldr (fun b acc => b.toNat + 256 * acc) 0

/-- n bytes from an address set to zero: they are no longer listed. -/
def memZero (m : Memory) (a n : Nat) : Memory := tabClear m a n

/-- The canonical form of a memory. -/
def Memory.wf (m : Memory) : Bool := tabWf 0 m

end Sys2Proof.Machine
end

