-- ==== Sys2Proof/Machine/Flags.lean ====
section
/-!
DEFINITION. Flags, interrupts, latches and error records: Table REGS-3, R81 to R84, R421 and R429 to R432, and the
fence of R322 and R437.
-/

namespace Sys2Proof.Machine

/-! ### Interrupt causes (Table REGS-3) -/

/-- KiB of the input journal in use: the inputs since the older complete checkpoint (R396). -/
def journalFill (inputs mark : Nat) : Nat := if inputs ≤ mark then 0 else (Config.journalKib (inputs - mark)).toNat % 8193

/-- INT bit `bit` of a page set. -/
def setInt (page : Fin 32) (bit : Nat) (s : State) : State :=
  { s with regs := { s.regs with
      pages := vmod s.regs.pages page (fun h => { h with intStatus := h.intStatus ||| BitVec.ofNat 8 (2 ^ bit) }) } }

/-- An interrupt cause arises: it is an input of the control core, as is what it announces (R396, R462); JOURNAL is set
when the journal is 7/8 full. -/
def raiseInt (page : Fin 32) (bit : Nat) (s : State) : State :=
  let t := setInt page bit { s with regs := { s.regs with inputs := s.regs.inputs + 1 } }
  { s with regs := if 7168 ≤ journalFill t.regs.inputs s.cc.ckptMarks.1 then (setInt 1 3 t).regs else t.regs }

/-- The partition manager page of a partition (Table REGS-1). -/
def pmPage (p : Part) : Fin 32 := ⟨16 + p.val, by omega⟩

/-- The page of a request face. -/
def facePage (f : FaceIx) : Fin 32 := ⟨10 + f.val, by omega⟩

/-- The chip sends something. -/
def send (o : Out) (s : State) : State := { s with out := s.out ++ [o] }

/-- A report to the management controller. -/
def report (what : String) (s : State) : State := send (.notify what) s

/-- One partition changed. -/
def modPart (p : Part) (f : PartSt → PartSt) (s : State) : State := { s with parts := vmod s.parts p f }

/-- The running step changed. -/
def modRun (f : Run → Run) (s : State) : State := { s with run := f s.run }

/-- One face changed. -/
def modFace (i : FaceIx) (f : FaceSt → FaceSt) (s : State) : State := { s with faces := vmod s.faces i f }

/-- One port changed. -/
def modPort (i : PortIx) (f : PortSt → PortSt) (s : State) : State := { s with ports := vmod s.ports i f }

/-- The cores as a command leaves them that changes no assignment and no bypass in force: both change at boundaries (R17,
R24, R110). -/
def keepAssign (s t : State) : Vector CoreSt 64 :=
  Vector.ofFn (fun n => { t.cores[n] with part := s.cores[n].part, byp := s.cores[n].byp })

/-- The security unit as a command leaves it that is no life-cycle command: a transition under way stays (R388). -/
def keepLc (s t : State) : Sec := { t.sec with pendLc := s.sec.pendLc }

/-! ### Error records (R421, R429 to R432) -/

/-- Saturation of the 16-bit error counters (R450). -/
def cnt16Max : Nat := 0xFFFE

/-- A chip-log entry (R432): the last 1,024 are kept. -/
def chipLog (code : Nat) (cls : ErrClass) (src aux info0 info1 : Nat) (s : State) : State :=
  let e : ErrEntry := { step := s.mc.step, code, cls, part := 0, chip := true, src, aux, info0, info1 }
  let l := s.err.log ++ [e]
  raiseInt 3 1 { s with err := { s.err with log := l.drop (l.length - 1024), prod := s.err.prod + 1 } }

/-- Free entries of a ring. -/
def ringRoom {ε : Type} (r : Ring ε) : Nat := if r.log2n = 0 then 0 else 2 ^ r.log2n - r.ents.length

/-- An entry written at the writer's index of a ring with room. -/
def ringPush {ε : Type} (r : Ring ε) (e : ε) : Ring ε := { r with ents := r.ents ++ [e], wr := r.wr + 1 }

/-- An entry for a ring the PAE writes: written when there is room and nothing waits before it, else it waits (R465). -/
def ringPut {ε : Type} (r : Ring ε) (e : ε) : Ring ε :=
  if r.wait = [] ∧ 0 < ringRoom r then ringPush r e else { r with wait := r.wait ++ [e] }

/-- Waiting entries written while there is room, at most n of them. -/
def ringDrain {ε : Type} : Nat → Ring ε → Ring ε
  | 0, r => r
  | n + 1, r =>
    match r.wait with
    | [] => r
    | e :: w => if 0 < ringRoom r then ringDrain n (ringPush { r with wait := w } e) else r

/-- Entries taken at the reader's index. -/
def ringTake {ε : Type} (r : Ring ε) (n : Nat) : Ring ε :=
  { r with ents := r.ents.drop n, rd := r.rd + BitVec.ofNat 16 n }

/-- An entry of a partition's error ring (R431): dropped and counted in ER_LOST when the ring has no room. The
partition's bit of the step status word is set whether or not it is dropped (Table REL-14). -/
def partErr (p : Part) (e : ErrEntry) (s : State) : State :=
  let e := { e with part := p.val }
  let s := modRun (fun r => { r with errParts := r.errParts ||| BitVec.ofNat 16 (2 ^ p.val) }) s
  if 0 < ringRoom s.parts[p].er then
    raiseInt 3 0 (raiseInt (pmPage p) 3 (modPart p (fun q => { q with er := ringPush q.er e }) s))
  else
    raiseInt (pmPage p) 4 (modPart p (fun q => { q with erLost := satAdd cnt16Max q.erLost 1 }) s)

/-- A CORRECTED error of a source (R421). -/
def countCorrected (src : Nat) (s : State) : State :=
  modRun (fun r => { r with corrected := true })
    { s with err := { s.err with cnt := tabMod (0, 0) s.err.cnt src (fun c => (satAdd cnt16Max c.1 1, c.2)) } }

/-- A CONTAINED error of a source (R421). -/
def countContained (src : Nat) (s : State) : State :=
  { s with err := { s.err with cnt := tabMod (0, 0) s.err.cnt src (fun c => (c.1, satAdd cnt16Max c.2 1)) } }

/-! ### Fence and fatal errors (R322, R437) -/

/-- A port's LP_STATE becomes `st`; the change raises the port's interrupt (Table REGS-3). -/
def setLink (i : PortIx) (st : LinkSt) (reason : Nat) (s : State) : State :=
  if s.ports[i].st = st ∧ s.ports[i].reason = reason then s
  else raiseInt 7 i.val (modPort i (fun p => { p with st, reason }) s)

/-- All ports of a list in a state go to another. -/
def setLinks (l : List PortIx) (sel : LinkSt → Bool) (st : LinkSt) (s : State) : State :=
  l.foldl (fun s i => if sel s.ports[i].st then setLink i st s.ports[i].reason s else s) s

/-- The chip fences itself (R322): its ports carry maintenance traffic only, and it reports. -/
def fenceChip (s : State) : State :=
  if s.mc.fenced then s else
  let s := raiseInt 5 3 { s with mc := { s.mc with fenced := true } }
  report "FENCED" (setLinks (List.finRange 6) (fun x => x = .up) .fenced s)

/-- A FATAL error (R421, R437): the fatal record, the chip-log entry, the entry kept in the non-volatile store, the
fence in hardware; every port not DOWN goes FENCED and no word issues. -/
def fatalError (src code aux info0 info1 : Nat) (s : State) : State :=
  let e : ErrEntry :=
    { step := s.mc.step, code, cls := .fatal, chip := true, src := src, aux := aux, info0 := info0, info1 := info1 }
  let s := chipLog code .fatal src aux info0 info1 s
  let s := { s with err := { s.err with fatal := s.err.fatal.orElse (fun _ => some (src, s.mc.step)) },
                    nv := { s.nv with lastFatal := some e } }
  let s := fenceChip s
  let s := setLinks (List.finRange 6) (fun x => x ≠ .down) .fenced s
  modRun (fun r => { r with held := true }) s

/-- A FATAL error of a memory or unit of Table REL-4. -/
def fatalSrc (src : Nat) (s : State) : State := fatalError src 0x18 0 src 0 s

/-! ### Exception latches (R81, R82) -/

/-- The coordinate word of Table FMT-11. ELEM is the element index, 0 to 31, or 0x3F at the sum or accumulation level. -/
def coordWord (kind elem col row instr : Nat) (half : Bool) (array core : Nat) : BitVec 64 :=
  BitVec.ofNat 64 (kind + put 3 elem + put 9 col + put 16 row + put 32 instr + put 52 (b2n half) + put 53 array + put 55 core)

/-- The order of R82: (INSTR, ROW, COL, ELEM), then KIND. -/
def latchKey (c : BitVec 64) : List Nat := [fld c 32 20, fld c 16 16, fld c 9 7, fld c 3 6, fld c 0 3]

/-- Lexicographic order of keys of one length. -/
def keyLt : List Nat → List Nat → Bool
  | [], _ => false
  | _, [] => false
  | a :: r, b :: t => decide (a < b) || (decide (a = b) && keyLt r t)

/-- An event of a KIND of Table FMT-10 brought to a latch: the first by R82 is kept, the flag of `flag` (1 INV, 2 NAN,
4 OVF) is set. -/
def latchEvent (c : BitVec 64) (flag : Nat) (l : Latch) : Latch :=
  { coord := if fld l.coord 0 3 = 0 || keyLt (latchKey c) (latchKey l.coord) then c else l.coord
    inv := l.inv || bitAt (BitVec.ofNat 3 flag) 0
    nan := l.nan || bitAt (BitVec.ofNat 3 flag) 1
    ovf := l.ovf || bitAt (BitVec.ofNat 3 flag) 2 }

/-- The events of two latches brought together (R82). -/
def joinLatch (a b : Latch) : Latch :=
  { coord := if fld b.coord 0 3 = 0 then a.coord
      else if fld a.coord 0 3 = 0 || keyLt (latchKey b.coord) (latchKey a.coord) then b.coord else a.coord
    inv := a.inv || b.inv
    nan := a.nan || b.nan
    ovf := a.ovf || b.ovf }

/-- The flag that a KIND sets (Table FMT-10); KIND 5 sets what v arose with and is given apart. -/
def kindFlag (kind : Nat) : Nat := if kind = 1 ∨ kind = 2 then 1 else if kind = 3 then 2 else if kind = 4 then 4 else 0

/-- The flags of a latch as bits INV, NAN, OVF. -/
def latchFlags (l : Latch) : Nat := b2n l.inv + 2 * b2n l.nan + 4 * b2n l.ovf

/-- An arithmetic event of a core brought to one of its nine latches; KIND 0 is no event. -/
def coreEvent (core : CoreIx) (latch : Fin 9) (kind flag elem col row instr : Nat) (s : State) : State :=
  if kind = 0 then s else
  let half := latch.val < 8 && latch.val % 2 == 1
  let array := if latch.val < 8 then latch.val / 2 else 0
  let w := coordWord kind elem col row instr half array core.val
  { s with cores := vmod s.cores core (fun c => { c with latches := vmod c.latches latch (latchEvent w flag) }) }

end Sys2Proof.Machine
end

