-- ==== Sys2Proof/Machine/Fp.lean ====
section
/-!
DEFINITION. The number formats and their arithmetic (chapter FMT): every result is computed exactly over dyadic
numbers and rounded once to nearest even (R68). An operation answers its code and the KIND of Table FMT-10 of the
event it raises, 0 for none.
-/

namespace Sys2Proof.Machine

/-- A decoded value: NaN, an infinity, or (−1)^neg × m × 2^e. -/
inductive Val where
  /-- NaN; no payload is kept (R62), its sign only for conversions. -/
  | nan
  /-- An infinity. -/
  | inf (neg : Bool)
  /-- A finite value. -/
  | fin (neg : Bool) (m : Nat) (e : Int)
  deriving DecidableEq, Repr

/-- A format: width, significand bits, exponent of the smallest subnormal, largest finite code, infinity code (none for
F8v) and canonical NaN (Tables FMT-1 and FMT-4). -/
structure Fmt where
  /-- Bits of the code. -/
  width : Nat
  /-- Significand bits. -/
  prec : Nat
  /-- Exponent of the smallest subnormal. -/
  qmin : Int
  /-- Code of the largest finite magnitude. -/
  maxc : Nat
  /-- Code of plus infinity. -/
  infc : Option Nat
  /-- Canonical NaN. -/
  nanc : Nat
  deriving DecidableEq, Repr

/-- F8v (R58). -/
def fmtF8v : Fmt := ⟨8, 4, -9, 0x7E, none, 0x7F⟩
/-- F8g (R59). -/
def fmtF8g : Fmt := ⟨8, 3, -16, 0x7B, some 0x7C, 0x7E⟩
/-- B16 (R60). -/
def fmtB16 : Fmt := ⟨16, 8, -133, 0x7F7F, some 0x7F80, 0x7FC0⟩
/-- FP32 (R60). -/
def fmtF32 : Fmt := ⟨32, 24, -149, 0x7F7FFFFF, some 0x7F800000, 0x7FC00000⟩

/-- The value of a code. -/
def fpDecode (f : Fmt) (code : Nat) : Val :=
  let neg := nfld code (f.width - 1) 1 == 1
  let c := code % 2 ^ (f.width - 1)
  if c ≤ f.maxc then
    let e := c / 2 ^ (f.prec - 1)
    let m := c % 2 ^ (f.prec - 1)
    if e = 0 then .fin neg m f.qmin else .fin neg (m + 2 ^ (f.prec - 1)) (f.qmin + (e - 1 : Nat))
  else if f.infc = some c then .inf neg else .nan

/-- m ÷ 2^k rounded to nearest, ties to even. -/
def rne (m k : Nat) : Nat :=
  let q := m >>> k
  let r := m % 2 ^ k
  let h := 2 ^ k
  if 2 * r > h ∨ (2 * r = h ∧ q % 2 = 1) then q + 1 else q

/-- Magnitude m × 2^e rounded to the format, as a code without sign; beyond the largest code it has overflowed. -/
def fpRound (f : Fmt) (m : Nat) (e : Int) : Nat :=
  if m = 0 then 0 else
  let q := max (e + (Nat.log2 m + 1 : Nat) - f.prec) f.qmin
  let m' := if q ≤ e then m <<< (e - q).toNat else rne m (q - e).toNat
  (q - f.qmin).toNat * 2 ^ (f.prec - 1) + m'

/-- A code with its sign bit. -/
def withSign (f : Fmt) (neg : Bool) (c : Nat) : Nat := if neg then c + 2 ^ (f.width - 1) else c

/-- FP32 code of a sign and an exact magnitude, and KIND 4 when it overflows to an infinity. -/
def f32Round (neg : Bool) (m : Nat) (e : Int) : F32 × Nat :=
  let c := fpRound fmtF32 m e
  if c > fmtF32.maxc then (BitVec.ofNat 32 (withSign fmtF32 neg 0x7F800000), 4)
  else (BitVec.ofNat 32 (withSign fmtF32 neg c), 0)

/-- The canonical NaN of FP32. -/
def f32Nan : F32 := 0x7FC00000

/-- The infinity of FP32 of a sign. -/
def f32Inf (neg : Bool) : F32 := if neg then 0xFF800000 else 0x7F800000

/-- The value of an FP32 code. -/
def f32Val (x : F32) : Val := fpDecode fmtF32 x.toNat

/-- x is neither NaN nor infinite. -/
def f32Finite (x : F32) : Bool := match f32Val x with | .fin _ _ _ => true | _ => false

/-- x is a NaN. -/
def f32IsNan (x : F32) : Bool := match f32Val x with | .nan => true | _ => false

/-- A signed magnitude as an integer. -/
def signed (neg : Bool) (m : Nat) : Int := if neg then -(m : Int) else m

/-- Exact sum of two dyadic numbers. -/
def dyAdd (a b : Int × Int) : Int × Int :=
  if a.2 ≤ b.2 then (a.1 + b.1 * 2 ^ (b.2 - a.2).toNat, a.2) else (a.1 * 2 ^ (a.2 - b.2).toNat + b.1, b.2)

/-- FP32 code of an exact dyadic sum: zero is +0 (R63). -/
def f32OfDyadic (x : Int × Int) : F32 × Nat := f32Round (decide (x.1 < 0)) x.1.natAbs x.2

/-- Sum of values, rounded once (R65): a NaN gives KIND 3, infinities of both signs KIND 2, overflow KIND 4. -/
def f32Sum (l : List Val) : F32 × Nat :=
  if l.any (fun v => match v with | .nan => true | _ => false) then (f32Nan, 3) else
  let pos := l.any (fun v => match v with | .inf false => true | _ => false)
  let neg := l.any (fun v => match v with | .inf true => true | _ => false)
  if pos && neg then (f32Nan, 2) else if pos then (f32Inf false, 0) else if neg then (f32Inf true, 0) else
  f32OfDyadic (l.foldl (fun acc v => match v with | .fin n m e => dyAdd acc (signed n m, e) | _ => acc) (0, 0))

/-- FP32 addition (R63, R66). -/
def f32Add (a b : F32) : F32 × Nat := f32Sum [f32Val a, f32Val b]

/-- Sign inverted. -/
def f32Neg (a : F32) : F32 := a ^^^ 0x80000000

/-- FP32 subtraction. -/
def f32Sub (a b : F32) : F32 × Nat :=
  if f32IsNan b then (f32Nan, 3) else f32Add a (f32Neg b)

/-- Exact product of two values: KIND 1 for an infinity with a zero (R80), 3 for a NaN. -/
def valMul (a b : Val) : Val × Nat :=
  match a, b with
  | .nan, _ => (.nan, 3)
  | _, .nan => (.nan, 3)
  | .inf n, .inf k => (.inf (n != k), 0)
  | .inf n, .fin k m _ => if m = 0 then (.nan, 1) else (.inf (n != k), 0)
  | .fin k m _, .inf n => if m = 0 then (.nan, 1) else (.inf (n != k), 0)
  | .fin n m e, .fin k m' e' => (.fin (n != k) (m * m') (e + e'), 0)

/-- A value rounded to FP32, with its sign kept for a zero. -/
def f32OfVal (v : Val) : F32 × Nat :=
  match v with
  | .nan => (f32Nan, 3)
  | .inf n => (f32Inf n, 0)
  | .fin n m e => f32Round n m e

/-- FP32 multiplication; an infinity with a zero is another invalid operation of the vector unit, KIND 2 (R80). -/
def f32Mul (a b : F32) : F32 × Nat :=
  match valMul (f32Val a) (f32Val b) with
  | (_, 1) => (f32Nan, 2)
  | (_, 3) => (f32Nan, 3)
  | (v, _) => f32OfVal v

/-- FP32 fused multiply-add, rounded once. -/
def f32Fma (a b c : F32) : F32 × Nat :=
  if f32IsNan a || f32IsNan b || f32IsNan c then (f32Nan, 3) else
  match valMul (f32Val a) (f32Val b) with
  | (_, 1) => (f32Nan, 2)
  | (v, _) => f32Sum [v, f32Val c]

/-- A value times 2^k. -/
def valScale (v : Val) (k : Int) : Val :=
  match v with
  | .fin n m e => .fin n m (e + k)
  | x => x

/-- x × 2^k, rounded (R66): KIND 3 for a NaN, 4 beyond the FP32 range. -/
def f32Scale (x : F32) (k : Int) : F32 × Nat := f32OfVal (valScale (f32Val x) k)

/-- Floor of the square root, one result bit a turn from bit `k` down. -/
def isqrtFrom (n : Nat) : Nat → Nat → Nat
  | 0, r => r
  | k + 1, r => let t := r + 2 ^ k; isqrtFrom n k (if t * t ≤ n then t else r)

/-- Floor of the square root. -/
def isqrt (n : Nat) : Nat := isqrtFrom n (Nat.log2 n / 2 + 1) 0

/-- FP32 square root, rounded once; KIND 2 for a negative operand, 3 for a NaN. -/
def f32Sqrt (x : F32) : F32 × Nat :=
  match f32Val x with
  | .nan => (f32Nan, 3)
  | .inf true => (f32Nan, 2)
  | .inf false => (f32Inf false, 0)
  | .fin n m e =>
    if m = 0 then (x, 0) else if n then (f32Nan, 2) else
    -- even exponent, with at least 26 result bits and a sticky bit below
    let k : Nat := if (e % 2) = 0 then 60 else 61
    let m' := m <<< k
    let r := isqrt m'
    let s := if r * r = m' then 0 else 1
    f32Round false (2 * r + s) ((e - k) / 2 - 1)

/-- FP32 division, rounded once; KIND 2 for 0 ÷ 0 and ∞ ÷ ∞ and for a division of a finite number by zero, which gives
an infinity. -/
def f32Div (a b : F32) : F32 × Nat :=
  match f32Val a, f32Val b with
  | .nan, _ => (f32Nan, 3)
  | _, .nan => (f32Nan, 3)
  | .inf _, .inf _ => (f32Nan, 2)
  | .inf n, .fin k _ _ => (f32Inf (n != k), 0)
  | .fin n _ _, .inf k => (BitVec.ofNat 32 (withSign fmtF32 (n != k) 0), 0)
  | .fin n m e, .fin k m' e' =>
    if m' = 0 then (if m = 0 then (f32Nan, 2) else (f32Inf (n != k), 0)) else
    let num := m <<< 60
    let q := num / m'
    let s := if num % m' = 0 then 0 else 1
    f32Round (n != k) (2 * q + s) (e - e' - 61)

/-- Conversion to F8v, F8g or B16 (Table FMT-5): code and KIND, 4 for OVF and 3 for NAN. -/
def fpConvert (f : Fmt) (sat : Bool) (v : Val) : Nat × Nat :=
  match v with
  | .nan => (f.nanc, 3)
  | .inf n =>
    if sat then (withSign f n f.maxc, 4)
    else match f.infc with
      | some c => (withSign f n c, 0)
      | none => (withSign f n f.nanc, 4)
  | .fin n m e =>
    let c := fpRound f m e
    if c ≤ f.maxc then (withSign f n c, 0)
    else if sat then (withSign f n f.maxc, 4)
    else (withSign f n (f.infc.getD f.nanc), 4)

/-- The default mode of R70: saturating for F8v, non-saturating for F8g and B16. -/
def fpDefault (f : Fmt) (v : Val) : Nat × Nat := fpConvert f (decide (f = fmtF8v)) v

/-- A code of another format as FP32, exact (R60); a NaN becomes the canonical NaN. -/
def f32Of (f : Fmt) (code : Nat) : F32 := (f32OfVal (fpDecode f code)).1

/-- ⌊log2⌋ of a finite non-zero magnitude. -/
def floorLog2 (m : Nat) (e : Int) : Int := (Nat.log2 m : Int) + e

/-- Order of two magnitudes m × 2^e. -/
def magLe (a b : Nat × Int) : Bool :=
  if a.2 ≤ b.2 then decide (a.1 ≤ b.1 * 2 ^ (b.2 - a.2).toNat) else decide (a.1 * 2 ^ (a.2 - b.2).toNat ≤ b.1)

/-- Largest finite magnitude of a list of values. -/
def maxMag (l : List Val) : Nat × Int :=
  l.foldl (fun acc x => match x with
    | .fin _ m e => if magLe (m, e) acc then acc else (m, e)
    | _ => acc) (0, 0)

/-- The quantisation exponent ⌊log2 m⌋ − 7 of R48 and R73 before any clamp; 0 when m is 0. -/
def quantExpOf (l : List Val) : Int :=
  let m := maxMag l
  if m.1 = 0 then 0 else floorLog2 m.1 m.2 - 7

/-- The quantisation exponent of FP32 values. -/
def quantExp (l : List F32) : Int := quantExpOf (l.map f32Val)

/-- Numeric order of two FP32 codes that are not NaN. -/
def f32Lt (a b : F32) : Bool :=
  let key : F32 → Int := fun x => if x.toNat < 2 ^ 31 then (x.toNat : Int) else -((x.toNat : Int) - 2 ^ 31)
  decide (key a < key b)

/-! ### XA96 (R74 to R78) -/

/-- 2^95 − 1. -/
def xaMax : Int := 2 ^ 95 - 1

/-- The integer nearest to an exact dyadic number, ties to even. -/
def roundInt (neg : Bool) (m : Nat) (e : Int) : Int :=
  signed neg (if 0 ≤ e then m <<< e.toNat else rne m (-e).toNat)

/-- A contribution rounded onto the grid (R75): q, WIN, NAN. -/
def xaQuant (v : Val) (w : Int) : Int × Bool × Bool :=
  match v with
  | .nan => (0, false, true)
  | .inf n => (if n then -xaMax else xaMax, true, false)
  | .fin n m e =>
    let q := roundInt n m (e - w)
    if q > xaMax then (xaMax, true, false) else if q < -xaMax then (-xaMax, true, false) else (q, false, false)

/-- Readout of the sum S (R78): the FP32 value, WIN, OVF. -/
def xaRead (s w : Int) : F32 × Bool × Bool :=
  let n := if s > xaMax then xaMax else if s < -xaMax then -xaMax else s
  let r := f32OfDyadic (n, w)
  (r.1, decide (n ≠ s), decide (r.2 = 4))

/-- A tile of values as working copy (R73, R241): the scale exponent and the F8v codes. -/
def quantVals (l : List Val) : Int × List Byte :=
  let a := max (-128) (quantExpOf l)
  (a, l.map (fun x => BitVec.ofNat 8 (fpConvert fmtF8v true (valScale x (-a))).1))

/-- A tile of FP32 masters as working copy (R73): the scale exponent and the F8v codes. -/
def quantTile (l : List F32) : Int × List Byte := quantVals (l.map f32Val)

end Sys2Proof.Machine
end

