-- ==== Sys2Proof/Machine/Operands.lean ====
section
/-!
DEFINITION. The fields of the formats to which the spec gives bits: instruction words (Tables ISA-5 to ISA-15 and
RCC-12), row tags (Table ARITH-3), convolution descriptors, error entries and messages; and the geometry of tiles,
segments and variant areas.
-/

namespace Sys2Proof.Machine

/-! ### Instruction words -/

/-- OPCODE (Table ISA-5). -/
def wOp (w : IWord) : Nat := fld w 0 8
/-- NB. -/
def wNb (w : IWord) : Nat := fld w 8 28
/-- SET; 0x3FF none. -/
def wSet (w : IWord) : Nat := fld w 36 10
/-- An array word: MUL, MULT or DIST. -/
def wIsArray (w : IWord) : Bool := wOp w == 0x30 || wOp w == 0x31 || wOp w == 0x32

/-- Fields of an array word (Table ISA-10). -/
structure ArrayWord where
  /-- Opcode. -/
  op : Nat
  /-- ARRAY. -/
  array : Nat
  /-- HALF. -/
  half : Nat
  /-- SHAPE. -/
  shape : Nat
  /-- HELD. -/
  held : Bool
  /-- REG. -/
  reg : Nat
  /-- STAGE. -/
  stage : Nat
  /-- SLICE. -/
  slice : Nat
  /-- ACC: 0 START, 1 ADD, 2 DRAIN. -/
  acc : Nat
  /-- FINAL. -/
  final : Bool
  /-- ACC_ADDR. -/
  accAddr : Nat
  /-- OUT_OFF. -/
  outOff : Nat
  /-- TARGET, or OP of a DIST word. -/
  target : Nat
  /-- IDX of a DIST word. -/
  idx : Bool
  /-- BLK. -/
  blk : Nat
  /-- RGRP. -/
  rgrp : Nat
  /-- RID. -/
  rid : Nat
  deriving DecidableEq, Repr

/-- The fields of an array word. -/
def arrayWord (w : IWord) : ArrayWord :=
  { op := wOp w, array := fld w 8 2, half := fld w 10 2, shape := fld w 12 2, held := bitAt w 14, reg := fld w 15 1,
    stage := fld w 16 3, slice := fld w 19 17, acc := fld w 36 2, final := bitAt w 38, accAddr := fld w 39 15,
    outOff := fld w 54 15, target := fld w 69 4, idx := bitAt w 73, blk := fld w 73 12, rgrp := fld w 85 3,
    rid := fld w 88 6 }

/-! ### Row tags (Table ARITH-3) -/

/-- SLOT. -/
def tagSlot (t : RowTag) : Nat := fld t 0 16
/-- VERSION. -/
def tagVersion (t : RowTag) : Nat := fld t 16 16
/-- PART. -/
def tagPart (t : RowTag) : Part := ⟨fld t 32 4, Nat.mod_lt _ (by decide)⟩
/-- REQ. -/
def tagReq (t : RowTag) : Nat := fld t 36 18
/-- VALID. -/
def tagValid (t : RowTag) : Bool := bitAt t 54
/-- GRAD. -/
def tagGrad (t : RowTag) : Bool := bitAt t 55

/-- A row tag of its fields. -/
def mkTag (slot version part req : Nat) (valid grad : Bool) : RowTag :=
  BitVec.ofNat 64 (slot % 2 ^ 16 + put 16 (version % 2 ^ 16) + put 32 (part % 16) + put 36 (req % 2 ^ 18)
    + put 54 (b2n valid) + put 55 (b2n grad))

/-! ### Tiles (Table CORE-3, R91, R234) -/

/-- Depth and lanes of a shape: 0 square, 1 wide, 2 wider. -/
def shapeDims (shape : Nat) : Nat × Nat := if shape = 0 then (32, 32) else if shape = 1 then (16, 64) else (8, 128)

/-- The shape of an adapter's B tiles by its rank (R47). -/
def bShape (rank : Nat) : Nat := if rank ≤ 8 then 2 else if rank ≤ 16 then 1 else 0

/-- Columns stored and depth stored of a tile of a matrix at a rank (R91, R234). -/
def tilePacked (matB : Bool) (rank : Nat) : Nat × Nat :=
  if matB then let d := shapeDims (bShape rank); (min rank d.1, d.2) else (32, min rank 32)

/-- Packed bytes of a tile, TBYTES. -/
def tileBytes (matB : Bool) (rank : Nat) : Nat := let p := tilePacked matB rank; p.1 * p.2

/-- Rank groups of an adapter. -/
def rankGroups (rank : Nat) : Nat := cdiv rank 32

/-- Tiles per layer of a matrix of a target at a rank (R145, Table RES-4). -/
def tilesPerLayer (t : Target) (matB : Bool) (rank : Nat) : Nat :=
  if matB then
    let d := shapeDims (bShape rank)
    cdiv rank d.1 * (t.dout / d.2)
  else rankGroups rank * (t.din / 32)

/-- Rank of element 0 of a tile, and first d_in or d_out element it covers, by its index within a layer (R145). -/
def tileOrigin (t : Target) (matB : Bool) (rank i : Nat) : Nat × Nat :=
  if matB then
    let d := shapeDims (bShape rank)
    let per := max 1 (t.dout / d.2)
    ((i / per) * d.1, (i % per) * d.2)
  else
    let per := max 1 (t.din / 32)
    ((i / per) * 32, (i % per) * 32)

/-- Packed codes spread over the full shape, unused lanes and depth zero codes (R147). -/
def unpackTile (matB : Bool) (rank shape : Nat) (bytes : List Byte) : List Byte :=
  let d := shapeDims shape
  let p := tilePacked matB rank
  (List.range d.1).flatMap (fun j => (List.range d.2).map (fun l =>
    if j < p.1 ∧ l < p.2 then bytes.getD (j * p.2 + l) 0 else 0))

/-! ### Variant areas (Tables RES-3, RES-4) -/

/-- Offsets of the codes and of the scale bytes of a matrix in an area. -/
structure DirEnt where
  /-- CODES. -/
  codes : Nat := 0
  /-- SCALES. -/
  scales : Nat := 0
  /-- TPL. -/
  tpl : Nat := 0
  /-- PRESENT. -/
  present : Bool := false
  /-- TBYTES. -/
  tbytes : Nat := 0
  /-- SHAPE. -/
  shape : Nat := 0
  deriving DecidableEq, Repr

/-- The directory entry of (target, MAT) read from an area. -/
def dirEnt (m : Memory) (area target : Nat) (matB : Bool) : DirEnt :=
  let v := memNat m (area + 0x40 + 16 * (2 * target + b2n matB)) 16
  { codes := nfld v 0 32, scales := nfld v 32 32, tpl := nfld v 64 16, present := nfld v 80 1 == 1,
    tbytes := nfld v 81 11, shape := nfld v 92 2 }

/-- Tile number `tile` (layer × TPL + index) of a matrix in an area: its packed bytes and its scale byte. -/
def areaTile (m : Memory) (area : Nat) (e : DirEnt) (tile : Nat) : List Byte × Byte :=
  (memRead m (area + e.codes + tile * e.tbytes) e.tbytes, memByte m (area + e.scales + tile))

/-! ### Look-ups -/

/-- The target descriptor of the epoch in force; disabled when there is none. -/
def targetOf (s : State) (t : Nat) : Target :=
  match s.epoch with
  | some e => e.targets.getD t {}
  | none => {}

/-- The attention descriptor of the epoch in force. -/
def attOf (s : State) (d : Nat) : AttDesc :=
  match s.epoch with
  | some e => e.atts.getD d {}
  | none => {}

/-- The slot table entry. -/
def slotOf (s : State) (n : Nat) : SlotEnt := tabGet {} s.slots n

/-- Version record k of slot n. -/
def vrecOf (s : State) (n k : Nat) : VRec := tabGet {} s.vrecs (4 * n + k)

/-- The number of the record of a slot that holds a version and is PUBLISHED or RETAINED. -/
def servingRec (s : State) (slot version : Nat) : Option Nat :=
  (List.range 4).find? (fun k => let v := vrecOf s slot k; v.version == version && (v.st == .published || v.st == .retained))

/-- The number of the record of a slot that holds a version in any state but EMPTY. -/
def anyRec (s : State) (slot version : Nat) : Option Nat :=
  (List.range 4).find? (fun k => let v := vrecOf s slot k; v.version == version && v.st != .empty)

/-- The request record. -/
def recOf (s : State) (r : Nat) : ReqRec := tabGet {} s.recs r

/-- The face of a row: that of its request. -/
def rowFace (s : State) (t : RowTag) : FaceIx := (recOf s (tagReq t)).face

/-- The DELTA_FMT width in force for a partition on a face: 4 for FP32, 2 for B16 (R53; log entry 20). -/
def deltaWidth (s : State) (p : Part) (f : FaceIx) : Nat :=
  let r := s.parts[p].force
  if (if f = 0 then r.pdfmt else r.ddfmt) then 4 else 2

/-! ### Placement (R124) -/

/-- The plan entry of segment entry i. -/
def planRow (s : State) (i : Nat) : PlanRow := match s.run.prog with | some p => p.plan.getD i {} | none => {}

/-- Positions in one cluster of a plan entry: b. -/
def planBlock (r : PlanRow) : Nat := cdiv r.maxRows (max 1 r.cln)

/-- Cluster and block position of a position of segment entry i. -/
def placeOf (r : PlanRow) (p : Nat) : Nat × Nat := let b := max 1 (planBlock r); (r.clFirst + p / b, p % b)

/-- First position that lies in a cluster. -/
def clusterFirst (r : PlanRow) (c : Nat) : Nat := (c - r.clFirst) * planBlock r

/-- The batch row number at a position of a segment. -/
def rowAt (s : State) (sg : Seg) (p : Nat) : Nat := s.run.rowList.getD (sg.off + p) 0

/-- Where a batch row lies: its segment entry and position; none for a row of no segment. -/
def rowPlace (s : State) (row : Nat) : Option (Nat × Nat) :=
  (s.run.segs.zipIdx.findSome? (fun x =>
    ((List.range x.1.count).find? (fun p => rowAt s x.1 p == row)).map (fun p => (x.2, p))))

/-- The zero-row bit of a batch row for a target. -/
def zeroRow (s : State) (t row : Nat) : Bool := (s.run.zero.getD t []).contains row

/-- The row tag of a batch row. -/
def tagOf (s : State) (row : Nat) : RowTag := s.run.tags.getD row 0

/-- The valid rows of a face, ascending. -/
def faceRows (s : State) (f : FaceIx) : List Nat :=
  (List.range s.run.tags.length).filter (fun r => let t := tagOf s r; tagValid t && decide (rowFace s t = f))

/-- The cluster of a core (R14). -/
def clusterOf (n : CoreIx) : ClusterIx := ⟨n.val / 8, by omega⟩

/-- Core j of a cluster. -/
def coreOf (c : ClusterIx) (j : Nat) : CoreIx := ⟨8 * c.val + j % 8, by omega⟩

/-- The set bits of a mask of n bits, ascending. -/
def maskBits (mask n : Nat) : List Nat := (List.range n).filter (fun j => nfld mask j 1 == 1)

end Sys2Proof.Machine
end

