-- ==== Sys2Proof/Machine/Issue.lean ====
section
/-!
DEFINITION. Issue of step-program words (R118 to R121): a command names a queue, and the queue's next word issues and
completes when the conditions of R119 hold; otherwise nothing happens (log entry 10).
-/

namespace Sys2Proof.Machine

/-- The run of words of a queue of the running program. -/
def issuerOf (s : State) (q : Nat) : Option Issuer :=
  match s.run.prog with
  | some p => p.issuers.find? (fun i => i.queue == q)
  | none => none

/-- Index and word at offset `off` beyond the words a queue has issued. -/
def wordAt (s : State) (q off : Nat) : Option (Nat × IWord) :=
  match s.run.prog, issuerOf s q with
  | some p, some i =>
    let k := tabGet 0 s.run.ptr q + off
    if k < i.count then some (i.first + k, p.words.getD (i.first + k) 0) else none
  | _, _ => none

/-- Cycle `nb` of the running step has been reached: cycle 0 follows the 32 cycles of the boundary window, and 7
array-clock cycles take 4 ticks (R119, R308). -/
def nbReached (s : State) (nb : Nat) : Bool :=
  decide (4 * (32 + nb) ≤ 7 * (s.mc.tick.toNat - s.run.openTick))

/-- Words issue: a step is open, segmentation has found the batch to fit, no fault holds issue and no FATAL error
has stopped the chip (R126, R433, R437). -/
def issueOpen (s : State) : Bool :=
  s.run.isOpen && s.run.segmented && s.run.void == 0 && !s.run.held && s.err.fatal.isNone

/-- The next word of a queue when it may issue. -/
def readyWord (s : State) (q : Nat) : Option (Nat × IWord) :=
  if issueOpen s then
    match wordAt s q 0 with
    | some (i, w) => if nbReached s (wNb w) then some (i, w) else none
    | none => none
  else none

/-- Two words of a program are array words of one group: no issuing word stands between them (R133). -/
def sameGroup (l : List IWord) (i j : Nat) : Bool :=
  let a := min i j
  ((l.drop a).take (max i j - a + 1)).all wIsArray

/-- A contained fault hits a word: the word it names; a feeder queue's fault every array word of that group (Table CORE-9). -/
def faultHits (r : Run) (f : StepFault) (i : Nat) : Bool :=
  f.word == i || (f.src == 5 && (match r.prog with | some p => sameGroup p.words f.word i | none => false))

/-- A contained fault of the core store, a vector unit or an update unit poisons what the word of that unit reads or makes
(Table CORE-9, Table REL-4). DESIGN CHOICE: the ROW of such a fault names the 128-byte granule of the word's source for VEC and
CVT, the tile of the word for MACC, and the batch row for REDUCE (log entry 140). -/
def unitPoison (s : State) (i row : Nat) : Bool :=
  s.run.hw.any (fun f => f.1.word == i && (f.1.src == 1 || f.1.src == 8 || f.1.src == 9) && f.1.row == row)

/-- The status byte of a word: the code of half 1 stands in bits 7:4 (R161). A word hit by a contained fault completes
HW_FAULT (Table CORE-9). -/
def setStatus (i code : Nat) (half1 : Bool) (s : State) : State :=
  modRun (fun r =>
    let code := if r.hw.any (fun f => faultHits r f.1 i) then 2 else code
    { r with status := tabSet 0 r.status i (BitVec.ofNat 8 (if half1 then 16 * code else code)) }) s

/-- n words of a queue are over, and the first counts its token (R120). -/
def finishWord (q n : Nat) (w : IWord) (s : State) : State :=
  modRun (fun r => { r with
    ptr := tabMod 0 r.ptr q (· + n)
    tokens := if wSet w = 0x3FF then r.tokens else tabMod 0 r.tokens (wSet w) (· + 1) }) s

/-- An entry of a word for the error ring of a partition, added at sealing (R162). -/
def wordErr (i : Nat) (p : Option Part) (e : ErrEntry) (s : State) : State :=
  match p with
  | some p => modRun (fun r => { r with wordErrs := r.wordErrs ++ [(i, p, { e with step := s.mc.step })] }) s
  | none => s

/-- Another entry for the error ring of a partition, added at sealing in the order of the actions (R431). -/
def stepErr (p : Part) (e : ErrEntry) (s : State) : State :=
  modRun (fun r => { r with otherErrs := r.otherErrs ++ [(p, { e with step := s.mc.step })] }) s

/-- An entry for the error ring of a partition from outside the words: it waits for sealing while a step is open and
its batch is not sealed, and is written at once otherwise. -/
def noteErr (p : Part) (e : ErrEntry) (s : State) : State :=
  if s.run.isOpen && decide (s.run.acted < 5) then stepErr p e s else partErr p { e with step := s.mc.step } s

/-- The partition to which a core is assigned. -/
def corePart (s : State) (n : CoreIx) : Option Part :=
  if h : s.cores[n].part < 16 then some ⟨s.cores[n].part, h⟩ else none

/-- The power state of a cluster's island is RETAIN or OFF (R442). -/
def clusterDown (s : State) (c : ClusterIx) : Bool :=
  let i : Fin 20 := ⟨2 + c.val, by omega⟩
  s.pw.islands[i].st == .retain || s.pw.islands[i].st == .off

/-- A word selected by `sel` issues from a queue: its work answers none where an interlock still holds it. A word of a
cluster in RETAIN or OFF completes SKIPPED (R442). -/
def issueWord (q : Nat) (sel : IWord → Bool) (down : State → Bool) (work : Nat → IWord → State → Option State)
    (s : State) : State :=
  match readyWord s q with
  | none => s
  | some (i, w) =>
    if sel w then
      if down s then finishWord q 1 w (setStatus i 4 false s)
      else match work i w s with
        | some t => finishWord q 1 w t
        | none => s
    else s

/-- A word that had issued completes: it leaves the flight, and its token counts (R119, R120). -/
def landWord (q i : Nat) (w : IWord) (s : State) : State :=
  finishWord q 0 w (modRun (fun r => { r with flight := r.flight.erase (q, i) }) s)

/-- The first word of a queue in flight that `sel` selects and whose work ends now. -/
def landFlight (q : Nat) (sel : IWord → Bool) (work : Nat → IWord → State → Option State) (s : State) : Option State :=
  match s.run.prog with
  | none => none
  | some p => s.run.flight.findSome? (fun x =>
      let w := p.words.getD x.2 0
      if x.1 = q ∧ sel w = true then (work x.2 w s).map (landWord q x.2 w) else none)

/-- A word that issues although what completes it has not come: the queue's next word is free to issue (R119). -/
def departWord (q i : Nat) (s : State) : State :=
  modRun (fun r => { r with ptr := tabMod 0 r.ptr q (· + 1), flight := r.flight ++ [(q, i)] }) s

/-- A command for words that wait for a message or for other units, not for an interlock of a core: the first one in flight
that can complete does; otherwise the queue's next word issues, and completes at once or goes into flight (R119). -/
def issueFlight (q : Nat) (sel : IWord → Bool) (down : State → Bool) (work : Nat → IWord → State → Option State)
    (s : State) : State :=
  if issueOpen s = false then s else
  match landFlight q sel work s with
  | some t => t
  | none =>
    match readyWord s q with
    | none => s
    | some (i, w) =>
      if sel w then
        if down s then finishWord q 1 w (setStatus i 4 false s)
        else match work i w s with
          | some t => finishWord q 1 w t
          | none => departWord q i s
      else s

/-- The words of a queue that have issued and wait. -/
def flightWords (s : State) (q : Nat) : List IWord :=
  match s.run.prog with
  | some p => (s.run.flight.filter (fun x => x.1 == q)).map (fun x => p.words.getD x.2 0)
  | none => []

/-- A word of a queue that is in no cluster. -/
def issuePlain (q : Nat) (sel : IWord → Bool) (work : Nat → IWord → State → Option State) (s : State) : State :=
  issueWord q sel (fun _ => false) work s

/-- A core's store changed. -/
def modCore (n : CoreIx) (f : CoreSt → CoreSt) (s : State) : State := { s with cores := vmod s.cores n f }

/-- A cluster changed. -/
def modCluster (c : ClusterIx) (f : ClusterSt → ClusterSt) (s : State) : State :=
  { s with clusters := vmod s.clusters c f }

/-- Bytes written to a core store; bytes at or beyond 4 MiB do not exist, and no loaded program names them (R88). -/
def storeWrite (n : CoreIx) (a : Nat) (b : List Byte) (s : State) : State :=
  modCore n (fun c => { c with store := memWrite c.store a (b.take (Config.coreStoreBytes - a)) }) s

/-- An FP32 value of a core store. -/
def storeF32 (c : CoreSt) (a : Nat) : F32 := BitVec.ofNat 32 (memNat c.store a 4)

/-- FP32 values as bytes. -/
def f32Bytes (l : List F32) : List Byte := l.flatMap (fun x => leBytes 4 x.toNat)

/-- What a step-program word may change: the units of the engine, what the chip sends, and nothing else. -/
def footWord (s t : State) : State :=
  { s with out := t.out, freeIx := t.freeIx, cores := keepAssign s t, clusters := t.clusters, hbm := t.hbm, tensors := t.tensors,
           parts := t.parts, ports := t.ports, faces := t.faces, vrecs := t.vrecs, slots := t.slots, regs := t.regs,
           recs := t.recs, uuAdd := t.uuAdd, uuOpt := t.uuOpt, uuBusy := t.uuBusy, uuNow := t.uuNow, rcc := t.rcc, run := t.run, err := t.err,
           residentNext := t.residentNext, plane := t.plane, rings := t.rings }

end Sys2Proof.Machine
end

