-- ==== Sys2Proof/Machine/Net.lean ====
section
/-!
DEFINITION. Exchange messages (R345 to R352, Tables PLANE-7 to PLANE-9): headers, routes, floods, the receive checks
and the hand-over to the link layer of a port. Every command that sends or takes a message uses these.
-/

namespace Sys2Proof.Machine

/-! ### Message header (Table PLANE-7) -/

/-- STEP. -/
def mStep (m : Msg) : BitVec 64 := BitVec.ofNat 64 (fld m.hdr 0 64)
/-- EPOCH. -/
def mEpoch (m : Msg) : BitVec 64 := BitVec.ofNat 64 (fld m.hdr 64 64)
/-- SRC. -/
def mSrc (m : Msg) : Coord := BitVec.ofNat 18 (fld m.hdr 128 18)
/-- DST; 0x3FFFF a flood. -/
def mDst (m : Msg) : Coord := BitVec.ofNat 18 (fld m.hdr 146 18)
/-- PART. -/
def mPart (m : Msg) : Part := Fin.ofNat 16 (fld m.hdr 164 4)
/-- KIND (Table PLANE-8). -/
def mKind (m : Msg) : Nat := fld m.hdr 168 4
/-- MSG. -/
def mMsg (m : Msg) : Nat := fld m.hdr 172 16

/-- The destination of a flood. -/
def floodDst : Coord := 0x3FFFF

/-- The epoch number in force; 0 before any. -/
def epochNum (s : State) : BitVec 64 := match s.epoch with | some e => e.num | none => 0

/-- A message of this chip in the running step. -/
def mkMsg (s : State) (kind msg part : Nat) (dst : Coord) (body : List Byte) : Msg :=
  { hdr := BitVec.ofNat 256 (s.mc.step.toNat + put 64 (epochNum s).toNat + put 128 s.plane.coord.toNat + put 146 dst.toNat
      + put 164 part + put 168 kind + put 172 msg + put 188 body.length)
    body }

/-- Virtual channel of a kind that no word places (Table PLANE-8). -/
def kindVc (kind : Nat) : Fin 4 := if kind = 8 ∨ kind = 9 then 3 else 2

/-! ### Coordinates and links (R351, R359, R361) -/

/-- X of a coordinate. -/
def cx (c : Coord) : Nat := fld c 0 6
/-- Y. -/
def cy (c : Coord) : Nat := fld c 6 6
/-- Z. -/
def cz (c : Coord) : Nat := fld c 12 6

/-- A coordinate of its three parts. -/
def mkCoord (x y z : Nat) : Coord := BitVec.ofNat 18 (x + 64 * y + 4096 * z)

/-- The box of a plan holds a coordinate. -/
def inBox (p : Plan) (c : Coord) : Bool :=
  decide (cx p.org ≤ cx c ∧ cx c < cx p.org + p.dim.1 ∧ cy p.org ≤ cy c ∧ cy c < cy p.org + p.dim.2.1
    ∧ cz p.org ≤ cz c ∧ cz c < cz p.org + p.dim.2.2)

/-- Index of a chip of the box (R358). -/
def boxIndex (p : Plan) (c : Coord) : Nat :=
  (cx c - cx p.org) + p.dim.1 * ((cy c - cy p.org) + p.dim.2.1 * (cz c - cz p.org))

/-- The coordinate at an index of the box. -/
def boxCoord (p : Plan) (i : Nat) : Coord :=
  mkCoord (cx p.org + i % p.dim.1) (cy p.org + i / p.dim.1 % p.dim.2.1) (cz p.org + i / p.dim.1 / p.dim.2.1)

/-- The neighbour of a coordinate on a port; none below zero. -/
def neighCoord (c : Coord) (p : PortIx) : Option Coord :=
  let x := cx c; let y := cy c; let z := cz c
  match p.val with
  | 0 => some (mkCoord (x + 1) y z)
  | 1 => if x = 0 then none else some (mkCoord (x - 1) y z)
  | 2 => some (mkCoord x (y + 1) z)
  | 3 => if y = 0 then none else some (mkCoord x (y - 1) z)
  | 4 => some (mkCoord x y (z + 1))
  | _ => if z = 0 then none else some (mkCoord x y (z - 1))

/-- The neighbour on a port when it lies in the slice box. -/
def boxNeigh (pl : Plan) (c : Coord) (p : PortIx) : Option Coord := (neighCoord c p).filter (inBox pl)

/-- The port at the other end of a link. -/
def oppPort (p : PortIx) : PortIx := ⟨if p.val % 2 = 0 then p.val + 1 else p.val - 1, by split <;> omega⟩

/-- The link of a chip's port, named by its lower end and axis. -/
def linkOf (c : Coord) (p : PortIx) : Link :=
  ((if p.val % 2 = 0 then c else (neighCoord c p).getD c), ⟨p.val / 2, by omega⟩)

/-- Every in-box link of a chip is in the cut set (R361). -/
def isCut (s : State) (pl : Plan) (c : Coord) : Bool :=
  let l := (List.finRange 6).filter (fun p => (boxNeigh pl c p).isSome)
  !l.isEmpty && l.all (fun p => s.plane.cut.contains (linkOf c p))

/-- The chip is fenced, or cut and so treated as fenced (R322, R361). -/
def fencedOrCut (s : State) : Bool :=
  s.mc.fenced || (match s.plane.plan with | some pl => isCut s pl s.plane.coord | none => false)

/-- The port whose neighbour has a coordinate. -/
def portOf (s : State) (c : Coord) : Option PortIx :=
  (List.finRange 6).find? (fun p => decide (neighCoord s.plane.coord p = some c))

/-- A neighbour that this chip refuses or that is known fenced (R321, R322). -/
def refusedSrc (s : State) (c : Coord) : Bool :=
  match portOf s c with
  | some p => s.mc.refused[p] || (s.ports[p].st == .fenced && s.ports[p].reason == 0xF)
  | none => false

/-! ### Link layer hand-over -/

/-- A port carries a virtual channel (Table PLANE-12). -/
def portCarries (s : State) (p : PortIx) (vc : Fin 4) : Bool :=
  match s.ports[p].st with
  | .up => true
  | .held => vc = 3
  | .fenced => vc = 3
  | _ => false

/-- Bytes of a message: header, then body (R345). -/
def msgBytes (m : Msg) : List Byte := leBytes 32 m.hdr.toNat ++ m.body

/-- The flits of a message (R345): 224 payload bytes each, the last padded with zero. -/
def msgFlits (src : Fin 7) (vc : Fin 4) (det : Bool) (m : Msg) : List TxFlit :=
  let b := msgBytes m
  let n := cdiv b.length 224
  (chunk 224 n b).zipIdx.map (fun x =>
    { vc, det, som := x.2 = 0, eom := x.2 + 1 = n, plen := x.1.length, payload := slice x.1 0 224,
      isMarch := n = 1 && mKind m == 6, src })

/-- The source of a message that arrived on a port, or of this chip's own. -/
def srcOf (arrived : Option PortIx) : Fin 7 :=
  match arrived with
  | some p => ⟨p.val, by omega⟩
  | none => 6

/-- A message handed to the link layer of a port; a port that does not carry its channel drops it. -/
def sendOn (src : Fin 7) (p : PortIx) (vc : Fin 4) (det : Bool) (m : Msg) (s : State) : State :=
  if portCarries s p vc then
    let b : Fin 8 := ⟨2 * vc.val + (if det then 1 else 0), by split <;> omega⟩
    send (.msg p m) (modPort p (fun q => { q with txq := vmod q.txq b (· ++ msgFlits src vc det m) }) s)
  else s

/-- A 16-bit plane counter raised (R369). -/
def plane16 (v : Nat) : Nat := satAdd cnt16Max v 1

/-- An entry for a discarded message: AUX 0 EPOCH, 1 PART, 2 ROUTE (Table REL-7). -/
def dropEntry (aux : Nat) (m : Msg) (s : State) : State :=
  chipLog 0x12 .event 0 aux (fld m.hdr 0 64) (fld m.hdr 64 64) s

/-- A message without a route (R360). -/
def routeDrop (m : Msg) (s : State) : State :=
  dropEntry 2 m { s with plane := { s.plane with routeDrop := plane16 s.plane.routeDrop } }

/-- The route entry of a class toward a destination (R358); UNREACHABLE outside the box. -/
def routeEntry (s : State) (det : Bool) (dst : Coord) : Nat :=
  match s.plane.plan with
  | some pl => if inBox pl dst then (tabGet 7 (if det then s.plane.rtDetour else s.plane.rtNormal) (boxIndex pl dst)).toNat else 7
  | none => 7

/-- A message sent on by its route (R358, R360). -/
def routeMsg (src : Fin 7) (vc : Fin 4) (det : Bool) (m : Msg) (s : State) : State :=
  let e := routeEntry s det (mDst m)
  if h : e % 8 < 6 then sendOn src ⟨e % 8, h⟩ vc (det || e / 8 % 2 == 1) m s
  else if e % 8 = 6 then s
  else routeDrop m s

/-! ### Floods (R309, R350) -/

/-- The port on which a flood of a source reaches this chip by the line pattern; none at the source. -/
def patternPort (s : State) (src : Coord) : Option PortIx :=
  let c := s.plane.coord
  if cz c ≠ cz src then some (if cz src < cz c then 5 else 4)
  else if cy c ≠ cy src then some (if cy src < cy c then 3 else 2)
  else if cx c ≠ cx src then some (if cx src < cx c then 1 else 0)
  else none

/-- The ports to which the pattern forwards a flood that arrived on a port. -/
def patternPorts (arrived : Option PortIx) : List PortIx :=
  match arrived with
  | none => List.finRange 6
  | some a => oppPort a :: (List.finRange 6).filter (fun p => decide (a.val / 2 < p.val / 2))

/-- The ports of this chip that are UP. -/
def upPorts (s : State) : List PortIx := (List.finRange 6).filter (fun p => s.ports[p].st == .up)

/-- A flood leaves on the in-box ports of the pattern; where one of them is not UP, to every UP neighbour but the one it
came from (R350). -/
def floodOn (arrived : Option PortIx) (m : Msg) (s : State) : State :=
  match s.plane.plan with
  | none => s
  | some pl =>
    let l := (patternPorts arrived).filter (fun p => (boxNeigh pl s.plane.coord p).isSome)
    let l := if l.all (fun p => s.ports[p].st == .up) then l else (upPorts s).filter (fun p => decide (some p ≠ arrived))
    l.foldl (fun s p => sendOn (srcOf arrived) p 2 false m s) s

/-- A flood that arrived goes on: by the line pattern where it came by it, else to every UP neighbour but the one it came from
(R350). -/
def floodFrom (arrived : Option PortIx) (m : Msg) (s : State) : State :=
  let line := patternPort s (mSrc m)
  match arrived with
  | some p =>
    if line = some p then floodOn line m s
    else ((upPorts s).filter (fun q => decide (q ≠ p))).foldl (fun s q => sendOn (srcOf arrived) q 2 false m s) s
  | none => floodOn line m s

/-- A flood of this chip. -/
def flood (kind msg : Nat) (body : List Byte) (s : State) : State :=
  let m := mkMsg s kind msg 0 floodDst body
  floodOn none m (send (.flood m) s)

/-- The body of a March control message (Table STEP-1). -/
def marchBody (s : State) (typ : Nat) (step : BitVec 64) (value : Nat) : List Byte :=
  leBytes 32 (typ + put 8 step.toNat + put 72 s.plane.coord.toNat + put 96 value)

/-- A March control message flooded: 0 LATE, 1 DONE, 2 SYNC, 3 NOTICE. -/
def floodMarch (typ : Nat) (step : BitVec 64) (value : Nat) (s : State) : State :=
  flood 6 typ (marchBody s typ step value) s

/-! ### Receiving (R348, Table PLANE-9) -/

/-- Where the flits of a received message stand: at the front of a receive buffer of a port. Answers the port, the buffer and
how many flits there are. -/
def standsAt (m : Msg) (s : State) : Option (PortIx × Fin 8 × Nat) :=
  let face := fun (l : List TxFlit) => l.map (fun f => (f.som, f.eom, f.plen, f.payload))
  (List.finRange 6).findSome? (fun p => (List.finRange 8).findSome? (fun b =>
    let w := face (msgFlits 6 ⟨b.val / 2, by omega⟩ (b.val % 2 == 1) m)
    if face (s.ports[p].rxq[b].take w.length) = w then some (p, b, w.length) else none))

/-- Flits of a received message leave the receive buffer in whose front they stand, and are counted as freed (R338). -/
def freeFlits (m : Msg) (s : State) : State :=
  match standsAt m s with
  | some (p, b, n) => modPort p (fun q => { q with
      rxq := vmod q.rxq b (fun (l : List TxFlit) => l.drop n), freed := vmod q.freed b (fun (k : Nat) => k + n) }) s
  | none => s

/-- The XRECV words of the running program that name a source, KIND and MSG. -/
def xrecvWord (s : State) (src : Coord) (kind msg : Nat) : Option IWord :=
  match s.run.prog with
  | none => none
  | some p =>
    (List.range 6).findSome? (fun q =>
      match p.issuers.find? (fun i => i.queue == 205 + q) with
      | some i => ((p.words.drop i.first).take i.count).find? (fun w =>
          wOp w == 0x71 && fld w 48 4 == kind && fld w 103 16 == msg && fld w 52 18 == src.toNat)
      | none => none)

/-- The core that an XSEND or XRECV word names. -/
def xCore (w : IWord) : CoreIx := Fin.ofNat 64 (fld w 70 6)

/-- RES_DISCARD counts a discarded PSUM or ROWS, STRAY any other (R253). -/
def countStray (m : Msg) (s : State) : State :=
  if mKind m = 0 ∨ mKind m = 2 then
    modPart (mPart m) (fun q => { q with counted := { q.counted with resDiscard := q.counted.resDiscard + 1 } }) s
  else { s with plane := { s.plane with stray := plane16 s.plane.stray } }

/-- A LATE or DONE of a past step broke the guard: BARRIER_MISS in the status word of the running step and an entry
(R311). -/
def barrierMiss (m : Msg) (s : State) : State :=
  let s := if s.run.isOpen then modRun (fun r => { r with barrierMiss := true }) s
    else { s with mc := { s.mc with missNext := true } }
  chipLog 0x11 .event 0 0 (mSrc m).toNat 0 s

/-- TYPE of a March control message (Table STEP-1). -/
def marchType (m : Msg) : Nat := nfld (leAt m.body 0 32) 0 2

/-- A NOTICE that comes after the boundary it was sent at: it still acts, at the next boundary (R321). -/
def lateNotice (m : Msg) (s : State) : Bool := mKind m == 6 && marchType m == 3 && decide ((mStep m).toNat < s.mc.step.toNat)

/-- What marks a message as received: STEP, SRC, KIND, MSG (Table PLANE-9). -/
def msgKey (m : Msg) : BitVec 64 × Coord × Nat × Nat := (mStep m, mSrc m, mKind m, mMsg m)

/-- The receive checks in order (Table PLANE-9), and the refusal of everything but maintenance traffic by a fenced chip
(R322). The AGREE messages before the first step (R412) come while no program runs, so no XRECV names them. A NOTICE of a neighbour that this chip
refuses still counts, so that both chips of a disagreement are fenced (R321; log entry 130). `.ok` the state with the message marked as delivered, `.error` the state after the check that failed. -/
def receive (m : Msg) (s : State) : Except State State :=
  let s := freeFlits m s
  let src := mSrc m
  let key := msgKey m
  match s.plane.plan with
  | none => .error { s with plane := { s.plane with srcDrop := plane16 s.plane.srcDrop } }
  | some pl =>
    if fencedOrCut s && mKind m != 8 && mKind m != 9 then .error s
    else if !inBox pl src || isCut s pl src || (refusedSrc s src && !(mKind m == 6 && marchType m == 3)) then
      .error { s with plane := { s.plane with srcDrop := plane16 s.plane.srcDrop } }
    else if mEpoch m ≠ epochNum s then
      .error (dropEntry 0 m { s with plane := { s.plane with epochDrop := plane16 s.plane.epochDrop } })
    else if 0xB ≤ mKind m then .error (countStray m s)
    else if mKind m ≤ 7 && decide (mStep m ≠ s.mc.step) && !lateNotice m s then
      .error (if mKind m = 6 then (if (mStep m).toNat < s.mc.step.toNat ∧ marchType m ≤ 1 then barrierMiss m s else s) else countStray m s)
    else if s.plane.seen.contains key then
      .error { s with plane := { s.plane with dup := plane16 s.plane.dup } }
    else
      let ok := { s with plane := { s.plane with seen := s.plane.seen ++ [key] } }
      if mKind m = 4 ∧ s.run.isOpen = false then .ok ok
      else if mKind m ≤ 5 then
        match xrecvWord s src (mKind m) (mMsg m) with
        | none => .error (countStray m s)
        | some w =>
          if s.cores[xCore w].part ≠ (mPart m).val then
            .error (dropEntry 1 m { s with plane := { s.plane with partDrop := plane16 s.plane.partDrop } })
          else .ok ok
      else .ok ok

/-- The message is for another chip of the slice (R348). -/
def notHere (m : Msg) (s : State) : Bool :=
  s.plane.plan.isSome && decide (mDst m ≠ s.plane.coord) && decide (mDst m ≠ floodDst)

/-- A message for another chip leaves by its route in the channel and class in which it came, unless it carries the coordinate
of a refused neighbour (R322, R348). It is held in link buffers only (R349). -/
def passOn (src : Fin 7) (vc : Fin 4) (det : Bool) (m : Msg) (s : State) : State :=
  let t := freeFlits m s
  if refusedSrc s (mSrc m) then { t with plane := { t.plane with srcDrop := plane16 t.plane.srcDrop } }
  else routeMsg src vc det m t

/-- The same for a message that stands in a receive buffer. -/
def passHeld (m : Msg) (s : State) : State :=
  match standsAt m s with
  | some (p, b, _) => passOn (srcOf (some p)) ⟨b.val / 2, by omega⟩ (b.val % 2 == 1) m s
  | none => passOn 6 (if mKind m < 6 then 1 else kindVc (mKind m)) false m s

/-- A message of a kind taken by a command: one for another chip is sent on, another kind is no such event, and a reserved
kind is a stray. -/
def takeMsg (kind : Nat) (m : Msg) (act : State → State) (s : State) : State :=
  if mKind m = kind ∨ 0xB ≤ mKind m then
    if notHere m s then passHeld m s else
    match receive m s with
    | .ok t => act t
    | .error t => t
  else s

/-- A flooded message of a kind: taken, and sent on unless that has been done (R350). -/
def takeFlood (kind : Nat) (m : Msg) (act : State → State) (s : State) : State :=
  let arrived := (standsAt m s).map Prod.fst
  takeMsg kind m (fun t => act (if s.plane.passed.contains (msgKey m) then t else floodFrom arrived m t)) s

/-- A body kept for its XRECV (R348). -/
def deliver (m : Msg) (s : State) : State :=
  modRun (fun r => { r with inbox := r.inbox ++
    [{ src := mSrc m, part := (mPart m).val, kind := mKind m, msg := mMsg m, body := m.body }] }) s

end Sys2Proof.Machine
end

