-- ==== Sys2Proof/Machine/Arrays.lean ====
section
/-!
DEFINITION. The matrix arrays (chapter CORE, Tables ISA-7 to ISA-11): loading of tiles, stream rows, column results,
accumulation, distance and compare, and the commands STREAM and CONV.
-/

namespace Sys2Proof.Machine

/-- One row of a group: its index k in the group, its position, its batch row number, its elements by start and
count, and for a reduction's row its exponent and whether v was not finite. -/
structure StreamRow where
  /-- Row index p − FIRST (R141). -/
  k : Nat
  /-- Position. -/
  pos : Nat
  /-- Batch row number. -/
  row : Nat
  /-- Codes from an element on. -/
  fetch : Nat → Nat → List Byte
  /-- Row exponent e (NET). -/
  exp : Int := 0
  /-- v of the row was not finite (R49). -/
  bad : Bool := false

/-- Decoded 8-bit codes. -/
def codesVal (f8g : Bool) (l : List Byte) : List Val :=
  l.map (fun b => fpDecode (if f8g then fmtF8g else fmtF8v) b.toNat)

/-- The element of an event at the sum or accumulation level, shown as ELEM 0x3F; element indices lie below it. -/
def sumElem : Nat := 0x80

/-- The codes of a staged tile, lane after lane; a code not listed is +0 (Table CORE-3). -/
def tileLanes (shape : Nat) (codes : List Byte) : List (List Byte) :=
  let d := shapeDims shape
  let rows := chunk d.2 d.1 codes
  (List.range d.2).map (fun l => rows.map (fun r => r.getD l 0))

/-- The lanes that codes of whole columns hold in a reading direction: a column holds its lanes one after the other, and a
transposed read takes the depth across the columns (R100, R106). -/
def columnLanes (shape : Nat) (transposed : Bool) (codes : List Byte) : List (List Byte) :=
  let d := shapeDims shape
  let lanes := chunk d.1 (codes.length / d.1) codes
  if transposed then (List.range d.1).map (fun j => lanes.map (fun l => l.getD j 0)) else lanes

/-- The 512 codes of a register half. -/
def halfCodes (t : Tile) : List Byte := (t.codes ++ List.replicate (512 - t.codes.length) 0).take 512

/-- The stationary registers after an array word has loaded a staged tile: a full-width load places both halves, a half word its
own from the lower lanes of the entry (R95, R107). -/
def loadTile (a : ArrayWord) (t : Tile) (held : Vector Tile 16) : Vector Tile 16 :=
  let lanes := tileLanes a.shape t.codes
  let n := (shapeDims a.shape).2 / 2
  let k := 4 * a.array + 2 * a.reg
  let lo : Tile := { t with codes := (lanes.take n).flatten }
  let hi : Tile := { t with codes := (lanes.drop n).flatten }
  if a.half = 0 then vset (vset held k lo) (k + 1) hi else vset held (if a.half = 2 then k + 1 else k) lo

/-- The tile an array word uses: its register half, or both halves, of which half 0 gives format and exponent (log entry 136). -/
def heldTile (a : ArrayWord) (held : Vector Tile 16) : Tile :=
  let k := 4 * a.array + 2 * a.reg
  let lo := held.toList.getD k {}
  let hi := held.toList.getD (k + 1) {}
  if a.half = 1 then { lo with codes := halfCodes lo }
  else if a.half = 2 then { hi with codes := halfCodes hi }
  else { lo with codes := halfCodes lo ++ halfCodes hi, poisoned := lo.poisoned || hi.poisoned, bad := lo.bad || hi.bad,
                 region := lo.region || hi.region }

/-- Result of one column: the exact sum of the exact products, rounded once (R65), and its events as KIND and ELEM
(Table FMT-10); infinities of both signs are an event of the sum also beside a NaN. -/
def columnResult (xs ws : List Val) : F32 × List (Nat × Nat) :=
  let ps := List.zipWith valMul xs ws
  let evs := ps.zipIdx.filterMap (fun p => if p.1.2 = 0 then none else some (p.1.2, p.2))
  if evs = [] then
    let r := f32Sum (ps.map Prod.fst)
    (r.1, if r.2 = 0 then [] else [(r.2, sumElem)])
  else (f32Nan, evs ++ (if (ps.map Prod.fst).contains (.inf false) && (ps.map Prod.fst).contains (.inf true) then [(2, sumElem)] else []))

/-- x − w or x + w, exact; none where a NaN or opposite infinities meet, with its KIND. -/
def cellSum (add : Bool) (x w : Val) : Except Nat Val :=
  match x, (if add then w else valMul w (.fin true 1 0) |>.1) with
  | .nan, _ => .error 3
  | _, .nan => .error 3
  | .inf n, .inf k => if n = k then .ok (.inf n) else .error 2
  | .inf n, _ => .ok (.inf n)
  | _, .inf k => .ok (.inf k)
  | .fin n m e, .fin k m' e' =>
    let z := dyAdd (signed n m, e) (signed k m', e')
    .ok (.fin (decide (z.1 < 0)) z.1.natAbs z.2)

/-- The absolute value, or the square, of an exact value. -/
def cellPower (square : Bool) (v : Val) : Val :=
  match v with
  | .fin _ m e => if square then .fin false (m * m) (2 * e) else .fin false m e
  | .inf _ => .inf false
  | .nan => .nan

/-- a < b for values that are not NaN. -/
def valLt (a b : Val) : Bool :=
  match a, b with
  | .inf true, .inf true => false
  | .inf true, _ => true
  | _, .inf true => false
  | .inf false, _ => false
  | _, .inf false => true
  | .fin n m e, .fin k m' e' => decide ((dyAdd (signed n m, e) (-(signed k m'), e')).1 < 0)
  | _, _ => false

/-- Column result of DIST (Table ISA-11), its events and the winning element: the first of those that make the result NaN, where
there is one (R144). -/
def distResult (op : Nat) (xs ws : List Val) : F32 × List (Nat × Nat) × Nat :=
  let cs := List.zipWith (cellSum (decide (2 ≤ op))) xs ws
  let evs := cs.zipIdx.filterMap (fun c => match c.1 with | .error k => some (k, c.2) | .ok _ => none)
  if evs ≠ [] then (f32Nan, evs, (evs.head?.map Prod.snd).getD 0) else
  let vs := cs.filterMap (fun c => match c with | .ok v => some v | .error _ => none)
  if op < 2 then
    let r := f32Sum (vs.map (cellPower (decide (op = 1))))
    (r.1, (if r.2 = 0 then [] else [(r.2, sumElem)]), 0)
  else
    let best := vs.zipIdx.foldl (fun (b : Option (Val × Nat)) v => match b with
      | none => some v
      | some c => if (if op = 2 then valLt c.1 v.1 else valLt v.1 c.1) then some v else b) none
    match best with
    | none => (0, [], 0)
    | some c => let r := f32OfVal c.1; (r.1, (if r.2 = 0 then [] else [(r.2, sumElem)]), c.2)

/-- Scale by the tile's exponent and add to the accumulator (R66, R103): START adds to +0. A NaN column result is a NaN
operand here (log entry 125). -/
def accumulate (start : Bool) (stored col : F32) (a : Int) : F32 × List (Nat × Nat) :=
  if f32IsNan col then (f32Nan, [(3, sumElem)]) else
  let sc := f32Scale col a
  let ev1 := if sc.2 = 0 then [] else [(sc.2, sumElem)]
  let r := f32Add (if start then 0 else stored) sc.1
  (r.1, ev1 ++ (if r.2 = 0 then [] else [(r.2, sumElem)]))

/-- Combination of DIST results (Table ISA-11): addition, or the strictly better of two, where a NaN wins and is a NaN operand of
the accumulation (Table FMT-10). -/
def distCombine (op : Nat) (start : Bool) (stored col : F32) (a : Int) : F32 × List (Nat × Nat) × Bool :=
  if op < 2 then let r := accumulate start stored col a; (r.1, r.2, true) else
  let sc := if f32IsNan col then (f32Nan, 0) else f32Scale col a
  let ev := if sc.2 = 0 then [] else [(sc.2, sumElem)]
  if start then (sc.1, ev, true)
  else if f32IsNan stored then (f32Nan, ev ++ [(3, sumElem)], false)
  else if f32IsNan sc.1 then (f32Nan, ev ++ [(3, sumElem)], true)
  else
    let better := if op = 2 then f32Lt stored sc.1 else f32Lt sc.1 stored
    (if better then sc.1 else stored, ev, better)

/-- Lanes of a shape in a reading direction: L of R141. -/
def fullLanes (shape : Nat) (transposed : Bool) : Nat := let d := shapeDims shape; if transposed then d.1 else d.2

/-- Lanes of a shape in normal reading and depth in transposed reading that an array presents (Table CORE-6). -/
def presented (b : Bypass) (shape : Nat) : Nat := let d := shapeDims shape; if b.en then d.2 - d.2 / 32 else d.2

/-- The lanes a word works: half 0 the lower, half 1 the rest (R107). -/
def wordLanes (b : Bypass) (a : ArrayWord) : List Nat :=
  let tr := a.op == 0x31
  let l := fullLanes a.shape tr
  let top := if tr then l else presented b a.shape
  if a.half = 1 then List.range (l / 2)
  else if a.half = 2 then (List.range top).filter (fun i => l / 2 ≤ i)
  else List.range top

/-- The latch of a lane: the half that holds its column (R80); of a transposed read's sum, which spans every column, the half of
its lanes (log entry 136). -/
def laneLatch (a : ArrayWord) (lane : Nat) : Nat :=
  2 * a.array + (if a.half = 2 then 1 else if a.half = 1 then 0
    else if lane < fullLanes a.shape (a.op == 0x31) / 2 then 0 else 1)

/-- The latch of an event: that of the lane, or in a transposed read that of the column that the element drives (R80, R106). -/
def eventLatch (a : ArrayWord) (lane elem : Nat) : Nat :=
  if a.op = 0x31 ∧ elem < sumElem then 2 * a.array + (if elem < (shapeDims a.shape).2 / 2 then 0 else 1) else laneLatch a lane

/-- ELEM of an event: the low five bits of the element index, which a transposed depth can exceed (log entry 137), or 0x3F. -/
def shownElem (elem : Nat) : Nat := if elem < sumElem then elem % 32 else 0x3F

/-- The events of one lane brought to its latch. -/
def laneEvents (n : CoreIx) (i : Nat) (a : ArrayWord) (row lane : Nat) (evs : List (Nat × Nat)) (s : State) : State :=
  evs.foldl (fun s e =>
    coreEvent n (Fin.ofNat 9 (eventLatch a lane e.2)) e.1 (kindFlag e.1) (shownElem e.2) lane row i s) s

/-- The format width of FINAL output of a row and its exponent IN_EXP: steps 7 and 8 of Table ARITH-5 (R105). -/
def finalValue (width : Nat) (y : F32) (e : Int) : List Byte × List (Nat × Nat) :=
  let r := f32Scale y e
  if width = 4 then (leBytes 4 r.1.toNat, if r.2 = 0 then [] else [(r.2, sumElem)])
  else
    let c := fpDefault fmtB16 (f32Val r.1)
    (leBytes 2 c.1, (if r.2 = 0 then [] else [(r.2, sumElem)]) ++ (if c.2 = 0 ∨ (r.2 ≠ 0 ∧ c.2 = 3) then [] else [(c.2, sumElem)]))

/-- Canonical NaN bytes of a delta width. -/
def nanBytes (width : Nat) : List Byte := if width = 4 then leBytes 4 0x7FC00000 else leBytes 2 0x7FC0

/-- One lane of a multiply on one row: its sum, its events. -/
def mulLane (a : ArrayWord) (t : Tile) (poison : Bool) (xs : List Val) (ws : List Byte) (stored : F32) :
    F32 × List (Nat × Nat) :=
  if poison then (f32Nan, []) else
  let c := columnResult xs (codesVal t.f8g ws)
  let r := accumulate (a.acc = 0) stored c.1 (sgn 8 t.scale.toNat)
  (r.1, c.2 ++ r.2)

/-- What a MUL or MULT word does for one row, `cols` the codes of its lanes (R66, R103, R141, R142). A FINAL word writes no
accumulator; with ACC ADD it reads the stored value at ACC_ADDR, as R103 has it (log entry 138). -/
def mulRow (n : CoreIx) (i : Nat) (a : ArrayWord) (t : Tile) (cols : List (List Byte)) (poison : Nat → Bool) (sfmt : Bool)
    (seg : Option Nat) (r : StreamRow) (s : State) : State :=
  let tr := a.op == 0x31
  let l := fullLanes a.shape tr
  let b := s.cores[n].byp.getD a.array {}
  let depth := if tr then presented b a.shape else (shapeDims a.shape).1
  let xs := codesVal sfmt (r.fetch a.slice depth)
  let shift := if a.half = 2 then l / 2 else 0
  let lanes := wordLanes b a
  let acc := a.accAddr * 128 + r.k * l * 4
  let res := lanes.map (fun ln => (ln, mulLane a t (poison ln) xs (cols.getD (ln - shift) []) (storeF32 s.cores[n] (acc + 4 * ln))))
  let s := res.foldl (fun s x => laneEvents n i a r.row x.1 x.2.2 s) s
  if a.acc = 2 then
    modCluster (clusterOf n) (fun c => { c with reds := tabMod [] c.reds a.rid (fun l =>
      { level := 0, node := a.blk, rgrp := a.rgrp, pos := r.pos, lanes := res.map (·.2.1) } ::
        l.filter (fun x => !(x.level == 0 && x.node == a.blk && x.rgrp == a.rgrp && x.pos == r.pos))) }) s
  else if a.final then
    let pr := planRow s (seg.getD 0)
    let tag := tagOf s r.row
    let w := deltaWidth s (tagPart tag) (rowFace s tag)
    let e := r.exp + (targetOf s a.target).inExp
    let q := (placeOf pr r.pos).2
    res.foldl (fun s x =>
      let v := if r.bad || poison x.1 then (nanBytes w, []) else finalValue w x.2.1 e
      let out := pr.obase * 128 + q * pr.ostr * 128 + a.outOff * 128 + x.1 * w
      let y := if r.bad || poison x.1 then f32Nan else (f32Scale x.2.1 e).1
      let s := if (targetOf s a.target).typ = 3 then modCore n (fun c => { c with head := tabSet 0 c.head out y }) s else s
      laneEvents n i a r.row x.1 v.2 (storeWrite n out v.1 s)) s
  else
    storeWrite n (acc + 4 * lanes.headD 0) (f32Bytes (res.map (·.2.1))) s

/-- What a DIST word does for one row (R143, R144, Table ISA-11). -/
def distRow (n : CoreIx) (i : Nat) (a : ArrayWord) (t : Tile) (cols : List (List Byte)) (poison : Nat → Bool) (sfmt : Bool) (count : Nat)
    (r : StreamRow) (s : State) : State :=
  let l := fullLanes a.shape false
  let b := s.cores[n].byp.getD a.array {}
  let xs := codesVal sfmt (r.fetch a.slice (shapeDims a.shape).1)
  let shift := if a.half = 2 then l / 2 else 0
  (wordLanes b a).foldl (fun s ln =>
    let at_ := a.accAddr * 128 + (r.k * l + ln) * 4
    let ix := a.accAddr * 128 + (count * l + r.k * l + ln) * 4
    if poison ln then storeWrite n at_ (f32Bytes [f32Nan]) s else
    let c := distResult a.target xs (codesVal t.f8g (cols.getD (ln - shift) []))
    let m := distCombine a.target (a.acc = 0) (storeF32 s.cores[n] at_) c.1 (sgn 8 t.scale.toNat)
    let s := laneEvents n i a r.row ln (c.2.1 ++ m.2.1) s
    let s := storeWrite n at_ (f32Bytes [m.1]) s
    if a.idx && decide (2 ≤ a.target) && m.2.2 then storeWrite n ix (leBytes 4 (a.slice + c.2.2)) s else s) s

/-- Multipliers that a row gates: a zero stationary or stream code (R109), in the lanes that the word works. -/
def gatedOf (xs : List Byte) (lanes : List (List Byte)) : Nat :=
  let zero : Byte → Bool := fun b => b.toNat % 128 == 0
  lanes.foldl (fun acc ws => acc + ((List.zipWith (fun x w => zero x || zero w) xs ws).filter id).length) 0

/-- An array word is skipped (R136). -/
def wordSkipped (s : State) (n : CoreIx) (seg : Option Nat) (a : ArrayWord) : Bool :=
  let byTile := !a.held && (match s.cores[n].staging.getD (8 * a.array + a.stage) none with | some t => t.skipped | none => false)
  byTile || (match seg with
    | none => false
    | some i =>
      let sg := s.run.segs.getD i {}
      decide (s.run.segs.length ≤ i) || decide (rankGroups sg.rank ≤ a.rgrp) ||
        (a.op != 0x32 && !bitAt (slotOf s sg.slot).tmask a.target))

/-- The status of a word (R161): HW_FAULT, PART_TAG, REGION, ARITH or CLEAN. -/
def wordStatus (t : Tile) (arith : Bool) : Nat :=
  if t.bad then 2 else if t.poisoned then 3 else if t.region then 5 else if arith then 1 else 0

/-- The working column that a physical column is (R100): those above a bypassed one count one less. -/
def workingCol (b : Bypass) (col : Nat) : Nat := if b.en ∧ b.col < col then col - 1 else col

/-- A contained fault poisons a lane of a row of an array word (Table CORE-9): of a tile, every row and the lanes of its half;
of an output stage, the lanes of the half in one row; of a column adder tree, the lanes of the column in one row (Table
CORE-3; every lane of a transposed read); of a feeder queue, every lane of one row in every array word of the group; of the core
store, every lane of one row. -/
def hwHits (b : Bypass) (a : ArrayWord) (row lane : Nat) (f : StepFault × Nat) : Bool :=
  let half := (laneLatch a lane % 2 == 1) == f.1.half
  if f.1.src = 3 ∨ f.1.src = 4 then a.half = 0 || half
  else if f.1.src = 6 then f.1.row == row && half
  else if f.1.src = 7 then
    f.1.row == row && (a.op == 0x31 || lane / max 1 (fullLanes a.shape false / 32) == workingCol b f.2)
  else f.1.row == row

/-- The poison of the step's contained faults on an array word. -/
def hwPoison (s : State) (n : CoreIx) (i : Nat) (a : ArrayWord) (row lane : Nat) : Bool :=
  s.run.hw.any (fun f => faultHits s.run f.1 i && hwHits (s.cores[n].byp.getD a.array {}) a row lane f)

/-- A load from a staging entry has taken place (R147). -/
def markTaken (n : CoreIx) (a : ArrayWord) (s : State) : State :=
  let entry := 8 * a.array + a.stage
  if a.held then s else modCore n (fun c =>
    { c with staging := vset c.staging entry ((c.staging.getD entry none).map (fun t => { t with taken := true })) }) s

/-- The rows of a group: how many it lists, and those that are fed. -/
structure GroupRows where
  /-- Segment entry that the rows belong to. -/
  seg : Option Nat := none
  /-- Rows listed. -/
  listed : Nat := 0
  /-- Rows fed, the masked ones left out (R99). -/
  fed : List StreamRow := []

/-- The work of an array word on the group's rows, its tile in the register. -/
def feedWord (n : CoreIx) (g : GroupRows) (sfmt : Bool) (count i : Nat) (a : ArrayWord) (t : Tile) (s : State) : State :=
  let back := a.op == 0x31
  let cols := columnLanes a.shape back t.codes
  let b := s.cores[n].byp.getD a.array {}
  let shift := if a.half = 2 then fullLanes a.shape back / 2 else 0
  let lanes := (wordLanes b a).map (fun ln => cols.getD (ln - shift) [])
  let depth := if back then presented b a.shape else (shapeDims a.shape).1
  g.fed.foldl (fun s r =>
    let bad := fun (ln : Nat) => t.poisoned || t.bad || hwPoison s n i a r.row ln
    if a.op = 0x32 then distRow n i a t cols bad sfmt count r s
    else modCore n (fun c => { c with gated := c.gated + gatedOf (r.fetch a.slice depth) lanes })
      (mulRow n i a t cols bad sfmt g.seg r s)) s

/-- The entry of an array word for its partition, by its status: the fault of a feeder queue told for every other word of its group
(R162, Table CORE-9). -/
def arrayEntry (n : CoreIx) (i : Nat) (a : ArrayWord) (st row : Nat) (s : State) : State :=
  let place := i + put 20 n.val + put 26 a.array + put 28 (if a.half = 2 then 1 else 0)
  if st = 2 then wordErr i (corePart s n) { code := 0x03, cls := .contained, src := 0x0E, info1 := row, info0 := place } s
  else if s.run.hw.any (fun f => f.1.word != i && faultHits s.run f.1 i) then
    wordErr i (corePart s n) { code := 0x03, cls := .contained, src := 5, info1 := row, info0 := place } s
  else if st = 3 then wordErr i (corePart s n) { code := 0x04, cls := .contained, info0 := i, info1 := row } s
  else if st = 5 then wordErr i (corePart s n) { code := 0x05, cls := .contained, info0 := i } s
  else s

/-- One array word of a group on the group's rows. Events are looked for on cleared latches, then joined to those the
step has (R82). A word of a group that lists no row loads and writes nothing and completes clean (R135); its staging entry is free
for the next fill, as a skipped word's is (R147). -/
def runArrayWord (n : CoreIx) (g : GroupRows) (sfmt : Bool) (count : Nat) (i : Nat) (w : IWord) (s : State) : State :=
  let a := arrayWord w
  if wordSkipped s n g.seg a then setStatus i 4 (a.half = 2) (markTaken n a s) else
  if g.listed = 0 then setStatus i 0 (a.half = 2) (markTaken n a s) else
  let c := s.cores[n]
  let held := if a.held then c.held else loadTile a ((c.staging.getD (8 * a.array + a.stage) none).getD {}) c.held
  let t := heldTile a held
  let s := markTaken n a (modCore n (fun c => { c with held, latches := Vector.replicate 9 {} }) s)
  let s := feedWord n g sfmt count i a t s
  let arith := s.cores[n].latches.any (fun l => latchFlags l != 0)
  let s := modCore n (fun k => { k with latches := Vector.zipWith joinLatch c.latches k.latches }) s
  let st := wordStatus t arith
  arrayEntry n i a st ((g.fed.head?.map (·.row)).getD 0) (setStatus i st (a.half = 2) s)

/-- The array words that follow a group header in its queue, at most eight (R133). -/
def groupWords (s : State) (q : Nat) : Nat → Nat → List (Nat × IWord)
  | 0, _ => []
  | n + 1, off =>
    match wordAt s q off with
    | some (i, w) => if wIsArray w then (i, w) :: groupWords s q n (off + 1) else []
    | none => []

/-- Every word of a group that loads finds its staging entry filled (R94). -/
def groupLoaded (s : State) (n : CoreIx) (l : List (Nat × IWord)) : Bool :=
  l.all (fun x => let a := arrayWord x.2; a.held || (s.cores[n].staging.getD (8 * a.array + a.stage) none).isSome)

/-- A bit of a core-store bitmap at a granule address (Table ISA-7). -/
def storeBit (c : CoreSt) (granule k : Nat) : Bool := bitAt (memByte c.store (granule * 128 + k / 8)) (k % 8)

/-- The rows of a STREAM group (Tables ISA-7 and ISA-8, R135, R99); none where a NET row is not delivered yet. -/
def streamRows (s : State) (n : CoreIx) (w : IWord) : Option GroupRows :=
  let src := fld w 46 2
  let first := fld w 60 16
  let count := fld w 76 16
  let mask := fld w 118 2
  let mtgt := fld w 120 4
  let c := s.cores[n]
  if src = 1 then
    let base := fld w 92 15
    let stride := fld w 107 11
    some { listed := count, fed := ((List.range count).filter (fun j => !(mask == 2 && storeBit c (fld w 48 12) (first + j)))).map (fun j =>
      { k := j, pos := first + j, row := first + j,
        fetch := fun e m => memRead c.store (base * 128 + (first + j) * stride * 128 + e) m }) }
  else
    let rid := fld w 48 6
    let seg := if src = 0 then fld w 48 12 else tabGet 0 c.feedSeg rid - 1
    if src = 2 ∧ tabGet 0 c.feedSeg rid = 0 then none else
    let sg := s.run.segs.getD seg {}
    let pr := planRow s seg
    let listed := min count (sg.count - first)
    let ps := (List.range listed).filter (fun j => !(mask == 1 && zeroRow s mtgt (rowAt s sg (first + j))))
    let row := fun (j : Nat) =>
      if src = 0 then
        let q := (placeOf pr (first + j)).2
        { k := j, pos := first + j, row := rowAt s sg (first + j),
          fetch := fun e m => memRead c.store (pr.abase * 128 + q * pr.astr * 128 + e) m : StreamRow }
      else
        let q := tabGet {} c.feed (rid * 65536 + first + j)
        { k := j, pos := first + j, row := rowAt s sg (first + j), exp := q.exp, bad := q.bad,
          fetch := fun e m => slice q.codes e m : StreamRow }
    some { seg := some seg, listed, fed := ps.map row }

/-- A group issues with its array words: STREAM and CONV after their rows are formed. A group that lists no row waits for no
staging entry (R135). -/
def runGroup (n : CoreIx) (i : Nat) (sfmt : Bool) (count : Nat) (g : GroupRows) (s : State) : Option State :=
  let l := groupWords s n.val 8 1
  if g.listed = 0 ∨ groupLoaded s n l = true then
    let t := l.foldl (fun t x => runArrayWord n g sfmt count x.1 x.2 t) (setStatus i 0 false s)
    some (modRun (fun r => { r with ptr := tabMod 0 r.ptr n.val (· + l.length) }) t)
  else none

/-- The work of a STREAM group (R134 to R144). -/
def streamWork (n : CoreIx) (i : Nat) (w : IWord) (s : State) : Option State :=
  match streamRows s n w with
  | some rs => runGroup n i (bitAt w 124) (fld w 76 16) rs s
  | none => none

/-- One element of a CONV virtual row (R139). -/
def convElem (c : CoreSt) (d : BitVec 256) (base o e : Nat) : Byte :=
  let kx := fld d 0 5
  let ky := fld d 5 5
  let ch := max 1 (fld d 32 16)
  let tap := e / ch
  if kx * ky ≤ tap then 0 else
  let wout := max 1 (fld d 80 16)
  let iy : Int := (o / wout * fld d 14 4 + tap / max 1 kx * fld d 21 3 : Nat) - (fld d 28 4 : Int)
  let ix : Int := (o % wout * fld d 10 4 + tap % max 1 kx * fld d 18 3 : Nat) - (fld d 24 4 : Int)
  if iy < 0 ∨ ix < 0 ∨ (fld d 64 16 : Int) ≤ iy ∨ (fld d 48 16 : Int) ≤ ix then 0
  else memByte c.store (base * 128 + (iy.toNat * fld d 48 16 + ix.toNat) * fld d 96 16 + e % ch)

/-- The rows of a CONV group (R138, R139). -/
def convRows (s : State) (n : CoreIx) (w : IWord) : GroupRows :=
  let c := s.cores[n]
  let d := match s.run.prog with | some p => p.descs.getD (fld w 46 8) 0 | none => 0
  let first := fld w 54 16
  { listed := fld w 70 16, fed := ((List.range (fld w 70 16)).filter (fun j => !(fld w 113 2 == 2 && storeBit c (fld w 101 12) (first + j)))).map (fun j =>
    { k := j, pos := first + j, row := first + j,
      fetch := fun e m => (List.range m).map (fun x => convElem c d (fld w 86 15) (first + j) (e + x)) }) }

/-- The work of a CONV group. -/
def convWork (n : CoreIx) (i : Nat) (w : IWord) (s : State) : Option State :=
  runGroup n i (bitAt w 115) (fld w 70 16) (convRows s n w) s

/-- STREAM (R134): the group at the head of a core's array queue issues with its array words. -/
def execStream (core : CoreIx) (s : State) : Host.Outcome State Fault Refusal :=
  .next (footWord s (issueWord core.val (fun w => wOp w == 0x20) (fun s => clusterDown s (clusterOf core)) (streamWork core) s))

/-- CONV (R138). -/
def execConv (core : CoreIx) (s : State) : Host.Outcome State Fault Refusal :=
  .next (footWord s (issueWord core.val (fun w => wOp w == 0x21) (fun s => clusterDown s (clusterOf core)) (convWork core) s))

end Sys2Proof.Machine
end

