-- ==== Sys2Proof/Machine/Fills.lean ====
section
/-!
DEFINITION. Filling tiles (R91 to R94, R145 to R147): the commands HFILL and TFILL.
-/

namespace Sys2Proof.Machine

/-- Lines that a packed tile takes in a cluster cache (R91). -/
def tileLines (tbytes : Nat) : Nat := cdiv tbytes 64

/-- Cache lines of bytes from a line on, tagged with a partition; scale and format stand in the first (R91, R92). -/
def writeLines (first : Nat) (part : Part) (f8g : Bool) (scale : Byte) (bad : Bool) (bytes : List Byte)
    (t : Tab CacheLine) : Tab CacheLine :=
  let n := cdiv bytes.length 64
  (List.range n).foldl (fun t j =>
    if first + j < Config.cacheLines then
      tabSet {} t (first + j)
        { valid := true, part, bytes := slice bytes (64 * j) 64, scale := if j = 0 then scale else 0,
          f8g := j = 0 && f8g, bad }
    else t) t

/-- Region tags that share no line with the n lines from `first` (log entry 15). -/
def dropRegions (first n : Nat) (span : RegionTag → Nat) (t : Tab RegionTag) : Tab RegionTag :=
  t.filter (fun r => decide (r.1 + span r.2 ≤ first ∨ first + n ≤ r.1))

/-- Lines of the region of a tag. -/
def regionLines (s : State) (r : RegionTag) : Nat := r.ntiles * tileLines (tileBytes r.matB (slotOf s r.slot).rank)

/-- An HBM data unit of the bytes is uncorrectable (R424). -/
def badRead (s : State) (a n : Nat) : Bool := s.err.badUnits.any (fun u => decide (a ≤ 64 * u + 63 ∧ 64 * u < a + n))

/-- Uncorrectable data units that a write does not replace whole (R424). -/
def unhealed (a n : Nat) (l : List Nat) : List Nat := l.filter (fun u => !decide (a ≤ 64 * u ∧ 64 * u + 64 ≤ a + n))

/-- Bytes written to HBM: a unit wholly replaced is good again (R424). -/
def putBytes (a : Nat) (b : List Byte) (s : State) : State :=
  { s with hbm := memWrite s.hbm a b, err := { s.err with badUnits := unhealed a b.length s.err.badUnits } }

/-- Bytes of HBM zeroed. -/
def zeroBytes (a n : Nat) (s : State) : State :=
  { s with hbm := memZero s.hbm a n, err := { s.err with badUnits := unhealed a n s.err.badUnits } }

/-- One cluster cache takes the region (R145), or the fill is elided when its region tag is equal and every line is
valid (R146). -/
def fillCache (tag : RegionTag) (line : Nat) (tiles : List (List Byte × Byte × Bool)) (per : Nat)
    (span : RegionTag → Nat) (c : ClusterSt) : ClusterSt :=
  let n := tiles.length * per
  let valid := (List.range n).all (fun j => (tabGet {} c.lines (line + j)).valid)
  if tabGet {} c.regions line = tag ∧ valid = true then { c with hits := c.hits + 1 }
  else
    { c with
      lines := tiles.zipIdx.foldl (fun t x => writeLines (line + x.2 * per) tag.part false x.1.2.1 x.1.2.2 x.1.1 t) c.lines
      regions := tabSet {} (dropRegions line n span c.regions) line tag }

/-- The work of HFILL (R145, R146). -/
def hfillWork (i : Nat) (w : IWord) (s : State) : Option State :=
  let seg := fld w 73 12
  let target := fld w 85 4
  let matB := bitAt w 89
  let tile := fld w 90 15
  let ntiles := fld w 105 16
  let line := fld w 54 19
  let sg := s.run.segs.getD seg {}
  if s.run.segs.length ≤ seg ∨ bitAt (slotOf s sg.slot).tmask target = false then some (setStatus i 4 false s) else
  match servingRec s sg.slot sg.version with
  | none => some (setStatus i 4 false s)
  | some k =>
    let area := (vrecOf s sg.slot k).area
    let e := dirEnt s.hbm area target matB
    let total := e.tpl * nfld (memNat s.hbm area 8) 48 11
    let n := min ntiles (total - tile)
    let tiles := (List.range n).map (fun j =>
      let x := areaTile s.hbm area e (tile + j)
      (x.1, x.2, badRead s (area + e.codes + (tile + j) * e.tbytes) e.tbytes))
    let part := (slotOf s sg.slot).part
    let tag : RegionTag := { slot := sg.slot, version := sg.version, target, matB, tile, ntiles := n, part }
    let span := regionLines s
    let s := (maskBits (fld w 46 8) 8).foldl (fun s c =>
      modCluster (Fin.ofNat 8 c) (fillCache tag line tiles (tileLines e.tbytes) span) s) s
    let bad := (tiles.zipIdx.filter (fun x => x.1.2.2)).map (fun x => tile + x.2)
    some (setStatus i 0 false (bad.foldl (fun s t =>
      countContained 0x0E (stepErr part
        { code := 0x0C, cls := .contained, src := 0x0E, info0 := area + e.codes + t * e.tbytes, info1 := sg.slot } s)) s))

/-- A staging entry filled from lines (R93): a line of another partition poisons the entry, and no byte enters. -/
def stageFrom (part : Nat) (lines : List CacheLine) (codes : List Byte) (f8g : Bool) : Tile :=
  if lines.all (fun l => l.valid && l.part.val == part) then
    { codes, f8g, scale := (lines.headD {}).scale, bad := lines.any (fun l => l.bad) }
  else { f8g, poisoned := true }

/-- The words of a queue of the running program that have not issued. -/
def wordsLeft (s : State) (q : Nat) : List IWord :=
  match s.run.prog, issuerOf s q with
  | some p, some x => (p.words.drop (x.first + tabGet 0 s.run.ptr q)).take (x.count - tabGet 0 s.run.ptr q)
  | _, _ => []

/-- An earlier load from a staging entry has yet to take place (R147): no word has loaded the tile that it holds, and a word
of the core that has not issued loads from it (log entry 126). -/
def loadAwaited (s : State) (n : CoreIx) (entry : Nat) : Bool :=
  (match s.cores[n].staging.getD entry none with | some t => !t.taken | none => false) &&
    (wordsLeft s n.val).any (fun w => wIsArray w && !(arrayWord w).held && 8 * (arrayWord w).array + (arrayWord w).stage == entry)

/-- The work of TFILL in a core (R147). -/
def tfillWork (n : CoreIx) (i : Nat) (w : IWord) (s : State) : Option State :=
  let entry := 8 * fld w 46 2 + fld w 48 3
  if loadAwaited s n entry then none else
  let f8g := bitAt w 51
  let shape := fld w 52 2
  let line := fld w 55 19
  let seg := fld w 74 12
  let matB := bitAt w 90
  let tile := fld w 91 15
  let sg := s.run.segs.getD seg {}
  let cl := s.clusters[clusterOf n]
  let part := s.cores[n].part
  -- an uncorrectable error of a cache line that the word read poisons the entry (Table REL-4)
  let lost := s.run.hw.any (fun f => f.1.word == i && f.1.src == 2)
  let stage := fun (t : Tile) => modCore n (fun c => { c with staging := vset c.staging entry (some { t with bad := t.bad || lost }) }) s
  if s.run.segs.length ≤ seg ∨ bitAt (slotOf s sg.slot).tmask (fld w 86 4) = false then
    some (setStatus i 4 false (stage { skipped := true }))
  else if bitAt w 54 then
    let r := tabGet {} cl.regions line
    if r.tile ≤ tile ∧ tile < r.tile + r.ntiles then
      let per := tileLines (tileBytes matB sg.rank)
      let ls := (List.range per).map (fun j => tabGet {} cl.lines (line + (tile - r.tile) * per + j))
      let bytes := (ls.flatMap (fun l => slice l.bytes 0 64)).take (tileBytes matB sg.rank)
      some (setStatus i 0 false (stage (stageFrom part ls (unpackTile matB sg.rank shape bytes) f8g)))
    else
      let old := (s.cores[n].staging.getD entry none).getD {}
      some (setStatus i 0 false (stage { old with region := true, skipped := false, taken := false }))
  else
    let ls := (List.range 16).map (fun j => tabGet {} cl.lines (line + j))
    some (setStatus i 0 false (stage (stageFrom part ls (ls.flatMap (fun l => slice l.bytes 0 64)) f8g)))

/-- HFILL (R145). -/
def execHfill (cluster : ClusterIx) (s : State) : Host.Outcome State Fault Refusal :=
  .next (footWord s (issueWord (192 + cluster.val) (fun w => wOp w == 0x11) (fun s => clusterDown s cluster) hfillWork s))

/-- TFILL (R147). -/
def execTfill (core : CoreIx) (s : State) : Host.Outcome State Fault Refusal :=
  .next (footWord s (issueWord (128 + core.val) (fun w => wOp w == 0x10) (fun s => clusterDown s (clusterOf core))
    (tfillWork core) s))

end Sys2Proof.Machine
end

