-- ==== Sys2Proof/Machine/Vector.lean ====
section
/-!
DEFINITION. The vector units (Table CORE-7, R149) and the words that carry no work: the commands NOP, WAIT, VEC_* and
CVT. Events of a vector word are latched with ROW 0 and ELEM 0x3F (log entry 17).
-/

namespace Sys2Proof.Machine

/-- Fields of a VEC word (R149): DST, SA, SB, SC and the lanes of its N beats. -/
structure VecWord where
  /-- OP. -/
  op : Nat
  /-- DST. -/
  dst : Nat
  /-- SA. -/
  sa : Nat
  /-- SB. -/
  sb : Nat
  /-- SC. -/
  sc : Nat
  /-- Lanes. -/
  n : Nat
  deriving DecidableEq, Repr

/-- The fields of a VEC word. -/
def vecWord (w : IWord) : VecWord :=
  { op := fld w 46 4, dst := fld w 50 15, sa := fld w 65 15, sb := fld w 80 15, sc := fld w 95 15, n := 128 * fld w 110 12 }

/-- FP32 operands at a granule, n lanes. -/
def vecLoad (c : CoreSt) (granule n : Nat) : List F32 :=
  (chunk 4 n (memRead c.store (granule * 128) (4 * n))).map (fun b => BitVec.ofNat 32 (leNat b))

/-- Lane results and events of a vector unit brought to its latch, and the word's status. -/
def vuFinish (n : CoreIx) (i : Nat) (evs : List (Nat × Nat × Nat)) (s : State) : State :=
  setStatus i (if evs = [] then 0 else 1) false
    (evs.foldl (fun s e => coreEvent n 8 e.1 e.2.1 0x3F (e.2.2 % 128) 0 i s) s)

/-- FP32 lane results with those of a poisoned granule replaced by the canonical NaN, which is no event (Table CORE-9). -/
def laneClean (s : State) (i : Nat) (r : List (F32 × Nat)) : List (F32 × Nat) :=
  if s.run.hw.isEmpty then r else r.zipIdx.map (fun x => if unitPoison s i (x.2 / 32) then (f32Nan, 0) else x.1)

/-- Events of lane results: KIND, flag, lane. DESIGN CHOICE: a NaN operand of ADD, SUB, MUL, FMA, MAX, MIN or SCALE2, for which
Table FMT-10 has no row of the vector unit, raises NAN with KIND 0b011 (log entry 17). -/
def laneKinds (l : List (F32 × Nat)) : List (Nat × Nat × Nat) :=
  l.zipIdx.filterMap (fun x => if x.1.2 = 0 then none else some (x.1.2, kindFlag x.1.2, x.2))

/-- A VEC operation whose lanes are independent, on a, b and c. -/
def vecLanes (n : CoreIx) (f : F32 → F32 → F32 → F32 × Nat) (i : Nat) (w : IWord) (s : State) : Option State :=
  let v := vecWord w
  let c := s.cores[n]
  let a := vecLoad c v.sa v.n
  let b := vecLoad c v.sb v.n
  let d := vecLoad c v.sc v.n
  let r := laneClean s i (List.zipWith (fun x yz => f x yz.1 yz.2) a (b.zip d))
  some (vuFinish n i (laneKinds r) (storeWrite n (v.dst * 128) (f32Bytes (r.map Prod.fst)) s))

/-- MAX or MIN of Table CORE-7: +0 counts as larger than −0, a NaN gives the canonical NaN. -/
def f32Pick (larger : Bool) (a b : F32) : F32 × Nat :=
  if f32IsNan a || f32IsNan b then (f32Nan, 3) else
  let key : F32 → Int := fun x => if x.toNat < 2 ^ 31 then (x.toNat : Int) else -((x.toNat : Int) - 2 ^ 31) - 1
  ((if larger then (if key a < key b then b else a) else (if key b < key a then b else a)), 0)

/-- SCALE2: k in bits 87:80 of the word. -/
def scaleWork (n : CoreIx) (i : Nat) (w : IWord) (s : State) : Option State :=
  vecLanes n (fun a _ _ => f32Scale a (sgn 8 (fld w 80 8))) i w s

/-- EXPMAX of one group: the exponent in FP32 in every lane of the group (log entry 17); a non-finite element gives the
canonical NaN and KIND 5. -/
def expMaxGroup (l : List F32) : List (F32 × Nat × Nat) :=
  if l.all f32Finite then
    let e := quantExp l
    l.map (fun _ => ((f32OfDyadic (e, 0)).1, 0, 0))
  else l.map (fun x => if f32Finite x then (f32Nan, 0, 0) else (f32Nan, 5, if f32IsNan x then 2 else 4))

/-- The work of VEC EXPMAX: group length in bits 103:95, 0 counted as 256 is reserved and never loaded. -/
def expMaxWork (n : CoreIx) (i : Nat) (w : IWord) (s : State) : Option State :=
  let v := vecWord w
  let g := max 1 (fld w 95 9)
  let a := vecLoad s.cores[n] v.sa v.n
  let r := ((chunk g (cdiv v.n g) a).flatMap expMaxGroup).zipIdx.map (fun x =>
    if unitPoison s i (x.2 / 32) then (f32Nan, 0, 0) else x.1)
  let evs := r.zipIdx.filterMap (fun x => if x.1.2.1 = 0 then none else some (x.1.2.1, x.1.2.2, x.2))
  some (vuFinish n i evs (storeWrite n (v.dst * 128) (f32Bytes (r.map Prod.fst)) s))

/-- A comparison of Table ISA-13; zeros of both signs are equal, and a NaN makes every condition but NE false. -/
def f32Cmp (cond : Nat) (a b : F32) : Bool :=
  if f32IsNan a || f32IsNan b then cond == 1 else
  let lt := f32Lt a b
  let gt := f32Lt b a
  if cond = 0 then !lt && !gt else if cond = 1 then lt || gt else if cond = 2 then lt
  else if cond = 3 then !gt else if cond = 4 then gt else if cond = 5 then !lt else false

/-- Bits packed into bytes, bit 0 first. -/
def packBits (l : List Bool) : List Byte :=
  (chunk 8 (cdiv l.length 8) l).map (fun b => BitVec.ofNat 8 (b.foldr (fun x acc => b2n x + 2 * acc) 0))

/-- The work of VEC CMP: one mask bit per lane at DST. A bit has no NaN to be poisoned with (log entry 140). -/
def cmpWork (n : CoreIx) (i : Nat) (w : IWord) (s : State) : Option State :=
  let v := vecWord w
  let m := List.zipWith (f32Cmp (fld w 95 3)) (vecLoad s.cores[n] v.sa v.n) (vecLoad s.cores[n] v.sb v.n)
  some (vuFinish n i [] (storeWrite n (v.dst * 128) (packBits m) s))

/-- The work of VEC SELECT: a where the mask bit at SC is set, else b; a NaN chosen leaves as the canonical NaN (R62), with no
event, since Table FMT-10 has no row for it (log entry 17). -/
def selectWork (n : CoreIx) (i : Nat) (w : IWord) (s : State) : Option State :=
  let v := vecWord w
  let c := s.cores[n]
  let r := (List.zip (vecLoad c v.sa v.n) (vecLoad c v.sb v.n)).zipIdx.map (fun x =>
    let y := if storeBit c v.sc x.2 then x.1.1 else x.1.2
    (if f32IsNan y then f32Nan else y, 0))
  some (vuFinish n i [] (storeWrite n (v.dst * 128) (f32Bytes ((laneClean s i r).map Prod.fst)) s))
where
  /-- A bit of a bitmap at a granule. -/
  storeBit (c : CoreSt) (granule k : Nat) : Bool := bitAt (memByte c.store (granule * 128 + k / 8)) (k % 8)

/-- A format by its CVT code: 0 F8v, 1 F8g, 2 B16, 3 FP32. -/
def cvtFmt (code : Nat) : Fmt := if code = 0 then fmtF8v else if code = 1 then fmtF8g else if code = 2 then fmtB16 else fmtF32

/-- One conversion of CVT (R69, R70, R149): scaled by 2^EXP exactly, then converted once. A NaN input raises NAN but in
a conversion to FP32 (R60). -/
def cvtElem (src dst mode : Nat) (exp : Int) (code : Nat) : Nat × Nat :=
  let v := valScale (fpDecode (cvtFmt src) code) exp
  if dst = 3 then
    let r := f32OfVal v
    (r.1.toNat, if r.2 = 3 then 0 else r.2)
  else
    let f := cvtFmt dst
    if mode = 1 then fpConvert f true v else if mode = 2 then fpConvert f false v else fpDefault f v

/-- The work of CVT. -/
def cvtWork (n : CoreIx) (i : Nat) (w : IWord) (s : State) : Option State :=
  let src := fld w 46 4
  let dst := fld w 50 4
  let lanes := 128 * fld w 86 12
  let wb := (cvtFmt src).width / 8
  let codes := (chunk wb lanes (memRead s.cores[n].store (fld w 71 15 * 128) (wb * lanes))).map leNat
  let r := (codes.map (cvtElem src dst (fld w 54 2) (sgn 8 (fld w 98 8)))).zipIdx.map (fun x =>
    if unitPoison s i (x.2 * wb / 128) then ((cvtFmt dst).nanc, 0) else x.1)
  let evs := r.zipIdx.filterMap (fun x => if x.1.2 = 0 then none else some (x.1.2, kindFlag x.1.2, x.2))
  some (vuFinish n i evs (storeWrite n (fld w 56 15 * 128) (r.flatMap (fun x => leBytes ((cvtFmt dst).width / 8) x.1)) s))

/-- A VEC word of a core with its OP. -/
def issueVec (core : CoreIx) (op : Nat) (work : Nat → IWord → State → Option State) (s : State) : State :=
  footWord s (issueWord (64 + core.val) (fun w => wOp w == 0x50 && fld w 46 4 == op) (fun s => clusterDown s (clusterOf core))
    work s)

/-- VEC ADD (R113). -/
def execVecAdd (core : CoreIx) (s : State) : Host.Outcome State Fault Refusal :=
  .next (issueVec core 0 (vecLanes core (fun a b _ => f32Add a b)) s)

/-- VEC SUB (R113). -/
def execVecSub (core : CoreIx) (s : State) : Host.Outcome State Fault Refusal :=
  .next (issueVec core 1 (vecLanes core (fun a b _ => f32Sub a b)) s)

/-- VEC MUL (R113). -/
def execVecMul (core : CoreIx) (s : State) : Host.Outcome State Fault Refusal :=
  .next (issueVec core 2 (vecLanes core (fun a b _ => f32Mul a b)) s)

/-- VEC FMA (R113). -/
def execVecFma (core : CoreIx) (s : State) : Host.Outcome State Fault Refusal :=
  .next (issueVec core 3 (vecLanes core f32Fma) s)

/-- VEC MAX (R113). -/
def execVecMax (core : CoreIx) (s : State) : Host.Outcome State Fault Refusal :=
  .next (issueVec core 4 (vecLanes core (fun a b _ => f32Pick true a b)) s)

/-- VEC MIN (R113). -/
def execVecMin (core : CoreIx) (s : State) : Host.Outcome State Fault Refusal :=
  .next (issueVec core 5 (vecLanes core (fun a b _ => f32Pick false a b)) s)

/-- VEC SCALE2 (R113). -/
def execVecScale2 (core : CoreIx) (s : State) : Host.Outcome State Fault Refusal :=
  .next (issueVec core 6 (scaleWork core) s)

/-- VEC EXPMAX (R113). -/
def execVecExpmax (core : CoreIx) (s : State) : Host.Outcome State Fault Refusal :=
  .next (issueVec core 7 (expMaxWork core) s)

/-- VEC CMP (R149). -/
def execVecCmp (core : CoreIx) (s : State) : Host.Outcome State Fault Refusal :=
  .next (issueVec core 8 (cmpWork core) s)

/-- VEC SELECT (R149). -/
def execVecSelect (core : CoreIx) (s : State) : Host.Outcome State Fault Refusal :=
  .next (issueVec core 9 (selectWork core) s)

/-- CVT (R149). -/
def execCvt (core : CoreIx) (s : State) : Host.Outcome State Fault Refusal :=
  .next (footWord s (issueWord (64 + core.val) (fun w => wOp w == 0x51) (fun s => clusterDown s (clusterOf core)) (cvtWork core) s))

/-- NOP (R132): it completes when its NB is reached. -/
def execNop (queue : QueueIx) (s : State) : Host.Outcome State Fault Refusal :=
  .next (footWord s (issuePlain queue.val (fun w => wOp w == 0x00) (fun i _ s => some (setStatus i 0 false s)) s))

/-- WAIT (R120): it completes when its token's count reaches NEED. -/
def execWait (queue : QueueIx) (s : State) : Host.Outcome State Fault Refusal :=
  .next (footWord s (issuePlain queue.val (fun w => wOp w == 0x01) (fun i w s =>
    if fld w 56 10 ≤ tabGet 0 s.run.tokens (fld w 46 10) then some (setStatus i 0 false s) else none) s))

end Sys2Proof.Machine
end

