-- ==== Sys2Proof/Machine/Faces.lean ====
section
/-!
DEFINITION. The request faces' blocks (R150 to R153, R198 to R201, R293 to R296, R482, Table ARITH-13): the commands
FACEIN_ACT, FACEIN_GRAD, FACEIN_LOGIT, FACEOUT_BITMAP, FACEOUT_DELTA, FACEOUT_IGRAD and FACEOUT_TOPK.
-/

namespace Sys2Proof.Machine

/-- Fields of a FACEIN or FACEOUT word (R150). -/
structure FaceWord where
  /-- KIND. -/
  kind : Nat
  /-- TARGET. -/
  target : Nat
  /-- LAYER. -/
  layer : Nat
  /-- CLMASK. -/
  clmask : Nat
  /-- CMASK. -/
  cmask : Nat
  /-- ADDR. -/
  addr : Nat
  /-- STRIDE. -/
  stride : Nat
  /-- SPLIT. -/
  split : Bool
  /-- ROUTE. -/
  route : Bool
  deriving DecidableEq, Repr

/-- The fields of a face word. -/
def faceWord (w : IWord) : FaceWord :=
  { kind := fld w 46 4, target := fld w 50 4, layer := fld w 54 10, clmask := fld w 64 8, cmask := fld w 72 8,
    addr := fld w 80 15, stride := fld w 95 11, split := bitAt w 106, route := bitAt w 107 }

/-- Queue of a face's incoming words; the outgoing ones stand two above (Table ISA-1). -/
def faceInQueue (f : FaceIx) : Nat := 200 + f.val

/-- The payload of an incoming word: from the replay log when it is there (Table REL-8), else as delivered, and then it
is logged while the log of 128 MiB has room. -/
def takePayload (i : Nat) (bytes : List Byte) (s : State) : List Byte × State :=
  match s.run.log.find? (fun x => x.1 == i) with
  | some x => (x.2, s)
  | none =>
    if s.run.logStopped ∨ 2 ^ 27 < s.run.logBytes + bytes.length then (bytes, modRun (fun r => { r with logStopped := true }) s)
    else (bytes, modRun (fun r => { r with log := r.log ++ [(i, bytes)], logBytes := r.logBytes + bytes.length }) s)

/-- An outgoing word sends once: a word completed before a replay sends nothing again (Table REL-8). -/
def sendOnce (i : Nat) (o : Out) (s : State) : State :=
  if s.run.sentWords.contains i then s
  else modRun (fun r => { r with sentWords := r.sentWords ++ [i] }) (send o s)

/-- The partitions of a list of rows, each once, ascending. -/
def rowParts (s : State) (rows : List Nat) : List Part :=
  (List.finRange 16).filter (fun p => rows.any (fun r => decide (tagPart (tagOf s r) = p)))

/-- ACTIVE and OVF of a partition set in the training summary (R213). -/
def summaryBits (p : Part) (active ovf : Bool) (s : State) : State :=
  modRun (fun r => { r with summary := r.summary ||| BitVec.ofNat 32 (b2n active * 2 ^ p.val + b2n ovf * 2 ^ (16 + p.val)) }) s

/-- A row poisoned at a face (R482). -/
def poisonRow (f : FaceIx) (row : Nat) (s : State) : State :=
  let t := tagOf s row
  let s := modRun (fun r => { r with poison := r.poison ++ [(f, row)] }) s
  if tagGrad t then summaryBits (tagPart t) true true s else s

/-- A row is poisoned on a face. -/
def isPoisoned (s : State) (f : FaceIx) (row : Nat) : Bool := s.run.poison.contains (f, row)

/-- A FACE_BOUNDS entry for each partition with rows in a refused block (Table REL-7). -/
def faceBounds (w : FaceWord) (rows : List Nat) (expected got : Nat) (s : State) : State :=
  (rowParts s rows).foldl (fun s p => stepErr p
    { code := 0x07, cls := .contained, info0 := w.kind + put 4 w.target + put 8 w.layer, info1 := expected, aux := got } s) s

/-- The cores that a row reaches: those of CMASK in the row's cluster, or of every cluster of CLMASK (R151). -/
def rowCores (w : FaceWord) (cluster : Nat) : List CoreIx :=
  let cl := if w.route then maskBits w.clmask 8 else [cluster]
  cl.flatMap (fun c => (maskBits w.cmask 8).map (fun j => coreOf (Fin.ofNat 8 c) j))

/-- Every core of a list is assigned to a partition (R153). -/
def coresOwned (s : State) (l : List CoreIx) (p : Part) : Bool := l.all (fun n => s.cores[n].part == p.val)

/-- Bytes of a row written into cores at one address, whole or in equal pieces, one a core (R151). -/
def spreadRow (l : List CoreIx) (addr : Nat) (split : Bool) (bytes : List Byte) (s : State) : State :=
  let piece := bytes.length / max 1 l.length
  l.zipIdx.foldl (fun s x =>
    storeWrite x.1 addr (if split then slice bytes (x.2 * piece) piece else bytes) s) s

/-- PART_TAG of a face word: its status, and one entry for each partition with a failing row (R153). -/
def facePartTag (i : Nat) (failed : List Nat) (s : State) : State :=
  if failed = [] then setStatus i 0 false s else
  setStatus i 3 false ((rowParts s failed).foldl (fun s p =>
    let first := (failed.find? (fun r => decide (tagPart (tagOf s r) = p))).getD 0
    wordErr i (some p) { code := 0x04, cls := .contained, info0 := i, info1 := first } s) s)

/-- A segment trains (Table TRAIN-1). -/
def segTrains (s : State) (sg : Seg) : Bool := let e := slotOf s sg.slot; e.train && !e.frozen

/-- The row that stands at a position of a segment entry, if its data counts as stationary: a GRAD row (R200). -/
def tilePosRow (s : State) (sg : Seg) (p : Nat) : Option Nat :=
  if p < sg.count ∧ tagGrad (tagOf s (rowAt s sg p)) then some (rowAt s sg p) else none

/-- The stationary tiles of one segment (R200): from a cache line on, batch groups ascending, column tiles ascending
within; `data` gives a row's codes. Answers the line after the last. -/
def stationTiles (s : State) (cl : ClusterIx) (f8g : Bool) (depth lanes width : Nat) (line : Nat) (seg : Nat)
    (data : Nat → List Byte) (t : State) : State × Nat :=
  let sg := s.run.segs.getD seg {}
  let groups := cdiv (planRow s seg).maxRows depth
  let cols := width / lanes
  let stop := line + groups * cols * 16
  if segTrains s sg ∧ seg < s.run.segs.length then
    let t := (List.range groups).foldl (fun t g => (List.range cols).foldl (fun t c =>
      let bytes := (List.range depth).flatMap (fun j => match tilePosRow s sg (g * depth + j) with
        | some r => slice (data r) (c * lanes) lanes
        | none => List.replicate lanes 0)
      modCluster cl (fun k => { k with
        lines := writeLines (line + (g * cols + c) * 16) sg.part f8g 0 false bytes k.lines }) t) t) t
    (modCluster cl (fun k => { k with regions := dropRegions line (groups * cols * 16) (regionLines s) k.regions }) t, stop)
  else (t, stop)

/-- The stationary tiles of a FACEIN word in every cluster of CLMASK (R200). -/
def stationAll (w : FaceWord) (grad : Bool) (width : Nat) (data : Nat → List Byte) (s : State) : State :=
  if w.route ∨ w.clmask = 0 then s else
  let n := match s.run.prog with | some p => p.plan.length | none => 0
  (maskBits w.clmask 8).foldl (fun t c => ((List.range n).foldl (fun x seg =>
    let rank := if seg < s.run.segs.length then (s.run.segs.getD seg {}).rank else (planRow s seg).rmax
    let d := if grad then shapeDims (bShape rank) else (32, 32)
    stationTiles s (Fin.ofNat 8 c) grad d.1 d.2 width x.2 seg data x.1) (t, w.addr * 16)).1) s

/-- Rows written to the cores by ROUTE 0 or 1, with ROUTE 1 at the row's rank among the face's valid rows; answers the rows
that failed R153. -/
def placeRows (f : FaceIx) (w : FaceWord) (rows : List (Nat × List Byte)) (s : State) : List Nat × State :=
  let rank := fun (r : Nat) => (faceRows s f).idxOf r
  rows.foldl (fun acc x =>
    let s := acc.2
    let row := x.1
    if w.route then
      let l := rowCores w 0
      if coresOwned s l (tagPart (tagOf s row)) then
        (acc.1, spreadRow l (w.addr * 128 + rank row * w.stride * 128) false x.2 s)
      else (acc.1 ++ [row], s)
    else match rowPlace s row with
      | none => acc
      | some (seg, p) =>
        let pr := planRow s seg
        let pl := placeOf pr p
        let l := rowCores w pl.1
        if coresOwned s l (tagPart (tagOf s row)) then
          (acc.1, spreadRow l (pr.abase * 128 + pl.2 * pr.astr * 128) w.split x.2 s)
        else (acc.1 ++ [row], s)) ([], s)

/-- Rows that a FACEIN writes: with ROUTE 0 the adapted ones, with ROUTE 1 all (R151). -/
def rowsMeant (s : State) (w : FaceWord) (rows : List Nat) : List Nat := rows.filter (fun r => w.route || (rowPlace s r).isSome)

/-- The work of FACEIN ACT (R151, R200, R482). -/
def actWork (f : FaceIx) (block : List Byte) (i : Nat) (wd : IWord) (s : State) : Option State :=
  let w := faceWord wd
  let p := takePayload i block s
  let block := p.1
  let s := p.2
  let width := (targetOf s w.target).din
  let rows := faceRows s f
  if block.length ≠ rows.length * width then
    some (setStatus i 0 false ((rowsMeant s w rows).foldl (fun s r => poisonRow f r s)
      (faceBounds w rows (rows.length * width) block.length s)))
  else
    let data := rows.zip (chunk width rows.length block)
    let r := placeRows f w data s
    let t := r.1.foldl (fun s row => poisonRow f row s) r.2
    let t := stationAll w false width (fun row => ((data.find? (fun x => x.1 == row)).map (·.2)).getD []) t
    some (facePartTag i r.1 t)

/-- The loss-scale exponent in force of a partition. -/
def lossOf (s : State) (p : Part) : Int := s.parts[p].loss.ls

/-- A row of B16 output gradients as F8g codes, dY × 2^LS (R199). -/
def gradCodes (ls : Int) (n : Nat) (bytes : List Byte) : List Byte :=
  (chunk 2 n bytes).map (fun b =>
    BitVec.ofNat 8 (fpConvert fmtF8g false (valScale (fpDecode fmtB16 (leNat b)) ls)).1)

/-- The work of FACEIN GRAD (R198 to R200). -/
def gradWork (f : FaceIx) (block : List Byte) (i : Nat) (wd : IWord) (s : State) : Option State :=
  let w := faceWord wd
  let p := takePayload i block s
  let block := p.1
  let s := p.2
  let width := (targetOf s w.target).dout
  let rows := (faceRows s f).filter (fun r => tagGrad (tagOf s r))
  if block.length ≠ rows.length * width * 2 then
    let all := (List.range s.run.tags.length).filter (fun r => tagValid (tagOf s r) && tagGrad (tagOf s r))
    let s := faceBounds w all (rows.length * width * 2) block.length s
    let s := (rowParts s all).foldl (fun s p => summaryBits p true true s) s
    let s := (rowsMeant s w rows).foldl (fun s r => poisonRow f r s) s
    some (setStatus i 0 false (modRun (fun r => { r with gradRefused := r.gradRefused ++ [(f, w.target, w.layer)] }) s))
  else
    let data := (rows.zip (chunk (2 * width) rows.length block)).map (fun x =>
      (x.1, gradCodes (lossOf s (tagPart (tagOf s x.1))) width x.2))
    let r := placeRows f w data ((rowParts s rows).foldl (fun s p => summaryBits p true false s) s)
    -- zero codes at the positions of training segments without a GRAD row (R199)
    let zeros := if w.route then r.2 else s.run.segs.zipIdx.foldl (fun t sg =>
      if segTrains s sg.1 then
        let pr := planRow s sg.2
        (List.range pr.maxRows).foldl (fun t q => match tilePosRow s sg.1 q with
          | some _ => t
          | none =>
            let pl := placeOf pr q
            let l := rowCores w pl.1
            if coresOwned t l sg.1.part then
              spreadRow l (pr.abase * 128 + pl.2 * pr.astr * 128) w.split (List.replicate width 0) t
            else t) t
      else t) r.2
    let t := r.1.foldl (fun s row => poisonRow f row s) zeros
    let t := stationAll w true width (fun row => ((data.find? (fun x => x.1 == row)).map (·.2)).getD []) t
    some (facePartTag i r.1 t)

/-- A row of a face gathered from the cores of CMASK, a piece from each, joined in ascending core order (R152): at the
output address of R141, or at ADDR and STRIDE for the products that no FINAL word writes (log entry 18). -/
def gatherRow (s : State) (w : FaceWord) (byAddr : Bool) (bytes : Nat) (row : Nat) : Option (List Byte) :=
  match rowPlace s row with
  | none => none
  | some (seg, p) =>
    let pr := planRow s seg
    let pl := placeOf pr p
    let l := (maskBits w.cmask 8).map (fun j => coreOf (Fin.ofNat 8 pl.1) j)
    let piece := bytes / max 1 l.length
    let addr := if byAddr then w.addr * 128 + pl.2 * w.stride * 128 else pr.obase * 128 + pl.2 * pr.ostr * 128
    if coresOwned s l (tagPart (tagOf s row)) then some (l.flatMap (fun n => memRead s.cores[n].store addr piece)) else none

/-- Canonical NaNs filling a row of n elements. -/
def nanRow (width n : Nat) : List Byte :=
  (List.range n).flatMap (fun _ => if width = 4 then leBytes 4 0x7FC00000 else leBytes 2 0x7FC0)

/-- TOPK of a row's request. -/
def rowTopk (s : State) (row : Nat) : Nat := (recOf s (tagReq (tagOf s row))).topk

/-- The work of FACEOUT DELTA (R52 to R54, R152, R153). -/
def deltaWork (f : FaceIx) (i : Nat) (wd : IWord) (s : State) : Option State :=
  let w := faceWord wd
  let t := targetOf s w.target
  let rows := (faceRows s f).map (fun row =>
    let width := deltaWidth s (tagPart (tagOf s row)) f
    if isPoisoned s f row then (row, nanRow width t.dout, false)
    else if zeroRow s w.target row || (t.typ == 3 && decide (0 < rowTopk s row)) then
      (row, List.replicate (t.dout * width) 0, false)
    else match gatherRow s w false (t.dout * width) row with
      | some b => (row, b, false)
      | none => (row, nanRow width t.dout, true))
  let failed := (rows.filter (·.2.2)).map (·.1)
  some (facePartTag i failed (sendOnce i (.face f 0x9 w.target w.layer (rows.flatMap (·.2.1))) s))

/-- The work of FACEOUT IGRAD (R201, Table TRAIN-1). -/
def igradWork (f : FaceIx) (i : Nat) (wd : IWord) (s : State) : Option State :=
  let w := faceWord wd
  let t := targetOf s w.target
  let refused := s.run.gradRefused.contains (f, w.target, w.layer)
  let rows := ((faceRows s f).filter (fun r => tagGrad (tagOf s r))).map (fun row =>
    let ls := lossOf s (tagPart (tagOf s row))
    if refused || isPoisoned s f row then (row, nanRow 2 t.din, false)
    else if zeroRow s w.target row then (row, List.replicate (2 * t.din) 0, false)
    else match gatherRow s w true (t.din * 4) row with
      | some b => (row, (chunk 4 t.din b).flatMap (fun x =>
          leBytes 2 (fpConvert fmtB16 false (f32Val (f32Scale (BitVec.ofNat 32 (leNat x)) (-ls)).1)).1), false)
      | none => (row, nanRow 2 t.din, true))
  let failed := (rows.filter (·.2.2)).map (·.1)
  some (facePartTag i failed (sendOnce i (.face f 0xA w.target w.layer (rows.flatMap (·.2.1))) s))

/-- The program's words that a test accepts. -/
def progWords (s : State) (sel : IWord → Bool) : List IWord := match s.run.prog with | some p => p.words.filter sel | none => []

/-- The targets a program returns in FACEOUT DELTA words on a face (R55), ascending. -/
def deltaTargets (s : State) (f : FaceIx) : List Nat :=
  match s.run.prog, issuerOf s (202 + f.val) with
  | some p, some q =>
    let ws := (p.words.drop q.first).take q.count
    (List.range 16).filter (fun t => ws.any (fun w => wOp w == 0x61 && (faceWord w).kind == 9 && (faceWord w).target == t))
  | _, _ => []

/-- The context list (R185, Table RCC-10): the served requests of the hand-over check. -/
def contextList (s : State) : List RccReq := s.run.rcc.filter (fun r => r.code == 0 || r.code == 4)

/-- The listed requests of a face (log entry 21). -/
def faceContext (s : State) (f : FaceIx) : List RccReq :=
  (contextList s).filter (fun r => decide ((recOf s r.req).face = f))

/-- The header and context list of a program with passes (R185). -/
def contextBytes (s : State) (f : FaceIx) : List Byte :=
  if (progWords s (fun w => wOp w == 0x90 && fld w 46 4 != 0)).isEmpty then [] else
  let l := faceContext s f
  leBytes 16 l.length ++ l.flatMap (fun r =>
    leBytes 16 (r.req + put 18 r.rows.length + put 64 (r.clen + r.rows.length) + put 85 r.code))

/-- The BITMAP block (Table ARITH-13). -/
def bitmapBytes (s : State) (f : FaceIx) : List Byte :=
  let ts := deltaTargets s f
  let n := s.run.tags.length
  let l := 16 * cdiv n 128
  leBytes 16 (ts.foldl (fun a t => a + 2 ^ t) 0 + put 16 n) ++
    ts.flatMap (fun t => (packBits ((List.range (8 * l)).map (fun r => decide (r < n) && zeroRow s t r)))) ++ contextBytes s f

/-- The work of FACEOUT BITMAP: in a program with passes it waits for the hand-over check, which makes the context list (R185). -/
def bitmapWork (f : FaceIx) (i : Nat) (_ : IWord) (s : State) : Option State :=
  if s.run.checked = false ∧ progWords s (fun w => wOp w == 0x90 && fld w 46 4 != 0) ≠ [] then none else some (setStatus i 0 false (sendOnce i (.face f 0x8 0 0 (bitmapBytes s f)) s))

/-- The work of FACEIN LOGIT (R151, R153, R294, R482): the rows are written by R151, and the block is kept for the finisher. -/
def logitWork (f : FaceIx) (block : List Byte) (i : Nat) (wd : IWord) (s : State) : Option State :=
  let w := faceWord wd
  let p := takePayload i block s
  let block := p.1
  let s := p.2
  let t := targetOf s w.target
  let rows := (faceRows s f).filter (fun r => decide (0 < rowTopk s r))
  let expected := (rows.map (fun r => t.dout * deltaWidth s (tagPart (tagOf s r)) f)).sum
  let keep := fun (b : Option (List Byte)) (s : State) => modRun (fun r => { r with
    blocks := r.blocks ++ [{ kind := 4, face := f, target := w.target, layer := w.layer, addr := w.addr, route := w.route, bytes := b }] }) s
  if block.length ≠ expected then
    some (setStatus i 0 false (keep none ((rowsMeant s w rows).foldl (fun s r => poisonRow f r s)
      (faceBounds w rows expected block.length s))))
  else
    let data := (rows.foldl (fun (acc : List (Nat × List Byte) × Nat) r =>
      let n := t.dout * deltaWidth s (tagPart (tagOf s r)) f
      (acc.1 ++ [(r, slice block acc.2 n)], acc.2 + n)) ([], 0)).1
    let x := placeRows f w data s
    some (facePartTag i x.1 (keep (some block) (x.1.foldl (fun s r => poisonRow f r s) x.2)))

/-- Occurrences of a token among committed counts and the first rows of the tail (R293). -/
def tokenCount (c : CountTab) (tailRows : Nat) (tok : Word) : Nat :=
  (((c.ents.find? (fun e => e.1 == tok)).map (·.2)).getD 0) + ((c.tail.take tailRows).filter (· == tok)).length

/-- The chain of one finished logit (Table SERVE-14). -/
def finishLogit (mult freq pres : F32) (count : Nat) (b d : F32) : F32 :=
  let l := (f32Add b d).1
  if count = 0 then l else
  let l := if mult = 0x3F800000 then l else if f32Lt 0 l && !f32IsNan l then (f32Div l mult).1 else (f32Mul l mult).1
  let l := (f32Sub l (f32Mul freq (f32OfDyadic (count, 0)).1).1).1
  (f32Sub l pres).1

/-- The order of a TOPK group (R295): a NaN above every number, +0 above −0, descending, then the lower token. -/
def topkBefore (a b : F32 × Nat) : Bool :=
  let key : F32 → Int := fun x => if f32IsNan x then 2 ^ 32 else
    if x.toNat < 2 ^ 31 then (x.toNat : Int) else -((x.toNat : Int) - 2 ^ 31) - 1
  decide (key b.1 < key a.1) || (decide (key a.1 = key b.1) && decide (a.2 < b.2))

/-- The best of a list by an order, and the rest. -/
def pickBest (l : List (F32 × Nat)) : Option ((F32 × Nat) × List (F32 × Nat)) :=
  match l with
  | [] => none
  | x :: r =>
    let b := r.foldl (fun m y => if topkBefore y m then y else m) x
    some (b, (x :: r).filter (fun y => !(y.2 == b.2)))

/-- The n best of a list in order. -/
def topN : Nat → List (F32 × Nat) → List (F32 × Nat)
  | 0, _ => []
  | n + 1, l => match pickBest l with
    | none => []
    | some (b, r) => b :: topN n r

/-- The HEAD delta of one element of a row after step 7, +0 for a row that is zero for the target (R293). -/
def headDelta (s : State) (w : FaceWord) (width dout row j : Nat) : F32 :=
  if zeroRow s w.target row then 0 else
  match rowPlace s row with
  | none => 0
  | some (seg, p) =>
    let pr := planRow s seg
    let pl := placeOf pr p
    let l := (maskBits w.cmask 8).map (fun k => coreOf (Fin.ofNat 8 pl.1) k)
    let per := max 1 (dout / max 1 l.length)
    match l[j / per]? with
    | some n => tabGet 0 s.cores[n].head (pr.obase * 128 + pl.2 * pr.ostr * 128 + (j % per) * width)
    | none => 0

/-- The finished logits of one row: value and token. -/
def finishRow (s : State) (f : FaceIx) (w : FaceWord) (row : Nat) (base : List Byte) : List (F32 × Nat) :=
  let t := targetOf s w.target
  let tag := tagOf s row
  let rec_ := recOf s (tagReq tag)
  let width := deltaWidth s (tagPart tag) f
  let ct := tabGet {} s.parts[tagPart tag].ctabs (tagReq tag)
  let place := ((faceRows s f).filter (fun r => tagReq (tagOf s r) == tagReq tag)).idxOf row
  (chunk width t.dout base).zipIdx.map (fun x =>
    let b := if width = 4 then BitVec.ofNat 32 (leNat x.1) else f32Of fmtB16 (leNat x.1)
    let c := tokenCount ct (place + 1) (BitVec.ofNat 32 (t.vbase + x.2))
    (finishLogit rec_.mult rec_.freq rec_.pres c b (headDelta s w width t.dout row x.2), t.vbase + x.2))

/-- Bytes of a TOPK group. -/
def topkBytes (l : List (F32 × Nat)) : List Byte := l.flatMap (fun x => leBytes 4 x.1.toNat ++ leBytes 4 x.2)

/-- The group of a row whose finished logits are all canonical NaN (R294, R482). -/
def nanGroup (vbase k : Nat) : List Byte := topkBytes ((List.range k).map (fun j => (f32Nan, vbase + j)))

/-- The work of FACEOUT TOPK (R153, R293 to R296): it waits for the LOGIT block with ROUTE 1 of its ADDR and TARGET (R296). The
finished logits of a refused block's rows and of poisoned rows are NaN, and set NAN with COL 0 (R294, R295). A row whose partition does not
hold every core named gets canonical NaNs, and the word PART_TAG. -/
def topkWork (f : FaceIx) (i : Nat) (wd : IWord) (s : State) : Option State :=
  let w := faceWord wd
  let t := targetOf s w.target
  match s.run.blocks.find? (fun b => b.kind == 4 && decide (b.face = f) && b.target == w.target && b.addr == w.addr && b.route) with
  | none => none
  | some b =>
    let rows := (faceRows s f).filter (fun r => decide (0 < rowTopk s r))
    -- rows with the offset of their base logits in the block
    let offs := rows.foldl (fun (acc : List (Nat × Nat) × Nat) r =>
      (acc.1 ++ [(r, acc.2)], acc.2 + t.dout * deltaWidth s (tagPart (tagOf s r)) f)) ([], 0)
    let cores := rowCores { w with route := true } 0
    let failed := rows.filter (fun r => !isPoisoned s f r && !coresOwned s cores (tagPart (tagOf s r)))
    let groups : List (Nat × List Byte × List Nat) := offs.1.map (fun x =>
      let k := rowTopk s x.1
      match b.bytes with
      | none => (x.1, nanGroup t.vbase k, [t.vbase])
      | some bytes =>
        if isPoisoned s f x.1 then (x.1, nanGroup t.vbase k, [t.vbase])
        else if failed.contains x.1 then (x.1, nanGroup t.vbase k, []) else
        let l := finishRow s f w x.1 (slice bytes x.2 (t.dout * deltaWidth s (tagPart (tagOf s x.1)) f))
        (x.1, topkBytes (topN k l), (l.filter (fun y => f32IsNan y.1)).map (·.2)))
    -- NaN results are latched in the lowest core named (log entry 18)
    let core := cores.head?.getD 0
    let s := groups.foldl (fun s g => g.2.2.foldl (fun s tok =>
      coreEvent core 8 3 2 0x3F ((tok - t.vbase) % 128) g.1 i s) s) s
    let nan := groups.any (fun g => !g.2.2.isEmpty)
    let s := sendOnce i (.face f 0xD w.target w.layer (groups.flatMap (·.2.1))) s
    some (if failed = [] then setStatus i (b2n nan) false s else facePartTag i failed s)

/-- A block that came after its word's scheduled cycle is counted as late from the host (R56, FC_LATE). -/
def noteLate (f : FaceIx) (s t : State) : State :=
  match readyWord s (faceInQueue f) with
  | some (_, w) =>
    if tabGet 0 s.run.ptr (faceInQueue f) < tabGet 0 t.run.ptr (faceInQueue f) ∧ nbReached s (wNb w + 1) = true ∧
        s.run.replayed = false then
      modFace f (fun x => { x with lateNow := satAdd cnt16Max x.lateNow 1 }) t
    else t
  | none => t

/-- A FACEIN word of a face with its KIND. -/
def issueIn (f : FaceIx) (kind : Nat) (work : Nat → IWord → State → Option State) (s : State) : State :=
  footWord s (noteLate f s (issuePlain (faceInQueue f) (fun w => wOp w == 0x60 && fld w 46 4 == kind) work s))

/-- A FACEOUT word of a face with its KIND. -/
def issueOut (f : FaceIx) (kind : Nat) (work : Nat → IWord → State → Option State) (s : State) : State :=
  footWord s (issuePlain (202 + f.val) (fun w => wOp w == 0x61 && fld w 46 4 == kind) work s)

/-- FACEIN ACT (R151): the block from the host. -/
def execFaceinAct (face : FaceIx) (block : List Byte) (s : State) : Host.Outcome State Fault Refusal :=
  .next (issueIn face 0 (actWork face block) s)

/-- FACEIN GRAD (R199). -/
def execFaceinGrad (face : FaceIx) (block : List Byte) (s : State) : Host.Outcome State Fault Refusal :=
  .next (issueIn face 1 (gradWork face block) s)

/-- FACEIN LOGIT (R294). -/
def execFaceinLogit (face : FaceIx) (block : List Byte) (s : State) : Host.Outcome State Fault Refusal :=
  .next (issueIn face 4 (logitWork face block) s)

/-- FACEOUT BITMAP (R55). -/
def execFaceoutBitmap (face : FaceIx) (s : State) : Host.Outcome State Fault Refusal :=
  .next (issueOut face 8 (bitmapWork face) s)

/-- FACEOUT DELTA (R152). -/
def execFaceoutDelta (face : FaceIx) (s : State) : Host.Outcome State Fault Refusal :=
  .next (issueOut face 9 (deltaWork face) s)

/-- FACEOUT IGRAD (R201). -/
def execFaceoutIgrad (face : FaceIx) (s : State) : Host.Outcome State Fault Refusal :=
  .next (issueOut face 0xA (igradWork face) s)

/-- FACEOUT TOPK (R296). -/
def execFaceoutTopk (face : FaceIx) (s : State) : Host.Outcome State Fault Refusal :=
  .next (issueOut face 0xD (topkWork face) s)

end Sys2Proof.Machine
end

