-- ==== Sys2Proof/Machine/Reduce.lean ====
section
/-!
DEFINITION. The cluster reduction network (R114, R148, R206, R247, Table ARITH-5 steps 3 to 5): the commands REDUCE_Q,
REDUCE_RCC, REDUCE_U and REDUCE_PART.
-/

namespace Sys2Proof.Machine

/-- Lane sums of two nodes, lane by lane: values, and the KIND of each lane's event. -/
def laneAdd (a b : List F32) : List (F32 × Nat) := List.zipWith f32Add a b

/-- A node of the pairwise tree of one position and rank group: the value, and the lane events with their KIND. A node
received from another chip stands in its place (R247); an odd last node passes up unpaired. `n` is the count of nodes
at the level. None where a block sum is missing. -/
def treeNode (get : Nat → Nat → Option (List F32)) (nblk : Nat) : Nat → Nat → Option (List F32 × List (Nat × Nat))
  | 0, i => (get 0 i).map (fun v => (v, []))
  | l + 1, i =>
    match get (l + 1) i with
    | some v => some (v, [])
    | none =>
      match treeNode get nblk l (2 * i) with
      | none => none
      | some a =>
        if cdiv nblk (2 ^ l) ≤ 2 * i + 1 then some a else
        match treeNode get nblk l (2 * i + 1) with
        | none => none
        | some b =>
          let r := laneAdd a.1 b.1
          some (r.map Prod.fst, a.2 ++ b.2 ++ r.zipIdx.filterMap (fun x => if x.1.2 = 0 then none else some (x.1.2, x.2)))

/-- ⌈log2 n⌉. -/
def log2Up (n : Nat) : Nat := if n ≤ 1 then 0 else Nat.log2 (n - 1) + 1

/-- Fields of a REDUCE word (Table ISA-12). -/
structure ReduceWord where
  /-- RID. -/
  rid : Nat
  /-- NBLK. -/
  nblk : Nat
  /-- TARGET. -/
  target : Nat
  /-- DEST. -/
  dest : Nat
  /-- CORES. -/
  cores : Nat
  /-- SEG. -/
  seg : Nat
  /-- VC. -/
  vc : Nat
  /-- ADDR. -/
  addr : Nat
  /-- COUNT. -/
  count : Nat
  deriving DecidableEq, Repr

/-- The fields of a REDUCE word. -/
def reduceWord (w : IWord) : ReduceWord :=
  { rid := fld w 46 6, nblk := fld w 52 12, target := fld w 64 4, dest := fld w 68 2, cores := fld w 70 8,
    seg := fld w 78 12, vc := fld w 90 3, addr := fld w 93 15, count := fld w 108 16 }

/-- A received or drained node of a reduction. -/
def redGet (nodes : List RedNode) (pos g l i : Nat) : Option (List F32) :=
  (nodes.find? (fun x => x.level == l && x.node == i && x.rgrp == g && x.pos == pos)).map (·.lanes)

/-- Level and index of the root that a REDUCE forms: the whole tree, or for PART the node over its own blocks, whose
place is that of the lowest block drained (R247; log entry 16). -/
def redRoot (r : ReduceWord) (nodes : List RedNode) : Nat × Nat :=
  let l := log2Up r.nblk
  if r.dest = 3 then
    let low := nodes.foldl (fun m x => if x.level = 0 then min m x.node else m) (nodes.foldl (fun m x => max m x.node) 0)
    (l, low / max 1 r.nblk)
  else (l, 0)

/-- The rank vector u of a position: its rank groups in order, each cut to the lanes the rank uses; none while a block
sum is missing. -/
def redVector (nodes : List RedNode) (r : ReduceWord) (rank pos : Nat) : Option (List F32 × List (Nat × Nat)) :=
  let root := redRoot r nodes
  let total := if r.dest = 3 then (root.2 + 1) * r.nblk else r.nblk
  (List.range (rankGroups rank)).foldl (fun acc g =>
    match acc, treeNode (redGet nodes pos g) total root.1 root.2 with
    | some (v, e), some (x, ev) =>
      some (v ++ x.take (min 32 (rank - 32 * g)), e ++ ev.map (fun y => (y.1, y.2 + 32 * g)))
    | _, _ => none) (some ([], []))

/-- Tree events latched in the vector unit of core VC (R114), ELEM 0x3F. DESIGN CHOICE: rank element k lies in lane k mod 128
of every row's beat, which is the COL of its latch; the lanes of a rank group that the rank does not use raise events as the
others do, although u leaves them out (log entry 139). -/
def redEvents (n : CoreIx) (i row : Nat) (evs : List (Nat × Nat)) (s : State) : State :=
  evs.foldl (fun s e => coreEvent n 8 e.1 (kindFlag e.1) 0x3F (e.2 % 128) row i s) s

/-- Steps 4 and 5 of Table ARITH-5 in a vector unit: the quantised row, and the event of R49 when v is not finite. -/
def quantRow (seg : Nat) (scale : F32) (u : List F32) : QRow × List (Nat × Nat × Nat) :=
  let v := u.map (fun x => (f32Mul scale x).1)
  let evs := (v.zipIdx.filter (fun x => !f32Finite x.1)).map (fun x => (5, (if f32IsNan x.1 then 2 else 4), x.2))
  if evs ≠ [] then ({ bad := true, seg }, evs)
  else
    let e := quantExp v
    ({ codes := v.map (fun x => BitVec.ofNat 8 (fpConvert fmtF8v true (valScale (f32Val x) (-e))).1), exp := e, seg }, [])

/-- A word's status from the events its vector unit had. -/
def vuStatus (evs : Bool) : Nat := if evs then 1 else 0

/-- The positions of a REDUCE in a cluster: block position and segment position (log entry 16). -/
def redPositions (s : State) (c : ClusterIx) (r : ReduceWord) (sg : Seg) : List (Nat × Nat) :=
  let first := clusterFirst (planRow s r.seg) c.val
  (List.range (min r.count (min (planBlock (planRow s r.seg)) (sg.count - first)))).map (fun j => (j, first + j))

/-- Block sums of a REDUCE combined for its positions: (block position, position, batch row, u); none while it waits. -/
def redAll (s : State) (c : ClusterIx) (i : Nat) (r : ReduceWord) (sg : Seg) :
    Option (List (Nat × Nat × Nat × List F32 × List (Nat × Nat))) :=
  let nodes := tabGet [] s.clusters[c].reds r.rid
  (redPositions s c r sg).foldr (fun x acc =>
    let row := rowAt s sg x.2
    if zeroRow s r.target row then acc else
    match acc, redVector nodes r sg.rank x.2 with
    | some l, some (u, e) =>
      some ((x.1, x.2, row, (if unitPoison s i row then (u.map (fun _ => f32Nan), []) else (u, e))) :: l)
    | _, _ => none) (some [])

/-- A skipped REDUCE still names the segment of its NET groups, whose words are then skipped as well (R136). -/
def passSkip (c : ClusterIx) (r : ReduceWord) (s : State) : State :=
  if r.dest = 0 then
    (maskBits r.cores 8).foldl (fun s j => modCore (coreOf c j) (fun k => { k with feedSeg := tabSet 0 k.feedSeg r.rid (r.seg + 1) }) s) s
  else s

/-- What a REDUCE does with the combined vectors, by DEST. -/
def reduceWork (c : ClusterIx) (dest : Nat) (give : Nat → ReduceWord → Seg → CoreIx →
    List (Nat × Nat × Nat × List F32 × List (Nat × Nat)) → State → State) (i : Nat) (w : IWord) (s : State) : Option State :=
  let r := reduceWord w
  let sg := s.run.segs.getD r.seg {}
  if r.dest ≠ dest then none
  else if s.run.segs.length ≤ r.seg ∨ bitAt (slotOf s sg.slot).tmask r.target = false then
    some (setStatus i 4 false (passSkip c r s))
  else match redAll s c i r sg with
    | none => none
    | some l =>
      let vc := coreOf c r.vc
      let before := s.cores[vc].latches[8]
      let s := modCore vc (fun k => { k with latches := vset k.latches 8 {} }) s
      let s := l.foldl (fun s x => redEvents vc i x.2.2.1 x.2.2.2.2 s) s
      let s := modCluster c (fun k => { k with reds := tabSet [] k.reds r.rid [] }) (give i r sg vc l s)
      let arith := latchFlags s.cores[vc].latches[8] != 0
      some (setStatus i (vuStatus arith) false
        (modCore vc (fun k => { k with latches := vset k.latches 8 (joinLatch before k.latches[8]) }) s))

/-- DEST Q: q rows in the feeder queues of CORES (R48, R49, R148). DESIGN CHOICE: the COL of a row's event is its rank element
modulo 128 (log entry 139). -/
def giveQ (c : ClusterIx) (i : Nat) (r : ReduceWord) (sg : Seg) (vc : CoreIx)
    (l : List (Nat × Nat × Nat × List F32 × List (Nat × Nat))) (s : State) : State :=
  let scale := (slotOf s sg.slot).scale
  let qs := l.map (fun x => (x.2.1, x.2.2.1, quantRow r.seg scale x.2.2.2.1))
  let s := qs.foldl (fun s q => q.2.2.2.foldl (fun s e => coreEvent vc 8 e.1 e.2.1 0x3F (e.2.2 % 128) q.2.1 i s) s) s
  (maskBits r.cores 8).foldl (fun s j => modCore (coreOf c j) (fun k =>
    { k with feed := qs.foldl (fun t q => tabSet {} t (r.rid * 65536 + q.1) q.2.2.1) k.feed,
             feedSeg := tabSet 0 k.feedSeg r.rid (r.seg + 1) }) s) s

/-- DEST RCC: u to the RCC unit, by batch row (R170). -/
def giveRcc (c : ClusterIx) (_i : Nat) (r : ReduceWord) (_sg : Seg) (_vc : CoreIx)
    (l : List (Nat × Nat × Nat × List F32 × List (Nat × Nat))) (s : State) : State :=
  modCluster c (fun k => { k with uvals := l.foldl (fun t x => tabSet [] t (r.rid * 65536 + x.2.2.1) x.2.2.2.1) k.uvals }) s

/-- DEST U: u in FP32 at core VC, position-major and rank-major, +0 where R206 says. -/
def giveU (_c : ClusterIx) (_i : Nat) (r : ReduceWord) (sg : Seg) (vc : CoreIx)
    (l : List (Nat × Nat × Nat × List F32 × List (Nat × Nat))) (s : State) : State :=
  let rw := if (planRow s r.seg).rmax ≤ 128 then 128 else 256
  let pw := 128 * cdiv r.count 128
  let val : Nat → Nat → F32 := fun p k =>
    match l.find? (fun x => x.1 == p) with
    | some x => if tagGrad (tagOf s x.2.2.1) && decide (k < sg.rank) then x.2.2.2.1.getD k 0 else 0
    | none => 0
  let base := r.addr * 128
  let s := storeWrite vc base ((List.range pw).flatMap (fun p => f32Bytes ((List.range rw).map (val p)))) s
  storeWrite vc (base + pw * rw * 4) ((List.range rw).flatMap (fun k => f32Bytes ((List.range pw).map (fun p => val p k)))) s

/-- DEST PART: the partial u in FP32 at core VC, as the payload of a PSUM message with its header (Table RES-7), one
rank group after another (log entry 16). -/
def givePart (c : ClusterIx) (_i : Nat) (r : ReduceWord) (sg : Seg) (vc : CoreIx)
    (l : List (Nat × Nat × Nat × List F32 × List (Nat × Nat))) (s : State) : State :=
  let root := redRoot r (tabGet [] s.clusters[c].reds r.rid)
  let n := (redPositions s c r sg).length
  let at_ : Nat → List F32 := fun j => match l.find? (fun x => x.1 == j) with
    | some x => x.2.2.2.1
    | none => []
  let body := (List.range (rankGroups sg.rank)).flatMap (fun g =>
    let lanes := min 32 (sg.rank - 32 * g)
    leBytes 16 (sg.version + put 16 root.1 + put 20 root.2 + put 32 g + put 35 r.target + put 39 n) ++
      (List.range n).flatMap (fun j => f32Bytes (slice32 (at_ j) (32 * g) lanes)))
  storeWrite vc (r.addr * 128) body s
where
  /-- Values of a list from an index, +0 beyond its end. -/
  slice32 (v : List F32) (o n : Nat) : List F32 := (List.range n).map (fun j => v.getD (o + j) 0)

/-- REDUCE with DEST Q (R148). -/
def execReduceQ (cluster : ClusterIx) (s : State) : Host.Outcome State Fault Refusal :=
  .next (footWord s (issueFlight (192 + cluster.val) (fun w => wOp w == 0x40 && fld w 68 2 == 0)
    (fun s => clusterDown s cluster) (reduceWork cluster 0 (giveQ cluster)) s))

/-- REDUCE with DEST RCC (R170). -/
def execReduceRcc (cluster : ClusterIx) (s : State) : Host.Outcome State Fault Refusal :=
  .next (footWord s (issueFlight (192 + cluster.val) (fun w => wOp w == 0x40 && fld w 68 2 == 1)
    (fun s => clusterDown s cluster) (reduceWork cluster 1 (giveRcc cluster)) s))

/-- REDUCE with DEST U (R206). -/
def execReduceU (cluster : ClusterIx) (s : State) : Host.Outcome State Fault Refusal :=
  .next (footWord s (issueFlight (192 + cluster.val) (fun w => wOp w == 0x40 && fld w 68 2 == 2)
    (fun s => clusterDown s cluster) (reduceWork cluster 2 (giveU cluster)) s))

/-- REDUCE with DEST PART (R247). -/
def execReducePart (cluster : ClusterIx) (s : State) : Host.Outcome State Fault Refusal :=
  .next (footWord s (issueFlight (192 + cluster.val) (fun w => wOp w == 0x40 && fld w 68 2 == 3)
    (fun s => clusterDown s cluster) (reduceWork cluster 3 (givePart cluster)) s))

end Sys2Proof.Machine
end

