-- ==== Sys2Proof/Machine/Rcc.lean ====
section
/-!
DEFINITION. The rank-space context cache on the running step (R163 to R171, R179, R185 to R190): the commands
RCC_UWRITE, RCC_KPASS, RCC_VPASS, FACEIN_QRY, FACEIN_PROB, FACEOUT_SCORE and FACEOUT_VDELTA.
-/

namespace Sys2Proof.Machine

/-- Width of a head (Table RCC-1). -/
def headDim (d : AttDesc) : Nat := if d.hdim = 0 then 64 else if d.hdim = 1 then 128 else 256

/-- Query heads, H. -/
def queryHeads (d : AttDesc) : Nat := d.kvh * d.qpk

/-- The (layer, target) sections of a page in order (R171). -/
def pageSections (s : State) (tmask : BitVec 16) (layers : Nat) : List (Nat × Nat) :=
  (List.range layers).flatMap (fun l => (List.range 8).flatMap (fun k =>
    let d := attOf s k
    if d.en then
      (if d.ken && bitAt tmask d.ktgt then [(l, d.ktgt)] else []) ++ (if d.ven && bitAt tmask d.vtgt then [(l, d.vtgt)] else [])
    else []))

/-- Bytes of a section (Table RCC-4). -/
def sectionSize (f8 : Bool) (rank : Nat) : Nat := if f8 then 256 * rank + 256 else 512 * rank

/-- Layers of a version, from its area's directory header. -/
def areaLayers (s : State) (slot version : Nat) : Nat :=
  match servingRec s slot version with
  | some k => nfld (memNat s.hbm (vrecOf s slot k).area 8) 48 11
  | none => 0

/-- Page size of a version in a format. -/
def pageSize (s : State) (slot version : Nat) (f8 : Bool) : Nat :=
  (pageSections s (slotOf s slot).tmask (areaLayers s slot version)).length * sectionSize f8 (slotOf s slot).rank

/-- The page that stands at page position n for a served request in the running step: frame address, format and
whether its entries count; none for an absent page. Copies take their source's format and adapter, fresh pages the
request's pin (R176). -/
def pageAt (s : State) (r : RccReq) (n : Nat) : Option (Nat × Bool × Bool) :=
  let q := s.parts[r.part]
  let desc := fun k => tabGet ({} : PageDesc) q.pdescs k
  match r.copy.filter (fun c => c.1 == n) with
  | some c =>
    let src := desc c.2.1
    some ((desc c.2.2).addr, src.f8, src.slot == r.slot && src.version == r.version)
  | none => match r.fresh.find? (fun x => x.1 == n) with
    | some x => some ((desc x.2).addr, q.force.efmt, true)
    | none => match r.list.ents[n]? with
      | some e => if e.1 = 0xFFFFFF then none else
          let d := desc e.1
          some (d.addr, d.f8, d.slot == r.slot && d.version == r.version)
      | none => none

/-- Offset of a (layer, target) section in a page. -/
def sectionOff (s : State) (r : RccReq) (f8 : Bool) (layer target : Nat) : Option Nat :=
  let l := pageSections s (slotOf s r.slot).tmask (areaLayers s r.slot r.version)
  let i := l.idxOf (layer, target)
  if i < l.length then some (i * sectionSize f8 (slotOf s r.slot).rank) else none

/-- Exact value of the entry of a position and rank element; +0 where no page counts (R174, Table RCC-7). -/
def entryVal (s : State) (r : RccReq) (layer target pos k : Nat) : Val :=
  match pageAt s r (pos / 256) with
  | some (addr, f8, true) =>
    match sectionOff s r f8 layer target with
    | some o =>
      let rank := (slotOf s r.slot).rank
      let j := pos % 256
      if f8 then
        let e := sgn 8 (memByte s.hbm (addr + o + 256 * rank + j)).toNat
        valScale (fpDecode fmtF8v (memByte s.hbm (addr + o + j * rank + k)).toNat) e
      else fpDecode fmtB16 (memNat s.hbm (addr + o + (j * rank + k) * 2) 2)
    | none => .fin false 0 0
  | _ => .fin false 0 0

/-- An event of the RCC unit's work: KIND, flag, latch (0 the array half, 8 the vector unit), ELEM and COL (Table FMT-11). -/
structure PassEvent where
  /-- KIND. -/
  kind : Nat
  /-- Flag: 1 INV, 2 NAN, 4 OVF. -/
  flag : Nat
  /-- Latch of the core. -/
  latch : Fin 9
  /-- ELEM. -/
  elem : Nat
  /-- COL. -/
  col : Nat
  deriving DecidableEq, Repr

/-- An event of an array column: COL is the column, ELEM as an array word shows it. -/
def arrayEvent (col : Nat) (e : Nat × Nat) : PassEvent :=
  { kind := e.1, flag := kindFlag e.1, latch := 0, elem := shownElem e.2, col := col % 128 }

/-- An event of a vector lane. -/
def vectorEvent (lane kind : Nat) : PassEvent := { kind, flag := kindFlag kind, latch := 8, elem := 0x3F, col := lane % 128 }

/-- The events of a skipped row quantisation: one for each element that is not finite (R49). -/
def nonFiniteEvents (l : List F32) : List PassEvent :=
  (l.zipIdx.filter (fun x => !f32Finite x.1)).map (fun x => { vectorEvent x.2 5 with flag := if f32IsNan x.1 then 2 else 4 })

/-- The entries of a position's u as bytes, its exponent byte for F8v, and its events (R170, Table FMT-5). -/
def entryBytes (f8 : Bool) (poisoned : Bool) (u : List F32) : List Byte × Byte × List PassEvent :=
  if poisoned || u.any (fun x => !f32Finite x) then
    (u.flatMap (fun _ => if f8 then [(0x7F : Byte)] else leBytes 2 0x7FC0), 0, if poisoned then [] else nonFiniteEvents u)
  else
    let e := if f8 then max (-128) (quantExp u) else 0
    let c := u.map (fun x => if f8 then fpConvert fmtF8v true (valScale (f32Val x) (-e)) else fpConvert fmtB16 false (f32Val x))
    (c.flatMap (fun x => leBytes (if f8 then 1 else 2) x.1), BitVec.ofNat 8 (twos 8 e),
      c.zipIdx.filterMap (fun x => if x.1.2 = 0 then none else some (vectorEvent x.2 x.1.2)))

/-- The core whose latches keep the events of the RCC unit's work for a partition: the lowest core of the named clusters
assigned to the partition (log entry 19). -/
def passCore (s : State) (clmask : Nat) (p : Part) : Option CoreIx :=
  (List.finRange 64).find? (fun n => nfld clmask (n.val / 8) 1 == 1 && s.cores[n].part == p.val)

/-- Events of a pass or UWRITE, each with its batch row, brought to the latches of that core. DESIGN CHOICE: the arrays and lanes
that the sequencer uses are its own affair (R188), so a column event goes to half 0 of array 0, COL is the column of the tile or
the element of the vector, modulo 128, and ELEM the element index, modulo 32 (log entry 19). -/
def passEvents (clmask : Nat) (p : Part) (i : Nat) (evs : List (PassEvent × Nat)) (s : State) : State :=
  match passCore s clmask p with
  | some n => evs.foldl (fun s e => coreEvent n e.1.latch e.1.kind e.1.flag e.1.elem e.1.col e.2 i s) s
  | none => s

/-- The rank vector that a cluster of CLMASK delivered for a batch row. -/
def deliveredU (s : State) (clmask rid row : Nat) : Option (List F32) :=
  (maskBits clmask 8).findSome? (fun c =>
    match tabGet [] (s.clusters.getD c {}).uvals (rid * 65536 + row) with | [] => none | u => some u)

/-- The work of UWRITE (R179): it waits for the u of every served row whose adapter carries the target. -/
def uwriteWork (i : Nat) (w : IWord) (s : State) : Option State :=
  let layer := fld w 50 10
  let target := fld w 60 4
  let clmask := fld w 64 8
  let rid := fld w 72 6
  let reqs := (contextList s).filter (fun r => bitAt (slotOf s r.slot).tmask target)
  let jobs := reqs.flatMap (fun r => r.rows.zipIdx.map (fun x => (r, x.1, r.clen + x.2)))
  if s.run.checked = false then none
  else if jobs.all (fun j => (deliveredU s clmask rid j.2.1).isSome) then
    let s := jobs.foldl (fun s j =>
      let r := j.1
      let u := (deliveredU s clmask rid j.2.1).getD []
      match pageAt s r (j.2.2 / 256) with
      | some (addr, f8, _) => match sectionOff s r f8 layer target with
        | some o =>
          let rank := (slotOf s r.slot).rank
          let p := j.2.2 % 256
          let b := entryBytes f8 (isPoisoned s (recOf s r.req).face j.2.1) u
          let m := memWrite s.hbm (addr + o + p * rank * (if f8 then 1 else 2)) b.1
          let m := if f8 then memWrite m (addr + o + 256 * rank + p) [b.2.1] else m
          passEvents clmask r.part i (b.2.2.map (fun e => (e, j.2.1))) { s with hbm := m }
        | none => s
      | none => s) s
    let bad := jobs.any (fun j => match pageAt s j.1 (j.2.2 / 256) with
      | some (_, f8, _) => !(entryBytes f8 (isPoisoned s (recOf s j.1.req).face j.2.1) ((deliveredU s clmask rid j.2.1).getD [])).2.2.isEmpty
      | none => false)
    some (setStatus i (b2n bad) false s)
  else none

/-- Positions in a context tile (R166). -/
def tileTok (rank : Nat) : Nat := if rank ≤ 8 then 128 else if rank ≤ 16 then 64 else 32

/-- A context tile of a rank group (R166): the exponent a, position by position the codes of the group's ranks, and the events
of the conversions (R70) with COL the rank. A position at or beyond T_END holds nothing of the request and counts as +0 (R169). -/
def contextTile (s : State) (r : RccReq) (layer target g τ : Nat) : Int × List (List Byte) × List PassEvent :=
  let rank := (slotOf s r.slot).rank
  let tok := tileTok rank
  let n := min 32 (rank - 32 * g)
  let tend := r.clen + r.rows.length
  let vals := (List.range tok).map (fun t => (List.range n).map (fun k =>
    if τ * tok + t < tend then entryVal s r layer target (τ * tok + t) (32 * g + k) else .fin false 0 0))
  let m := vals.flatten.foldl (fun (acc : Nat × Int) v => match v with
    | .fin _ m e => if magLe (m, e) acc then acc else (m, e)
    | _ => acc) (0, 0)
  let a := if m.1 = 0 then 0 else max (-128) (floorLog2 m.1 m.2 - 7)
  let codes := vals.map (fun l => l.map (fun v => fpConvert fmtF8v true (valScale v (-a))))
  (a, codes.map (fun l => l.map (fun c => BitVec.ofNat 8 c.1)),
    codes.flatMap (fun l => l.zipIdx.filterMap (fun c => if c.1.2 = 0 then none else some (vectorEvent (32 * g + c.2) c.1.2))))

/-- B tile `t` of a layer of a target of a version: codes spread over its shape, and its exponent. -/
def bTile (s : State) (slot version target layer t : Nat) : Int × List (List Byte) :=
  match servingRec s slot version with
  | none => (0, [])
  | some k =>
    let area := (vrecOf s slot k).area
    let e := dirEnt s.hbm area target true
    let rank := (slotOf s slot).rank
    let x := areaTile s.hbm area e (layer * e.tpl + t)
    let d := shapeDims (bShape rank)
    (sgn 8 x.2.toNat, chunk d.2 d.1 (unpackTile true rank (bShape rank) x.1))

/-- Column results accumulated in order from +0, with the events of the column. -/
def sumScaled (column : Nat) (l : List (F32 × List (Nat × Nat) × Int)) : F32 × List PassEvent :=
  let r := l.foldl (fun (acc : Option F32 × List PassEvent) x =>
    let y := accumulate acc.1.isNone (acc.1.getD 0) x.1 x.2.2
    (some y.1, acc.2 ++ (x.2.1 ++ y.2).map (arrayEvent column))) (none, [])
  (r.1.getD 0, r.2)

/-- w_h of a query head (Table RCC-2, step 1), one value per rank: the columns of head κ of the B tiles. -/
def headW (s : State) (slot version target layer hdim κ : Nat) (q : List Val) : List (F32 × List PassEvent) :=
  let rank := (slotOf s slot).rank
  let d := shapeDims (bShape rank)
  let per := (targetOf s target).dout / d.2
  let lo := κ * hdim
  let tiles := (List.range per).filter (fun m => decide (m * d.2 < lo + hdim ∧ lo < (m + 1) * d.2))
  (List.range rank).map (fun k =>
    let g := k / d.1
    sumScaled (k % d.1) (tiles.map (fun m =>
      let t := bTile s slot version target layer (g * per + m)
      let row := codesVal false (t.2.getD (k % d.1) [])
      -- the lanes of the tile that lie in head κ
      let a := lo - m * d.2
      let qs := q.drop (m * d.2 - lo)
      let lanes := (row.drop a).take (hdim - (m * d.2 - lo))
      let c := columnResult qs lanes
      -- the elements of the transposed read are the columns of the tile
      (c.1, c.2.map (fun e => (e.1, if e.2 < sumElem then a + e.2 else e.2)), t.1))))

/-- A sequence of scalings each rounded, with events. -/
def scaleChain (x : F32) (steps : List (F32 → F32 × Nat)) : F32 × List Nat :=
  steps.foldl (fun acc f => let r := f acc.1; (r.1, if r.2 = 0 then acc.2 else acc.2 ++ [r.2])) (x, [])

/-- A value in a delta format: code and events. -/
def toDelta (width : Nat) (x : F32) : F32 × List Nat :=
  if width = 4 then (x, []) else
  let c := fpDefault fmtB16 (f32Val x)
  (BitVec.ofNat 32 c.1, if c.2 = 0 then [] else [c.2])

/-- The canonical NaN in a delta format. -/
def deltaNan (width : Nat) : F32 := if width = 4 then f32Nan else 0x7FC0

/-- Score corrections of one row and head (Table RCC-2): T_END values in the delta format, and events. -/
def scoreRow (s : State) (r : RccReq) (d : AttDesc) (layer i h width : Nat) (tiles : List (List (Int × List (List Byte) × List PassEvent)))
    (q : List Val) : List F32 × List PassEvent :=
  let tgt := targetOf s d.ktgt
  let slot := slotOf s r.slot
  let tend := r.clen + r.rows.length
  let w := headW s r.slot r.version d.ktgt layer (headDim d) (h / max 1 d.qpk) q
  let w' := w.map (fun x => f32Scale x.1 d.qexp)
  let ev := (w.flatMap (·.2)) ++ (w'.zipIdx.filterMap (fun x => if x.1.2 = 0 then none else some (vectorEvent x.2 x.1.2)))
  let vals := w'.map Prod.fst
  -- positions beyond the causal limit and positions of absent or passed-over pages carry +0
  let counts := fun (t : Nat) => decide (t < r.clen + i + 1) &&
    (match pageAt s r (t / 256) with | some (_, _, b) => b | none => false)
  if vals.any (fun x => !f32Finite x) then
    ((List.range tend).map (fun t => if counts t then deltaNan width else 0),
      ev ++ nonFiniteEvents vals)
  else
    let e := quantExp vals
    let wq := vals.map (fun x => fpDecode fmtF8v (fpConvert fmtF8v true (valScale (f32Val x) (-e))).1)
    let tok := tileTok slot.rank
    let res := (List.range tend).map (fun t =>
      if counts t = false then ((0 : F32), ([] : List PassEvent)) else
      let acc := sumScaled (t % tok) ((List.range (rankGroups slot.rank)).map (fun g =>
        let tile := (tiles.getD g []).getD (t / tok) (0, [], [])
        let c := columnResult ((wq.drop (32 * g)).take 32) (codesVal false (tile.2.1.getD (t % tok) []))
        (c.1, c.2, tile.1)))
      let y := scaleChain acc.1 [fun x => f32Scale x e, fun x => f32Mul slot.scale x, fun x => f32Scale x tgt.inExp]
      let z := toDelta width y.1
      (z.1, acc.2 ++ (y.2 ++ z.2).map (vectorEvent t)))
    (res.map Prod.fst, ev ++ res.flatMap (·.2))

/-- All context tiles of a request for a layer and target, by rank group. -/
def contextTiles (s : State) (r : RccReq) (layer target : Nat) : List (List (Int × List (List Byte) × List PassEvent)) :=
  let rank := (slotOf s r.slot).rank
  (List.range (rankGroups rank)).map (fun g =>
    (List.range (cdiv (r.clen + r.rows.length) (tileTok rank))).map (fun τ => contextTile s r layer target g τ))

/-- The block of a kind that a pass takes for a request: that of the request's face (log entry 21). -/
def passBlock (s : State) (r : RccReq) (kind target layer : Nat) : Option InBlock :=
  s.run.blocks.find? (fun b => b.kind == kind && decide (b.face = (recOf s r.req).face) && b.target == target && b.layer == layer)

/-- Bytes of a request in a block before it: those of the listed requests of its face that stand before. -/
def blockOffset (s : State) (r : RccReq) (size : RccReq → Nat) : Nat :=
  (((faceContext s (recOf s r.req).face).takeWhile (fun x => x.req != r.req)).map size).sum

/-- The last context tile of a request's pass as it is left in the staging entry of the core that keeps the partition's events,
a core assigned to that partition (R190): depth the ranks, lanes the positions. DESIGN CHOICE: the entries and arrays that the
sequencer fills are its own affair; the model leaves one tile in entry 0, loaded already, so that no word uses it (R189; log
entry 141). -/
def leaveTile (clmask : Nat) (p : Part) (tiles : List (List (Int × List (List Byte) × List PassEvent))) (s : State) : State :=
  match passCore s clmask p, tiles.flatten.getLast? with
  | some n, some t =>
    let depth := (t.2.1.headD []).length
    modCore n (fun c => { c with staging := vset c.staging 0 (some
      { codes := (List.range depth).flatMap (fun k => t.2.1.map (fun row => row.getD k 0)), scale := BitVec.ofNat 8 (twos 8 t.1),
        taken := true }) }) s
  | _, _ => s

/-- What a pass makes of one listed request: its values, its events and its context tiles. A refused block gives NaN in every
element (R187), and a request whose adapter lacks the target carries +0. -/
def passReq (s : State) (key : Bool) (layer : Nat) (d : AttDesc) (r : RccReq) (size : State → AttDesc → RccReq → Nat)
    (work : State → RccReq → AttDesc → Nat → Nat → List (List (Int × List (List Byte) × List PassEvent)) → List Byte →
      List (List F32 × List PassEvent)) (count : AttDesc → RccReq → Nat) :
    List F32 × List (PassEvent × Nat) × List (List (Int × List (List Byte) × List PassEvent)) :=
  let target := if key then d.ktgt else d.vtgt
  let width := deltaWidth s r.part (recOf s r.req).face
  match (passBlock s r (if key then 2 else 3) target layer).bind (·.bytes) with
  | none => ((List.range (count d r)).map (fun _ => deltaNan width), [], [])
  | some b =>
    if bitAt (slotOf s r.slot).tmask target then
      let tiles := contextTiles s r layer target
      let rows := work s r d layer width tiles (slice b (blockOffset s r (size s d)) (size s d r))
      let rowAt := fun (x : Nat) => r.rows.getD (x / max 1 (queryHeads d)) 0
      (rows.flatMap (·.1),
        tiles.flatten.flatMap (fun t => t.2.2.map (fun e => (e, r.rows.headD 0))) ++
          rows.zipIdx.flatMap (fun x => x.1.2.map (fun e => (e, rowAt x.2))), tiles)
    else ((List.range (count d r)).map (fun _ => 0), [], [])

/-- A pass over the listed requests: none while a block is awaited. A conversion into a context tile is an event of the first row
of its request (log entry 19). -/
def passWork (key : Bool) (i : Nat) (wd : IWord) (size : State → AttDesc → RccReq → Nat)
    (work : State → RccReq → AttDesc → Nat → Nat → List (List (Int × List (List Byte) × List PassEvent)) → List Byte →
      List (List F32 × List PassEvent)) (count : AttDesc → RccReq → Nat) (s : State) : Option State :=
  let layer := fld wd 50 10
  let clmask := fld wd 64 8
  let d := attOf s (fld wd 72 3)
  let target := if key then d.ktgt else d.vtgt
  let reqs := contextList s
  if s.run.checked = false then none
  else if reqs.all (fun r => (passBlock s r (if key then 2 else 3) target layer).isSome) then
    let out := reqs.map (fun r => passReq s key layer d r size work count)
    let t := (reqs.zip out).foldl (fun s x => leaveTile clmask x.1.part x.2.2.2 (passEvents clmask x.1.part i x.2.2.1 s)) s
    let arith := out.any (fun x => !x.2.1.isEmpty)
    some (setStatus i (if arith then 1 else 0) false (modRun (fun r => { r with
      made := r.made ++ [{ kind := if key then 0xB else 0xC, desc := target, layer, vals := out.map Prod.fst }] }) t))
  else none

/-- Bytes of a request in a QRY block (Table RCC-11). -/
def qrySize (_ : State) (d : AttDesc) (r : RccReq) : Nat := r.rows.length * queryHeads d * headDim d

/-- Bytes of a request in a PROB block. -/
def probSize (s : State) (d : AttDesc) (r : RccReq) : Nat :=
  r.rows.length * queryHeads d * (r.clen + r.rows.length) * deltaWidth s r.part (recOf s r.req).face

/-- Every (row, head) of a request's score corrections. -/
def scoreCalc (s : State) (r : RccReq) (d : AttDesc) (layer width : Nat)
    (tiles : List (List (Int × List (List Byte) × List PassEvent))) (bytes : List Byte) : List (List F32 × List PassEvent) :=
  let heads := queryHeads d
  (List.range (r.rows.length * heads)).map (fun x =>
    scoreRow s r d layer (x / max 1 heads) (x % max 1 heads) width tiles (codesVal false (slice bytes (x * headDim d) (headDim d))))

/-- A pairwise tree in ascending order, an odd last value passing up unpaired, over n levels (Table RCC-3, step 4). -/
def pairTree : Nat → List F32 → F32 × List Nat
  | 0, l => (l.headD 0, [])
  | n + 1, l =>
    if l.length ≤ 1 then (l.headD 0, []) else
    let prs := (chunk 2 (cdiv l.length 2) l).map (fun c => match c with
      | [a, b] => f32Add a b
      | [a] => (a, 0)
      | _ => (0, 0))
    let r := pairTree n (prs.map Prod.fst)
    (r.1, prs.filterMap (fun x => if x.2 = 0 then none else some x.2) ++ r.2)

/-- Value delta of one row and head (Table RCC-3). -/
def valueRow (s : State) (r : RccReq) (d : AttDesc) (layer i h width : Nat) (tiles : List (List (Int × List (List Byte) × List PassEvent)))
    (p : List Val) : List F32 × List PassEvent :=
  let tgt := targetOf s d.vtgt
  let slot := slotOf s r.slot
  let tend := r.clen + r.rows.length
  let limit := r.clen + i + 1
  let hd := headDim d
  let p := p.zipIdx.map (fun x => if x.2 < limit then x.1 else Val.fin false 0 0)
  let nonfin := nonFiniteEvents (p.map (fun v => (f32OfVal v).1))
  if nonfin ≠ [] then ((List.range hd).map (fun _ => deltaNan width), nonfin)
  else
    let tok := tileTok slot.rank
    let nt := cdiv tend tok
    let quant := (List.range nt).map (fun τ =>
      let l := (List.range tok).map (fun t => p.getD (τ * tok + t) (.fin false 0 0))
      let f := l.map (fun v => (f32OfVal v).1)
      let e := quantExp f
      (e, f.map (fun x => fpDecode fmtF8v (fpConvert fmtF8v true (valScale (f32Val x) (-e))).1)))
    let perPage := 256 / tok
    let pages := cdiv tend 256
    let z := (List.range slot.rank).map (fun k =>
      let sums := (List.range pages).map (fun pg =>
        sumScaled (k % 32) ((List.range perPage).filterMap (fun j =>
          let τ := pg * perPage + j
          if nt ≤ τ then none else
          let tile := (tiles.getD (k / 32) []).getD τ (0, [], [])
          let col := tile.2.1.map (fun row => row.getD (k % 32) 0)
          let q := quant.getD τ (0, [])
          let c := columnResult q.2 (codesVal false col)
          some (c.1, c.2, tile.1 + q.1))))
      let t := pairTree (log2Up pages) (sums.map Prod.fst)
      (t.1, sums.flatMap (·.2) ++ t.2.map (vectorEvent k)))
    let ev := z.flatMap (·.2)
    let q := quantRow 0 slot.scale (z.map Prod.fst)
    if q.1.bad then
      ((List.range hd).map (fun _ => deltaNan width), ev ++ q.2.map (fun e => { vectorEvent e.2.2 e.1 with flag := e.2.1 }))
    else
      let sh := shapeDims (bShape slot.rank)
      let per := max 1 (tgt.dout / sh.2)
      let qv := codesVal false q.1.codes
      let out := (List.range hd).map (fun c =>
        let col := (h / max 1 d.qpk) * hd + c
        let y := sumScaled (col % sh.2) ((List.range (cdiv slot.rank sh.1)).map (fun g =>
          let t := bTile s r.slot r.version d.vtgt layer (g * per + col / sh.2)
          let cr := columnResult ((qv.drop (g * sh.1)).take sh.1) (codesVal false (t.2.map (fun row => row.getD (col % sh.2) 0)))
          (cr.1, cr.2, t.1)))
        let w := scaleChain y.1 [fun x => f32Scale x (q.1.exp + tgt.inExp)]
        let o := toDelta width w.1
        -- steps 7 and 8 of Table ARITH-5 are those of a final word, in the array half
        (o.1, y.2 ++ (w.2 ++ o.2).map (fun k => arrayEvent (col % sh.2) (k, sumElem))))
      (out.map Prod.fst, ev ++ out.flatMap (·.2))

/-- Every (row, head) of a request's value deltas. -/
def valueCalc (s : State) (r : RccReq) (d : AttDesc) (layer width : Nat)
    (tiles : List (List (Int × List (List Byte) × List PassEvent))) (bytes : List Byte) : List (List F32 × List PassEvent) :=
  let heads := queryHeads d
  let tend := r.clen + r.rows.length
  (List.range (r.rows.length * heads)).map (fun x =>
    let b := chunk width tend (slice bytes (x * tend * width) (tend * width))
    valueRow s r d layer (x / max 1 heads) (x % max 1 heads) width tiles
      (b.map (fun y => fpDecode (if width = 4 then fmtF32 else fmtB16) (leNat y))))

/-- RCC UWRITE (R179). -/
def execRccUwrite (s : State) : Host.Outcome State Fault Refusal :=
  .next (footWord s (issueFlight 204 (fun w => wOp w == 0x90 && fld w 46 4 == 0) (fun _ => false) uwriteWork s))

/-- RCC KPASS (R167). -/
def execRccKpass (s : State) : Host.Outcome State Fault Refusal :=
  .next (footWord s (issueFlight 204 (fun w => wOp w == 0x90 && fld w 46 4 == 1) (fun _ => false)
    (fun i w s => passWork true i w qrySize scoreCalc (fun d r => r.rows.length * queryHeads d * (r.clen + r.rows.length)) s) s))

/-- RCC VPASS (R168). -/
def execRccVpass (s : State) : Host.Outcome State Fault Refusal :=
  .next (footWord s (issueFlight 204 (fun w => wOp w == 0x90 && fld w 46 4 == 2) (fun _ => false)
    (fun i w s => passWork false i w probSize valueCalc (fun d r => r.rows.length * queryHeads d * headDim d) s) s))

/-- The attention descriptor that names a target. -/
def attWith (s : State) (key : Bool) (target : Nat) : AttDesc :=
  ((List.range 8).map (attOf s)).find? (fun d => d.en && (if key then d.ken && d.ktgt == target else d.ven && d.vtgt == target))
    |>.getD {}

/-- The work of FACEIN QRY or PROB (R187): a block of another length is refused, and the entry of each listed partition
records it. -/
def exchangeIn (key : Bool) (f : FaceIx) (block : List Byte) (i : Nat) (wd : IWord) (s : State) : Option State :=
  let w := faceWord wd
  if s.run.checked = false then none else
  let p := takePayload i block s
  let block := p.1
  let s := p.2
  let d := attWith s key w.target
  let l := faceContext s f
  let expected := (l.map (if key then qrySize s d else probSize s d)).sum
  let keep := fun (b : Option (List Byte)) (s : State) => modRun (fun r => { r with
    blocks := r.blocks ++ [{ kind := w.kind, face := f, target := w.target, layer := w.layer, addr := w.addr, route := w.route, bytes := b }] }) s
  if block.length ≠ expected then
    some (setStatus i 0 false (keep none (faceBounds w (l.flatMap (·.rows)) expected block.length s)))
  else some (setStatus i 0 false (keep (some block) s))

/-- The work of FACEOUT SCORE or VDELTA (R186): it waits for the pass that makes the block; every element of a row poisoned at
the face is the canonical NaN (R482). -/
def exchangeOut (f : FaceIx) (i : Nat) (wd : IWord) (s : State) : Option State :=
  let w := faceWord wd
  match s.run.made.find? (fun m => m.kind == w.kind && m.desc == w.target && m.layer == w.layer) with
  | none => none
  | some m =>
    let parts := (contextList s).zip m.vals
    let bytes := (parts.filter (fun x => decide ((recOf s x.1.req).face = f))).flatMap (fun x =>
      let width := deltaWidth s x.1.part f
      let per := x.2.length / max 1 x.1.rows.length
      x.2.zipIdx.flatMap (fun v =>
        leBytes width (if isPoisoned s f (x.1.rows.getD (v.2 / max 1 per) 0) then deltaNan width else v.1).toNat))
    some (setStatus i 0 false (sendOnce i (.face f w.kind w.target w.layer bytes) s))

/-- FACEIN QRY (R187). -/
def execFaceinQry (face : FaceIx) (block : List Byte) (s : State) : Host.Outcome State Fault Refusal :=
  .next (issueIn face 2 (exchangeIn true face block) s)

/-- FACEIN PROB (R187). -/
def execFaceinProb (face : FaceIx) (block : List Byte) (s : State) : Host.Outcome State Fault Refusal :=
  .next (issueIn face 3 (exchangeIn false face block) s)

/-- FACEOUT SCORE (R186). -/
def execFaceoutScore (face : FaceIx) (s : State) : Host.Outcome State Fault Refusal :=
  .next (issueOut face 0xB (exchangeOut face) s)

/-- FACEOUT VDELTA (R186). -/
def execFaceoutVdelta (face : FaceIx) (s : State) : Host.Outcome State Fault Refusal :=
  .next (issueOut face 0xC (exchangeOut face) s)

end Sys2Proof.Machine
end

