-- ==== Sys2Proof/Machine/Crypto.lean ====
section
/-!
DEFINITION. The published algorithms the PAE uses: SHA-384 (FIPS 180-4), HMAC and HKDF (RFC 2104, RFC 5869), AES-256
(FIPS 197), GCM (SP 800-38D), XTS (IEEE 1619), key wrap (RFC 3394), ECDSA over P-384 with SHA-384 (FIPS 186), and
the CRCs of R223 and R332.
-/

namespace Sys2Proof.Machine

/-! ### SHA-384 -/

/-- The primes below 410: the first 80. -/
def shaPrimes : List Nat :=
  (List.range 410).filter (fun n => decide (2 ≤ n) && (List.range 18).all (fun d => n == d + 2 || n % (d + 2) != 0))

/-- r with its b low bits chosen greatest so that its k-th power does not pass n. -/
def rootFrom (k n : Nat) : Nat → Nat → Nat
  | 0, r => r
  | b + 1, r => rootFrom k n b (if (r + 2 ^ b) ^ k ≤ n then r + 2 ^ b else r)

/-- The first 64 bits of the fraction of the k-th root of p. -/
def rootFrac (k p : Nat) : BitVec 64 := BitVec.ofNat 64 (rootFrom k (p * 2 ^ (64 * k)) 70 0)

/-- The 80 round constants: the cube roots of the first 80 primes. -/
def shaKeys : List (BitVec 64) := shaPrimes.map (rootFrac 3)

/-- The hash value that SHA-384 begins with: the square roots of the ninth to sixteenth primes. -/
def shaStart : List (BitVec 64) := ((shaPrimes.drop 8).take 8).map (rootFrac 2)

/-- A word rotated right by each amount of a list, the results joined by exclusive or. -/
def shaTurns (l : List Nat) (x : BitVec 64) : BitVec 64 := l.foldl (fun y n => y ^^^ x.rotateRight n) 0

/-- One round on the eight working words; x is its constant plus its word of the schedule. Choose and majority are taken bit by
bit: f where e is 1 and g where it is 0, and the value that two of a, b and c have. -/
def shaTurn (v : List (BitVec 64)) (x : BitVec 64) : List (BitVec 64) :=
  let r := fun (n : Nat) => v.getD n 0
  let y := x + r 7 + shaTurns [14, 18, 41] (r 4) + (r 6 ^^^ (r 4 &&& (r 5 ^^^ r 6)))
  (y + shaTurns [28, 34, 39] (r 0) + ((r 1 &&& r 2) ||| (r 0 &&& (r 1 ||| r 2)))) :: (v.take 7).set 3 (r 3 + y)

/-- The rounds of a block, one for each constant left, with a window of the 16 next words of the schedule. -/
def shaRounds : List (BitVec 64) → List (BitVec 64) → List (BitVec 64) → List (BitVec 64)
  | [], _, v => v
  | k :: ks, w, v =>
    let x := w.getD 1 0
    let y := w.getD 14 0
    let new := (shaTurns [1, 8] x ^^^ (x >>> 7)) + (shaTurns [19, 61] y ^^^ (y >>> 6)) + w.getD 9 0 + w.headD 0
    shaRounds ks (w.drop 1 ++ [new]) (shaTurn v (k + w.headD 0))

/-- SHA-384 of a byte string, 48 bytes: the text, a 1 bit, zeros and the 128-bit length fill whole blocks of 128 bytes. -/
def sha384 (m : List Byte) : List Byte :=
  let blocks := cdiv (m.length + 17) 128
  let text := m ++ (0x80 :: List.replicate (128 * blocks - m.length - 17) 0) ++ beBytes 16 (8 * m.length)
  let keys := shaKeys
  let out := (chunk 128 blocks text).foldl (fun h b =>
    List.zipWith (· + ·) h (shaRounds keys ((chunk 8 16 b).map (fun c => BitVec.ofNat 64 (beNat c))) h)) shaStart
  (out.flatMap (fun x => beBytes 8 x.toNat)).take 48

/-- HMAC-SHA-384. -/
def hmac384 (key msg : List Byte) : List Byte :=
  let k0 := if key.length > 128 then sha384 key else key
  let k := k0 ++ List.replicate (128 - k0.length) 0
  sha384 (k.map (· ^^^ 0x5C) ++ sha384 (k.map (· ^^^ 0x36) ++ msg))

/-- HKDF-Expand's blocks T(i), n of them. -/
def hkdfBlocks (prk info : List Byte) : Nat → Nat → List Byte → List Byte
  | 0, _, _ => []
  | n + 1, i, prev =>
    let t := hmac384 prk (prev ++ info ++ [BitVec.ofNat 8 i])
    t ++ hkdfBlocks prk info n (i + 1) t

/-- HKDF over SHA-384 (RFC 5869). -/
def hkdf384 (salt ikm info : List Byte) (len : Nat) : List Byte :=
  (hkdfBlocks (hmac384 salt ikm) info (cdiv len 48) 1 []).take len

/-! ### AES-256 -/

/-- Multiplication in GF(2^8) modulo x^8 + x^4 + x^3 + x + 1, n bits of b. -/
def gfMul8 : Nat → Byte → Byte → Byte
  | 0, _, _ => 0
  | n + 1, a, b =>
    let a2 := if a.getLsbD 7 then (a <<< 1) ^^^ 0x1B else a <<< 1
    (if b.getLsbD 0 then a else 0) ^^^ gfMul8 n a2 (b >>> 1)

/-- The product of two bytes in the field of AES. -/
def gmul (a b : Byte) : Byte := gfMul8 8 a b

/-- The inverse in the field of AES, a^254; 0 for 0. -/
def ginv (a : Byte) : Byte :=
  let a2 := gmul a a
  let a4 := gmul a2 a2
  let a8 := gmul a4 a4
  let a16 := gmul a8 a8
  let a32 := gmul a16 a16
  let a64 := gmul a32 a32
  let a128 := gmul a64 a64
  gmul a2 (gmul a4 (gmul a8 (gmul a16 (gmul a32 (gmul a64 a128)))))

/-- The S-box of AES. -/
def aesSbox (a : Byte) : Byte :=
  let b := ginv a
  b ^^^ b.rotateLeft 1 ^^^ b.rotateLeft 2 ^^^ b.rotateLeft 3 ^^^ b.rotateLeft 4 ^^^ 0x63

/-- The inverse S-box of AES. -/
def aesInvSbox (a : Byte) : Byte :=
  ginv (a.rotateLeft 1 ^^^ a.rotateLeft 3 ^^^ a.rotateLeft 6 ^^^ 0x05)

/-- The bytes of two lists combined by exclusive or. -/
def xorBytes (a b : List Byte) : List Byte := List.zipWith (· ^^^ ·) a b

/-- The key schedule of AES-256 extended by n words, the words so far newest first; i is the next word's index. -/
def aesExpand : Nat → Nat → Byte → List (List Byte) → List (List Byte)
  | 0, _, _, w => w
  | n + 1, i, rcon, w =>
    let p := w.headD []
    let t := if i % 8 = 0 then xorBytes (((p.drop 1) ++ (p.take 1)).map aesSbox) [rcon, 0, 0, 0]
      else if i % 8 = 4 then p.map aesSbox else p
    aesExpand n (i + 1) (if i % 8 = 0 then gmul rcon 2 else rcon) (xorBytes t (w.getD 7 []) :: w)

/-- The 15 round keys of AES-256, 16 bytes each. -/
def aesKeys (key : List Byte) : List (List Byte) :=
  let w := (aesExpand 52 8 1 (chunk 4 8 key).reverse).reverse
  chunk 16 15 w.flatten

/-- ShiftRows on the column-major state. -/
def aesShift (s : List Byte) : List Byte :=
  (List.range 16).map (fun i => s.getD ((i % 4) + 4 * ((i / 4 + i % 4) % 4)) 0)

/-- The inverse of ShiftRows. -/
def aesUnshift (s : List Byte) : List Byte :=
  (List.range 16).map (fun i => s.getD ((i % 4) + 4 * ((i / 4 + 4 - i % 4) % 4)) 0)

/-- One column multiplied by the circulant matrix of a first row. -/
def aesMix (row : List Byte) (s : List Byte) : List Byte :=
  (List.range 16).map (fun i =>
    (List.range 4).foldl (fun acc k => acc ^^^ gmul (row.getD ((k + 4 - i % 4) % 4) 0) (s.getD (4 * (i / 4) + k) 0)) 0)

/-- AES-256 encryption of one block. -/
def aesEnc (key block : List Byte) : List Byte :=
  match aesKeys key with
  | [] => block
  | k0 :: ks =>
    let last := ks.getLastD []
    let s := (ks.dropLast).foldl (fun s k => xorBytes (aesMix [2, 3, 1, 1] (aesShift (s.map aesSbox))) k)
      (xorBytes block k0)
    xorBytes (aesShift (s.map aesSbox)) last

/-- AES-256 decryption of one block. -/
def aesDec (key block : List Byte) : List Byte :=
  match (aesKeys key).reverse with
  | [] => block
  | k0 :: ks =>
    let last := ks.getLastD []
    let s := (ks.dropLast).foldl (fun s k => aesMix [14, 11, 13, 9] (xorBytes ((aesUnshift s).map aesInvSbox) k))
      (xorBytes block k0)
    xorBytes ((aesUnshift s).map aesInvSbox) last

/-! ### GCM -/

/-- Multiplication in GF(2^128) of GCM: n bits of x, from its bit 0 (the most significant). -/
def ghashMulFrom : Nat → BitVec 128 → BitVec 128 → BitVec 128 → BitVec 128
  | 0, _, _, z => z
  | n + 1, x, v, z =>
    let z := if x.getLsbD 127 then z ^^^ v else z
    let v := if v.getLsbD 0 then (v >>> 1) ^^^ (0xE1 : BitVec 128) <<< 120 else v >>> 1
    ghashMulFrom n (x <<< 1) v z

/-- The product of two blocks in the field of GCM. -/
def ghashMul (x y : BitVec 128) : BitVec 128 := ghashMulFrom 128 x y 0

/-- GHASH over 16-byte blocks. -/
def ghash (h : BitVec 128) (l : List Byte) : BitVec 128 :=
  (chunk 16 (l.length / 16) l).foldl (fun y b => ghashMul (y ^^^ BitVec.ofNat 128 (beNat b)) h) 0

/-- Bytes padded with zeros to whole blocks. -/
def pad16 (l : List Byte) : List Byte := l ++ List.replicate ((16 - l.length % 16) % 16) 0

/-- CTR encryption from a counter block on. -/
def gctr (key : List Byte) : Nat → Nat → List Byte → List Byte
  | 0, _, _ => []
  | n + 1, c, l =>
    let hi := c / 2 ^ 32 * 2 ^ 32
    xorBytes (l.take 16) (aesEnc key (beBytes 16 c)) ++ gctr key n (hi + (c + 1) % 2 ^ 32) (l.drop 16)

/-- The tag of AES-256-GCM over a ciphertext, with a 96-bit IV. -/
def gcmTag (key iv aad ct : List Byte) : List Byte :=
  let h := BitVec.ofNat 128 (beNat (aesEnc key (List.replicate 16 0)))
  let s := ghash h (pad16 aad ++ pad16 ct ++ beBytes 8 (8 * aad.length) ++ beBytes 8 (8 * ct.length))
  xorBytes (beBytes 16 s.toNat) (aesEnc key (iv ++ [0, 0, 0, 1]))

/-- AES-256-GCM encryption without the tag; decryption is the same operation. -/
def gcmCrypt (key iv text : List Byte) : List Byte :=
  gctr key (cdiv text.length 16) (beNat iv * 2 ^ 32 + 2) text

/-! ### XTS -/

/-- Multiplication of an XTS tweak by α. -/
def xtsNext (t : BitVec 128) : BitVec 128 := if t.getLsbD 127 then (t <<< 1) ^^^ 0x87 else t <<< 1

/-- XTS over whole blocks with the tweak t already encrypted; `f` is the block cipher under the first key. -/
def xtsBlocks (f : List Byte → List Byte) : Nat → BitVec 128 → List Byte → List Byte
  | 0, _, _ => []
  | n + 1, t, l =>
    let tb := leBytes 16 t.toNat
    xorBytes (f (xorBytes (l.take 16) tb)) tb ++ xtsBlocks f n (xtsNext t) (l.drop 16)

/-- AES-256-XTS over a data unit of whole blocks with its unit index as tweak; the 512-bit key is both AES keys. -/
def xts (dec : Bool) (key : BitVec 512) (unit : Nat) (data : List Byte) : List Byte :=
  let k := leBytes 64 key.toNat
  let k1 := k.take 32
  let t := BitVec.ofNat 128 (leNat (aesEnc (k.drop 32) (leBytes 16 unit)))
  xtsBlocks (if dec then aesDec k1 else aesEnc k1) (data.length / 16) t data

/-- XTS over consecutive 64-byte units, n of them. -/
def xtsUnits (dec : Bool) (key : BitVec 512) : Nat → Nat → List Byte → List Byte
  | 0, _, _ => []
  | n + 1, u, l => xts dec key u (l.take 64) ++ xtsUnits dec key n (u + 1) (l.drop 64)

/-! ### Key wrap (RFC 3394) -/

/-- The unwrap steps, t counting down, over A and the registers R1 to R4. -/
def unwrapFrom (kek : List Byte) : Nat → List Byte → List (List Byte) → List Byte × List (List Byte)
  | 0, a, r => (a, r)
  | t + 1, a, r =>
    let i := t % 4
    let b := aesDec kek (xorBytes a (beBytes 8 (t + 1)) ++ r.getD i [])
    unwrapFrom kek t (b.take 8) (r.set i (b.drop 8))

/-- A 256-bit key unwrapped; none when the integrity check fails. -/
def keyUnwrap (kek wrapped : List Byte) : Option (List Byte) :=
  if wrapped.length ≠ 40 then none else
  let x := unwrapFrom kek 24 (wrapped.take 8) (chunk 8 4 (wrapped.drop 8))
  if x.1 = List.replicate 8 0xA6 then some x.2.flatten else none

/-! ### ECDSA over P-384 -/

/-- The prime of P-384. -/
def ecP : Nat := 2 ^ 384 - 2 ^ 128 - 2 ^ 96 + 2 ^ 32 - 1
/-- The order of the group. -/
def ecN : Nat :=
  0xffffffffffffffffffffffffffffffffffffffffffffffffc7634d81f4372ddf581a0db248b0a77aecec196accc52973
/-- The coefficient b. -/
def ecB : Nat :=
  0xb3312fa7e23ee7e4988e056be3f82d19181d9c6efe8141120314088f5013875ac656398d8a2ed19d2a85c8edd3ec2aef
/-- The base point's x. -/
def ecGx : Nat :=
  0xaa87ca22be8b05378eb1c71ef320ad746e1d3b628ba79b9859f741e082542a385502f25dbf55296c3a545e3872760ab7
/-- The base point's y. -/
def ecGy : Nat :=
  0x3617de4a96262c6f5d9e98bf9292dc29f8f41dbd289a147ce9da3113b5f0b8c00a60b1ce1d7e819d7a431d7c90ea0e5f

/-- a^e modulo m over the n low bits of e. -/
def powMod (m : Nat) : Nat → Nat → Nat → Nat → Nat
  | 0, _, _, acc => acc
  | n + 1, a, e, acc => powMod m n (a * a % m) (e / 2) (if e % 2 = 1 then acc * a % m else acc)

/-- The inverse modulo a prime m. -/
def invMod (m a : Nat) : Nat := powMod m 384 (a % m) (m - 2) 1

/-- Sum of two points of the curve; none is the point at infinity. -/
def ecAdd (p q : Option (Nat × Nat)) : Option (Nat × Nat) :=
  match p, q with
  | none, q => q
  | p, none => p
  | some (x1, y1), some (x2, y2) =>
    if x1 = x2 ∧ (y1 + y2) % ecP = 0 then none else
    let l := if x1 = x2 then (3 * x1 * x1 + (ecP - 3)) * invMod ecP (2 * y1) % ecP
      else (y2 + ecP - y1) * invMod ecP (x2 + ecP - x1) % ecP
    let x := (l * l + 2 * ecP - x1 - x2) % ecP
    some (x, (l * (x1 + ecP - x) + ecP - y1) % ecP)

/-- k times a point, over the n low bits of k. -/
def ecMul : Nat → Nat → Option (Nat × Nat) → Option (Nat × Nat) → Option (Nat × Nat)
  | 0, _, _, acc => acc
  | n + 1, k, p, acc => ecMul n (k / 2) (ecAdd p p) (if k % 2 = 1 then ecAdd acc p else acc)

/-- A 97-byte uncompressed point (leading 0x04, then x and y) on the curve. -/
def ecPoint (l : List Byte) : Option (Nat × Nat) :=
  let x := beNat ((l.drop 1).take 48)
  let y := beNat ((l.drop 49).take 48)
  if l.length = 97 ∧ l.headD 0 = 0x04 ∧ x < ecP ∧ y < ecP ∧ (y * y) % ecP = (x * x * x + (ecP - 3) * x + ecB) % ecP
  then some (x, y) else none

/-- ECDSA verification of r then s, 48 bytes each, over the SHA-384 of a message. -/
def ecdsaVerify (pub msg sig : List Byte) : Bool :=
  match ecPoint pub with
  | none => false
  | some q =>
    let r := beNat (sig.take 48)
    let s := beNat ((sig.drop 48).take 48)
    if r = 0 ∨ s = 0 ∨ r ≥ ecN ∨ s ≥ ecN then false else
    let z := beNat (sha384 msg)
    let w := invMod ecN s
    match ecAdd (ecMul 384 (z * w % ecN) (some (ecGx, ecGy)) none) (ecMul 384 (r * w % ecN) (some q) none) with
    | none => false
    | some (x, _) => x % ecN == r

/-- ECDSA signature, r then s, over the SHA-384 of a message with the per-signature secret k. -/
def ecdsaSign (key k : Nat) (msg : List Byte) : List Byte :=
  let r := (match ecMul 384 (k % ecN) (some (ecGx, ecGy)) none with | some (x, _) => x % ecN | none => 0)
  let s := invMod ecN (k % ecN) * ((beNat (sha384 msg) + r * key) % ecN) % ecN
  beBytes 48 r ++ beBytes 48 s

/-! ### CRCs -/

/-- One byte into a reflected CRC-32, n bits. -/
def crc32Bits : Nat → BitVec 32 → BitVec 32
  | 0, c => c
  | n + 1, c => crc32Bits n (if c.getLsbD 0 then (c >>> 1) ^^^ 0xEDB88320 else c >>> 1)

/-- The CRC-32 of IEEE 802.3 (R332). -/
def crc32 (l : List Byte) : BitVec 32 :=
  ~~~ (l.foldl (fun c b => crc32Bits 8 (c ^^^ b.setWidth 32)) 0xFFFFFFFF)

/-- The CRC-64 of R223 over n bits. -/
def crc64Bits : Nat → BitVec 64 → BitVec 64
  | 0, c => c
  | n + 1, c => crc64Bits n (if c.getLsbD 63 then (c <<< 1) ^^^ 0x42F0E1EBA9EA3693 else c <<< 1)

/-- One byte into the CRC-64 of R223. -/
def crc64Byte (c : BitVec 64) (b : Byte) : BitVec 64 := crc64Bits 8 (c ^^^ (b.setWidth 64 <<< 56))

/-- The CRC-64 of R223 of a byte string, from a start value. -/
def crc64From (c : BitVec 64) (l : List Byte) : BitVec 64 := l.foldl crc64Byte c

end Sys2Proof.Machine
end

