-- ==== Sys2Proof/Machine/Train.lean ====
section
/-!
DEFINITION. The update units (R73 to R79, R155, R156, R196, R208 to R222): contributions, the training summary, the
optimizer and regeneration: the commands MACC, MOPT and MREGEN.
-/

namespace Sys2Proof.Machine

/-! ### Geometry of a tensor (R196, R197) -/

/-- RANK of a tensor's slot. -/
def tensorRank (s : State) (t : Tensor) : Nat := (slotOf s t.slot).rank

/-- D of a tensor: D_IN for A, D_OUT for B. -/
def tensorDim (s : State) (t : Tensor) : Nat := let d := targetOf s t.target; if t.matB then d.dout else d.din

/-- Elements of a tensor. -/
def tensorElems (s : State) (t : Tensor) : Nat := t.nlayers * tensorRank s t * tensorDim s t

/-- Tiles of a tensor in one layer. -/
def tensorTpl (s : State) (t : Tensor) : Nat := tilesPerLayer (targetOf s t.target) t.matB (tensorRank s t)

/-- The elements of a tile in ascending order of R196, rank by rank (log entry 22): element index, none for the unused
ranks of a partly used rank group, and place in the packed tile. -/
def tileElems (tgt : Target) (matB : Bool) (rank tile : Nat) : List (Option Nat × Nat) :=
  let per := max 1 (tilesPerLayer tgt matB rank)
  let layer := tile / per
  let o := tileOrigin tgt matB rank (tile % per)
  let p := tilePacked matB rank
  let d := if matB then tgt.dout else tgt.din
  let ix : Nat → Nat → Option Nat := fun k j =>
    if o.1 + k < rank then some ((layer * rank + o.1 + k) * d + o.2 + j) else none
  if matB then (List.range p.1).flatMap (fun k => (List.range p.2).map (fun j => (ix k j, k * p.2 + j)))
  else (List.range p.2).flatMap (fun k => (List.range p.1).map (fun j => (ix k j, j * p.2 + k)))

/-- The directory entry that lays out a tensor's working copy: that of its version's record (log entry 23). -/
def workDir (s : State) (t : Tensor) : DirEnt :=
  match anyRec s t.slot t.version with
  | some k => dirEnt s.hbm (vrecOf s t.slot k).area t.target t.matB
  | none => {}

/-- An FP32 value of HBM. -/
def hbmF32 (m : Memory) (a : Nat) : F32 := BitVec.ofNat 32 (memNat m a 4)

/-- The sum S of an accumulator element (Table FMT-8). -/
def accSum (m : Memory) (t : Tensor) (e : Nat) : Int := sgn 128 (memNat m (t.acc + 16 * e) 16)

/-- S outside ±(2^95 − 1). -/
def accOut (x : Int) : Bool := decide (x > xaMax ∨ x < -xaMax)

/-- The update unit that holds an element: elements are spread over the 32 units by address (R222; log entry 24). -/
def unitOf (a : Nat) : Nat := a / 16 % 32

/-- One operation of an update unit counted as a busy cycle (R222). -/
def busyUnit (a : Nat) (s : State) : State :=
  { s with uuNow := vset s.uuNow (unitOf a) (s.uuNow.getD (unitOf a) 0 + 1) }

/-! ### Contributions (R75, R76, R211, R212) -/

/-- The ACTIVE tensor of a partition that a contribution names. -/
def findTensor (s : State) (p : Part) (slot version target : Nat) (matB : Bool) : Option Nat :=
  (s.tensors.find? (fun x => x.2.st == .active && decide (x.2.part = p) && x.2.slot == slot && x.2.version == version
    && x.2.target == target && x.2.matB == matB)).map (·.1)

/-- A contribution added to an element (R75, R212). -/
def addElem (ix e : Nat) (v : Val) (s : State) : State :=
  let t := tabGet {} s.tensors ix
  let q := xaQuant v t.wForce
  let x := accSum s.hbm t e
  let y := x + q.1
  let oc := if accOut y && !accOut x then t.outcnt + 1 else if accOut x && !accOut y then t.outcnt - 1 else t.outcnt
  let a := t.acc + 16 * e
  busyUnit a { s with
    hbm := memWrite s.hbm a (leBytes 16 (twos 128 y))
    tensors := tabSet {} s.tensors ix { t with
      touched := true, dirty := true, stepWin := t.stepWin || q.2.1, stepNan := t.stepNan || q.2.2,
      win := t.win || q.2.1, nan := t.nan || q.2.2, outcnt := oc,
      stepSet := t.stepSet ||| BitVec.ofNat 3 (b2n q.2.1 + 2 * b2n q.2.2) }
    uuAdd := vset s.uuAdd (unitOf a) (s.uuAdd.getD (unitOf a) 0 + 1) }

/-- An area of a tensor holds an uncorrectable codeword: the tensor becomes HELD (Table REL-3). -/
def checkTensor (ix : Nat) (s : State) : State :=
  let t := tabGet {} s.tensors ix
  let e := tensorElems s t
  let areas := [(t.master, 4 * e), (t.moments, 8 * e), (t.acc, 16 * e)]
  if t.st = .active then
    match areas.find? (fun a => badRead s a.1 a.2) with
    | some a => countContained 0x0E (noteErr t.part { code := 0x0C, cls := .contained, src := 0x0E, info0 := a.1, info1 := ix, aux := 1 }
        { s with tensors := tabSet {} s.tensors ix { t with st := .held } })
    | none => s
  else s

/-- TRAIN_DISCARD of a partition counts discarded contributions (R211). -/
def countDiscard (p : Part) (n : Nat) (s : State) : State :=
  modPart p (fun q => { q with counted := { q.counted with trainDiscard := q.counted.trainDiscard + n } }) s

/-- The contributions of one tile: added when the tensor is ACTIVE for the partition and its slot is not FROZEN, else
discarded and counted (R211). Only elements below RANK are contributions (log entry 25). -/
def addTile (p : Part) (slot version target : Nat) (matB : Bool) (tile : Nat) (vals : List Val) (s : State) : State :=
  let rank := (slotOf s slot).rank
  let els := (tileElems (targetOf s target) matB rank tile).zip vals
  let real := els.filterMap (fun x => x.1.1.map (fun e => (e, x.2)))
  let s := match findTensor s p slot version target matB with
    | some ix => checkTensor ix s
    | none => s
  match findTensor s p slot version target matB with
  | some ix =>
    let t := tabGet {} s.tensors ix
    if (slotOf s slot).frozen then countDiscard p real.length s
    else
      let ok := real.filter (fun x => decide (x.1 < tensorElems s t))
      let s := ok.foldl (fun s x => addElem ix x.1 x.2 s) s
      let s := countDiscard p (real.length - ok.length) s
      if ok = [] then s else summaryBits p true false s
  | none => countDiscard p real.length s

/-! ### MACC (R155, R208) -/

/-- Format of a contribution by SFMT: 0 B16, 1 F8g, 2 FP32. -/
def contribFmt (sfmt : Nat) : Fmt := if sfmt = 0 then fmtB16 else if sfmt = 1 then fmtF8g else fmtF32

/-- Bytes of a contribution. -/
def contribBytes (sfmt : Nat) : Nat := if sfmt = 0 then 2 else if sfmt = 1 then 1 else 4

/-- The coordinates of a replica-set entry (R209). -/
def repsetCoords (e : BitVec 256) : List Coord :=
  (List.range (fld e 0 4)).map (fun j => BitVec.ofNat 18 (fld e (8 + 18 * j) 18))

/-- The homes of a tensor: this chip alone when it has no replica set. -/
def homesOf (s : State) (p : Part) (repset : Nat) : List Coord :=
  if repset = 0xFFF then [s.plane.coord] else repsetCoords (tabGet 0 s.parts[p].repsets repset)

/-- The header of a GRAD tile (Table TRAIN-8). -/
def gradHeader (slot version target : Nat) (matB : Bool) (tile sfmt : Nat) : List Byte :=
  leBytes 8 (slot + put 16 version + put 32 target + put 36 (b2n matB) + put 37 tile + put 54 sfmt)

/-- Tile bytes for a home on another chip wait for its XSEND (R208). -/
def gradFor (home : Coord) (bytes : List Byte) (s : State) : State :=
  modRun (fun r => { r with gradOut := r.gradOut ++ [(home, bytes)] }) s

/-- The work of MACC (R155): tile by tile to every home of the tensor's replica set. -/
def maccWork (n : CoreIx) (i : Nat) (w : IWord) (s : State) : Option State :=
  let sfmt := fld w 46 2
  let seg := fld w 48 12
  let target := fld w 60 4
  let matB := bitAt w 64
  let src := fld w 65 15 * 128
  let tile := fld w 80 15
  let sg := s.run.segs.getD seg {}
  if s.run.segs.length ≤ seg ∨ bitAt (slotOf s sg.slot).tmask target = false then some (setStatus i 4 false s)
  else if segTrains s sg = false then some (setStatus i 0 false s)
  else
    let rank := (slotOf s sg.slot).rank
    let els := tileBytes matB rank
    let width := contribBytes sfmt
    let repset := match findTensor s sg.part sg.slot sg.version target matB with
      | some ix => (tabGet {} s.tensors ix).repset
      | none => 0xFFF
    let homes := homesOf s sg.part repset
    let t := (List.range (fld w 95 16)).foldl (fun t j =>
      let bytes := if unitPoison s i j then (List.replicate els (leBytes width (contribFmt sfmt).nanc)).flatten
        else memRead s.cores[n].store (src + j * els * width) (els * width)
      let vals := (chunk width els bytes).map (fun b => fpDecode (contribFmt sfmt) (leNat b))
      homes.foldl (fun t h =>
        if h = s.plane.coord then addTile sg.part sg.slot sg.version target matB (tile + j) vals t
        else
          let raw := gradHeader sg.slot sg.version target matB (tile + j) sfmt ++ bytes
          gradFor h (raw ++ List.replicate (roundUp 8 raw.length - raw.length) 0) t) t) s
    some (setStatus i 0 false t)

/-- MACC (R155). -/
def execMacc (core : CoreIx) (s : State) : Host.Outcome State Fault Refusal :=
  .next (footWord s (issueWord (64 + core.val) (fun w => wOp w == 0x80) (fun s => clusterDown s (clusterOf core))
    (maccWork core) s))

/-! ### Summary and skip (R213, R215) -/

/-- The training summary as it stands: what the faces, the units and the AGREEs set, and OVF of each partition with a
step flag or an OUTCNT other than 0 (R213). -/
def summaryNow (s : State) : BitVec 32 :=
  s.tensors.foldl (fun w x =>
    if x.2.stepWin || x.2.stepNan || x.2.outcnt != 0 then w ||| BitVec.ofNat 32 (2 ^ (16 + x.2.part.val)) else w) s.run.summary

/-- The accumulator of a tensor cleared: every sum zero, W taken again (R79), OUTCNT 0. -/
def clearAcc (ix : Nat) (s : State) : State :=
  let t := tabGet {} s.tensors ix
  { s with hbm := memZero s.hbm t.acc (16 * tensorElems s t)
           tensors := tabSet {} s.tensors ix { t with wForce := t.w, outcnt := 0, dirty := false } }

/-- TRAIN_SKIP counts one for a partition in a step (R215, R216). -/
def countSkip (p : Part) (s : State) : State :=
  if s.run.skipParts.getLsbD p.val then s else
  modRun (fun r => { r with skipParts := r.skipParts ||| BitVec.ofNat 16 (2 ^ p.val), skipped := true })
    (modPart p (fun q => { q with counted := { q.counted with trainSkip := q.counted.trainSkip + 1 } }) s)

/-- A tensor handled as a skipped one (R215). -/
def skipTensor (ix : Nat) (s : State) : State :=
  let s := clearAcc ix s
  { s with tensors := tabMod {} s.tensors ix (fun t => { t with stepWin := false, stepNan := false }) }

/-- The hyperparameter set that an ACTIVE tensor names reads as not VALID at action 2: the tensor is skipped (R216). -/
def lacksSet (s : State) (t : Tensor) : Bool := t.st == .active && !(tabGet {} s.parts[t.part].hps t.hset).valid

/-- Action 2 begins: the summary is complete, every ACTIVE tensor of a partition with OVF set, and every one whose set is not
VALID, is skipped (R215, R216), and the accumulators of a partition that is being reset are cleared (Table CTRL-11, order 2). -/
def beginAction2 (s : State) : State :=
  if 2 ≤ s.run.acted then s else
  let sum := summaryNow s
  let s := modRun (fun r => { r with acted := 2, summary := sum }) s
  let s := (List.finRange 16).foldl (fun s p => if sum.getLsbD (16 + p.val) then countSkip p s else s) s
  let s := s.tensors.foldl (fun s x => if lacksSet s x.2 then countSkip x.2.part s else s) s
  s.tensors.foldl (fun s x =>
    if lacksSet s x.2 || (x.2.st == .active && sum.getLsbD (16 + x.2.part.val)) || s.parts[x.2.part].presetPend.isSome then skipTensor x.1 s
    else s) { s with uuOpt := Vector.replicate 32 0 }

/-! ### The optimizer (R217 to R219) -/

/-- The per-tensor values of Table TRAIN-9, step 1. -/
structure OptConst where
  /-- STEPS. -/
  steps : Nat
  /-- BC1. -/
  bc1 : F32
  /-- BC2. -/
  bc2 : F32
  /-- C1. -/
  c1 : F32
  /-- C2. -/
  c2 : F32
  /-- LRWD. -/
  lrwd : F32
  /-- OMB1. -/
  omb1 : F32
  /-- OMB2. -/
  omb2 : F32
  deriving DecidableEq, Repr

/-- 1.0. -/
def f32One : F32 := 0x3F800000

/-- Step 1 of Table TRAIN-9. -/
def optConst (t : Tensor) (h : HpSet) : OptConst :=
  let bc1 := (f32Mul t.bc1 h.beta1).1
  let bc2 := (f32Mul t.bc2 h.beta2).1
  { steps := min (t.steps + 1) 0xFFFFFFFE, bc1, bc2, c1 := (f32Sub f32One bc1).1, c2 := (f32Sub f32One bc2).1,
    lrwd := (f32Mul h.lr h.wd).1, omb1 := (f32Sub f32One h.beta1).1, omb2 := (f32Sub f32One h.beta2).1 }

/-- Steps 3 to 7 of Table TRAIN-9 for one element: the new m, v and w. -/
def optElem (c : OptConst) (h : HpSet) (g m v w : F32) : F32 × F32 × F32 :=
  let m' := (f32Add (f32Mul h.beta1 m).1 (f32Mul c.omb1 g).1).1
  let v' := (f32Add (f32Mul h.beta2 v).1 (f32Mul c.omb2 (f32Mul g g).1).1).1
  let mh := (f32Div m' c.c1).1
  let vh := (f32Div v' c.c2).1
  let d := (f32Add (f32Sqrt vh).1 h.eps).1
  let w' := (f32Sub (f32Sub w (f32Mul c.lrwd w).1).1 (f32Mul h.lr (f32Div mh d).1).1).1
  (m', v', w')

/-- One element of an optimizer step (R217 to R219). -/
def optStep (ix e total : Nat) (c : OptConst) (h : HpSet) (ls : Nat) (s : State) : State :=
  let t := tabGet {} s.tensors ix
  let r := xaRead (accSum s.hbm t e) t.wForce
  let g := (f32Scale r.1 (-(ls : Int))).1
  let am := t.moments + 4 * e
  let av := t.moments + 4 * total + 4 * e
  let aw := t.master + 4 * e
  let x := optElem c h g (hbmF32 s.hbm am) (hbmF32 s.hbm av) (hbmF32 s.hbm aw)
  let fin := f32Finite x.1 && f32Finite x.2.1 && f32Finite x.2.2
  let m := memZero s.hbm (t.acc + 16 * e) 16
  let m := if fin then memWrite (memWrite (memWrite m am (leBytes 4 x.1.toNat)) av (leBytes 4 x.2.1.toNat)) aw
    (leBytes 4 x.2.2.toNat) else m
  let u := unitOf (t.acc + 16 * e)
  busyUnit (t.acc + 16 * e) { s with
    hbm := m
    tensors := tabSet {} s.tensors ix { t with
      win := t.win || r.2.1, ovf := t.ovf || r.2.2 || !fin,
      stepSet := t.stepSet ||| BitVec.ofNat 3 (b2n r.2.1 + 4 * b2n (r.2.2 || !fin)) }
    uuOpt := vset s.uuOpt u (s.uuOpt.getD u 0 + 1) }

/-! ### Regeneration (R73, R220) -/

/-- One working tile of a tensor rewritten from its master (R73). -/
def regenTile (t : Tensor) (tgt : Target) (rank : Nat) (e : DirEnt) (tile : Nat) (m : Memory) : Memory :=
  let els := tileElems tgt t.matB rank tile
  let vals := els.map (fun x => match x.1 with | some k => hbmF32 m (t.master + 4 * k) | none => 0)
  let q := quantTile vals
  let base := t.work + e.codes + tile * e.tbytes
  let m := (els.zip q.2).foldl (fun m x => tabSet 0 m (base + x.1.2) x.2) m
  tabSet 0 m (t.work + e.scales + tile) (BitVec.ofNat 8 (twos 8 q.1))

/-- Every cluster cache drops the region tags of a slot (R220, R244). -/
def dropSlotRegions (sel : RegionTag → Bool) (s : State) : State :=
  { s with clusters := s.clusters.map (fun c => { c with regions := c.regions.filter (fun r => !sel r.2) }) }

/-- One operation for every element of a tensor counted on the units that hold them (Table TRAIN-10). -/
def busyTensor (t : Tensor) (s : State) : State :=
  (List.range (tensorElems s t)).foldl (fun s k => busyUnit (t.acc + 16 * k) s) s

/-- A tensor's working copy regenerated, and the region tags of its slot dropped (R220). -/
def regenTensor (ix : Nat) (s : State) : State :=
  let t := tabGet {} s.tensors ix
  let e := workDir s t
  let n := t.nlayers * tensorTpl s t
  let s := busyTensor t s
  dropSlotRegions (fun r => r.slot == t.slot)
    { s with hbm := (List.range n).foldl (fun m j => regenTile t (targetOf s t.target) (tensorRank s t) e j m) s.hbm }

/-- The optimizer of one tensor: a step when it is ACTIVE, touched, its slot not FROZEN and its partition's OVF clear
(R217, R218, R225); a set that is not VALID has made it a skipped tensor (R216). -/
def optTensor (ix : Nat) (s : State) : State :=
  let s := checkTensor ix s
  let t := tabGet {} s.tensors ix
  if t.st = .active ∧ t.touched = true ∧ t.stepped = false ∧ s.parts[t.part].presetPend = none ∧
      (slotOf s t.slot).frozen = false ∧ s.run.summary.getLsbD (16 + t.part.val) = false then
    let h := tabGet {} s.parts[t.part].hps t.hset
    if h.valid then
      let c := optConst t h
      let n := tensorElems s t
      let s := (List.range n).foldl (fun s e => optStep ix e n c h s.parts[t.part].loss.ls s) s
      { s with tensors := tabMod {} s.tensors ix (fun t =>
          { t with steps := c.steps, bc1 := c.bc1, bc2 := c.bc2, wForce := t.w, outcnt := 0, dirty := false, stepped := true }) }
    else s
  else s

/-- The descriptors that a MOPT or MREGEN word names (R156). -/
def wordTensors (s : State) (w : IWord) : List Nat :=
  (s.tensors.map Prod.fst).filter (fun ix => decide (fld w 46 18 ≤ ix ∧ ix < fld w 46 18 + fld w 64 18))

/-- The work of MOPT (R217, R220). -/
def moptWork (i : Nat) (w : IWord) (s : State) : Option State :=
  let l := wordTensors s w
  let s := beginAction2 s
  let s := l.foldl (fun s ix => optTensor ix s) s
  let s := if bitAt w 82 then
      l.foldl (fun s ix => if (tabGet {} s.tensors ix).stepped then regenTensor ix s else s) s
    else s
  some (setStatus i 0 false s)

/-- The work of MREGEN (R220): ACTIVE and HELD tensors; EMPTY descriptors are passed over. -/
def mregenWork (i : Nat) (w : IWord) (s : State) : Option State :=
  some (setStatus i 0 false ((wordTensors s w).foldl (fun s ix =>
    let t := tabGet {} s.tensors ix
    if t.st = .empty ∨ s.parts[t.part].presetPend.isSome = true then s else regenTensor ix s) s))

/-- MOPT (R217). -/
def execMopt (hbm : HbmIx) (s : State) : Host.Outcome State Fault Refusal :=
  .next (footWord s (issuePlain (211 + hbm.val) (fun w => wOp w == 0x81) moptWork s))

/-- MREGEN (R220). -/
def execMregen (hbm : HbmIx) (s : State) : Host.Outcome State Fault Refusal :=
  .next (footWord s (issuePlain (211 + hbm.val) (fun w => wOp w == 0x82) mregenWork s))

/-! ### Replica digests (R223, R226) -/

/-- Master and working bytes of the elements of one tile (R226). -/
def tileDigest (s : State) (t : Tensor) (tile : Nat) : BitVec 64 :=
  let e := workDir s t
  let els := tileElems (targetOf s t.target) t.matB (tensorRank s t) tile
  let ms := els.flatMap (fun x => match x.1 with | some k => memRead s.hbm (t.master + 4 * k) 4 | none => [])
  crc64From 0 (ms ++ memRead s.hbm (t.work + e.codes + tile * e.tbytes) e.tbytes ++ [memByte s.hbm (t.work + e.scales + tile)])

/-- The tensors of an adapter version on the chip in ascending (TARGET, MAT), descriptors that are not EMPTY. -/
def versionTensors (s : State) (slot version : Nat) : List (Nat × Tensor) :=
  (List.range 32).filterMap (fun k =>
    s.tensors.find? (fun x => x.2.st != .empty && x.2.slot == slot && x.2.version == version && 2 * x.2.target + b2n x.2.matB == k))

/-- Bytes of a tensor for the digest of its replica: masters in element order, then codes and scale byte tile by tile. -/
def tensorBytes (s : State) (t : Tensor) : List Byte :=
  let e := workDir s t
  memRead s.hbm t.master (4 * tensorElems s t) ++
    (List.range (t.nlayers * tensorTpl s t)).flatMap (fun i =>
      memRead s.hbm (t.work + e.codes + i * e.tbytes) e.tbytes ++ [memByte s.hbm (t.work + e.scales + i)])

/-- The digest of a replica (R223). -/
def replicaDigest (s : State) (slot version : Nat) : BitVec 64 :=
  (versionTensors s slot version).foldl (fun c x => crc64From c (tensorBytes s x.2)) 0

/-- Freezing an adapter (R225): FROZEN set, accumulators cleared, an entry that quotes slot, TAG and peer. -/
def freezeSlot (p : Part) (slot : Nat) (peer : Coord) (s : State) : State :=
  let e := slotOf s slot
  if e.frozen then s else
  let s := { s with slots := tabSet {} s.slots slot { e with frozen := true } }
  let s := s.tensors.foldl (fun s x => if x.2.slot == slot && x.2.st == .active then clearAcc x.1 s else s) s
  let s := stepErr p { code := 0x09, cls := .contained, info0 := slot + put 32 e.tag.toNat, info1 := peer.toNat } s
  modRun (fun r => { r with froze := true }) s

end Sys2Proof.Machine
end

