-- ==== Sys2Proof/Machine/Residency.lean ====
section
/-!
DEFINITION. Residency (R229 to R256, R484): the commands of a partition's command ring that work on slots, images,
frees and the boundary's publication. The commands LOAD, SHLOAD, SHROWS, SEAL, SEAL_REBUILD_DONE, PUBLISH, DROP, SAVE,
EVICT, MIRROR, SETATTR, IMAGE_CHECK_DONE, IMAGE_WRITE_DONE and AREA_FREED.
-/

namespace Sys2Proof.Machine

/-! ### Windows (R230, R373, R411) -/

/-- An address range lies in a partition's HBM window. -/
def hbmIn (q : PartSt) (a n : Nat) : Bool :=
  decide (q.win.hbmBase * Config.hbmUnit ≤ a ∧ a + n ≤ (q.win.hbmBase + q.win.hbmCount) * Config.hbmUnit)

/-- An offset range lies in a partition's cold-tier window. -/
def coldIn (q : PartSt) (off n : Nat) : Bool := decide (off + n ≤ q.win.coldCount * Config.coldUnit)

/-- A slot lies in a partition's slot window (R230). -/
def slotIn (q : PartSt) (slot : Nat) : Bool :=
  decide (q.win.slotBase ≤ slot ∧ slot < q.win.slotBase + q.win.slotCount ∧ slot ≠ Config.baseOnly)

/-- Two runs of units meet. -/
def runsMeet (a an b bn : Nat) : Bool := decide (0 < an ∧ 0 < bn ∧ a < b + bn ∧ b < a + an)

/-- Two partitions' windows meet. -/
def windowsMeet (a b : Windows) : Bool :=
  runsMeet a.hbmBase a.hbmCount b.hbmBase b.hbmCount || runsMeet a.coldBase a.coldCount b.coldBase b.coldCount
    || runsMeet a.slotBase a.slotCount b.slotBase b.slotCount || runsMeet a.tensBase a.tensCount b.tensBase b.tensCount
    || runsMeet a.reqBase a.reqCount b.reqBase b.reqCount || runsMeet a.ringBase a.ringCount b.ringBase b.ringCount

/-- Windows lie within the units of the machine and of the grant; cold-tier unit 0 is the staging unit; SLOT_COUNT is at most
65,534 (R10, R373, R408, R411, Table RES-9). -/
def windowsIn (gib : Nat) (w : Windows) : Bool :=
  decide (w.hbmCount = 0 ∨ (2 ≤ w.hbmBase ∧ w.hbmBase + w.hbmCount ≤ 1024))
    && decide (w.coldCount = 0 ∨ (1 ≤ w.coldBase ∧ w.coldBase + w.coldCount ≤ gib))
    && decide (w.slotCount ≤ 65534 ∧ w.slotBase + w.slotCount ≤ 65535 ∧ w.tensBase + w.tensCount ≤ 262144
        ∧ w.reqBase + w.reqCount ≤ 262144 ∧ w.ringBase + w.ringCount ≤ 16384)

/-- Windows that a partition may have: inside the ranges, and meeting no window of another partition, in force or written
(R230, R373). -/
def windowFits (s : State) (p : Part) (w : Windows) : Bool :=
  windowsIn ((s.plane.grant.map Prod.snd).getD 0) w &&
    (List.finRange 16).all (fun x => decide (x = p) || (!windowsMeet w s.parts[x].win && !windowsMeet w s.parts[x].winNext))

/-- A length field of all ones is refused (R10). -/
def lenOk (n : Nat) : Bool := decide (n < 2 ^ 64 - 1)

/-! ### Completions and the command ring (R239, R240) -/

/-- An entry for the partition's completion ring. -/
def complete (p : Part) (c : ResCpl) (s : State) : State :=
  let room := s.parts[p].resc.wait = [] ∧ 0 < ringRoom s.parts[p].resc
  let s := modPart p (fun q => { q with resc := ringPut q.resc c }) s
  if room then raiseInt (pmPage p) 0 s else s

/-- A DONE entry. -/
def done (p : Part) (ix slot : Nat) (st : CplStatus) (s : State) : State := complete p { index := ix, slot, status := st } s

/-- A command of the partition is under way: an image read, an image written by SAVE, or a SEAL (log entry 26). -/
def cmdBusy (s : State) (p : Part) : Bool :=
  s.parts[p].cold.any (fun w => match w with | .read .. => true | .write _ _ _ _ _ _ ev _ => !ev) ||
    s.vrecs.any (fun x => x.2.sealing && decide ((slotOf s (x.1 / 4)).part = p))

/-- Reserved codes at the front of a command ring complete with BOUNDS (R410). -/
def dropReserved (p : Part) : Nat → State → State
  | 0, s => s
  | n + 1, s =>
    match s.parts[p].resq.ents with
    | .reserved _ :: _ =>
      if cmdBusy s p then s else
      let ix := s.parts[p].resq.rd.toNat
      dropReserved p n (done p ix 0 .bounds (modPart p (fun q => { q with resq := ringTake q.resq 1 }) s))
    | _ => s

/-- The command at the front of a partition's command ring is taken when it is the one named: commands run in the order
received (R239). -/
def serve (p : Part) (act : Nat → ResCmd → State → Option State) (s : State) : State :=
  match s.parts[p].resq.ents with
  | c :: _ =>
    if s.parts[p].st = .keyed ∧ cmdBusy s p = false then
      let ix := s.parts[p].resq.rd.toNat
      match act ix c (modPart p (fun q => { q with resq := ringTake q.resq 1 }) s) with
      | some t => dropReserved p t.parts[p].resq.ents.length t
      | none => s
    else s
  | [] => s

/-- What a residency command may change. -/
def footRes (s t : State) : State :=
  { s with out := t.out, freeIx := t.freeIx, nv := { s.nv with imgReserved := max s.nv.imgReserved t.nv.imgReserved }, sec := keepLc s t,
           regs := t.regs, clusters := t.clusters, hbm := t.hbm,
           slots := t.slots, vrecs := t.vrecs, attrNext := t.attrNext, evictNext := t.evictNext,
           residentNext := t.residentNext, tensors := t.tensors, tensorNext := t.tensorNext, freezeNext := t.freezeNext,
           uuNow := t.uuNow, parts := t.parts, run := t.run, err := t.err }

/-! ### The variant area (R234, Tables RES-3 and RES-4) -/

/-- A matrix of an area in canonical order: target and MAT. -/
def areaMats (tmask : BitVec 16) : List (Nat × Bool) :=
  (List.range 16).flatMap (fun t => if bitAt tmask t then [(t, false), (t, true)] else [])

/-- The canonical directory: each matrix with its entry, and the length of the area. -/
def canonDir (s : State) (rank : Nat) (tmask : BitVec 16) (nl : Nat) : List ((Nat × Bool) × DirEnt) × Nat :=
  let mats := areaMats tmask
  let tpl := fun (m : Nat × Bool) => tilesPerLayer (targetOf s m.1) m.2 rank
  let codes := mats.foldl (fun (acc : List Nat × Nat) m => (acc.1 ++ [acc.2], acc.2 + nl * tpl m * tileBytes m.2 rank)) ([], 0x300)
  let scales := mats.foldl (fun (acc : List Nat × Nat) m => (acc.1 ++ [acc.2], acc.2 + nl * tpl m)) ([], codes.2)
  ((mats.zip (codes.1.zip scales.1)).map (fun x =>
      (x.1, { codes := x.2.1, scales := x.2.2, tpl := tpl x.1, present := true, tbytes := tileBytes x.1.2 rank,
              shape := if x.1.2 then bShape rank else 0 })),
    roundUp 256 scales.2)

/-- The bits of a directory entry (Table RES-4). -/
def dirBits (e : DirEnt) : Nat :=
  e.codes + put 32 e.scales + put 64 e.tpl + put 80 (b2n e.present) + put 81 e.tbytes + put 92 e.shape

/-- The first 0x300 bytes of the canonical area: header, entries, reserved zeros. -/
def dirBytes (s : State) (version slot rank : Nat) (tmask : BitVec 16) (nl : Nat) : List Byte :=
  let c := canonDir s rank tmask nl
  leBytes 64 (version + put 16 rank + put 32 tmask.toNat + put 48 nl + put 64 slot + put 96 c.2) ++
    (List.range 32).flatMap (fun k =>
      leBytes 16 (match c.1.find? (fun x => 2 * x.1.1 + b2n x.1.2 == k) with | some x => dirBits x.2 | none => 0)) ++
    List.replicate 192 0

/-- The checks of R32. -/
def slotFieldsOk (s : State) (rank : Nat) (tmask : BitVec 16) (scale : F32) : Bool :=
  decide (4 ≤ rank ∧ rank ≤ 256 ∧ rank % 4 = 0) && f32Finite scale &&
    (areaMats tmask).all (fun m => (targetOf s m.1).en && decide (tilesPerLayer (targetOf s m.1) m.2 rank ≤ 32767))

/-! ### Images (Tables RES-5 and RES-6A, R236, R484) -/

/-- Bytes of a key as the cipher takes it. -/
def keyBytes {w : Nat} (k : BitVec w) : List Byte := leBytes (w / 8) k.toNat

/-- The header fields of an image. -/
structure ImgHdr where
  /-- KIND. -/
  kind : Nat
  /-- PUBLIC. -/
  pub : Bool
  /-- TSTATE. -/
  tstate : Bool
  /-- SHARD. -/
  shard : Bool
  /-- VERSION. -/
  version : Nat
  /-- RANK. -/
  rank : Nat
  /-- TMASK. -/
  tmask : BitVec 16
  /-- NLAYERS. -/
  nl : Nat
  /-- SCALE. -/
  scale : F32
  /-- KEY. -/
  key : Nat
  /-- TAG. -/
  tag : Word
  /-- CLEN. -/
  clen : Nat
  /-- IV. -/
  iv : List Byte
  /-- Every reserved field is 0. -/
  clean : Bool
  deriving DecidableEq, Repr

/-- The header of an image. -/
def imgHdr (b : List Byte) : ImgHdr :=
  { kind := leAt b 6 1, pub := nfld (leAt b 7 1) 0 1 == 1, tstate := nfld (leAt b 7 1) 1 1 == 1,
    shard := nfld (leAt b 7 1) 2 1 == 1, version := leAt b 8 2, rank := leAt b 0xA 2,
    tmask := BitVec.ofNat 16 (leAt b 0xC 2), nl := leAt b 0xE 2, scale := BitVec.ofNat 32 (leAt b 0x10 4),
    key := leAt b 0x14 1, tag := BitVec.ofNat 32 (leAt b 0x18 4), clen := leAt b 0x20 8, iv := slice b 0x28 12,
    clean := leAt b 7 1 / 8 == 0 && leAt b 0x15 3 == 0 && leAt b 0x1C 4 == 0 && leAt b 0x34 12 == 0 }

/-- Checks 2 to 4 of R484: the header and the plaintext, or the status of the first that fails. -/
def openImage (q : PartSt) (len : Nat) (b : List Byte) : Except CplStatus (ImgHdr × List Byte) :=
  if b.length < 64 ∨ leAt b 0 4 ≠ 0x31564150 ∨ leAt b 4 2 ≠ 1 then .error .integrity else
  let h := imgHdr b
  if len ≠ 64 + h.clen + 16 ∨ 63 < h.key then .error .bounds else
  match q.akeys.getD h.key none with
  | none => .error .bounds
  | some k =>
    let ct := slice b 64 h.clen
    if gcmTag (keyBytes k) h.iv (b.take 64) ct = slice b (64 + h.clen) 16 then .ok (h, gcmCrypt (keyBytes k) h.iv ct)
    else .error .integrity

/-- Bytes of the section of a tensor in an image (R235). -/
def sectionBytes (s : State) (h : ImgHdr) (m : Nat × Bool) : Nat :=
  12 * (h.nl * h.rank * (if m.2 then (targetOf s m.1).dout else (targetOf s m.1).din)) + 16

/-- The sections that a map names, in order, with their offsets after the map. -/
def imgSections (s : State) (h : ImgHdr) (smask : Nat) : List ((Nat × Bool) × Nat) × Nat :=
  ((List.range 32).filter (fun k => nfld smask k 1 == 1)).foldl (fun (acc : List ((Nat × Bool) × Nat) × Nat) k =>
    let m := (k / 2, k % 2 == 1)
    (acc.1 ++ [(m, acc.2)], acc.2 + sectionBytes s h m)) ([], 0)

/-- Every FP32 value of bytes is finite. -/
def allFinite (b : List Byte) : Bool :=
  (chunk 4 (b.length / 4) b).all (fun w => f32Finite (BitVec.ofNat 32 (leNat w)))

/-- The HELD tensor of a slot, version, target and matrix. -/
def heldTensor (s : State) (slot version : Nat) (m : Nat × Bool) : Option (Nat × Tensor) :=
  s.tensors.find? (fun x => x.2.st == .held && x.2.slot == slot && x.2.version == version && x.2.target == m.1 && x.2.matB == m.2)

/-- A section of an image agrees with its HELD tensor and carries finite values (R236). -/
def sectionOk (s : State) (h : ImgHdr) (slot : Nat) (plain : List Byte) (base : Nat) (x : (Nat × Bool) × Nat) : Bool :=
  match heldTensor s slot h.version x.1 with
  | some t =>
    let n := sectionBytes s h x.1 - 16
    t.2.nlayers == h.nl && allFinite (slice plain (base + x.2) n) && allFinite (slice plain (base + x.2 + n + 4) 8)
  | none => false

/-- Check 5 of R484 on a VARIANT image: the area named lies in the window and is aligned, the directory is canonical,
and the sections stand (R236, R239). -/
def variantOk (s : State) (p : Part) (slot area : Nat) (h : ImgHdr) (plain : List Byte) : Bool :=
  let alen := (canonDir s h.rank h.tmask h.nl).2
  let want := dirBytes s h.version (leAt plain 8 2) h.rank h.tmask h.nl
  let smask := if h.tstate then leAt plain alen 16 else 0
  let sec := imgSections s h smask
  slotFieldsOk s h.rank h.tmask h.scale && decide (1 ≤ h.nl ∧ h.nl ≤ 1024) && h.clean && decide (1 ≤ h.version)
    && hbmIn s.parts[p] area alen && slice plain 0 0x300 == want
    && plain.length == alen + (if h.tstate then 16 + sec.2 else 0)
    && decide (smask < 2 ^ 32) && sec.1.all (fun x => bitAt h.tmask x.1.1 && sectionOk s h slot plain (alen + 16) x)

/-- The sections of an image written into the HELD tensors. -/
def loadSections (s0 : State) (h : ImgHdr) (slot alen : Nat) (plain : List Byte) (s : State) : State :=
  if h.tstate then
    (imgSections s0 h (leAt plain alen 16)).1.foldl (fun s x =>
      match heldTensor s slot h.version x.1 with
      | some t =>
        let n := sectionBytes s0 h x.1 - 16
        let at_ := alen + 16 + x.2
        let s := putBytes t.2.moments (slice plain (at_ + n / 3) (2 * (n / 3))) (putBytes t.2.master (slice plain at_ (n / 3)) s)
        { s with tensors := tabSet {} s.tensors t.1 { t.2 with
            steps := leAt plain (at_ + n) 4, bc1 := BitVec.ofNat 32 (leAt plain (at_ + n + 4) 4),
            bc2 := BitVec.ofNat 32 (leAt plain (at_ + n + 8) 4) } }
      | none => s) s
  else s

/-- Layers of a record's variant. -/
def recLayers (s : State) (r : VRec) : Nat := nfld (memNat s.hbm r.area 8) 48 11

/-- The number of the record of a slot in one of some states. -/
def recIn (s : State) (slot : Nat) (sel : VState → Bool) : Option Nat :=
  (List.range 4).find? (fun k => sel (vrecOf s slot k).st)

/-- The PUBLISHED record of a slot. -/
def pubRec (s : State) (slot : Nat) : Option Nat := recIn s slot (· == .published)

/-- The BUILDING or SEALED record of a slot. -/
def shadowRec (s : State) (slot : Nat) : Option Nat := recIn s slot (fun x => x == .building || x == .sealed)

/-- A record of a slot changed. -/
def modRec (slot k : Nat) (f : VRec → VRec) (s : State) : State := { s with vrecs := tabMod {} s.vrecs (4 * slot + k) f }

/-- A slot table entry changed. -/
def modSlot (slot : Nat) (f : SlotEnt → SlotEnt) (s : State) : State := { s with slots := tabMod {} s.slots slot f }

/-- A free record of a slot. -/
def freeRec (s : State) (slot : Nat) : Nat := (recIn s slot (· == .empty)).getD 0

/-- The header of a SHLOAD or SHROWS image agrees with the fields that every version of the slot shares (R236). -/
def sharesSlot (s : State) (slot : Nat) (h : ImgHdr) : Bool :=
  let e := slotOf s slot
  match pubRec s slot with
  | some k => h.rank == e.rank && h.tmask == e.tmask && h.nl == recLayers s (vrecOf s slot k) && h.scale == e.scale && h.pub == e.pub
  | none => false

/-! ### Acceptance of commands -/

/-- A shard-set entry keeps R246, lies in the slice box and names this chip (R210). -/
def shardOk (s : State) (p : Part) (ix : Nat) : Bool :=
  if ix = 0xFFF then true else
  let e := tabGet 0 s.parts[p].shards ix
  let n := fld e 60 4
  let sh := (List.range n).map (fun j => (BitVec.ofNat 18 (fld e (64 * j) 18), fld e (64 * j + 18) 12, fld e (64 * j + 30) 12))
  let total := (sh.map (fun x => x.2.2)).sum
  decide (ix ≤ 4094 ∧ 2 ≤ n ∧ n ≤ 8)
    && sh.all (fun x => decide (0 < x.2.2) && x.2.2 &&& (x.2.2 - 1) == 0 && x.2.1 % max 1 x.2.2 == 0)
    && (List.range total).all (fun b => (sh.filter (fun x => decide (x.2.1 ≤ b ∧ b < x.2.1 + x.2.2))).length == 1)
    && sh.all (fun x => match s.plane.plan with
        | some pl => decide (cx pl.org ≤ cx x.1 ∧ cx x.1 < cx pl.org + pl.dim.1 ∧ cy pl.org ≤ cy x.1
            ∧ cy x.1 < cy pl.org + pl.dim.2.1 ∧ cz pl.org ≤ cz x.1 ∧ cz x.1 < cz pl.org + pl.dim.2.2)
        | none => x.1 == s.plane.coord)
    && sh.any (fun x => x.1 == s.plane.coord)
where
  cx (c : Coord) : Nat := fld c 0 6
  cy (c : Coord) : Nat := fld c 6 6
  cz (c : Coord) : Nat := fld c 12 6

/-- The blocks that a shard-set entry gives this chip cover the blocks of each target of a TMASK: a target's descriptor on a
shard chip has the D_IN of the chip's own slice (Table RES-2, R246; log entry 144). -/
def shardCovers (s : State) (p : Part) (ix : Nat) (tmask : BitVec 16) : Bool :=
  if ix = 0xFFF then true else
  let e := tabGet 0 s.parts[p].shards ix
  let own := (List.range (fld e 60 4)).find? (fun j => decide ((BitVec.ofNat 18 (fld e (64 * j) 18) : Coord) = s.plane.coord))
  let cnt := match own with | some j => fld e (64 * j + 30) 12 | none => 0
  (maskBits tmask.toNat 16).all (fun t =>
    let d := targetOf s t
    !d.en || cnt * (32 * 2 ^ d.rblk) == d.din)

/-- The bounds checks of a command that reads an image, before any byte is read. -/
def readOperandsOk (s : State) (p : Part) (slot version area cold len shset : Nat) : Bool :=
  let q := s.parts[p]
  slotIn q slot && decide (1 ≤ version ∧ version ≤ 65535) && area % 256 == 0 && hbmIn q area 0x300 && lenOk len
    && coldIn q cold len && shardOk s p shset && shardCovers s p shset (slotOf s slot).tmask

/-- An image read begins. -/
def beginRead (p : Part) (kind ix slot version area cold len shset : Nat) (s : State) : State :=
  modPart p (fun q => { q with cold := q.cold ++ [.read kind ix slot version area cold len shset] }) s

/-- LOAD accepted or refused (Table RES-6). -/
def acceptLoad (p : Part) (ix : Nat) (c : ResCmd) (s : State) : Option State :=
  match c with
  | .load slot version area cold len shset =>
    some (if readOperandsOk s p slot version area cold len shset then
      if (slotOf s slot).st = .free then
        beginRead p 0 ix slot version area cold len shset (modSlot slot (fun _ => { st := .loading, part := p }) s)
      else done p ix slot .state s
    else done p ix slot .bounds s)
  | _ => none

/-- SHLOAD: the record is BUILDING while the image is read. -/
def acceptShload (p : Part) (ix : Nat) (c : ResCmd) (s : State) : Option State :=
  match c with
  | .shload slot version area cold len shset =>
    some (if readOperandsOk s p slot version area cold len shset then
      if (slotOf s slot).st = .resident ∧ shadowRec s slot = none ∧ anyRec s slot version = none then
        beginRead p 1 ix slot version area cold len shset
          (modRec slot (freeRec s slot) (fun _ => { st := .building, version, area, shset, cmdIx := ix }) s)
      else done p ix slot .state s
    else done p ix slot .bounds s)
  | _ => none

/-- The PUBLISHED area copied into a new area as a BUILDING record, for a SHROWS that finds none (Table RES-6). -/
def copyPublished (ix slot version area shset : Nat) (r : VRec) (s : State) : State :=
  modRec slot (freeRec s slot) (fun _ => { st := .building, version, area, alen := r.alen, shset, byRows := true, cmdIx := ix })
    (putBytes area (leBytes 2 version ++ (memRead s.hbm r.area r.alen).drop 2) s)

/-- SHROWS. -/
def acceptShrows (p : Part) (ix : Nat) (c : ResCmd) (s : State) : Option State :=
  match c with
  | .shrows slot version area cold len shset =>
    some (if readOperandsOk s p slot version area cold len shset then
      if (slotOf s slot).st ≠ .resident then done p ix slot .state s else
      match shadowRec s slot with
      | some k =>
        let r := vrecOf s slot k
        if r.st = .building ∧ r.byRows = true ∧ r.version = version then
          if area = r.area then beginRead p 2 ix slot version area cold len shset s else done p ix slot .bounds s
        else done p ix slot .state s
      | none =>
        match anyRec s slot version, pubRec s slot with
        | none, some j =>
          if hbmIn s.parts[p] area (vrecOf s slot j).alen then
            beginRead p 3 ix slot version area cold len shset (copyPublished ix slot version area shset (vrecOf s slot j) s)
          else done p ix slot .bounds s
        | _, _ => done p ix slot .state s
    else done p ix slot .bounds s)
  | _ => none

/-- Tiles of a BUILDING record that a patch has touched: matrix 2 × target + MAT and tile number. -/
def touchedTiles (s : State) (slot : Nat) (r : VRec) : List (Nat × Nat) :=
  let rank := (slotOf s slot).rank
  let nl := recLayers s r
  ((List.range 32).filter (fun k => r.patch.any (fun x => x.1 == k))).flatMap (fun k =>
    let tgt := targetOf s (k / 2)
    let b := k % 2 == 1
    ((List.range (nl * tilesPerLayer tgt b rank)).filter (fun i =>
      (tileElems tgt b rank i).any (fun e => match e.1 with
        | some ix => r.patch.any (fun x => x.1 == k && x.2.1 == ix)
        | none => false))).map (fun i => (k, i)))

/-- SEAL begins its rebuild. -/
def acceptSeal (p : Part) (ix : Nat) (c : ResCmd) (s : State) : Option State :=
  match c with
  | .seal slot =>
    some (if slotIn s.parts[p] slot then
      match recIn s slot (· == .building) with
      | some k => if (vrecOf s slot k).byRows then modRec slot k (fun r => { r with sealing := true, cmdIx := ix }) s
          else done p ix slot .state s
      | none => done p ix slot .state s
    else done p ix slot .bounds s)
  | _ => none

/-- PUBLISH: at the next boundary the SEALED record becomes PUBLISHED. -/
def acceptPublish (p : Part) (ix : Nat) (c : ResCmd) (s : State) : Option State :=
  match c with
  | .publish slot =>
    some (if slotIn s.parts[p] slot then
      let retained := ((List.range 4).filter (fun k => (vrecOf s slot k).st == .retained)).length
      match recIn s slot (· == .sealed) with
      | some k =>
        if (slotOf s slot).st = .resident ∧ retained < 2 ∧ (vrecOf s slot k).pubPend = false then
          done p ix slot .ok (modRec slot k (fun r => { r with pubPend := true }) s)
        else done p ix slot .state s
      | none => done p ix slot .state s
    else done p ix slot .bounds s)
  | _ => none

/-- An area given back: zeroed, then a FREED entry with the ring index of the command that frees it (R239, R240). -/
def freeArea (p : Part) (ix slot area len : Nat) (s : State) : State :=
  modPart p (fun q => { q with freeing := q.freeing ++ [{ index := ix, slot, area, len }] }) s

/-- A record freed (R244): EMPTY, its area zeroed, the region tags of its version dropped. -/
def freeRecord (ix slot k : Nat) (s : State) : State :=
  let r := vrecOf s slot k
  let p := (slotOf s slot).part
  dropSlotRegions (fun t => t.slot == slot && t.version == r.version)
    (freeArea p ix slot r.area r.alen (modRec slot k (fun _ => {}) s))

/-- DROP. -/
def acceptDrop (p : Part) (ix : Nat) (c : ResCmd) (s : State) : Option State :=
  match c with
  | .drop slot =>
    some (if slotIn s.parts[p] slot then
      match shadowRec s slot with
      | some k =>
        if (slotOf s slot).st = .resident ∧ (vrecOf s slot k).pubPend = false then
          freeRecord ix slot k (done p ix slot .ok s)
        else done p ix slot .state s
      | none => done p ix slot .state s
    else done p ix slot .bounds s)
  | _ => none

/-- SETATTR: fields set at the next boundary; TRAIN 1 on a PUBLIC slot or a MIRROR record is refused. -/
def acceptSetattr (p : Part) (ix : Nat) (c : ResCmd) (s : State) : Option State :=
  match c with
  | .setattr slot train tag =>
    some (if slotIn s.parts[p] slot then
      let e := slotOf s slot
      let mirror := (List.range 4).any (fun k => (vrecOf s slot k).mirror)
      if e.st = .resident ∧ ¬(train = true ∧ (e.pub = true ∨ mirror = true)) then
        done p ix slot .ok { s with attrNext := s.attrNext ++ [(slot, train, tag)] }
      else done p ix slot .state s
    else done p ix slot .bounds s)
  | _ => none

/-! ### Images written (R237) -/

/-- The next value of the image counter, from the reserved blocks of 65,536 (R237). -/
def nextImage (s : State) : Nat × State :=
  let v := s.sec.imgCtr
  let nv := if v + 1 < s.nv.imgReserved then s.nv else { s.nv with imgReserved := s.nv.imgReserved + 65536 }
  (v, { s with sec := { s.sec with imgCtr := v + 1 }, nv })

/-- The plaintext of a version: its area, and a section for each HELD tensor (R235). -/
def imagePlain (s : State) (slot : Nat) (r : VRec) : List Byte × Bool :=
  let held := (List.range 32).filterMap (fun k => heldTensor s slot r.version (k / 2, k % 2 == 1))
  let area := memRead s.hbm r.area r.alen
  if held = [] then (area, false) else
  let smask := held.foldl (fun m t => m ||| 2 ^ (2 * t.2.target + b2n t.2.matB)) 0
  (area ++ leBytes 16 smask ++ held.flatMap (fun t =>
      let n := tensorElems s t.2
      memRead s.hbm t.2.master (4 * n) ++ memRead s.hbm t.2.moments (8 * n) ++ leBytes 4 t.2.steps ++ leBytes 4 t.2.bc1.toNat
        ++ leBytes 4 t.2.bc2.toNat ++ leBytes 4 0), true)

/-- Bytes of an image of a version. -/
def imageLen (s : State) (slot : Nat) (r : VRec) : Nat := 80 + (imagePlain s slot r).1.length

/-- An image sealed under a key slot (R235, R237). -/
def sealImage (p : Part) (slot key : Nat) (r : VRec) (s : State) : List Byte × State :=
  let e := slotOf s slot
  let pl := imagePlain s slot r
  let c := nextImage s
  let iv := leBytes 4 s.nv.idser.toNat ++ leBytes 8 c.1
  let flags := b2n e.pub + 2 * b2n pl.2 + 4 * b2n (r.shset != 0xFFF)
  let hdr := leBytes 4 0x31564150 ++ leBytes 2 1 ++ leBytes 1 0 ++ leBytes 1 flags ++ leBytes 2 r.version ++ leBytes 2 e.rank
    ++ leBytes 2 e.tmask.toNat ++ leBytes 2 (recLayers s r) ++ leBytes 4 e.scale.toNat ++ leBytes 1 key ++ leBytes 3 0
    ++ leBytes 4 e.tag.toNat ++ leBytes 4 0 ++ leBytes 8 pl.1.length ++ iv ++ leBytes 12 0
  let k := keyBytes ((s.parts[p].akeys.getD key none).getD 0)
  let ct := gcmCrypt k iv pl.1
  (hdr ++ ct ++ gcmTag k iv hdr ct, c.2)

/-- A tensor of a version is ACTIVE. -/
def activeTensor (s : State) (slot : Nat) (sel : Nat → Bool) : Bool :=
  s.tensors.any (fun x => x.2.st == .active && x.2.slot == slot && sel x.2.version)

/-- SAVE. -/
def acceptSave (p : Part) (ix : Nat) (c : ResCmd) (s : State) : Option State :=
  match c with
  | .save slot version key cold =>
    let q := s.parts[p]
    some (if slotIn q slot && decide (1 ≤ version ∧ version ≤ 65535) && decide (key < 64) && (q.akeys.getD key none).isSome
        && coldIn q cold 0 then
      match servingRec s slot version with
      | some k =>
        if (slotOf s slot).st = .free ∨ activeTensor s slot (· == version) then done p ix slot .state s
        else if coldIn q cold (imageLen s slot (vrecOf s slot k)) then
          let r := sealImage p slot key (vrecOf s slot k) s
          modPart p (fun q => { q with cold := q.cold ++ [.write ix slot version key cold true false r.1] }) r.2
        else done p ix slot .bounds s
      | none => done p ix slot .state s
    else done p ix slot .bounds s)
  | _ => none

/-- EVICT: with SAVE its DONE entry is written at action 8 (log entry 27). -/
def acceptEvict (p : Part) (ix : Nat) (c : ResCmd) (s : State) : Option State :=
  match c with
  | .evict slot save key cold =>
    let q := s.parts[p]
    some (if slotIn q slot && (!save || (decide (key < 64) && (q.akeys.getD key none).isSome && coldIn q cold 0)) then
      if (slotOf s slot).st = .resident ∧ (List.range 4).all (fun k => (vrecOf s slot k).pins == 0) = true ∧ shadowRec s slot = none
          ∧ activeTensor s slot (fun _ => true) = false then
        let s := { s with evictNext := s.evictNext ++ [{ part := p, index := ix, slot, save, key, cold }] }
        if save then s else done p ix slot .ok s
      else done p ix slot .state s
    else done p ix slot .bounds s)
  | _ => none

/-- Layers of a mirror: those of the slot's published variant, else of any resident variant of the chip, since each holds
every layer of the chip (R229); none of these, and the spec leaves it open: a free value (log entry 28). -/
def mirrorLayers (slot : Nat) (s : State) : Nat × State :=
  let of := fun (n : Nat) => (pubRec s n).map (fun k => recLayers s (vrecOf s n k))
  match (of slot).orElse (fun _ => s.slots.findSome? (fun x => of x.1)) with
  | some n => (n, s)
  | none => ((Config.free 10 s.freeIx).toNat + 1, { s with freeIx := s.freeIx + 1 })

/-- MIRROR commands accepted on the chip so far, in whatever partition: the number of the next one (R250). -/
def mirrorsAccepted (s : State) : Nat := ((List.finRange 16).map (fun p => s.parts[p].mirCount)).sum

/-- MIRROR (Table RES-6). -/
def acceptMirror (p : Part) (ix : Nat) (c : ResCmd) (s : State) : Option State :=
  match c with
  | .mirror slot version area owner oslot rank tmask scale tag =>
    let q := s.parts[p]
    let tm := BitVec.ofNat 16 tmask
    let nl := mirrorLayers slot s
    let alen := (canonDir s rank tm nl.1).2
    let e := slotOf s slot
    some (if slotIn q slot && decide (1 ≤ version ∧ version ≤ 65535 ∧ tmask < 2 ^ 16 ∧ oslot < Config.baseOnly)
        && slotFieldsOk s rank tm scale && area % 256 == 0 && hbmIn q area alen then
      let mirrored := match pubRec s slot with | some k => (vrecOf s slot k).mirror | none => false
      if e.st = .free ∨ (e.st = .resident ∧ mirrored = true ∧ shadowRec s slot = none ∧ anyRec s slot version = none
          ∧ e.rank = rank ∧ e.tmask = tm) then
        let s := nl.2
        let s := modRec slot (freeRec s slot) (fun _ =>
          { st := .building, mirror := true, version, area, alen, oslot, owner, cmdIx := ix, mirNo := mirrorsAccepted s }) s
        let s := modPart p (fun q => { q with mirCount := q.mirCount + 1 }) s
        let s := putBytes area (dirBytes s version slot rank tm nl.1) (zeroBytes area alen s)
        if e.st = .free then
          modSlot slot (fun _ => { st := .loading, part := p, rank, tmask := tm, scale, tag, home := s.plane.coord }) s
        else s
      else done p ix slot .state s
    else done p ix slot .bounds s)
  | _ => none

/-! ### The work of images -/

/-- A refused image (R236): slot and records as they were, the area zeroed, a DONE entry with the status. -/
def refuseImage (p : Part) (kind ix slot area version : Nat) (st : CplStatus) (s : State) : State :=
  let s := if kind = 0 then { s with slots := tabSet {} s.slots slot {} }
    else if kind = 1 ∨ kind = 3 then match recIn s slot (fun x => x == .building) with
      | some k => if (vrecOf s slot k).version = version then
          zeroBytes area (vrecOf s slot k).alen (modRec slot k (fun _ => {}) s) else s
      | none => s
    else s
  done p ix slot st s

/-- One row record of a patch: matrix, (element index, value) pairs, and the bytes it takes; none when it is not legal
(R241). -/
def rowRecord (s : State) (slot nl : Nat) (b : List Byte) : Option (List (Nat × Nat × F32) × Nat) :=
  let w := leAt b 0 8
  let t := nfld w 0 4
  let m := nfld w 4 1 == 1
  let layer := nfld w 5 10
  let ix := nfld w 15 17
  let e := slotOf s slot
  let tgt := targetOf s t
  let n := if m then tgt.dout else e.rank
  let d := if m then tgt.dout else tgt.din
  if b.length < 8 + 4 * n ∨ bitAt e.tmask t = false ∨ nl ≤ layer ∨ (if m then e.rank else tgt.din) ≤ ix then none else
  let vals := (chunk 4 n (slice b 8 (4 * n))).map (fun x => (BitVec.ofNat 32 (leNat x) : F32))
  if vals.all f32Finite then
    some (vals.zipIdx.map (fun v =>
      let k := if m then ix else v.2
      let j := if m then v.2 else ix
      (2 * t + b2n m, (layer * e.rank + k) * d + j, v.1)), 8 + 4 * n)
  else none

/-- Every row record of a patch, or none when one of them is not legal. -/
def patchRows (s : State) (slot nl : Nat) : Nat → List Byte → Option (List (Nat × Nat × F32))
  | 0, b => if b = [] then some [] else none
  | n + 1, b =>
    if b = [] then some [] else
    match rowRecord s slot nl b with
    | none => none
    | some r => (patchRows s slot nl n (b.drop r.2)).map (fun l => r.1 ++ l)

/-- The image of a LOAD is good: the area is written and the slot becomes RESIDENT at the next boundary. -/
def finishLoad (p : Part) (ix slot area shset : Nat) (h : ImgHdr) (plain : List Byte) (s : State) : State :=
  let alen := (canonDir s h.rank h.tmask h.nl).2
  let bytes := dirBytes s h.version slot h.rank h.tmask h.nl ++ slice plain 0x300 (alen - 0x300)
  let s := loadSections s h slot alen plain (putBytes area bytes s)
  let s := modSlot slot (fun e => { e with pub := h.pub, sharded := h.shard, rank := h.rank, tmask := h.tmask, scale := h.scale,
                                           tag := h.tag, home := s.plane.coord }) s
  let s := modRec slot 0 (fun _ =>
    { st := .building, version := h.version, area, alen, shset := if h.shard then shset else 0xFFF, cmdIx := ix }) s
  done p ix slot .ok { s with residentNext := s.residentNext ++ [slot] }

/-- The image of a SHLOAD is good: the record becomes SEALED. -/
def finishShload (p : Part) (ix slot area shset : Nat) (h : ImgHdr) (plain : List Byte) (s : State) : State :=
  let alen := (canonDir s h.rank h.tmask h.nl).2
  let bytes := dirBytes s h.version slot h.rank h.tmask h.nl ++ slice plain 0x300 (alen - 0x300)
  let s := loadSections s h slot alen plain (putBytes area bytes s)
  match recIn s slot (· == .building) with
  | some k => done p ix slot .ok (modRec slot k (fun r =>
      { r with st := .sealed, alen, shset := if h.shard then shset else 0xFFF }) s)
  | none => s

/-- The patch of a SHROWS is good: its rows are written into the BUILDING record; the record takes its SHSET from the command
that made it, with none when the image has SHARD clear (R210). -/
def finishShrows (p : Part) (kind ix slot : Nat) (h : ImgHdr) (rows : List (Nat × Nat × F32)) (s : State) : State :=
  match recIn s slot (· == .building) with
  | some k => done p ix slot .ok (modRec slot k (fun r =>
      { r with patch := r.patch ++ rows, shset := if kind = 3 ∧ h.shard = false then 0xFFF else r.shset }) s)
  | none => s

/-- The record that a SHLOAD or SHROWS builds; an EVICT that was pending may have taken it (log entry 123). -/
def building (s : State) (slot version : Nat) : Bool :=
  match recIn s slot (· == .building) with
  | some k => (vrecOf s slot k).version == version
  | none => false

/-- The check of an image read for the oldest image command (R236, R484). -/
def checkImage (p : Part) (kind ix slot version area len shset : Nat) (image : List Byte) (s : State) : State :=
  let bad := fun st => refuseImage p kind ix slot area version st s
  match openImage s.parts[p] len (image.take len) with
  | .error st => bad st
  | .ok (h, plain) =>
    if h.version ≠ version ∨ h.kind ≠ (if 2 ≤ kind then 1 else 0) then bad .bounds
    else if kind ≠ 0 ∧ building s slot version = false then done p ix slot .state s
    else if 2 ≤ kind then
      match pubRec s slot with
      | none => bad .state
      | some j =>
        let r := vrecOf s slot j
        match patchRows s slot (recLayers s r) (plain.length / 8 + 1) plain with
        | some rows =>
          if sharesSlot s slot h && h.clean && !h.tstate then finishShrows p kind ix slot h rows s
          else bad .bounds
        | none => bad .bounds
    else if variantOk s p slot area h plain && (!h.shard || shardCovers s p shset h.tmask) && (kind == 0 || sharesSlot s slot h) then
      if kind = 0 then finishLoad p ix slot area shset h plain s else finishShload p ix slot area shset h plain s
    else bad .bounds

/-- The oldest image command's bytes have been read and checked. -/
def imageCheck (p : Part) (image : List Byte) (s : State) : State :=
  match s.parts[p].cold with
  | .read kind ix slot version area _ len shset :: rest =>
    let s := checkImage p kind ix slot version area len shset image (modPart p (fun q => { q with cold := rest }) s)
    dropReserved p s.parts[p].resq.ents.length s
  | _ => s

/-- One tile of a BUILDING record rebuilt by R73 at SEAL: written elements by their last FP32 value, the others by the
exact value of their old code (R241). An exponent above 127, which only such old values reach, has no byte in the spec: the
scale byte is then a free value (log entry 124). -/
def rebuildTile (s : State) (slot : Nat) (r : VRec) (x : Nat × Nat) (free : Byte) (m : Memory) : Memory :=
  let tgt := targetOf s (x.1 / 2)
  let b := x.1 % 2 == 1
  let e := dirEnt m r.area (x.1 / 2) b
  let old := areaTile m r.area e x.2
  let els := tileElems tgt b (slotOf s slot).rank x.2
  let vals := els.map (fun k =>
    let was := valScale (fpDecode fmtF8v (old.1.getD k.2 0).toNat) (sgn 8 old.2.toNat)
    match k.1 with
    | some i => match (r.patch.reverse.find? (fun y => y.1 == x.1 && y.2.1 == i)) with
      | some y => f32Val y.2.2
      | none => was
    | none => .fin false 0 0)
  let q := quantVals vals
  let base := r.area + e.codes + x.2 * e.tbytes
  let m := (els.zip q.2).foldl (fun m y => tabSet 0 m (base + y.1.2) y.2) m
  tabSet 0 m (r.area + e.scales + x.2) (if 127 < q.1 then free else BitVec.ofNat 8 (twos 8 q.1))

/-- The rebuild of a SEAL is over: the record is SEALED. -/
def sealRebuild (p : Part) (slot : Nat) (s : State) : State :=
  if (slotOf s slot).part ≠ p then s else
  match recIn s slot (· == .building) with
  | some k =>
    let r := vrecOf s slot k
    if r.sealing then
      let tiles := touchedTiles s slot r
      let m := tiles.zipIdx.foldl (fun m x => rebuildTile s slot r x.1 (Config.free 8 (s.freeIx + x.2)) m) s.hbm
      let s := modRec slot k (fun r => { r with st := .sealed, sealing := false, patch := [] })
        { s with hbm := m, freeIx := s.freeIx + tiles.length }
      let s := done p r.cmdIx slot .ok s
      dropReserved p s.parts[p].resq.ents.length s
    else s
  | none => s

/-- The areas of an EVICTING slot and of its HELD tensors are given back (Table RES-6). -/
def evictAreas (ix slot : Nat) (s : State) : State :=
  let p := (slotOf s slot).part
  let s := (List.range 4).foldl (fun s k =>
    let r := vrecOf s slot k
    if r.st = .empty then s else freeRecord ix slot k s) s
  s.tensors.foldl (fun s x =>
    if x.2.slot == slot && x.2.st == .held then
      let n := tensorElems s x.2
      freeArea p ix slot x.2.acc (16 * n) (freeArea p ix slot x.2.moments (8 * n) (freeArea p ix slot x.2.master (4 * n)
        { s with tensors := tabSet {} s.tensors x.1 {} }))
    else s) s

/-- An image has been written to the cold tier: the bytes leave, and the last image of a SAVE completes it; after the last
of an EVICT the slot's areas are given back. -/
def imageWrite (p : Part) (s : State) : State :=
  match s.parts[p].cold with
  | .write ix slot _ _ cold last evict image :: rest =>
    let s := send (.cold p cold image) (modPart p (fun q => { q with cold := rest }) s)
    let s := if last then (if evict then evictAreas ix slot s else done p ix slot .ok s) else s
    dropReserved p s.parts[p].resq.ents.length s
  | _ => s

/-- The oldest area being freed has been zeroed: a FREED entry returns it (R240); with the last area of an EVICTING slot
the slot becomes FREE. -/
def areaFreed (p : Part) (s : State) : State :=
  match s.parts[p].freeing with
  | f :: rest =>
    let s := modPart p (fun q => { q with freeing := rest }) (zeroBytes f.area f.len s)
    let s := complete p { index := f.index, slot := f.slot, freed := true, area := f.area } s
    if (slotOf s f.slot).st = .evicting ∧ rest.all (fun x => x.slot != f.slot) = true
        ∧ (List.range 4).all (fun k => (vrecOf s f.slot k).st == .empty) = true then
      { s with slots := tabSet {} s.slots f.slot {} }
    else s
  | [] => s

/-! ### Action 8 (R232, R244, R252) -/

/-- The version record of a mirror that is still being filled. -/
def mirrorRec (s : State) (no : Nat) : Option Nat :=
  (s.vrecs.find? (fun x => x.2.mirror && x.2.st == .building && x.2.mirNo == no)).map Prod.fst

/-- A mirror ended by a REFUSED tile (R252). -/
def endMirror (i : Nat) (s : State) : State :=
  let slot := i / 4
  let r := tabGet {} s.vrecs i
  let p := (slotOf s slot).part
  if r.mirror ∧ r.st = .building then
    let s := freeArea p r.cmdIx slot r.area r.alen (modRec slot (i % 4) (fun _ => {}) s)
    let s := done p r.cmdIx slot .refused s
    if (slotOf s slot).st = .loading then { s with slots := tabSet {} s.slots slot {} } else s
  else s

/-- Tiles of a mirror in canonical order: matrix and tile number. -/
def mirrorTiles (s : State) (slot : Nat) (r : VRec) : List (Nat × Nat) :=
  let e := slotOf s slot
  (areaMats e.tmask).flatMap (fun m =>
    (List.range (recLayers s r * tilesPerLayer (targetOf s m.1) m.2 e.rank)).map (fun i => (2 * m.1 + b2n m.2, i)))

/-- Mirrors take the tiles of the step; a full arrival bitmap makes the mirror RESIDENT and PUBLISHED, or SEALED (R252). -/
def mirrorBoundary (s : State) : State :=
  let s := s.run.rowsGot.foldl (fun s x => match mirrorRec s x.1 with
    | some i => { s with vrecs := tabMod {} s.vrecs i (fun r =>
        if r.arrived.contains x.2 then r else { r with arrived := r.arrived ++ [x.2] }) }
    | none => s) s
  let s := s.run.mirEnd.foldl (fun s no => match mirrorRec s no with | some i => endMirror i s | none => s) s
  s.vrecs.foldl (fun s x =>
    let slot := x.1 / 4
    let r := tabGet {} s.vrecs x.1
    if r.mirror ∧ r.st = .building ∧ (mirrorTiles s slot r).all (fun t => r.arrived.contains t) = true then
      let p := (slotOf s slot).part
      let s := done p r.cmdIx slot .ok s
      if (slotOf s slot).st = .loading then
        modSlot slot (fun e => { e with st := .resident }) (modRec slot (x.1 % 4) (fun r => { r with st := .published }) s)
      else modRec slot (x.1 % 4) (fun r => { r with st := .sealed }) s
    else s) s

/-- Loads become RESIDENT, and pending PUBLISHes take effect (R244). -/
def publishBoundary (s : State) : State :=
  let s := s.residentNext.foldl (fun s slot =>
    match recIn s slot (· == .building) with
    | some k => modSlot slot (fun e => { e with st := .resident }) (modRec slot k (fun r => { r with st := .published }) s)
    | none => s) s
  let s := { s with residentNext := [] }
  s.vrecs.foldl (fun s x =>
    if x.2.pubPend ∧ x.2.st = .sealed then
      let slot := x.1 / 4
      let s := match pubRec s slot with
        | some j => modRec slot j (fun r => { r with st := .retained }) s
        | none => s
      modRec slot (x.1 % 4) (fun r => { r with st := .published, pubPend := false }) s
    else s) s

/-- RETAINED records without pins and without tensors are freed (R244). No command names the record, so the FREED entry holds ring
index 0 (DESIGN CHOICE, log entry 105). -/
def freeBoundary (s : State) : State :=
  s.vrecs.foldl (fun s x =>
    if x.2.st = .retained ∧ x.2.pins = 0
        ∧ s.tensors.all (fun t => !(t.2.st != .empty && t.2.slot == x.1 / 4 && t.2.version == x.2.version)) = true then
      freeRecord 0 (x.1 / 4) (x.1 % 4) s
    else s) s

/-- Offsets of the images of an EVICT with SAVE: each at the first multiple of 256 after the previous (Table RES-6). -/
def evictPlaces (s : State) (slot cold : Nat) : List (Nat × Nat) × Nat :=
  let ks := ((List.range 4).filter (fun k => (vrecOf s slot k).st == .published || (vrecOf s slot k).st == .retained)).mergeSort
    (fun a b => decide ((vrecOf s slot a).version ≤ (vrecOf s slot b).version))
  ks.foldl (fun (acc : List (Nat × Nat) × Nat) k =>
    let a := if acc.1 = [] then cold else roundUp 256 acc.2
    (acc.1 ++ [(k, a)], a + imageLen s slot (vrecOf s slot k))) ([], cold)

/-- One pending EVICT at action 8; a second one for the slot finds it EVICTING and has nothing left to do. -/
def evictBoundary (e : EvictReq) (s : State) : State :=
  if (slotOf s e.slot).st ≠ .resident then (if e.save then done e.part e.index e.slot .state s else s) else
  let pl := evictPlaces s e.slot e.cold
  if e.save ∧ coldIn s.parts[e.part] 0 pl.2 = false then done e.part e.index e.slot .bounds s
  else
    let s := modSlot e.slot (fun x => { x with st := .evicting }) s
    if e.save then
      let n := pl.1.length
      let s := pl.1.zipIdx.foldl (fun s x =>
        let r := vrecOf s e.slot x.1.1
        let im := sealImage e.part e.slot e.key r s
        modPart e.part (fun q => { q with
          cold := q.cold ++ [.write e.index e.slot r.version e.key x.1.2 (x.2 + 1 == n) true im.1] }) im.2) s
      done e.part e.index e.slot .ok s
    else evictAreas e.index e.slot s

/-- The slot table mirrors the version records (R232). -/
def mirrorSlots (s : State) : State :=
  s.slots.foldl (fun s x =>
    modSlot x.1 (fun e => { e with
      version := match pubRec s x.1 with | some k => (vrecOf s x.1 k).version | none => 0
      tiledir := match pubRec s x.1 with | some k => (vrecOf s x.1 k).area | none => 0
      shadow := match shadowRec s x.1 with | some k => (vrecOf s x.1 k).version | none => 0 }) s) s

/-- Action 8 of Table ENGINE-5 as far as adapters go: mirrors, publication, frees, attributes, EVICTs (R244). -/
def action8 (s : State) : State :=
  let s := freeBoundary (publishBoundary (mirrorBoundary s))
  let s := s.attrNext.foldl (fun s x => modSlot x.1 (fun e =>
    if e.st = .resident then { e with train := x.2.1, tag := x.2.2 } else e) s) s
  let s := s.evictNext.foldl (fun s e => evictBoundary e s) s
  { s with attrNext := [], evictNext := [] }

/-! ### The commands -/

/-- LOAD (R239). -/
def execLoad (part : Part) (s : State) : Host.Outcome State Fault Refusal := .next (footRes s (serve part (acceptLoad part) s))

/-- SHLOAD (R239). -/
def execShload (part : Part) (s : State) : Host.Outcome State Fault Refusal := .next (footRes s (serve part (acceptShload part) s))

/-- SHROWS (R241). -/
def execShrows (part : Part) (s : State) : Host.Outcome State Fault Refusal := .next (footRes s (serve part (acceptShrows part) s))

/-- SEAL (R241). -/
def execSeal (part : Part) (s : State) : Host.Outcome State Fault Refusal := .next (footRes s (serve part (acceptSeal part) s))

/-- SEAL_REBUILD_DONE (R241). -/
def execSealRebuildDone (part : Part) (slot : Nat) (s : State) : Host.Outcome State Fault Refusal :=
  .next (footRes s (sealRebuild part slot s))

/-- PUBLISH (R244). -/
def execPublish (part : Part) (s : State) : Host.Outcome State Fault Refusal := .next (footRes s (serve part (acceptPublish part) s))

/-- DROP (R239). -/
def execDrop (part : Part) (s : State) : Host.Outcome State Fault Refusal := .next (footRes s (serve part (acceptDrop part) s))

/-- SAVE (R237). -/
def execSave (part : Part) (s : State) : Host.Outcome State Fault Refusal := .next (footRes s (serve part (acceptSave part) s))

/-- EVICT (R239). -/
def execEvict (part : Part) (s : State) : Host.Outcome State Fault Refusal := .next (footRes s (serve part (acceptEvict part) s))

/-- MIRROR (R250). -/
def execMirror (part : Part) (s : State) : Host.Outcome State Fault Refusal := .next (footRes s (serve part (acceptMirror part) s))

/-- SETATTR (R239). -/
def execSetattr (part : Part) (s : State) : Host.Outcome State Fault Refusal := .next (footRes s (serve part (acceptSetattr part) s))

/-- IMAGE_CHECK_DONE (R484). -/
def execImageCheckDone (part : Part) (image : List Byte) (s : State) : Host.Outcome State Fault Refusal :=
  .next (footRes s (imageCheck part image s))

/-- IMAGE_WRITE_DONE (R237). -/
def execImageWriteDone (part : Part) (s : State) : Host.Outcome State Fault Refusal := .next (footRes s (imageWrite part s))

/-- AREA_FREED (R239). -/
def execAreaFreed (part : Part) (s : State) : Host.Outcome State Fault Refusal := .next (footRes s (areaFreed part s))

end Sys2Proof.Machine
end

