-- ==== Sys2Proof/Machine/Tensors.lean ====
section
/-!
DEFINITION. The tensor commands of a partition's command ring (R194 to R197, R209, R210, R216, R227, R411): TWRITE,
KEEP, DISCARD and HPSET, and what they do at the boundary.
-/

namespace Sys2Proof.Machine

/-- The fields of a descriptor image (Table TRAIN-2). -/
def tensorImage (b : BitVec 512) : Tensor :=
  { st := if fld b 0 2 = 1 then .active else if fld b 0 2 = 2 then .held else .empty
    matB := bitAt b 2, target := fld b 3 4, part := Fin.ofNat 16 (fld b 7 4), slot := fld b 16 16, version := fld b 32 16,
    w := sgn 8 (fld b 48 8), hset := fld b 56 8, nlayers := fld b 64 11, steps := fld b 96 32,
    bc1 := BitVec.ofNat 32 (fld b 128 32), bc2 := BitVec.ofNat 32 (fld b 160 32), master := fld b 192 48,
    moments := fld b 240 48, acc := fld b 288 48, work := fld b 336 48, repset := fld b 384 12, digint := fld b 396 16 }

/-- A coordinate lies in the slice box; without a slice, it is this chip's. -/
def coordIn (s : State) (c : Coord) : Bool :=
  match s.plane.plan with
  | some pl => decide (fld pl.org 0 6 ≤ fld c 0 6 ∧ fld c 0 6 < fld pl.org 0 6 + pl.dim.1
      ∧ fld pl.org 6 6 ≤ fld c 6 6 ∧ fld c 6 6 < fld pl.org 6 6 + pl.dim.2.1
      ∧ fld pl.org 12 6 ≤ fld c 12 6 ∧ fld c 12 6 < fld pl.org 12 6 + pl.dim.2.2)
  | none => c == s.plane.coord

/-- A replica-set entry keeps R209, lies in the slice box and names this chip (R210). -/
def repsetOk (s : State) (p : Part) (ix : Nat) : Bool :=
  if ix = 0xFFF then true else
  let e := tabGet 0 s.parts[p].repsets ix
  let n := fld e 0 4
  decide (1 ≤ n ∧ n ≤ 8) && (repsetCoords e).all (coordIn s) && (repsetCoords e).contains s.plane.coord

/-- The areas of a descriptor are 256-byte aligned and lie in the partition's HBM window (R195; as far as their sizes are
known: log entry 29). -/
def tensorAreasOk (s : State) (q : PartSt) (t : Tensor) : Bool :=
  let n := tensorElems s t
  [(t.master, 4 * n), (t.moments, 8 * n), (t.acc, 16 * n), (t.work, n)].all (fun a => a.1 % 256 == 0 && hbmIn q a.1 (max 1 a.2))

/-- Distinct slots with ACTIVE descriptors once a descriptor is written, counting the writes accepted for the boundary. -/
def activeSlots (s : State) (ix : Nat) (t : Tensor) : Nat :=
  let after := s.tensorNext.foldl (fun l x => tabSet {} l x.1 x.2) s.tensors
  let after := tabSet {} after ix t
  ((after.filter (fun x => x.2.st == .active)).map (fun x => x.2.slot)).dedup.length

/-- The bounds checks of R195 and R197 on a write that leaves the descriptor ACTIVE or HELD. -/
def twriteBounds (s : State) (p : Part) (ix : Nat) (b : BitVec 512) : Bool :=
  let t := tensorImage b
  decide (fld b 0 2 ≠ 3) && tensorAreasOk s s.parts[p] t && decide (-128 ≤ t.w ∧ t.w ≤ 32) && decide (1 ≤ t.nlayers ∧ t.nlayers ≤ 1024)
    && decide (t.digint ≤ 65534) && decide (t.repset ≤ 4094 ∨ t.repset = 0xFFF) && repsetOk s p t.repset
    && f32Finite t.bc1 && f32Finite t.bc2 && decide (t.steps ≤ 0xFFFFFFFE) && decide (activeSlots s ix t ≤ 8192)
    && (t.st != .active || decide (t.nlayers * tensorTpl s t ≤ 32767))

/-- A hyperparameter set is VALID, counting those accepted for the boundary (log entry 29). -/
def hsetValid (s : State) (p : Part) (n : Nat) : Bool :=
  (tabGet {} s.parts[p].hps n).valid || s.parts[p].hpsNext.any (fun x => x.1 == n)

/-- TWRITE checked: its status, and the descriptor it leaves. -/
def twriteCheck (s : State) (p : Part) (ix addr : Nat) (b : BitVec 512) : CplStatus × Tensor :=
  let q := s.parts[p]
  let t := tensorImage b
  let old := tabGet {} s.tensors ix
  let new : Tensor := if fld b 0 2 = 0 then {} else t
  if ¬(q.win.tensBase ≤ ix ∧ ix < q.win.tensBase + q.win.tensCount) ∨ slotIn q t.slot = false ∨ t.part ≠ p
      ∨ hbmIn q addr 64 = false then (.bounds, new)
  else if fld b 0 2 ≠ 0 ∧ twriteBounds s p ix b = false then (.bounds, new)
  else if old.touched && old.dirty then (.state, new)
  else if t.st = .active ∧ (anyRec s t.slot t.version = none ∨ hsetValid s p t.hset = false) then (.state, new)
  else (.ok, new)

/-- TWRITE (R195): accepted for the next boundary, or refused. -/
def acceptTwrite (p : Part) (ix : Nat) (c : ResCmd) (s : State) : Option State :=
  match c with
  | .twrite index addr image =>
    let r := twriteCheck s p index addr image
    let s := if r.1 = .ok then { s with tensorNext := s.tensorNext ++ [(index, r.2)] } else s
    some (done p ix (tensorImage image).slot r.1 s)
  | _ => none

/-- KEEP and DISCARD (R227, R411). -/
def acceptFrozen (p : Part) (ix slot : Nat) (drop : Bool) (s : State) : State :=
  if slotIn s.parts[p] slot = false then done p ix slot .bounds s
  else if (slotOf s slot).frozen = false then done p ix slot .state s
  else done p ix slot .ok { s with freezeNext := s.freezeNext ++ [(slot, drop)] }

/-- KEEP. -/
def acceptKeep (p : Part) (ix : Nat) (c : ResCmd) (s : State) : Option State :=
  match c with
  | .keep slot => some (acceptFrozen p ix slot false s)
  | _ => none

/-- DISCARD. -/
def acceptDiscard (p : Part) (ix : Nat) (c : ResCmd) (s : State) : Option State :=
  match c with
  | .discard slot => some (acceptFrozen p ix slot true s)
  | _ => none

/-- The checks of R216 on a hyperparameter set. -/
def hpsetOk (n : Nat) (lr b1 b2 eps wd : F32) : Bool :=
  let neg := fun (x : F32) => f32Lt x 0
  decide (n ≤ 255) && [lr, b1, b2, eps, wd].all f32Finite && !neg lr && !neg wd && !neg b1 && !neg b2
    && f32Lt b1 f32One && f32Lt b2 f32One && f32Lt 0 eps

/-- HPSET (R216): in force from the next boundary. -/
def acceptHpset (p : Part) (ix : Nat) (c : ResCmd) (s : State) : Option State :=
  match c with
  | .hpset n lr b1 b2 eps wd =>
    some (if hpsetOk n lr b1 b2 eps wd then
      done p ix 0 .ok (modPart p (fun q => { q with
        hpsNext := q.hpsNext ++ [(n, { valid := true, lr, beta1 := b1, beta2 := b2, eps, wd })] }) s)
    else done p ix 0 .bounds s)
  | _ => none

/-- TWRITE (R195). -/
def execTwrite (part : Part) (s : State) : Host.Outcome State Fault Refusal := .next (footRes s (serve part (acceptTwrite part) s))

/-- KEEP (R227). -/
def execKeep (part : Part) (s : State) : Host.Outcome State Fault Refusal := .next (footRes s (serve part (acceptKeep part) s))

/-- DISCARD (R227). -/
def execDiscard (part : Part) (s : State) : Host.Outcome State Fault Refusal := .next (footRes s (serve part (acceptDiscard part) s))

/-- HPSET (R216). -/
def execHpset (part : Part) (s : State) : Host.Outcome State Fault Refusal := .next (footRes s (serve part (acceptHpset part) s))

/-! ### At the boundary (R24) -/

/-- A descriptor written at the boundary: the flags beside it stay, and W is taken while the accumulator holds nothing
(R79, R85). -/
def writeTensor (x : Nat × Tensor) (s : State) : State :=
  let old := tabGet {} s.tensors x.1
  { s with tensors := tabSet {} s.tensors x.1 { x.2 with
      wForce := if old.dirty && x.2.st != .empty then old.wForce else x.2.w
      dirty := old.dirty && x.2.st != .empty
      win := old.win, nan := old.nan, ovf := old.ovf, told := old.told, touchedLast := old.touchedLast } }

/-- KEEP clears FROZEN; DISCARD makes the tensors of the adapter EMPTY as well (R227). -/
def thaw (x : Nat × Bool) (s : State) : State :=
  let s := modSlot x.1 (fun e => { e with frozen := false }) s
  if x.2 then s.tensors.foldl (fun s t => if t.2.slot == x.1 then writeTensor (t.1, {}) s else s) s else s

/-- Tensor writes, KEEPs, DISCARDs and hyperparameter sets take effect. -/
def tensorBoundary (s : State) : State :=
  let s := s.freezeNext.foldl (fun s x => thaw x s) s
  let s := s.tensorNext.foldl (fun s x => writeTensor x s) s
  let s := { s with freezeNext := [], tensorNext := [] }
  { s with parts := s.parts.map (fun q => { q with
      hps := q.hpsNext.foldl (fun t x => tabSet {} t x.1 x.2) q.hps, hpsNext := [] }) }

end Sys2Proof.Machine
end

