-- ==== Sys2Proof/Machine/Pages.lean ====
section
/-!
DEFINITION. Pages of the rank-space context cache (R171 to R183, R384): the hand-over check, the commit at action 4,
and the page commands SHARE, RELEASE, HOLD, RESTORE, WIPE, PAGE_MOVE_DONE and HANDOVER_CHECK_DONE.
-/

namespace Sys2Proof.Machine

/-! ### Cold objects (R384) -/

/-- The first 16 bytes of the trailer of a cold object; their layout is the model's (log entry 30). -/
def trailerHead (kind ix gen : Nat) : List Byte := leBytes 4 kind ++ leBytes 4 ix ++ leBytes 8 gen

/-- The HMAC of a cold object. -/
def objectMac (q : PartSt) (p : Part) (head : List Byte) (off : Nat) (ct : List Byte) : List Byte :=
  hmac384 (keyBytes (q.ikey.getD 0)) (leBytes 1 p.val ++ head ++ leBytes 8 off ++ ct)

/-- A cold object: ciphertext, then the trailer. -/
def sealObject (q : PartSt) (p : Part) (kind ix gen off : Nat) (plain : List Byte) : List Byte :=
  let b := slice plain 0 (roundUp 64 plain.length)
  let ct := xtsUnits false (q.ckey.getD 0) (b.length / 64) (off / 64) b
  let head := trailerHead kind ix gen
  ct ++ head ++ objectMac q p head off ct

/-- The plaintext of a cold object; none when its trailer fails. -/
def openObject (q : PartSt) (p : Part) (kind ix gen off : Nat) (obj : List Byte) : Option (List Byte) :=
  if obj.length < 64 ∨ obj.length % 64 ≠ 0 then none else
  let ct := obj.take (obj.length - 64)
  let tr := obj.drop (obj.length - 64)
  let head := trailerHead kind ix gen
  if tr = head ++ objectMac q p head off ct then some (xtsUnits true (q.ckey.getD 0) (ct.length / 64) (off / 64) ct) else none

/-! ### Descriptors and lists -/

/-- A page descriptor of a partition. -/
def pdesc (q : PartSt) (d : Nat) : PageDesc := tabGet {} q.pdescs d

/-- A page descriptor changed. -/
def modDesc (p : Part) (d : Nat) (f : PageDesc → PageDesc) (s : State) : State :=
  modPart p (fun q => { q with pdescs := tabMod {} q.pdescs d f }) s

/-- The page list at an address of a partition. -/
def pageList (q : PartSt) (a : Nat) : PageList := tabGet {} q.plists a

/-- Bytes of a frame. -/
def frameBytes (q : PartSt) : Nat := q.force.pgsz * 256

/-- A page descriptor as the hand-over check of the step sees it: as it stood at the opening boundary (R182). -/
def openDesc (q : PartSt) (d : Nat) : PageDesc := tabGet {} q.pdescsOpen d

/-- The page list of a request. -/
def reqList (s : State) (req : Nat) : PageList := let r := recOf s req; pageList s.parts[r.part] r.plist

/-- The page list of a request as it stood at the opening boundary (R182). -/
def openList (s : State) (req : Nat) : PageList := let r := recOf s req; tabGet {} s.parts[r.part].plistsOpen r.plist

/-- The entries of a list that name a page. -/
def namedPages (l : PageList) : List (Nat × Nat) := (l.ents.take l.npages).filter (fun e => e.1 != 0xFFFFFF)

/-- Releasing a page (R181): frame zeroed, FREE, REF 0, GEN advanced, the descriptor on the released queue. -/
def releasePage (p : Part) (d : Nat) (s : State) : State :=
  let x := pdesc s.parts[p] d
  let s := if x.st = 2 then send (.coldWipe p x.addr (frameBytes s.parts[p] + 64)) s
    else zeroBytes x.addr (frameBytes s.parts[p]) s
  let room := s.parts[p].rccr.wait = [] ∧ 0 < ringRoom s.parts[p].rccr
  let s := modDesc p d (fun x => { x with st := 0, ref := 0, fill := 0, gen := (x.gen + 1) % 256 }) s
  let s := modPart p (fun q => { q with rccr := ringPut q.rccr d }) s
  if room then raiseInt (pmPage p) 2 s else s

/-! ### The hand-over check (R174 to R177) -/

/-- A list is consistent (R174), and every named page is LIVE with the GEN the list expects (Table RCC-7). -/
def listOk (q : PartSt) (l : PageList) : Bool :=
  l.npages != 0x1FFF && l.clen != 0x1FFFFF && decide (l.npages ≤ l.ents.length)
    && ((l.clen == 0 && l.npages == 0) || decide (256 * (l.npages - 1) + 1 ≤ l.clen ∧ l.clen ≤ 256 * l.npages ∧ l.npages ≠ 0))
    && (l.ents.take l.npages).zipIdx.all (fun x => x.1.1 == 0xFFFFFF ||
      (let d := openDesc q x.1.1
       d.st == 1 && d.gen == x.1.2 && d.fill == (if x.2 + 1 < l.npages then 256 else l.clen - 256 * (l.npages - 1))))

/-- The RCC passes of the running program: PGMAX and the mask of borrowed clusters. -/
def programPasses (s : State) : List (Nat × Nat) :=
  match s.run.prog with
  | some p => (p.words.filter (fun w => wOp w == 0x90 && (fld w 46 4 == 1 || fld w 46 4 == 2))).map
      (fun w => (fld w 75 13, fld w 64 8))
  | none => []

/-- Whether a descriptor from the free queue may be taken (R177). -/
def freeDescOk (s : State) (p : Part) (d : Nat) : Bool :=
  let q := s.parts[p]
  let x := openDesc q d
  decide (d < q.regs.rccdCount) && x.st == 0 && x.addr % 256 == 0 && hbmIn q x.addr (frameBytes q)
    && (memRead s.hbm x.addr (frameBytes q)).all (fun b => b == 0) && !s.run.rccTaken.contains (p, d)

/-- Descriptors still in the free queue of a partition for the step. -/
def freeQueue (s : State) (p : Part) : List Nat :=
  (s.parts[p].rccf.ents.take s.parts[p].rccfOpen).filter (fun d => !s.run.rccTaken.contains (p, d))

/-- n descriptors taken from the free queue: those taken and, when it fails, the bad one met (R176, R177). -/
def takeDescs (s : State) (p : Part) : Nat → List Nat → List Nat → Except (Option Nat) (List Nat)
  | 0, _, acc => .ok acc
  | n + 1, fq, acc =>
    match fq with
    | [] => .error none
    | d :: r => if freeDescOk s p d then takeDescs s p n r (acc ++ [d]) else .error (some d)

/-- The pages that a request's tail takes: the last listed page to be copied, when it is named and shared, be it full or not,
and the positions of the fresh pages (R176). -/
def tailPages (q : PartSt) (l : PageList) (n : Nat) : Option (Nat × Nat) × List Nat :=
  let last := l.ents.getD (l.npages - 1) (0xFFFFFF, 0)
  let first := l.clen / 256
  let after := cdiv (l.clen + n) 256
  let within := l.clen % 256 ≠ 0
  let copy := if 0 < l.npages ∧ last.1 ≠ 0xFFFFFF ∧ 1 < (openDesc q last.1).ref then some (l.npages - 1, last.1) else none
  let fresh := (List.range (after - first)).map (· + first)
  (copy, if within ∧ last.1 ≠ 0xFFFFFF then fresh.drop 1 else fresh)

/-- Where a table entry of a partition lies: its base and its place. -/
def tableEntry (base : BitVec 48) (size index : Nat) : Nat := base.toNat + size * index

/-- The first uncorrectable place among what a request's service reads: its record, its page list, its count table and its
pages (Table REL-3; log entry 53). -/
def badPlace (s : State) (p : Part) (req : Nat) (l : PageList) : Option Nat :=
  let q := s.parts[p]
  let r := recOf s req
  let places := [(tableEntry q.force.recBase 128 (req - q.win.reqBase), 128), (r.plist, 16 + 4 * l.npages), (r.ctab, 32896)] ++
    (namedPages l).map (fun e => ((openDesc q e.1).addr, frameBytes q))
  (places.find? (fun x => badRead s x.1 x.2)).map Prod.fst

/-- A request's code without allocation: the check of one request of the batch. -/
def checkReq (s : State) (req : Nat) (rows : List Nat) : RccReq :=
  let t := tagOf s (rows.headD 0)
  let p := tagPart t
  let l := openList s req
  let q := s.parts[p]
  let r : RccReq := { req, part := p, rows, clen := l.clen, slot := tagSlot t, version := tagVersion t, list := l }
  let stale := (namedPages l).any (fun e => let d := openDesc q e.1; d.slot != r.slot || d.version != r.version)
  let pages := cdiv (l.clen + rows.length) 256
  let passes := programPasses s
  let beyond := passes.any (fun x => decide (x.1 < pages) ||
    !(List.finRange 64).any (fun n => nfld x.2 (n.val / 8) 1 == 1 && s.cores[n].part == p.val))
  if !listOk q l || (badPlace s p req l).isSome then { r with code := 1 }
  else if beyond then { r with code := 3 }
  else if 1048576 < l.clen + rows.length ∨ frameBytes q < pageSize s r.slot r.version q.force.efmt then { r with code := 2 }
  else { r with code := if stale then 4 else 0 }

/-- The whole page copied into its frame, format, slot and version of its source (R176). -/
def copyPage (p : Part) (src dst : Nat) (s : State) : State :=
  let q := s.parts[p]
  let n := frameBytes q
  putBytes (openDesc q dst).addr (memRead s.hbm (openDesc q src).addr n) s

/-- The check and the allocations of one request (R175 to R177). -/
def handOver (req : Nat) (rows : List Nat) (s : State) : State :=
  let r := checkReq s req rows
  let p := r.part
  let miss := fun (s : State) => modPart p (fun q => { q with counted := { q.counted with rccMiss := q.counted.rccMiss + 1 } }) s
  let s := match badPlace s p req r.list with
    | some a => countContained 0x0E (stepErr p { code := 0x0C, cls := .contained, src := 0x0E, info0 := a, info1 := req, aux := 2 } s)
    | none => s
  if r.code ≠ 0 ∧ r.code ≠ 4 then miss (modRun (fun x => { x with rcc := x.rcc ++ [r] }) s)
  else
    let need := tailPages s.parts[p] r.list rows.length
    let n := need.2.length + (if need.1.isSome then 1 else 0)
    match takeDescs s p n (freeQueue s p) [] with
    | .ok ds =>
      let copy := match need.1 with | some c => some (c.1, c.2, ds.headD 0) | none => none
      let fresh := need.2.zip (if need.1.isSome then ds.drop 1 else ds)
      let s := match copy with | some c => copyPage p c.2.1 c.2.2 s | none => s
      modRun (fun x => { x with rcc := x.rcc ++ [{ r with copy, fresh }], rccTaken := x.rccTaken ++ ds.map (fun d => (p, d)) }) s
    | .error bad =>
      let s := match bad with
        | some d => stepErr p { code := 0x08, cls := .contained, info0 := d }
            (modRun (fun x => { x with rccTaken := x.rccTaken ++ [(p, d)] }) s)
        | none => s
      miss (modRun (fun x => { x with rcc := x.rcc ++ [{ r with code := 2 }] }) s)

/-- The requests of the check: their adapted rows, in ascending order of first row; an adapter with a KEY or VALUE target
of an enabled attention descriptor (R175). -/
def checkList (s : State) : List (Nat × List Nat) :=
  let rows := (List.range s.run.tags.length).filter (fun r =>
    tagValid (tagOf s r) && tagSlot (tagOf s r) != Config.baseOnly && s.run.drops.getD r 0 == 0 &&
      (List.range 16).any (fun t => bitAt (slotOf s (tagSlot (tagOf s r))).tmask t && (targetOf s t).en &&
        ((targetOf s t).typ == 1 || (targetOf s t).typ == 2)))
  let reqs := (rows.map (fun r => tagReq (tagOf s r))).dedup
  let sorted := reqs.map (fun q => (q, rows.filter (fun r => tagReq (tagOf s r) == q)))
  sorted.mergeSort (fun a b => decide (a.2.headD 0 ≤ b.2.headD 0))

/-- The hand-over check of the step. -/
def handOverAll (s : State) : State :=
  if s.run.isOpen ∧ s.run.segmented ∧ s.run.checked = false then
    let s := if s.run.void = 0 then (checkList s).foldl (fun s x => handOver x.1 x.2 s) s else s
    modRun (fun r => { r with checked := true }) s
  else s

/-! ### Commit (R180, R181) -/

/-- The commit of one served request with fold count k. -/
def commitReq (r : RccReq) (k : Nat) (s : State) : State :=
  let p := r.part
  let plist := (recOf s r.req).plist
  let q := s.parts[p]
  let folded := fun (pos : Nat) => decide (r.clen < r.clen + k ∧ pos * 256 < r.clen + k ∧ r.clen < (pos + 1) * 256)
  let clen := r.clen + k
  let npages := cdiv clen 256
  let fillAt := fun (pos : Nat) => min 256 (clen - 256 * pos)
  let pages := (match r.copy with | some c => [(c.1, c.2.2, true)] | none => []) ++ r.fresh.map (fun x => (x.1, x.2, false))
  let base := r.list.ents.take r.list.npages
  let ents := (List.range npages).map (fun pos =>
    match pages.find? (fun x => x.1 == pos && folded pos) with
    | some x => (x.2.1, (pdesc q x.2.1).gen)
    | none => base.getD pos (0xFFFFFF, 0))
  -- the last listed page, when it is neither copied nor fresh, takes the positions that fall in it
  let s := if k = 0 then s else
    let last := base.getD (r.list.npages - 1) (0xFFFFFF, 0)
    let s := if r.copy = none ∧ r.clen % 256 ≠ 0 ∧ last.1 ≠ 0xFFFFFF then
        modDesc p last.1 (fun d => { d with fill := fillAt (r.list.npages - 1) }) s
      else s
    modPart p (fun q => { q with plists := tabSet {} q.plists plist { npages, clen, ents } }) s
  pages.foldl (fun s x =>
    if folded x.1 then
      let src := match r.copy with | some c => pdesc q c.2.1 | none => {}
      let s := modDesc p x.2.1 (fun d => { d with
        st := 1, fill := fillAt x.1, ref := 1, f8 := if x.2.2 then src.f8 else q.force.efmt,
        slot := if x.2.2 then src.slot else r.slot, version := if x.2.2 then src.version else r.version }) s
      match r.copy, x.2.2 with
      | some c, true => modDesc p c.2.1 (fun d => { d with ref := d.ref - 1 }) s
      | _, _ => s
    else releasePage p x.2.1 s) s

/-- Action 4 of the RCC unit: every request by its fold count, then the free queues move on (R180, R181). -/
def rccCommit (fold : Nat → Nat) (s : State) : State :=
  let s := s.run.rcc.foldl (fun s r => if r.code = 0 ∨ r.code = 4 then commitReq r (fold r.req) s else s) s
  (List.finRange 16).foldl (fun s p => modPart p (fun q =>
    let gone := (s.run.rccTaken.filter (fun x => decide (x.1 = p))).map Prod.snd
    let l := q.rccf.ents.filter (fun d => !gone.contains d)
    { q with rccf := { q.rccf with ents := l, rd := q.rccf.rd + BitVec.ofNat 16 (q.rccf.ents.length - l.length) },
             rccfOpen := q.rccfOpen - (q.rccf.ents.length - l.length) }) s) s

/-! ### Page commands (R182, R183, R473) -/

/-- CMD of an entry. -/
def pcCmd (e : BitVec 256) : Nat := fld e 0 4
/-- ADDR. -/
def pcAddr (e : BitVec 256) : Nat := fld e 16 48
/-- DESC. -/
def pcDesc (e : BitVec 256) : Nat := fld e 64 24
/-- FIRST. -/
def pcFirst (e : BitVec 256) : Nat := fld e 88 13
/-- COUNT. -/
def pcCount (e : BitVec 256) : Nat := fld e 101 13
/-- COLD. -/
def pcCold (e : BitVec 256) : Nat := fld e 128 48

/-- The list entries that a SHARE or RELEASE names. -/
def pcEntries (q : PartSt) (e : BitVec 256) : List (Nat × Nat) :=
  ((pageList q (pcAddr e)).ents.drop (pcFirst e)).take (pcCount e)

/-- The descriptors that a command touches. -/
def pcTouches (q : PartSt) (e : BitVec 256) : List Nat :=
  if pcCmd e = 1 ∨ pcCmd e = 2 then ((pcEntries q e).map Prod.fst).filter (fun d => d != 0xFFFFFF) else [pcDesc e]

/-- The descriptors named by the lists of the running step, its copies and fresh pages among them, until action 4 has
completed (R182). -/
def stepPages (s : State) (p : Part) : List Nat :=
  if s.run.isOpen ∧ s.run.acted < 4 then
    (s.run.adms.filter (fun a => decide (a.part = p))).flatMap (fun a => (namedPages (openList s a.req)).map Prod.fst) ++
      (s.run.rccTaken.filter (fun x => decide (x.1 = p))).map Prod.snd
  else []

/-- An entry for the RCC completion ring. -/
def pageDone (p : Part) (ix : Nat) (e : BitVec 256) (st : CplStatus) (s : State) : State :=
  let room := s.parts[p].rccc.wait = [] ∧ 0 < ringRoom s.parts[p].rccc
  let c : RccCpl := { index := ix, cmd := pcCmd e, status := st, desc := if pcCmd e < 3 then 0 else pcDesc e }
  let s := modPart p (fun q => { q with rccc := ringPut q.rccc c }) s
  if room then raiseInt (pmPage p) 1 s else s

/-- Operands out of range (R473). -/
def pcBounds (q : PartSt) (e : BitVec 256) : Bool :=
  let c := pcCmd e
  if c = 1 ∨ c = 2 then
    decide (1 ≤ pcCount e ∧ pcCount e ≤ 4096 ∧ pcFirst e ≤ 4095 ∧ pcFirst e + pcCount e ≤ (pageList q (pcAddr e)).npages)
      && (pcTouches q e).all (fun d => decide (d < q.regs.rccdCount))
  else
    decide (pcDesc e < q.regs.rccdCount)
      && (c != 3 || coldIn q (pcCold e) (frameBytes q + 64))
      && (c != 4 || (pcAddr e % 256 == 0 && hbmIn q (pcAddr e) (frameBytes q)))

/-- Releases of references: a page that reaches 0 is released, unless a move of it is under way, at whose end it is. -/
def dropRef (p : Part) (d : Nat) (s : State) : State :=
  let x := pdesc s.parts[p] d
  if x.ref ≤ 1 ∧ x.st ≠ 3 then releasePage p d s else modDesc p d (fun x => { x with ref := x.ref - 1 }) s

/-- A page command carried out: its status; a HOLD or RESTORE that begins its move answers none. -/
def pageWork (p : Part) (ix : Nat) (e : BitVec 256) (s : State) : Option CplStatus × State :=
  let q := s.parts[p]
  let c := pcCmd e
  let l := pcTouches q e
  let x := pdesc q (pcDesc e)
  if pcBounds q e = false then (some .bounds, s)
  else if c = 1 then
    if l.all (fun d => let y := pdesc q d; (y.st == 1 || y.st == 2) && decide (y.ref + l.count d ≤ 65534)) then
      (some .ok, l.foldl (fun s d => modDesc p d (fun y => { y with ref := y.ref + 1 }) s) s)
    else (some .state, s)
  else if c = 2 then
    if l.all (fun d => decide (l.count d ≤ (pdesc q d).ref)) then (some .ok, l.foldl (fun s d => dropRef p d s) s)
    else (some .state, s)
  else if c = 3 then
    if x.st = 1 ∧ x.ref = 1 then
      (none, modPart p (fun q => { q with moves := q.moves ++ [{ desc := pcDesc e, index := ix, hold := true, dest := pcCold e }] })
        (modDesc p (pcDesc e) (fun y => { y with st := 3 }) s))
    else (some .state, s)
  else if c = 4 then
    if x.st = 2 then
      (none, modPart p (fun q => { q with moves := q.moves ++ [{ desc := pcDesc e, index := ix, hold := false, dest := pcAddr e }] })
        (modDesc p (pcDesc e) (fun y => { y with st := 3 }) s))
    else (some .state, s)
  else
    if x.ref ≤ 1 ∧ x.st ≠ 3 then (some .ok, releasePage p (pcDesc e) s) else (some .state, s)

/-- Entries with a reserved CMD at the front complete with BOUNDS (R473). -/
def dropBadPage (p : Part) : Nat → State → State
  | 0, s => s
  | n + 1, s =>
    match s.parts[p].rccq.ents with
    | e :: _ =>
      if pcCmd e = 0 ∨ 5 < pcCmd e then
        let ix := s.parts[p].rccq.rd.toNat
        dropBadPage p n (pageDone p ix e .bounds (modPart p (fun q => { q with rccq := ringTake q.rccq 1 }) s))
      else s
    | [] => s

/-- The page command at the front of the RCC command ring, when it is the one named and no page of it is named by a list
of the running step (R182). -/
def servePage (p : Part) (cmd : Nat) (s : State) : State :=
  match s.parts[p].rccq.ents with
  | e :: _ =>
    if s.parts[p].st = .keyed ∧ pcCmd e = cmd ∧ (pcTouches s.parts[p] e).all (fun d => !(stepPages s p).contains d) = true then
      let ix := s.parts[p].rccq.rd.toNat
      let r := pageWork p ix e (modPart p (fun q => { q with rccq := ringTake q.rccq 1 }) s)
      let s := match r.1 with | some st => pageDone p ix e st r.2 | none => r.2
      dropBadPage p s.parts[p].rccq.ents.length s
    else s
  | [] => s

/-- The end of a page's move (Table RCC-8, R384). -/
def pageMoved (p : Part) (desc : Nat) (object : List Byte) (s : State) : State :=
  let q := s.parts[p]
  match q.moves.find? (fun m => m.desc == desc) with
  | none => s
  | some m =>
    let x := pdesc q desc
    let n := frameBytes q
    let e : BitVec 256 := BitVec.ofNat 256 ((if m.hold then 3 else 4) + put 64 desc)
    let s := modPart p (fun q => { q with moves := q.moves.filter (fun y => y.desc != desc) }) s
    let s := if m.hold then
        let obj := sealObject q p 1 desc x.gen m.dest (memRead s.hbm x.addr n)
        pageDone p m.index e .ok (modDesc p desc (fun y => { y with st := 2, addr := m.dest })
          (send (.cold p m.dest obj) (zeroBytes x.addr n s)))
      else match openObject q p 1 desc x.gen x.addr object with
        | some plain =>
          pageDone p m.index e .ok (modDesc p desc (fun y => { y with st := 1, addr := m.dest })
            (send (.coldWipe p x.addr object.length) (putBytes m.dest (slice plain 0 n) s)))
        | none => pageDone p m.index e .integrity (modDesc p desc (fun y => { y with st := 2 }) s)
    if x.ref = 0 then releasePage p desc s else s

/-- What a page command or the hand-over check may change. -/
def footPage (s t : State) : State :=
  { s with out := t.out, regs := t.regs, hbm := t.hbm, parts := t.parts, run := t.run, rcc := t.rcc, err := t.err }

/-- HANDOVER_CHECK_DONE (R178). -/
def execHandoverCheckDone (s : State) : Host.Outcome State Fault Refusal := .next (footPage s (handOverAll s))

/-- SHARE (R183). -/
def execShare (part : Part) (s : State) : Host.Outcome State Fault Refusal := .next (footPage s (servePage part 1 s))

/-- RELEASE (R183). -/
def execRelease (part : Part) (s : State) : Host.Outcome State Fault Refusal := .next (footPage s (servePage part 2 s))

/-- HOLD (R183). -/
def execHold (part : Part) (s : State) : Host.Outcome State Fault Refusal := .next (footPage s (servePage part 3 s))

/-- RESTORE (R183). -/
def execRestore (part : Part) (s : State) : Host.Outcome State Fault Refusal := .next (footPage s (servePage part 4 s))

/-- WIPE (R183). -/
def execWipe (part : Part) (s : State) : Host.Outcome State Fault Refusal := .next (footPage s (servePage part 5 s))

/-- PAGE_MOVE_DONE (R384). -/
def execPageMoveDone (part : Part) (desc : Nat) (object : List Byte) (s : State) : Host.Outcome State Fault Refusal :=
  .next (footPage s (pageMoved part desc object s))

end Sys2Proof.Machine
end

