-- ==== Sys2Proof/Machine/Segment.lean ====
section
/-!
DEFINITION. Segmentation of a step's batch (R33 to R46), the fit of the batch to its program (R125, R126), strands (R158)
and the command SEGMENTATION_DONE.
-/

namespace Sys2Proof.Machine

/-! ### Drops (R34 to R39) -/

/-- What a request's valid rows carry: slot and version of the first of them, and whether all agree (R34). -/
def reqTags (tags : List RowTag) : Tab (Option (Nat × Nat × Bool)) :=
  tags.foldl (fun t x =>
    if tagValid x then
      match tabGet none t (tagReq x) with
      | some e => tabSet none t (tagReq x) (some (e.1, e.2.1, e.2.2 && e.1 == tagSlot x && e.2.1 == tagVersion x))
      | none => tabSet none t (tagReq x) (some (tagSlot x, tagVersion x, true))
    else t) []

/-- The valid rows of a request agree in slot and version. -/
def reqAgrees (reqs : Tab (Option (Nat × Nat × Bool))) (req : Nat) : Bool :=
  match tabGet none reqs req with
  | some e => e.2.2
  | none => true

/-- The drop code of a row before the caps (R34, R36): 0 none, 1 NOT_AVAILABLE. -/
def dropFirst (s : State) (reqs : Tab (Option (Nat × Nat × Bool))) (t : RowTag) : Nat :=
  if tagValid t = false then 0
  else if reqAgrees reqs (tagReq t) = false then 1
  else if tagSlot t = Config.baseOnly then 0
  else
    let e := slotOf s (tagSlot t)
    if e.st = .resident ∧ e.part = tagPart t ∧ (servingRec s (tagSlot t) (tagVersion t)).isSome = true then 0 else 1

/-- A row is adapted: valid, not dropped, not base only. -/
def adapted (t : RowTag) (drop : Nat) : Bool := tagValid t && drop == 0 && tagSlot t != Config.baseOnly

/-- A key that orders (slot, version) pairs. -/
def pairKey (t : RowTag) : Nat := 65536 * tagSlot t + tagVersion t

/-- The pairs of adapted rows, each once, ascending (R42). -/
def pairsOf (rows : List (RowTag × Nat)) : List Nat :=
  ((rows.foldl (fun (t : Tab Bool) x => if adapted x.1 x.2 then tabSet false t (pairKey x.1) true else t) []).map Prod.fst)

/-- The pairs of a partition beyond its cap (R39). -/
def overCap (rows : List (RowTag × Nat)) (cap : Part → Nat) : List Nat :=
  (List.finRange 16).flatMap (fun p => (pairsOf (rows.filter (fun x => decide (tagPart x.1 = p)))).drop (cap p))

/-- The drop code of every row of a batch under the partitions' caps (R34, R36, R39). -/
def dropCodes (s : State) (cap : Part → Nat) (tags : List RowTag) : List Nat :=
  let reqs := reqTags tags
  let first := tags.map (fun t => (t, dropFirst s reqs t))
  let beyond := overCap first cap
  first.map (fun x => if adapted x.1 x.2 && beyond.contains (pairKey x.1) then 2 else x.2)

/-! ### Segments (R42 to R44) -/

/-- The segments of a batch, and its row list. -/
def segmentsOf (s : State) (rows : List ((RowTag × Nat) × Nat)) : List Seg × List Nat :=
  (pairsOf (rows.map Prod.fst)).foldl (fun (acc : List Seg × List Nat) k =>
    let mine := (rows.filter (fun x => adapted x.1.1 x.1.2 && pairKey x.1.1 == k)).map Prod.snd
    let slot := k / 65536
    let e := slotOf s slot
    (acc.1 ++ [{ slot, part := e.part, off := acc.2.length, count := mine.length, version := k % 65536, rank := e.rank }],
     acc.2 ++ mine)) ([], [])

/-- The rows marked in the zero-row bitmap of a target (R44). -/
def zeroRows (s : State) (t : Nat) (rows : List ((RowTag × Nat) × Nat)) : List Nat :=
  let en := (targetOf s t).en
  (rows.filter (fun x => tagValid x.1.1 && (!en || !adapted x.1.1 x.1.2 ||
    !bitAt (slotOf s (tagSlot x.1.1)).tmask t))).map Prod.snd

/-! ### Fit and strands (R125, R158) -/

/-- The B-shape class of a rank (R125). -/
def shapeClass (rank : Nat) : Nat := if rank ≤ 8 then 0 else if rank ≤ 16 then 1 else 2

/-- A batch's segments fit a program (R125). -/
def fitsPlan (prog : Program) (segs : List Seg) : Bool :=
  decide (segs.length ≤ prog.plan.length) &&
    segs.zipIdx.all (fun x =>
      let r := prog.plan.getD x.2 {}
      decide (x.1.count ≤ r.maxRows ∧ x.1.rank ≤ r.rmax ∧ shapeClass x.1.rank = shapeClass r.rmax))

/-- The presented form of an array, coded as PRESENT of Table ISA-2. -/
def bypCode (b : Bypass) : Nat := if b.dis then 2 else if b.en then 1 else 0

/-- The presented widths in force, as the PRESENT field holds them. -/
def presentField (s : State) : BitVec 512 :=
  BitVec.ofNat 512 ((List.finRange 256).foldl (fun a i =>
    a + bypCode ((s.cores[i.val / 4]'(by omega)).byp.getD (i.val % 4) {}) * 4 ^ i.val) 0)

/-- The presented widths that the bypass fields written ask for at the next boundary. -/
def presentFieldNext (s : State) : BitVec 512 :=
  BitVec.ofNat 512 ((List.finRange 256).foldl (fun a i =>
    a + bypCode ((s.cores[i.val / 4]'(by omega)).bypNext.getD (i.val % 4) {}) * 4 ^ i.val) 0)

/-- The (target, layer) pairs of a program, named by the words that hold a layer: ACT and GRAD in; DELTA, IGRAD and TOPK out; and
RCC UWRITE (R158, log entry 148). -/
def tlPairs (p : Program) : List (Nat × Nat) :=
  (p.words.foldl (fun (t : Tab Bool) w =>
    let f := faceWord w
    if (wOp w = 0x60 ∧ f.kind < 2) ∨ (wOp w = 0x61 ∧ (f.kind = 9 ∨ f.kind = 0xA ∨ f.kind = 0xD)) then
      tabSet false t (1024 * f.target + f.layer) true
    else if wOp w = 0x90 ∧ fld w 46 4 = 0 then tabSet false t (1024 * fld w 60 4 + fld w 50 10) true
    else t) []).map (fun e => (e.1 / 1024, e.1 % 1024))

/-- Strands of a segment: over its rows, the pairs of the program that its adapter carries (R158). -/
def segStrands (s : State) (pairs : List (Nat × Nat)) (sg : Seg) : Nat :=
  sg.count * (pairs.filter (fun x => bitAt (slotOf s sg.slot).tmask x.1)).length

/-- Rows taken back from a void step: each prefill's rows are not admitted after all, and each request is listed as not
run, in the order of the admission record (R126, R270). -/
def notRunAll (s : State) : State :=
  let s := s.run.adms.zipIdx.foldl (fun s x =>
    if x.1.akind = 4 then s
    else { s with recs := tabMod {} s.recs x.1.req (fun r =>
      { r with notRun := some x.2, pleft := if x.1.decode then r.pleft else r.pleft + x.1.rows }) }) s
  modRun (fun r => { r with adms := r.adms.map (fun a => if a.akind = 4 then a else { a with akind := 3 }) }) s

/-- Segmentation of the running step's batch, its fit, and the void reason by Table SERVE-9 (R45, R126). -/
def segmentation (s : State) : State :=
  if s.run.isOpen = false ∨ s.run.segmented = true then s else
  let tags := s.run.tags
  let drops := dropCodes s (fun p => s.parts[p].force.segCap) tags
  let rows := (tags.zip drops).zipIdx
  let sg := segmentsOf s rows
  let fit := match s.run.prog with | some p => fitsPlan p sg.1 | none => false
  let void : Nat := match s.run.prog with
    | none => 2
    | some p => if p.present ≠ presentField s then 3 else if fit then 0 else 1
  let pairs := match s.run.prog with | some p => tlPairs p | none => []
  let strands := fun (p : Part) => if void = 0 then ((sg.1.filter (fun g => decide (g.part = p))).map (segStrands s pairs)).sum else 0
  let sp := Vector.ofFn strands
  let s := modRun (fun r => { r with
    segmented := true, drops, segs := sg.1, rowList := sg.2, zero := Vector.ofFn (fun t => zeroRows s t.val rows),
    strands := sp, void }) s
  let s := { s with seg := { s.seg with
    lastSegs := sg.1.length, lastFit := fit, lastVoid := void, lastAdapted := sg.2.length, lastBatch := tags.length,
    lastCycles := 24 + cdiv tags.length 16, lastStrands := sp.toList.sum } }
  let s := { s with parts := Vector.ofFn (fun p => { s.parts[p] with strands := sp[p] }) }
  if void = 0 then s else raiseInt 8 1 (notRunAll s)

/-! ### The segment area of every cluster cache (R43, R44, Tables ARITH-6 to ARITH-8) -/

/-- The segment table header. -/
def segHeader (s : State) : List Byte :=
  leBytes 4 s.mc.step.toNat ++ leBytes 4 s.run.segs.length ++ leBytes 4 s.run.rowList.length ++ leBytes 4 s.run.tags.length

/-- A segment entry. -/
def segEntry (g : Seg) : List Byte :=
  leBytes 16 (g.slot + put 16 g.part.val + put 32 g.off + put 64 g.count + put 96 g.version + put 112 g.rank)

/-- The zero-row bitmap of a target, as many bytes as the batch needs; the rest of its 8,192 bytes are zero. -/
def zeroBitmap (s : State) (t : Nat) : List Byte :=
  packBits ((List.range (8 * cdiv s.run.tags.length 8)).map (zeroRow s t))

/-- The segment area as the segment unit writes it: offset and bytes of each part; every byte between them is zero. -/
def segArea (s : State) : List (Nat × List Byte) :=
  [(0, segHeader s), (0x10, s.run.segs.flatMap segEntry), (0x10010, s.run.rowList.flatMap (fun r => leBytes 2 r))] ++
    (List.range 16).map (fun t => (0x30010 + 8192 * t, zeroBitmap s t))

/-- Segmentation writes the segment area of every cluster cache (R43). -/
def writeSegArea (s t : State) : State :=
  if s.run.isOpen = false ∨ s.run.segmented = true then t else
  { t with clusters := t.clusters.map (fun c => { c with segArea := segArea t }) }

/-- What segmentation may change. -/
def footSeg (s t : State) : State :=
  { s with regs := t.regs, clusters := t.clusters, recs := t.recs, parts := t.parts, seg := t.seg, run := t.run }

/-- SEGMENTATION_DONE (R45). -/
def execSegmentationDone (s : State) : Host.Outcome State Fault Refusal := .next (footSeg s (writeSegArea s (segmentation s)))

end Sys2Proof.Machine
end

