-- ==== Sys2Proof/Machine/Records.lean ====
section
/-!
DEFINITION. Request records, count tables and hold handles as bytes (Tables SERVE-3, SERVE-12, SERVE-13), records and
completion records by number, and the pins of requests (R243).
-/

namespace Sys2Proof.Machine

/-- A request record changed. -/
def modReq (r : Nat) (f : ReqRec → ReqRec) (s : State) : State := { s with recs := tabMod {} s.recs r f }

/-- A completion record of a partition: the record at SEQ modulo 2^20, when it holds that SEQ (R277). -/
def complOf (q : PartSt) (seq : BitVec 64) : Option Compl :=
  let c := tabGet {} q.compl (seq.toNat % 2 ^ 20)
  if c.st ≠ .empty ∧ c.seq = seq then some c else none

/-- A completion record written. -/
def setCompl (p : Part) (c : Compl) (s : State) : State :=
  modPart p (fun q => { q with compl := tabSet {} q.compl (c.seq.toNat % 2 ^ 20) c }) s

/-- A hold entry of a partition. -/
def holdOf (q : PartSt) (i : Nat) : Hold := tabGet {} q.holds i

/-- A hold entry changed. -/
def modHold (p : Part) (i : Nat) (f : Hold → Hold) (s : State) : State :=
  modPart p (fun q => { q with holds := tabMod {} q.holds i f }) s

/-- The handle of a hold entry (R288). -/
def handleOf (i : Nat) (h : Hold) : BitVec 64 := BitVec.ofNat 64 (i % 65536 + put 16 (h.gen % 65536) + put 32 h.ctr.toNat)

/-- The first number from b up that an ascending list of keys does not hold. -/
def firstGap : Nat → List Nat → Nat
  | b, [] => b
  | b, k :: r => if k < b then firstGap b r else if k = b then firstGap (b + 1) r else b

/-- The lowest free record of a partition's window (log entry 31). -/
def freeReq (s : State) (q : PartSt) : Option Nat :=
  let i := firstGap q.win.reqBase ((s.recs.filter (fun e => decide (e.2.st ≠ .free))).map Prod.fst)
  if i < q.win.reqBase + q.win.reqCount then some i else none

/-- The lowest free hold entry of a partition (log entry 31). -/
def freeHold (q : PartSt) : Option Nat :=
  let i := firstGap 0 ((q.holds.filter (fun e => decide (e.2.st ≠ .free))).map Prod.fst)
  if i < 65536 then some i else none

/-- The model's name for the page list of a record (log entry 32). -/
def listAddr (req : Nat) : Nat := 2 ^ 47 + 65536 * req

/-- The model's name for the count table of a record (log entry 32). -/
def ctabAddr (req : Nat) : Nat := 2 ^ 47 + 2 ^ 46 + 65536 * req

/-! ### Pins (R243) -/

/-- The pins of the record that holds a version of a slot, changed. -/
def modPins (slot version : Nat) (f : Nat → Nat) (s : State) : State :=
  if slot = Config.baseOnly ∨ version = 0 then s else
  match anyRec s slot version with
  | some k => modRec slot k (fun r => { r with pins := f r.pins }) s
  | none => s

/-- The version to which a request admitted to a slot is pinned: the PUBLISHED one; 0 when the slot is not RESIDENT. -/
def pinVersion (s : State) (slot : Nat) : Nat :=
  if slot = Config.baseOnly ∨ (slotOf s slot).st ≠ .resident then 0 else
  match pubRec s slot with
  | some k => (vrecOf s slot k).version
  | none => 0

/-- A request is pinned at its first admission. -/
def pinReq (req : Nat) (s : State) : State :=
  let r := recOf s req
  let v := pinVersion s r.slot
  modReq req (fun r => { r with version := v }) (modPins r.slot v (· + 1) s)

/-! ### Bytes of a record and a count table (Tables SERVE-3, SERVE-13) -/

/-- Code of a record state (Table SERVE-4). -/
def recCode : RecState → Nat
  | .free => 0 | .queued => 1 | .running => 2 | .pausing => 3 | .resuming => 4 | .ending => 5

/-- The 128 bytes of a record. -/
def recBytes (r : ReqRec) : List Byte :=
  leBytes 128 (recCode r.st + put 4 r.part.val + put 8 (b2n r.stream) + put 9 (b2n r.spec) + put 10 (b2n r.chunk) +
    put 11 (b2n r.grad) + put 12 r.face.val + put 13 (b2n r.dropSeen) + put 14 r.dropRsn + put 16 r.slot +
    put 32 r.version + put 48 r.ring + put 62 (b2n r.ringEn) + put 63 (b2n r.ctFull) + put 64 r.seq.toNat +
    put 128 r.pleft + put 149 r.maxNew + put 165 (r.newDone % 65536) + put 181 r.win + put 186 r.tailn + put 192 r.plist +
    put 240 r.ctab + put 288 r.topk + put 320 r.pres.toNat + put 352 r.freq.toNat + put 384 r.mult.toNat +
    put 416 r.lastTok.toNat + put 448 r.admStep.toNat + put 512 r.outcrc.toNat + put 576 r.admNo)

/-- The fields of a record that a resume brings back from the sealed bytes. -/
def recFrom (b : List Byte) (r : ReqRec) : ReqRec :=
  let v : BitVec 1024 := BitVec.ofNat 1024 (leAt b 0 128)
  { r with
    stream := bitAt v 8, spec := bitAt v 9, chunk := bitAt v 10, grad := bitAt v 11, face := Fin.ofNat 2 (fld v 12 1),
    dropSeen := bitAt v 13, dropRsn := fld v 14 2, ring := fld v 48 14, ringEn := bitAt v 62, ctFull := bitAt v 63,
    pleft := fld v 128 21, maxNew := fld v 149 16, newDone := fld v 165 16, win := fld v 181 5, topk := fld v 288 8,
    pres := BitVec.ofNat 32 (fld v 320 32), freq := BitVec.ofNat 32 (fld v 352 32), mult := BitVec.ofNat 32 (fld v 384 32),
    lastTok := BitVec.ofNat 32 (fld v 416 32), admStep := BitVec.ofNat 64 (fld v 448 64),
    outcrc := BitVec.ofNat 64 (fld v 512 64), admNo := fld v 576 32 }

/-- A count table with its spill list, as bytes (Table SERVE-13). -/
def ctabBytes (c : CountTab) : List Byte :=
  leBytes 16 (c.ents.length + put 32 c.spill.length) ++
    (List.range 4096).flatMap (fun i => let e := c.ents.getD i (0, 0); leBytes 8 (e.1.toNat + put 32 e.2)) ++
    (List.range 16).flatMap (fun i => leBytes 4 (c.tail.getD i 0).toNat) ++ List.replicate 48 0 ++
    c.spill.flatMap (fun t => leBytes 4 t.toNat)

/-- The count table that bytes hold; `n` tail tokens. -/
def ctabFrom (b : List Byte) (n : Nat) : CountTab :=
  { ents := (List.range (leAt b 0 2 % 8192)).map (fun i =>
      (BitVec.ofNat 32 (leAt b (16 + 8 * i) 4), leAt b (16 + 8 * i + 4) 2)),
    spill := (List.range (leAt b 4 4)).map (fun i => BitVec.ofNat 32 (leAt b (32896 + 4 * i) 4)),
    tail := (List.range n).map (fun i => BitVec.ofNat 32 (leAt b (32784 + 4 * i) 4)) }

/-- A count table of a partition, by record index. -/
def ctabOf (s : State) (req : Nat) : CountTab := tabGet {} s.parts[(recOf s req).part].ctabs req

/-- A count table changed. -/
def modCtab (p : Part) (req : Nat) (f : CountTab → CountTab) (s : State) : State :=
  modPart p (fun q => { q with ctabs := tabMod {} q.ctabs req f }) s

/-- A token folds into the entries, or onto the spill list (R292); the count saturates. -/
def foldToken (c : CountTab) (t : Word) : CountTab :=
  if c.ents.any (fun e => e.1 == t) then
    { c with ents := c.ents.map (fun e => if e.1 = t then (t, min 65534 (e.2 + 1)) else e) }
  else if c.ents.length < 4096 then { c with ents := c.ents ++ [(t, 1)] }
  else { c with spill := c.spill ++ [t] }

/-! ### Completion records, admission entries and result batches as bytes (Tables SERVE-7 to SERVE-10) -/

/-- CSTATE codes (Table SERVE-8). -/
def cstateCode : CState → Nat
  | .empty => 0 | .live => 1 | .done => 2 | .cancelled => 3 | .held => 4 | .expired => 5

/-- STATUS codes of answers (Table SERVE-10). -/
def ansCode : AnsStatus → Nat
  | .ok => 0 | .dup => 1 | .staleSeq => 2 | .state => 3 | .bounds => 4 | .unknown => 5 | .expired => 6 | .part => 7

/-- The 32 bytes of a completion record (Table SERVE-8). -/
def complBytes (c : Compl) : List Byte :=
  leBytes 32 (c.seq.toNat + put 64 (if c.st = .live then c.req else 0) + put 82 (cstateCode c.st) + put 96 (c.newDone % 65536) +
    put 128 c.outcrc.toNat + put 192 c.when_.toNat)

/-- The 16 bytes of an admission entry (Table SERVE-7). -/
def admBytes (a : Adm) : List Byte :=
  leBytes 16 (a.req + put 18 a.part.val + put 22 a.rows + put 39 a.akind + put 42 a.first + put 64 a.seq.toNat)

/-- The 64 bytes of a result entry (Table SERVE-10). -/
def entBytes (e : ResEntry) : List Byte :=
  leBytes 64 (e.req + put 18 e.part + put 22 (b2n e.done) + put 23 (b2n e.cancelled) + put 24 (b2n e.diverted) +
    put 25 (b2n e.drop) + put 26 e.drsn + put 28 e.rcc + put 31 (b2n e.ctFull) + put 32 e.rows + put 49 (e.k % 32) +
    put 54 (ansCode e.status) + put 58 (cstateCode e.cstate) + put 64 e.seq.toNat + put 128 e.clen + put 160 (e.newDone % 65536) +
    put 192 e.lastTok.toNat + put 256 e.outcrc.toNat + put 320 e.aux.toNat)

/-- The 64 bytes of a batch header (Table SERVE-9): MAGIC is the bytes "PAR1", FORMAT 1. -/
def batchHead (b : Batch) : List Byte :=
  leBytes 4 0x31524150 ++ leBytes 2 1 ++ leBytes 1 b.face.val ++ leBytes 1 (b2n (b.void != 0) + put 1 b.void) ++
    leBytes 8 b.step.toNat ++ leBytes 8 b.status.toNat ++ leBytes 4 b.adms.length ++ leBytes 4 b.ents.length ++
    leBytes 8 b.pslot ++ leBytes 8 b.pdigest.toNat ++ (List.range 16).flatMap (fun i => leBytes 1 (b.ls.getD i 0))

/-- A result batch as it stands in the host's buffer (R281). -/
def batchData (b : Batch) : List Byte := batchHead b ++ b.adms.flatMap admBytes ++ b.ents.flatMap entBytes

/-! ### The step a descriptor is taken for (R261) -/

/-- Number of the step that the next boundary opens. -/
def nextStep (s : State) : BitVec 64 :=
  if s.run.isOpen then s.mc.step + 1
  else match s.mc.start, s.plane.plan with
    | some x, _ => x.1
    | none, some p => p.startStep
    | none, none => s.mc.step

/-- The cycle at which admission closes: the latest ADM_CLOSE in force of the partitions, whose queues close together
(log entry 37). -/
def closeCycle (s : State) : Nat := s.parts.toList.foldl (fun a q => max a q.force.admClose) 0

/-- A descriptor whose last byte arrives now has a stamp after the close: it is taken for the step after next (R22, R261). -/
def pastClose (s : State) : Bool := s.adm.closed || (s.run.isOpen && nbReached s (closeCycle s + 1))

/-- The step for which a descriptor is taken, by whether it came after the close. -/
def takenStep (late : Bool) (s : State) : BitVec 64 := if late then nextStep s + 1 else nextStep s

/-- The request that runs in the running step, with its admission entry. -/
def admOf (s : State) (req : Nat) : Option Adm := s.run.adms.find? (fun a => a.req == req && a.akind != 4)

/-- Admission entries of a request changed. -/
def modAdm (req : Nat) (f : Adm → Adm) (s : State) : State :=
  modRun (fun r => { r with adms := r.adms.map (fun a => if a.req = req ∧ a.akind ≠ 4 then f a else a) }) s

/-- The live request of a partition that a SEQ names. -/
def liveReq (s : State) (p : Part) (seq : BitVec 64) : Option Nat :=
  match complOf s.parts[p] seq with
  | some c => if c.st = .live ∧ (recOf s c.req).seq = seq ∧ (recOf s c.req).st ≠ .free then some c.req else none
  | none => none

/-- A CANCEL or PAUSE of the request has been taken and has not acted. -/
def pendingEnd (s : State) (req : Nat) : Bool :=
  s.adm.taken.any (fun t => t.ok && t.req == req && (fld t.desc 0 4 == 2 || fld t.desc 0 4 == 3) &&
    fld t.desc 96 64 == (recOf s req).seq.toNat)

end Sys2Proof.Machine
end

