-- ==== Sys2Proof/Machine/Serve.lean ====
section
/-!
DEFINITION. Request descriptors and token reports (R257 to R267, R278, R285 to R290, R483): the commands NEW, CANCEL,
PAUSE, RESUME, REPIN, PFXDROP and TOKEN_REPORT, and HOLD_COMPLETE, RESUME_COMPLETE and HOLD_EXPIRY.
-/

namespace Sys2Proof.Machine

/-! ### Fields of a descriptor (Table SERVE-1) -/

/-- KIND. -/
def dKind (d : Desc) : Nat := fld d 0 4
/-- PART. -/
def dPart (d : Desc) : Part := Fin.ofNat 16 (fld d 4 4)
/-- STREAM. -/
def dStream (d : Desc) : Bool := bitAt d 8
/-- SPEC. -/
def dSpec (d : Desc) : Bool := bitAt d 9
/-- CHUNK. -/
def dChunk (d : Desc) : Bool := bitAt d 10
/-- FORK. -/
def dFork (d : Desc) : Bool := bitAt d 11
/-- GRAD. -/
def dGrad (d : Desc) : Bool := bitAt d 12
/-- SLOT. -/
def dSlot (d : Desc) : Nat := fld d 16 16
/-- SEQ. -/
def dSeq (d : Desc) : BitVec 64 := BitVec.ofNat 64 (fld d 32 64)
/-- REF. -/
def dRef (d : Desc) : BitVec 64 := BitVec.ofNat 64 (fld d 96 64)
/-- NTOK. -/
def dNtok (d : Desc) : Nat := fld d 160 21
/-- MAXNEW. -/
def dMaxnew (d : Desc) : Nat := fld d 192 16
/-- WIN. -/
def dWin (d : Desc) : Nat := fld d 208 5
/-- TOPK. -/
def dTopk (d : Desc) : Nat := fld d 216 8
/-- RING. -/
def dRing (d : Desc) : Nat := fld d 224 14
/-- PFX. -/
def dPfx (d : Desc) : Nat := fld d 240 16
/-- PRES. -/
def dPres (d : Desc) : F32 := BitVec.ofNat 32 (fld d 256 32)
/-- FREQ. -/
def dFreq (d : Desc) : F32 := BitVec.ofNat 32 (fld d 288 32)
/-- MULT. -/
def dMult (d : Desc) : F32 := BitVec.ofNat 32 (fld d 320 32)
/-- TTL. -/
def dTtl (d : Desc) : Nat := fld d 352 11

/-- Reserved bits that are set. -/
def dReserved (d : Desc) : Bool :=
  fld d 13 3 != 0 || fld d 181 11 != 0 || fld d 213 3 != 0 || fld d 238 2 != 0 || fld d 363 149 != 0

/-- A field of a NEW lies outside Table SERVE-1, or another case of R260 holds, the free record aside. -/
def newBounds (s : State) (d : Desc) : Bool :=
  let q := s.parts[dPart d]
  let seq := (dSeq d).toNat
  dReserved d || decide (seq = 0 ∨ seq = 2 ^ 64 - 1) || decide (dNtok d = 0 ∨ 1048575 < dNtok d)
    || decide (65534 < dMaxnew d) || decide (dWin d = 0 ∨ 16 < dWin d) || decide (q.force.topkMax < dTopk d)
    || decide (254 < dTopk d) || dPfx d == 65535 || !f32Finite (dPres d) || !f32Finite (dFreq d) || !f32Finite (dMult d)
    || !f32Lt 0 (dMult d) || decide (1440 < dTtl d)
    || (dSlot d != Config.baseOnly && !slotIn q (dSlot d))
    || (dMaxnew d == 0 && dTopk d != 0) || (dGrad d && dMaxnew d != 0) || (!dSpec d && dWin d != 1)
    || (dStream d && (decide (dRing d < q.win.ringBase ∨ q.win.ringBase + q.win.ringCount ≤ dRing d)
          || s.recs.any (fun e => e.2.st != .free && e.2.ringEn && e.2.ring == dRing d)
          || (tabGet {} s.rings (dRing d)).log2n == 0))

/-! ### Answers (R279) -/

/-- An answer to a descriptor. -/
def answerOf (d : Desc) (st : AnsStatus) : ResEntry := { part := dPart d, status := st, seq := dSeq d }

/-- An answer for the batch of the step for which its descriptor was taken. -/
def putAnswer (late : Bool) (f : FaceIx) (e : ResEntry) (s : State) : State :=
  modFace f (fun x => if late then { x with answersLater := x.answersLater ++ [e] }
    else { x with answers := x.answers ++ [e] }) s

/-- The place that the next answer takes among those of its face and step. -/
def answerPlace (late : Bool) (f : FaceIx) (s : State) : Nat :=
  if late then s.faces[f].answersLater.length else s.faces[f].answers.length

/-- The answer to a taken descriptor changed at its boundary, where it stands among the answers of the step that opens (R287,
R288, R290). A chip that only took the descriptor over has no answer to change. -/
def patchAnswer (t : Taken) (g : ResEntry → ResEntry) (s : State) : State :=
  match t.ans with
  | some i => modFace t.face (fun x => { x with answers := x.answers.zipIdx.map (fun e => if e.2 = i then g e.1 else e.1) }) s
  | none => s

/-! ### What each kind does when it is taken (Table SERVE-2) -/

/-- A NEW accepted: its record and its completion record. Every request begins on the P-face, whichever face took its
descriptor, so that the chips of a slice hold the same record (log entry 72). -/
def makeRequest (late : Bool) (d : Desc) (req : Nat) (s : State) : State :=
  let p := dPart d
  let r : ReqRec :=
    { st := .queued, part := p, stream := dStream d, spec := dSpec d, chunk := dChunk d, grad := dGrad d, face := 0,
      slot := dSlot d, ring := if dStream d then dRing d else 0, ringEn := dStream d, seq := dSeq d, pleft := dNtok d,
      maxNew := dMaxnew d, win := dWin d, plist := listAddr req, ctab := ctabAddr req, topk := dTopk d,
      pres := dPres d, freq := dFreq d, mult := dMult d, takenFor := takenStep late s }
  let s := { s with recs := tabSet {} s.recs req r }
  let s := modPart p (fun q => { q with ctabs := tabSet {} q.ctabs req {}, plists := tabSet {} q.plists (listAddr req) {} }) s
  setCompl p { seq := dSeq d, req, st := .live, when_ := s.mc.step } s

/-- NEW (R260, R278). -/
def takeNew (late : Bool) (d : Desc) (s : State) : ResEntry × Nat × Nat × State :=
  let p := dPart d
  let q := s.parts[p]
  if (dSeq d).toNat + 2 ^ 20 ≤ q.seqHigh.toNat then (answerOf d .staleSeq, 0, 0, s) else
  match complOf q (dSeq d) with
  | some c =>
    ({ answerOf d .dup with cstate := c.st, newDone := c.newDone, outcrc := c.outcrc, req := c.req,
                            aux := if c.st = .held then c.when_ else 0 }, 0, 0,
     modPart p (fun q => { q with counted := { q.counted with dup := q.counted.dup + 1 } }) s)
  | none =>
    if newBounds s d then (answerOf d .bounds, 0, 0, s) else
    let parent := liveReq s p (dRef d)
    let forkOk := match parent with | some r => decide ((recOf s r).st = .running) | none => false
    if dFork d && !forkOk then (answerOf d .state, 0, 0, s) else
    if dPfx d ≠ 0 ∧ tabGet 0 q.handles (dPfx d) = 0 then (answerOf d .state, 0, 0, s) else
    match freeReq s q with
    | none => (answerOf d .bounds, 0, 0, s)
    | some req => ({ answerOf d .ok with req }, req, 0, makeRequest late d req s)

/-- More than one chip in the slice. -/
def manyChips (s : State) : Bool := match s.plane.plan with | some p => decide (1 < p.dim.1 * p.dim.2.1 * p.dim.2.2) | none => false

/-- A CANCEL or PAUSE that comes after the close withdraws a candidate whose report came after the close (R275). In a slice of
many chips it does not: the others learn of the descriptor only with the next step's admission input, and every chip builds the
same batch (R269; log entry 133). -/
def withdrawLate (req : Nat) (s : State) : State :=
  let late := match admOf s req with | some a => a.lateRep | none => false
  if s.adm.closed ∧ late = true ∧ manyChips s = false then
    { s with adm := { s.adm with next := s.adm.next.map (fun a => if a.req = req then { a with akind := 4 } else a) } }
  else s

/-- A RESUME or CANCEL of the held request with a SEQ has been taken and has not acted. -/
def holdBusy (s : State) (p : Part) (seq : BitVec 64) : Bool :=
  s.adm.taken.any (fun t => t.ok && dPart t.desc == p &&
    ((dKind t.desc == 4 && dSeq t.desc == seq) || (dKind t.desc == 2 && dRef t.desc == seq)))

/-- CANCEL (R285, R286). Taken for the next step it cancels the request in the running one, until action 4. -/
def takeCancel (past : Bool) (d : Desc) (s : State) : ResEntry × Nat × Nat × State :=
  let p := dPart d
  match complOf s.parts[p] (dRef d) with
  | some c =>
    if c.st = .live then
      match liveReq s p (dRef d) with
      | some req =>
        let st := (recOf s req).st
        if (st = .queued ∨ st = .running) ∧ pendingEnd s req = false then
          let s := withdrawLate req s
          let s := if past = false ∧ s.run.acted < 4 then modAdm req (fun a => { a with cancelled := true }) s else s
          ({ answerOf d .ok with req }, req, 0, s)
        else ({ answerOf d .state with req }, 0, 0, s)
      | none => (answerOf d .state, 0, 0, s)
    else if c.st = .held then
      let h := fld c.when_ 0 16
      if (holdOf s.parts[p] h).st = .held ∧ (holdOf s.parts[p] h).cancelled = false ∧ holdBusy s p (dRef d) = false then
        (answerOf d .ok, 0, h, s)
      else (answerOf d .state, 0, 0, s)
    else if c.st = .cancelled ∨ c.byCancel = true then (answerOf d .state, 0, 0, s)
    else (answerOf d .unknown, 0, 0, s)
  | none => (answerOf d .unknown, 0, 0, s)

/-- PAUSE (R288, R289). -/
def takePause (d : Desc) (s : State) : ResEntry × Nat × Nat × State :=
  let p := dPart d
  let q := s.parts[p]
  if q.force.ttlMax < dTtl d then (answerOf d .bounds, 0, 0, s) else
  match liveReq s p (dRef d) with
  | none => (answerOf d .state, 0, 0, s)
  | some req =>
    let r := recOf s req
    let prefill := match admOf s req with | some a => !a.decode | none => false
    if r.st ≠ .running ∨ r.pleft ≠ 0 ∨ prefill = true ∨ pendingEnd s req = true then (answerOf d .state, 0, 0, s) else
    match freeHold q with
    | none => (answerOf d .bounds, 0, 0, s)
    | some h =>
      let ttl := if dTtl d = 0 then q.force.ttlDef else dTtl d
      ({ answerOf d .ok with req }, req, h, withdrawLate req (modHold p h (fun x => { x with st := .reserved, req, ttl }) s))

/-- RESUME (R290): the record is taken at once; the hold's expiry is looked at when the step opens. -/
def takeResume (late : Bool) (d : Desc) (s : State) : ResEntry × Nat × Nat × State :=
  let p := dPart d
  let q := s.parts[p]
  let h := fld (dRef d) 0 16
  let x := holdOf q h
  let busy := holdBusy s p (dSeq d)
  if x.st ≠ .held ∨ handleOf h x ≠ dRef d ∨ x.seq ≠ dSeq d ∨ busy = true then
    match complOf q (dSeq d) with
    | some c => (answerOf d (if c.st = .expired ∨ (x.st = .ended ∧ x.seq = dSeq d) then .expired else .state), 0, 0, s)
    | none => (answerOf d .state, 0, 0, s)
  else match freeReq s q with
    | none => (answerOf d .state, 0, 0, s)
    | some req =>
      let r : ReqRec := { st := .resuming, part := p, slot := x.slot, version := x.version, seq := dSeq d,
                          plist := listAddr req, ctab := ctabAddr req, takenFor := takenStep late s, fromHold := some (dRef d).toNat }
      let s := { s with recs := tabSet {} s.recs req r }
      let c : Compl := { seq := dSeq d, req, st := .live, newDone := x.newDone, outcrc := x.outcrc, when_ := s.mc.step }
      ({ answerOf d .ok with req }, req, h, setCompl p c s)

/-- REPIN (R287, R278). -/
def takeRepin (late : Bool) (d : Desc) (s : State) : ResEntry × Nat × Nat × State :=
  match liveReq s (dPart d) (dRef d) with
  | none => (answerOf d .state, 0, 0, s)
  | some req =>
    let again := s.adm.taken.any (fun t => t.ok && t.req == req && dKind t.desc == 5 && t.step == takenStep late s)
    if (recOf s req).st ≠ .running ∨ again = true then (answerOf d .state, 0, 0, s)
    else ({ answerOf d .ok with req }, req, 0, s)

/-- PFXDROP (Table SERVE-2). -/
def takePfxdrop (d : Desc) (s : State) : ResEntry × Nat × Nat × State :=
  let p := dPart d
  let again := s.adm.taken.any (fun t => t.ok && dPart t.desc == p && dKind t.desc == 6 && dPfx t.desc == dPfx d)
  if dPfx d = 0 ∨ tabGet 0 s.parts[p].handles (dPfx d) = 0 ∨ again = true then (answerOf d .state, 0, 0, s)
  else (answerOf d .ok, 0, 0, s)

/-- A descriptor taken, by its kind. -/
def takeKind (late : Bool) (d : Desc) (s : State) : ResEntry × Nat × Nat × State :=
  if dKind d = 1 then takeNew late d s
  else if dKind d = 2 then takeCancel late d s
  else if dKind d = 3 then takePause d s
  else if dKind d = 4 then takeResume late d s
  else if dKind d = 5 then takeRepin late d s
  else takePfxdrop d s

/-- What refuses a descriptor of a kind other than NEW: an all-ones length, count or size (R10), and a SEQ outside Table
SERVE-1, which could not be answered under its number (log entry 134). Its reserved bits have no effect (R9). -/
def descBounds (d : Desc) : Bool :=
  decide ((dSeq d).toNat = 0 ∨ (dSeq d).toNat = 2 ^ 64 - 1) || dNtok d == 0x1FFFFF || dMaxnew d == 0xFFFF || dWin d == 0x1F ||
    dTopk d == 0xFF

/-- A descriptor taken for a step: carried out as far as taking goes, answered, queued for its boundary, and remembered
for the other chips of the slice (R268). `own`: a face of this chip took it; `late`: it came after the close. -/
def takeDesc (own late : Bool) (f : FaceIx) (d : Desc) (s : State) : State :=
  let p := dPart d
  let r := if dKind d ≠ 1 ∧ descBounds d = true then (answerOf d .bounds, 0, 0, s) else takeKind late d s
  let ok := r.1.status = .ok
  let t : Taken :=
    { step := takenStep late s, face := f, desc := d, ok := decide ok, req := r.2.1, hold := r.2.2.1,
      ans := if own then some (answerPlace late f s) else none }
  let s' := modPart p (fun q => { q with seqHigh := if q.seqHigh.toNat < (dSeq d).toNat ∧ (dSeq d).toNat < 2 ^ 64 - 1 then dSeq d else q.seqHigh }) r.2.2.2
  let s' := { s' with adm := { s'.adm with taken := s'.adm.taken ++ [t] } }
  if own = false then s' else
  let s' := putAnswer late f r.1 s'
  if ok ∨ r.1.status = .dup then
    raiseInt (facePage f) 2 <| raiseInt (pmPage p) 5 <| modPart p (fun q => if late then { q with dqLater := vmod q.dqLater f (· + 1) }
      else { q with dqFill := vmod q.dqFill f (· + 1) }) s'
  else send (.credit f p) (modPart p (fun q => { q with dqCred := vmod q.dqCred f (· + 1) }) s')

/-- This chip takes descriptors: it belongs to a slice and is its admitting chip (R257, R268). -/
def admits (s : State) : Bool := s.plane.plan.isSome && s.mc.admitter

/-- A descriptor arrives in a partition's queue on a face (R257, R483, R374, R417): refused PART in another partition's queue,
STATE on another chip than the admitting one, for a partition that is not KEYED and from the acceptance of a PRESET, BOUNDS without
a credit. A refusal is counted for the queue, and its credit goes back at once. -/
def recvDesc (kind : Nat) (f : FaceIx) (queue : Part) (d : Desc) (s : State) : State :=
  let q := s.parts[queue]
  let refuse := fun (st : AnsStatus) =>
    let t := modPart queue (fun q => { q with dqRefused := vmod q.dqRefused f (fun n => satAdd cnt16Max n 1) })
      (putAnswer (pastClose s) f (answerOf d st) s)
    if q.dqCred[f] = 0 then t else send (.credit f queue) t
  if dKind d ≠ kind then s
  else if dPart d ≠ queue then refuse .part
  else if admits s = false ∨ q.st ≠ .keyed ∨ q.presetPend ≠ none then refuse .state
  else if q.dqCred[f] = 0 then refuse .bounds
  else takeDesc true (pastClose s) f d (modPart queue (fun q => { q with dqCred := vmod q.dqCred f (· - 1) }) s)

/-! ### At the boundary that opens the step (R261) -/

/-- The page list of a request copied from another list, its pages shared (R182, Table RCC-8). -/
def shareList (p : Part) (src dst : Nat) (s : State) : State :=
  let l := pageList s.parts[p] src
  let s := modPart p (fun q => { q with plists := tabSet {} q.plists dst l }) s
  (namedPages l).foldl (fun s e => modDesc p e.1 (fun x => { x with ref := x.ref + 1 }) s) s

/-- A pin moved to the PUBLISHED record; refused when the slot is not RESIDENT (R287). -/
def repinAct (t : Taken) (s : State) : State :=
  let r := recOf s t.req
  let v := pinVersion s r.slot
  if r.st ≠ .running ∨ r.seq ≠ dRef t.desc ∨ v = 0 then patchAnswer t (fun e => { e with status := .state }) s
  else modReq t.req (fun r => { r with version := v }) (modPins r.slot v (· + 1) (modPins r.slot r.version (· - 1) s))

/-- A PAUSE acts: the record PAUSING, the hold MOVING, the handle in the answer (R288). The expiry counts from this
boundary (log entry 33). -/
def pauseAct (t : Taken) (s : State) : State :=
  let p := dPart t.desc
  let r := recOf s t.req
  let h := holdOf s.parts[p] t.hold
  if r.st ≠ .running ∨ r.seq ≠ dRef t.desc then
    patchAnswer t (fun e => { e with status := .state }) (modHold p t.hold (fun x => { x with st := .free, req := 0, ttl := 0 }) s)
  else
    let x : Hold := { h with
      st := .moving, seq := r.seq, slot := r.slot, version := r.version, expiry := s.mc.tick.toNat + h.ttl * 60000000000,
      ctr := BitVec.ofNat 32 s.sec.imgCtr, req := t.req, newDone := r.newDone % 65536, outcrc := r.outcrc }
    patchAnswer t (fun e => { e with aux := handleOf t.hold x })
      (modReq t.req (fun r => { r with st := .pausing }) (modHold p t.hold (fun _ => x) s))

/-- A RESUME acts when its hold has not expired (R290). -/
def resumeAct (t : Taken) (s : State) : State :=
  let p := dPart t.desc
  let h := holdOf s.parts[p] t.hold
  if h.st = .held ∧ s.mc.tick.toNat ≤ h.expiry then
    let s := modHold p t.hold (fun x => { x with st := .restoring, req := t.req }) s
    modPart p (fun q => { q with plists := tabSet {} q.plists (listAddr t.req) h.pages }) s
  else
    let s := { s with recs := tabSet {} s.recs t.req {} }
    let s := match complOf s.parts[p] (dSeq t.desc) with
      | some c => if c.st = .live then setCompl p { c with req := 0, st := .held, when_ := dRef t.desc } s else s
      | none => s
    patchAnswer t (fun e => { e with status := .expired }) s

/-- A CANCEL acts: a QUEUED request ends, a hold is made to expire; a RUNNING request ends at action 5 (R285, R286). -/
def cancelAct (t : Taken) (s : State) : State :=
  let p := dPart t.desc
  let r := recOf s t.req
  if r.st = .queued ∧ r.seq = dRef t.desc then
    setCompl p { seq := r.seq, req := t.req, st := .cancelled, when_ := s.mc.step } { s with recs := tabSet {} s.recs t.req {} }
  else match complOf s.parts[p] (dRef t.desc) with
    | some c => if c.st = .held then modHold p t.hold (fun x => { x with expiry := 0, cancelled := true }) s else s
    | none => s

/-- A handle's references released (Table SERVE-2). -/
def pfxAct (t : Taken) (s : State) : State :=
  let p := dPart t.desc
  let a := tabGet 0 s.parts[p].handles (dPfx t.desc)
  let s := (namedPages (pageList s.parts[p] a)).foldl (fun s e => dropRef p e.1 s) s
  modPart p (fun q => { q with handles := tabSet 0 q.handles (dPfx t.desc) 0, plists := tabSet {} q.plists a {} }) s

/-- A NEW acts: the list it starts from is copied and shared (Table SERVE-1, FORK and PFX). -/
def newAct (t : Taken) (s : State) : State :=
  let p := dPart t.desc
  if dFork t.desc then
    match liveReq s p (dRef t.desc) with
    | some r => shareList p (recOf s r).plist (listAddr t.req) s
    | none => s
  else if dPfx t.desc ≠ 0 then shareList p (tabGet 0 s.parts[p].handles (dPfx t.desc)) (listAddr t.req) s
  else s

/-- A taken descriptor acts at its boundary. -/
def actDesc (t : Taken) (s : State) : State :=
  if t.ok = false then s
  else if dKind t.desc = 1 then newAct t s
  else if dKind t.desc = 2 then cancelAct t s
  else if dKind t.desc = 3 then pauseAct t s
  else if dKind t.desc = 4 then resumeAct t s
  else if dKind t.desc = 6 then pfxAct t s
  else s

/-- A CANCEL that waits for the end of its request at action 5. -/
def waitsEnd (s : State) (t : Taken) : Bool :=
  t.ok && dKind t.desc == 2 && (recOf s t.req).st == .running && (recOf s t.req).seq == dRef t.desc

/-- The descriptors taken for the step that opens act: re-pins first, so that a hold keeps the new pin (R300), then the
others in the order taken; credits return (R483). -/
def actTaken (step : BitVec 64) (s : State) : State :=
  let now := s.adm.taken.filter (fun t => decide (t.step.toNat ≤ step.toNat))
  let s := now.foldl (fun s t => if t.ok ∧ dKind t.desc = 5 then repinAct t s else s) s
  let s := now.foldl (fun s t => actDesc t s) s
  let s := (List.finRange 16).foldl (fun s p => (List.finRange 2).foldl (fun s f =>
    let n := s.parts[p].dqFill[f]
    let s := (List.replicate n ()).foldl (fun s _ => send (.credit f p) s) s
    modPart p (fun q => { q with dqCred := vmod q.dqCred f (· + n), dqFill := vset q.dqFill f.val q.dqLater[f],
                                 dqLater := vset q.dqLater f.val 0 }) s) s) s
  { s with adm := { s.adm with taken := s.adm.taken.filter (fun t => decide (step.toNat < t.step.toNat) || waitsEnd s t) } }

/-! ### Token reports (R266, R267) -/

/-- REQ. -/
def tReq (r : TokenReport) : Nat := fld r.hdr 0 18
/-- PART. -/
def tPart (r : TokenReport) : Nat := fld r.hdr 18 4
/-- K. -/
def tK (r : TokenReport) : Nat := fld r.hdr 22 5
/-- END. -/
def tEnd (r : TokenReport) : Bool := bitAt r.hdr 27
/-- NNEXT. -/
def tNnext (r : TokenReport) : Nat := fld r.hdr 28 5
/-- R0C. -/
def tR0c (r : TokenReport) : Bool := bitAt r.hdr 33
/-- STEP_LO. -/
def tStep (r : TokenReport) : Word := BitVec.ofNat 32 (fld r.hdr 64 32)
/-- C. -/
def tC (r : TokenReport) : Word := BitVec.ofNat 32 (fld r.hdr 96 32)

/-- The rows that a report confirms. K has 5 bits: of more than 31 rows it gives the low 5 bits (log entry 34). -/
def confirmed (rows : Nat) (r : TokenReport) : Nat := if 31 < rows ∧ tK r = rows % 32 then rows else tK r

/-- D of R282: the confirmed drafts beyond a row 0 that carried the previous C. -/
def draftCount (q : ReqRec) (a : Adm) (r : TokenReport) : Nat :=
  if q.spec ∧ a.decode then confirmed a.rows r - b2n (tR0c r) else 0

/-- A report for a generating request passes the checks of R267. -/
def reportOk (s : State) (a : Adm) (r : TokenReport) : Bool :=
  let q := recOf s a.req
  let k := confirmed a.rows r
  let continues := !tEnd r && decide (q.newDone + draftCount q a r + 1 < q.maxNew)
  tPart r == q.part.val && decide (k ≤ a.rows) && (q.spec || k == a.rows) && tStep r == s.mc.step.setWidth 32 && a.gen
    && (!continues || tNnext r == q.win) && !(tR0c r && k == 0) && !(tR0c r && !a.decode)

/-- TOKEN_REPORT: a repeat is discarded, a report of a void step ignored, a report that fails a check answered. -/
def takeReport (f : FaceIx) (r : TokenReport) (s : State) : State :=
  let step := s.mc.step.setWidth 32
  let again := (s.adm.reps.contains (tReq r) && tStep r == step) || (s.adm.prevReps.contains (tReq r) && tStep r == step - 1)
  let refuse := modFace f (fun x => { x with refusals := x.refusals ++
    [{ req := tReq r, part := tPart r, status := .bounds, seq := (recOf s (tReq r)).seq }] }) s
  if again ∨ s.run.void ≠ 0 then s else
  match s.run.isOpen, admOf s (tReq r) with
  | true, some a =>
    if reportOk s a r ∧ s.run.acted < 4 then
      let s := modAdm (tReq r) (fun a => { a with report := some r, lateRep := s.adm.closed }) s
      raiseInt (facePage f) 2 { s with adm := { s.adm with reps := s.adm.reps ++ [tReq r] } }
    else refuse
  | _, _ => refuse

/-! ### Winter hold (R288 to R290) -/

/-- A hold's moves have ended: the record and count table are sealed into the cold tier and the record is freed. The cold
offset is firmware's choice, a free value (log entry 1). -/
def holdComplete (p : Part) (i : Nat) (s : State) : State :=
  let q := s.parts[p]
  let h := holdOf q i
  let l := reqList s h.req
  let moved := (namedPages l).all (fun e => let x := pdesc q e.1; x.st == 2 || (x.st == 1 && decide (1 < x.ref)))
  if h.st ≠ .moving ∨ moved = false then s else
  let r := recOf s h.req
  let c := ctabOf s h.req
  let cold := 64 * (Config.free 42 s.freeIx).toNat
  let obj := sealObject q p 2 i h.gen cold (recBytes { r with tailn := r.nextToks.length } ++ ctabBytes { c with tail := r.nextToks })
  let s := send (.cold p cold obj) { s with freeIx := s.freeIx + 1 }
  let s := modHold p i (fun x => { x with st := .held, cold, len := obj.length, pages := l }) s
  let s := modPart p (fun q => { q with ctabs := tabSet {} q.ctabs h.req {}, plists := tabSet {} q.plists r.plist {} }) s
  { s with recs := tabSet {} s.recs h.req {} }

/-- A resume's pages and count table are back: the record runs and the hold entry is released. When the sealed record
fails its trailer the hold stays as it was and the record is freed (R384; log entry 35). -/
def resumeComplete (p : Part) (i : Nat) (object : List Byte) (s : State) : State :=
  let q := s.parts[p]
  let h := holdOf q i
  if h.st ≠ .restoring ∨ (namedPages h.pages).any (fun e => (pdesc q e.1).st == 3) = true then s else
  match openObject q p 2 i h.gen h.cold object with
  | some plain =>
    let old := recOf s h.req
    let r := recFrom plain { old with st := .running }
    let c := ctabFrom (plain.drop 128) (leAt plain 0 128 >>> 186 % 32)
    let s := { s with recs := tabSet {} s.recs h.req { r with nextToks := c.tail, tailn := 0 } }
    let s := modCtab p h.req (fun _ => { c with tail := [] }) s
    modHold p i (fun x => { st := .free, gen := (x.gen + 1) % 65536 }) s
  | none =>
    let s := setCompl p { seq := h.seq, st := .held, newDone := h.newDone, outcrc := h.outcrc, when_ := handleOf i h } s
    let s := { s with recs := tabSet {} s.recs h.req {} }
    report "INTEGRITY" (modHold p i (fun x => { x with st := .held, req := 0 }) s)

/-- A hold expires: its held pages are wiped, its shared pages released, its sealed record wiped (R289). The pin falls at
action 5. -/
def holdExpire (p : Part) (i : Nat) (s : State) : State :=
  let h := holdOf s.parts[p] i
  if h.st ≠ .held ∨ s.run.isOpen = false ∨ s.run.openTick ≤ h.expiry then s else
  let s := (namedPages h.pages).foldl (fun s e =>
    if (pdesc s.parts[p] e.1).st = 2 then releasePage p e.1 s else dropRef p e.1 s) s
  let s := send (.coldWipe p h.cold h.len) s
  modHold p i (fun x => { x with st := .ended, pages := {}, gen := (x.gen + 1) % 65536 }) s

/-! ### The commands -/

/-- What a descriptor, a report or a hold event may change. -/
def footServe (s t : State) : State :=
  { s with out := t.out, freeIx := t.freeIx, regs := t.regs, hbm := t.hbm, recs := t.recs, parts := t.parts, faces := t.faces,
           run := t.run, adm := t.adm, err := t.err }

/-- NEW (R260). -/
def execNew (face : FaceIx) (queue : Part) (d : Desc) (s : State) : Host.Outcome State Fault Refusal :=
  .next (footServe s (recvDesc 1 face queue d s))

/-- CANCEL (R285). -/
def execCancel (face : FaceIx) (queue : Part) (d : Desc) (s : State) : Host.Outcome State Fault Refusal :=
  .next (footServe s (recvDesc 2 face queue d s))

/-- PAUSE (R288). -/
def execPause (face : FaceIx) (queue : Part) (d : Desc) (s : State) : Host.Outcome State Fault Refusal :=
  .next (footServe s (recvDesc 3 face queue d s))

/-- RESUME (R290). -/
def execResume (face : FaceIx) (queue : Part) (d : Desc) (s : State) : Host.Outcome State Fault Refusal :=
  .next (footServe s (recvDesc 4 face queue d s))

/-- REPIN (R287). -/
def execRepin (face : FaceIx) (queue : Part) (d : Desc) (s : State) : Host.Outcome State Fault Refusal :=
  .next (footServe s (recvDesc 5 face queue d s))

/-- PFXDROP (R259). -/
def execPfxdrop (face : FaceIx) (queue : Part) (d : Desc) (s : State) : Host.Outcome State Fault Refusal :=
  .next (footServe s (recvDesc 6 face queue d s))

/-- TOKEN_REPORT (R267). -/
def execTokenReport (face : FaceIx) (r : TokenReport) (s : State) : Host.Outcome State Fault Refusal :=
  .next (footServe s (takeReport face r s))

/-- HOLD_COMPLETE (R288). -/
def execHoldComplete (part : Part) (index : Fin 65536) (s : State) : Host.Outcome State Fault Refusal :=
  .next (footServe s (holdComplete part index.val s))

/-- RESUME_COMPLETE (R290). -/
def execResumeComplete (part : Part) (index : Fin 65536) (object : List Byte) (s : State) : Host.Outcome State Fault Refusal :=
  .next (footServe s (resumeComplete part index.val object s))

/-- HOLD_EXPIRY (R289). -/
def execHoldExpiry (part : Part) (index : Fin 65536) (s : State) : Host.Outcome State Fault Refusal :=
  .next (footServe s (holdExpire part index.val s))

end Sys2Proof.Machine
end

