-- ==== Sys2Proof/Machine/Admit.lean ====
section
/-!
DEFINITION. Admission (R268 to R276): candidates, the admission procedure, the admission input of other chips, and the
commands ADMISSION_CLOSE and ADMIT_MSG.
-/

namespace Sys2Proof.Machine

/-! ### Candidates (R270) -/

/-- The accepted report ends its request: END, or NEWDONE reaches MAXNEW (R267, R300). -/
def reportEnds (q : ReqRec) (a : Adm) (r : TokenReport) : Bool := tEnd r || decide (q.maxNew ≤ q.newDone + draftCount q a r + 1)

/-- The request ends with the running step, as far as is known. -/
def endsNow (s : State) (req : Nat) : Bool :=
  match admOf s req with
  | none => false
  | some a =>
    if a.akind = 3 then false else
    a.cancelled || (a.prefillEnd && !a.gen) ||
      (match a.report with | some r => a.gen && reportEnds (recOf s req) a r | none => false)

/-- A record may be a candidate for the step that the next boundary opens; with a PRESET of its partition accepted it is none
(R417). -/
def mayRun (s : State) (req : Nat) : Bool :=
  let r := recOf s req
  !pendingEnd s req && !endsNow s req && s.parts[r.part].presetPend.isNone && (!r.ringEn || decide (2 ≤ ringRoom (tabGet {} s.rings r.ring)))

/-- Requests with a key, ordered by it. -/
def byKey (l : List (Nat × Nat)) : List Nat := (l.mergeSort (fun a b => decide (a.1 ≤ b.1))).map Prod.snd

/-- The class of a candidate (ORIGIN of Table PLANE-18) and its order within the class: the next chunk of a prefill that a
budget cut heads class 1 (Table SERVE-15). -/
def candClass (s : State) (r : ReqRec) : Option (Nat × Nat) :=
  if r.st = .running then
    match r.notRun, r.fromHold with
    | some i, _ => some (0, i)
    | none, none => some (1, if r.split then r.admNo else 2 ^ 32 + r.admNo)
    | none, some h => some (2, h)
  else if r.st = .queued ∧ r.takenFor.toNat ≤ (nextStep s).toNat then some (3, r.seq.toNat)
  else none

/-- The candidates of a partition in the order of R270, each with its class. -/
def candidates (s : State) (p : Part) : List (Nat × Nat) :=
  let mine := s.recs.filterMap (fun e => if e.2.part = p ∧ mayRun s e.1 = true then (candClass s e.2).map (fun c => (e.1, c)) else none)
  (List.range 4).flatMap (fun k =>
    (byKey (mine.filterMap (fun x => if x.2.1 = k then some (x.2.2, x.1) else none))).map (fun r => (r, k)))

/-! ### The procedure (R271 to R274) -/

/-- The work of the admission procedure. -/
structure AdmWork where
  /-- list[p]. -/
  lists : Vector (List Nat) 16
  /-- stopped[p]. -/
  stopped : Vector Bool 16
  /-- step_left[p]. -/
  stepLeft : Vector Nat 16
  /-- win_left[p]. -/
  winLeft : Vector Nat 16
  /-- rows. -/
  rows : Nat
  /-- entries[f]. -/
  entries : Vector Nat 2
  /-- Tags of the candidates admitted, with their drop code and their rows. -/
  tags : List ((RowTag × Nat) × Nat)
  /-- The candidates admitted. -/
  adms : List Adm

/-- Rows that a candidate asks for (R271). -/
def rowsAsked (q : ReqRec) (chunkMax stepLeft winLeft : Nat) : Nat :=
  if q.pleft = 0 then q.win
  else if q.chunk then min (min q.pleft chunkMax) (min stepLeft winLeft)
  else q.pleft

/-- FACE of the candidate's record in the step for which it is a candidate (R271, R272). -/
def candFace (s : State) (req : Nat) : FaceIx :=
  match admOf s req with
  | some a => if a.prefillEnd ∧ a.gen = true ∧ a.akind ≠ 3 then 1 else (recOf s req).face
  | none => (recOf s req).face

/-- The row tag of a candidate as far as it is known at the close, with its drop code. -/
def candTag (s : State) (req : Nat) : RowTag × Nat :=
  let q := recOf s req
  let t := mkTag q.slot (if q.st = .running then q.version else pinVersion s q.slot) q.part.val req true q.grad
  (t, dropFirst s [(req, some (tagSlot t, tagVersion t, true))] t)

/-- Segments of weighted tags: those of the batch that they stand for. -/
def weighSegs (s : State) (l : List ((RowTag × Nat) × Nat)) : List Seg :=
  (pairsOf (l.map Prod.fst)).map (fun k =>
    let e := slotOf s (k / 65536)
    { slot := k / 65536, part := e.part, version := k % 65536, rank := e.rank,
      count := ((l.filter (fun x => adapted x.1.1 x.1.2 && pairKey x.1.1 == k)).map Prod.snd).sum })

/-- fits_program of R273: the fit of R125 for the slot selected for the step, and the caps. An empty slot has no fit to
break (log entry 36). -/
def fitsProgram (s : State) (l : List ((RowTag × Nat) × Nat)) : Bool :=
  (match s.progs[s.seg.pslot] with | some p => fitsPlan p (weighSegs s l) | none => true) &&
    (List.finRange 16).all (fun p =>
      decide ((pairsOf ((l.map Prod.fst).filter (fun x => decide (tagPart x.1 = p)))).length ≤ s.parts[p].force.segCap))

/-- One visit of a partition (R272). CHUNK_MAX and the budgets are those in force (R24), RB_CAP that of the close (R273). -/
def admitVisit (s : State) (w : AdmWork) (p : Part) : AdmWork :=
  if w.stopped[p] then w else
  match w.lists[p] with
  | [] => { w with stopped := vset w.stopped p.val true }
  | req :: rest =>
    let q := recOf s req
    let n := rowsAsked q s.parts[p].force.chunkMax w.stepLeft[p] w.winLeft[p]
    let f := candFace s req
    let tags := w.tags ++ [(candTag s req, n)]
    if n = 0 ∨ w.stepLeft[p] < n ∨ w.winLeft[p] < n ∨ 65536 < w.rows + n ∨ fitsProgram s tags = false ∨
        (q.ringEn = false ∧ s.faces[f].rbCapNext < w.entries[f] + 1) then
      { w with stopped := vset w.stopped p.val true }
    else
      let decode := q.pleft = 0
      let last := ¬ decode ∧ n = q.pleft
      let a : Adm :=
        { req, part := p, face := f, rows := n, akind := if decode then (if q.spec then 2 else 1) else 0, first := w.rows,
          seq := q.seq, decode, gen := decide (decode ∨ (last ∧ 0 < q.maxNew)), prefillEnd := decide last,
          ringEn := q.ringEn, ring := q.ring, split := decide (¬ decode ∧ n < min q.pleft s.parts[p].force.chunkMax ∧ q.chunk) }
      { w with
        lists := vset w.lists p.val rest, stopped := vset w.stopped p.val rest.isEmpty,
        stepLeft := vmod w.stepLeft p (· - n), winLeft := vmod w.winLeft p (· - n), rows := w.rows + n,
        entries := vmod w.entries f (· + 1), tags, adms := w.adms ++ [a] }

/-- win_left of a partition for the next step (R273), by the window in force. -/
def winLeftOf (q : PartSt) : Nat := q.force.tokWin - (q.admHist.take (q.force.winSteps - 1)).sum

/-- The procedure of R272 on lists of candidates: partitions in rotating order, one candidate a visit. -/
def admitAll (s : State) (lists : Vector (List Nat) 16) : List Adm :=
  let p0 := (nextStep s).toNat % 16
  let order := (List.range 16).map (fun i => Fin.ofNat 16 (p0 + i))
  let w : AdmWork :=
    { lists, stopped := lists.map List.isEmpty, stepLeft := Vector.ofFn (fun p => s.parts[p].force.tokStep),
      winLeft := Vector.ofFn (fun p => winLeftOf s.parts[p]),
      rows := 0, entries := Vector.replicate 2 0, tags := [], adms := [] }
  let n := (lists.toList.map List.length).sum + 1
  ((List.replicate n ()).foldl (fun w _ => order.foldl (admitVisit s) w) w).adms

/-! ### The admission input of other chips (R268, R347) -/

/-- Bytes of a candidate entry (Table PLANE-18). ROWS holds 1 to 65,536: rows asked outside that range, which no admission
can meet, are shown as its nearest end (log entry 135). -/
def candBytes (s : State) (p : Part) (x : Nat × Nat) : List Byte :=
  let q := s.parts[p]
  let n := rowsAsked (recOf s x.1) q.force.chunkMax q.force.tokStep (winLeftOf q)
  leBytes 8 (x.1 + put 18 p.val + put 22 (max 1 (min 65536 n)) + put 39 x.2)

/-- Descriptors and candidates cut into messages: at most 8,187 descriptors or 65,500 candidates each (Table PLANE-18). -/
def admitParts (ds : List Desc) (cs : List (List Byte)) : List (List Desc × List (List Byte)) :=
  let d := (chunk 8000 (cdiv ds.length 8000) ds).map (fun l => (l, ([] : List (List Byte))))
  let c := (chunk 60000 (cdiv cs.length 60000) cs).map (fun l => (([] : List Desc), l))
  if d ++ c = [] then [([], [])] else d ++ c

/-- The ADMIT messages of a step flooded by the admitting chip. -/
def floodAdmit (s0 : State) (s : State) : State :=
  let step := nextStep s0
  let ds := (s0.adm.taken.filter (fun t => decide (t.step = step))).map Taken.desc
  let cs := (List.finRange 16).flatMap (fun p => (candidates s0 p).map (candBytes s0 p))
  let ms := admitParts ds cs
  ms.zipIdx.foldl (fun s x =>
    let head := leBytes 32 (step.toNat + put 64 x.1.1.length + put 77 x.1.2.length + put 93 (b2n (x.2 + 1 == ms.length)))
    flood 7 x.2 (head ++ x.1.1.flatMap (fun d => leBytes 64 d.toNat) ++ x.1.2.flatten) s) s

/-- Descriptors and candidates of the ADMIT messages of a step, in ascending MSG. -/
def admitInput (l : List (Nat × Bool × List Byte)) : List Desc × List (Nat × Nat) :=
  let bodies := (byKey (l.zipIdx.map (fun x => (x.1.1, x.2)))).map (fun i => (l.getD i (0, false, [])).2.2)
  bodies.foldl (fun (acc : List Desc × List (Nat × Nat)) b =>
    let h := leAt b 0 32
    let nd := nfld h 64 13
    let nc := nfld h 77 16
    (acc.1 ++ (List.range nd).map (fun i => BitVec.ofNat 512 (leAt b (32 + 64 * i) 64)),
     acc.2 ++ (List.range nc).map (fun i => let c := leAt b (32 + 64 * nd + 8 * i) 8; (nfld c 0 18, nfld c 18 4)))) ([], [])

/-- Every ADMIT of the step from MSG 0 to the one with LAST is held (R347). -/
def admitComplete (l : List (Nat × Bool × List Byte)) : Bool :=
  match l.find? (fun x => x.2.1) with
  | some x => (List.range (x.1 + 1)).all (fun i => l.any (fun y => y.1 == i))
  | none => false

/-- On a chip other than the admitting one, once its admission has closed and the step's input is complete: the descriptors are
taken for the next step and the candidates admitted with the RB_CAP of the close (R268, R273, R347). -/
def settleAdmit (s : State) : State :=
  if admits s ∨ s.adm.closed = false ∨ s.adm.complete = true ∨ admitComplete s.adm.input = false then s else
  let x := admitInput s.adm.input
  let s := x.1.foldl (fun s d => takeDesc false false 0 d s) s
  let lists := Vector.ofFn (fun (p : Fin 16) => (x.2.filter (fun c => c.2 == p.val)).map Prod.fst)
  { s with adm := { s.adm with next := admitAll s lists, complete := true } }

/-- Admission closes: the candidates are fixed, admitted by the procedure, and sent to the other chips (R268, R270). -/
def closeAdmission (s : State) : State :=
  let s := { s with faces := s.faces.map (fun x => { x with rbCapNext := x.rbCap }), adm := { s.adm with closed := true } }
  if admits s then
    let lists := Vector.ofFn (fun p => (candidates s p).map Prod.fst)
    let t := { s with adm := { s.adm with next := admitAll s lists, complete := true } }
    if manyChips s then floodAdmit s t else t
  else settleAdmit { s with adm := { s.adm with complete := s.adm.complete || !manyChips s } }

/-- An ADMIT message of the admitting chip for the next step is kept; its input is used when it is complete (R268, R347). -/
def takeAdmit (m : Msg) (s : State) : State :=
  if admits s ∨ s.adm.complete = true ∨ leAt m.body 0 8 ≠ (nextStep s).toNat then s else
  settleAdmit { s with adm := { s.adm with input := s.adm.input ++ [(mMsg m, nfld (leAt m.body 0 32) 93 1 == 1, m.body)] } }

/-- ADMISSION_CLOSE (R22, R270): the close cycle of the running step, counted as NB from cycle 0, has come. The
candidates depend on whether the step is void (R126), so they are fixed once segmentation has ended (log entry 37). -/
def execAdmissionClose (s : State) : Host.Outcome State Fault Refusal :=
  let go := s.run.isOpen && s.run.segmented && !s.adm.closed && nbReached s (closeCycle s)
  let t := if go then closeAdmission s else s
  .next { footServe s t with ports := t.ports }

/-- ADMIT_MSG (R347). -/
def execAdmitMsg (m : Msg) (s : State) : Host.Outcome State Fault Refusal :=
  let t := takeFlood 7 m (takeAdmit m) s
  .next { footServe s t with ports := t.ports, plane := t.plane, mc := t.mc }

end Sys2Proof.Machine
end

