-- ==== Sys2Proof/Machine/Routes.lean ====
section
/-!
DEFINITION. Routes, cut sets and closure (R358 to R366): the path of a message, the route table, the link events and
what they do at a boundary.
-/

namespace Sys2Proof.Machine

/-! ### Paths (R358, R359, R364) -/

/-- The first hop of the dimension order of a class: Z, Y, X in the normal class, X, Y, Z in the detour class; none at the
destination. -/
def dorHop (det : Bool) (c d : Coord) : Option PortIx :=
  let x : Option PortIx := if cx c < cx d then some 0 else if cx d < cx c then some 1 else none
  let y : Option PortIx := if cy c < cy d then some 2 else if cy d < cy c then some 3 else none
  let z : Option PortIx := if cz c < cz d then some 4 else if cz d < cz c then some 5 else none
  if det then (x.orElse (fun _ => y)).orElse (fun _ => z) else (z.orElse (fun _ => y)).orElse (fun _ => x)

/-- The links of the detour-class route from one chip to another, at most n hops. -/
def detourLinks (d : Coord) : Nat → Coord → List Link
  | 0, _ => []
  | n + 1, c =>
    match dorHop true c d with
    | none => []
    | some p => linkOf c p :: detourLinks d n ((neighCoord c p).getD c)

/-- Hops that suffice for any route of a box, twice over. -/
def maxHops : Nat := 160

/-- The order in which the control core tries ports for an escape (R364). -/
def escapeOrder : List PortIx := [2, 3, 4, 5, 0, 1]

/-- The escape port at chip c toward d: UP, its neighbour in the box, the neighbour's detour route free of cut links. -/
def escapePort (pl : Plan) (cut : List Link) (up : PortIx → Bool) (c d : Coord) : Option PortIx :=
  escapeOrder.find? (fun p => up p && (match boxNeigh pl c p with
    | some n => (detourLinks d maxHops n).all (fun l => !cut.contains l)
    | none => false))

/-- Every in-box link of a chip is in a cut set (R361). -/
def cutChip (pl : Plan) (cut : List Link) (c : Coord) : Bool :=
  let l := (List.finRange 6).filter (fun p => (boxNeigh pl c p).isSome)
  !l.isEmpty && l.all (fun p => cut.contains (linkOf c p))

/-- The entry of a class at chip c toward d (R358, R359). -/
def entryAt (pl : Plan) (cut : List Link) (up : PortIx → Bool) (det : Bool) (c d : Coord) : Nat :=
  if c = d then 6
  else if cutChip pl cut d then 7
  else match dorHop det c d with
    | none => 6
    | some p =>
      if det = false ∧ cut.contains (linkOf c p) = true then
        match escapePort pl cut up c d with
        | some e => e.val + 8
        | none => 7
      else p.val

/-- A port counts as UP, seen from afar, when its link is not in the cut set. -/
def upByCut (cut : List Link) (c : Coord) (p : PortIx) : Bool := !cut.contains (linkOf c p)

/-- The links that a message crosses from c to d, at most n hops; none when it meets an UNREACHABLE entry. -/
def pathLinks (pl : Plan) (cut : List Link) (d : Coord) : Nat → Bool → Coord → Option (List Link)
  | 0, _, _ => none
  | n + 1, det, c =>
    let e := entryAt pl cut (upByCut cut c) det c d
    if e = 6 then some []
    else if h : e % 8 < 6 then
      (pathLinks pl cut d n (det || e / 8 % 2 == 1) ((neighCoord c ⟨e % 8, h⟩).getD c)).map (linkOf c ⟨e % 8, h⟩ :: ·)
    else none

/-- The chips of a box. -/
def boxChips (pl : Plan) : List Coord := (List.range (pl.dim.1 * pl.dim.2.1 * pl.dim.2.2)).map (boxCoord pl)

/-- Some pair of uncut chips has no route (R365). -/
def isSplit (pl : Plan) (cut : List Link) : Bool :=
  let l := (boxChips pl).filter (fun c => !cutChip pl cut c)
  l.any (fun c => l.any (fun d => (pathLinks pl cut d maxHops false c).isNone))

/-- The route tables of this chip (R359); UNREACHABLE entries are not listed. -/
def buildRoutes (s : State) : State :=
  match s.plane.plan with
  | none => s
  | some pl =>
    let up := fun (p : PortIx) => s.ports[p].st == .up
    let tab := fun (det : Bool) => (boxChips pl).zipIdx.foldl (fun (t : Tab Byte) x =>
      tabSet 7 t x.2 (BitVec.ofNat 8 (entryAt pl s.plane.cut up det s.plane.coord x.1))) []
    { s with plane := { s.plane with rtNormal := tab false, rtDetour := tab true } }

/-! ### Link events (R362, R363) -/

/-- The body of a LINKEV (R362). -/
def linkevBody (e : LinkEv) : List Byte :=
  leBytes 32 (e.typ + put 2 e.port.val + put 5 e.reason + put 16 e.src.toNat + put 64 e.origin)

/-- The event that a body holds. -/
def linkevOf (b : List Byte) : LinkEv :=
  let v := leAt b 0 32
  { typ := nfld v 0 2, port := Fin.ofNat 6 (nfld v 2 3), reason := nfld v 5 4, src := BitVec.ofNat 18 (nfld v 16 18),
    origin := nfld v 64 64 }

/-- A change of one of this chip's links: kept, flooded and reported (Table PLANE-13, order 1). -/
def floodLinkev (typ : Nat) (p : PortIx) (reason : Nat) (s : State) : State :=
  if s.plane.plan.isNone then s else
  let e : LinkEv := { typ, port := p, reason, src := s.plane.coord, origin := s.mc.tick.toNat }
  let no := s.plane.linkevNo
  let s := { s with plane := { s.plane with events := s.plane.events ++ [e], linkevNo := no + 1 } }
  report "LINKEV" (raiseInt 6 0 (chipLog 0x0E .event 0 0 p.val reason (flood 0xA no (linkevBody e) s)))

/-- The order in which events apply: ORIGIN, reporter, DOWN after UP. -/
def evKey (e : LinkEv) : List Nat := [e.origin, e.src.toNat, if e.typ = 1 then 0 else 1]

/-- One event applied to the cut set and to the UP events that still lack the other end's. -/
def applyEv (x : List Link × List LinkEv) (e : LinkEv) : List Link × List LinkEv :=
  let l := linkOf e.src e.port
  let same := fun (w : LinkEv) => decide (linkOf w.src w.port = l)
  if e.typ = 1 then
    if x.2.any (fun w => same w && decide (w.src ≠ e.src)) then (x.1.filter (· ≠ l), x.2.filter (fun w => !same w))
    else (x.1, x.2.filter (fun w => !same w) ++ [e])
  else (if x.1.contains l then x.1 else x.1 ++ [l], x.2.filter (fun w => !same w))

/-- A recovered link whose place in the cut set has ended goes UP (R366). -/
def raiseLink (s : State) (p : PortIx) : State :=
  if s.ports[p].st = .held ∧ s.ports[p].upSent = true ∧ s.plane.cut.contains (linkOf s.plane.coord p) = false then
    setLink p .up 0 (modPort p (fun q => { q with upSent := false, upSeen := false }) s)
  else s

/-- The slice state after closure: SPLIT when a pair of chips has lost its route, DEGRADED after a new cut. -/
def closedState (pl : Plan) (s : State) (cuts : Bool) : SliceSt :=
  if s.plane.st = .draining then .draining
  else if isSplit pl s.plane.cut then .split
  else if cuts && s.plane.st == .active then .degraded
  else s.plane.st

/-- The slice state set; a SPLIT is reported (R365). -/
def setSlice (st : SliceSt) (s : State) : State :=
  let t : State := { s with plane := { s.plane with st := st } }
  if st = .split then report "SPLIT" (raiseInt 6 2 t) else t

/-- The events old enough at a boundary E. -/
def ripeEvents (e : Nat) (s : State) : List LinkEv := s.plane.events.filter (fun x => decide (x.origin + 2 * s.mc.guard ≤ e))

/-- The ripe events applied in order to the cut set; LATE sources that are now cut are forgotten (Table PLANE-15). -/
def cutEvents (pl : Plan) (e : Nat) (s : State) : State :=
  let l := (ripeEvents e s).mergeSort (fun a b => !keyLt (evKey b) (evKey a))
  let rest := s.plane.events.filter (fun x => !decide (x.origin + 2 * s.mc.guard ≤ e))
  let r := l.foldl applyEv (s.plane.cut, [])
  let t : State := { s with plane := { s.plane with cut := r.1, events := r.2 ++ rest } }
  { t with mc := { t.mc with lates := t.mc.lates.filter (fun c => !cutChip pl r.1 c) } }

/-- Order 3 of Table PLANE-13 at a boundary E: the events old enough are applied, recovered links go UP, the route table is
rebuilt and the slice state follows. -/
def applyClosure (e : Nat) (s : State) : State :=
  match s.plane.plan with
  | none => s
  | some pl =>
    if ripeEvents e s = [] then s else
    let cuts := (ripeEvents e s).any (fun x => x.typ != 1)
    let t := buildRoutes ((List.finRange 6).foldl raiseLink (cutEvents pl e s))
    setSlice (closedState pl t cuts) t

/-- The sources whose messages to this chip cross a link of the events that are 2G old (Table PLANE-13, order 2). -/
def lostSources (s : State) : List Coord :=
  match s.plane.plan with
  | none => []
  | some pl =>
    let ls := (s.plane.events.filter (fun e => e.typ != 1 && decide (e.origin + 2 * s.mc.guard ≤ s.mc.tick.toNat))).map
      (fun e => linkOf e.src e.port)
    if ls = [] then [] else
    (boxChips pl).filter (fun c => match pathLinks pl s.plane.cut s.plane.coord maxHops false c with
      | some l => l.any (fun x => ls.contains x)
      | none => false)

/-- CLOSURE_TIMEOUT: XRECVs of the running step from those sources get NO_SOURCE; the step is marked (R363, R364). -/
def closureTimeout (s : State) : State :=
  let l := lostSources s
  if s.run.isOpen = false ∨ l = [] then s
  else modRun (fun r => { r with noSource := r.noSource ++ l.filter (fun c => !r.noSource.contains c), linkFault := true }) s

/-- A LINKEV of another chip: kept until its boundary (R362). -/
def takeLinkev (m : Msg) (s : State) : State :=
  let e := linkevOf m.body
  raiseInt 6 0 { s with plane := { s.plane with events := s.plane.events ++ [e] } }

/-- CLOSURE_TIMEOUT (R363). -/
def execClosureTimeout (s : State) : Host.Outcome State Fault Refusal := .next { s with run := (closureTimeout s).run }

/-- What a message of the plane may change when no word is involved. -/
def footNet (s t : State) : State :=
  { s with out := t.out, regs := t.regs, parts := t.parts, ports := t.ports, plane := t.plane, mc := t.mc, run := t.run, err := t.err }

/-- LINKEV_MSG (R362). -/
def execLinkevMsg (m : Msg) (s : State) : Host.Outcome State Fault Refusal := .next (footNet s (takeFlood 0xA m (takeLinkev m) s))

end Sys2Proof.Machine
end

