-- ==== Sys2Proof/Machine/Ports.lean ====
section
/-!
DEFINITION. The link layer of a port (R330 to R343): flits, retry, credits, link keys and link encryption.
-/

namespace Sys2Proof.Machine

/-- Sequence numbers count modulo 4,096 (R333). -/
def seqMod : Nat := 4096

/-- Credits of a link that comes up, by VC × 2 + DET (Table PLANE-5). -/
def linkCredits : Vector Nat 8 := #v[96, 32, 384, 128, 48, 16, 32, 16]

/-- Saturation of a 32-bit port counter (R369). -/
def cnt32Max : Nat := 0xFFFFFFFE

/-! ### Keys (R340, R341) -/

/-- Bytes of a coordinate in the info of R340. -/
def coordBytes (c : Coord) : List Byte := leBytes 3 c.toNat

/-- Key and salt of one direction of a link. -/
def linkKdf (lkey : BitVec 256) (salt : List Byte) (epoch : Nat) (src dst : Coord) : BitVec 256 × BitVec 48 :=
  let info := [0x57, 0x52, 0x53, 0x31] ++ leBytes 8 epoch ++ coordBytes src ++ coordBytes dst
  let o := hkdf384 salt (leBytes 32 lkey.toNat) info 38
  (BitVec.ofNat 256 (leNat (o.take 32)), BitVec.ofNat 48 (leNat (o.drop 32)))

/-- Keys of an epoch for a port, from LKEY and the two nonces of its bring-up, this end's given first: the salt takes the lower
chip's first. -/
def linkKey (s : State) (lkey : BitVec 256) (i : PortIx) (nonces : BitVec 128 × BitVec 128) (epoch : Nat) : LinkKey :=
  let me := s.plane.coord
  let you := (neighCoord me i).getD 0
  let mine := leBytes 16 nonces.1.toNat
  let yours := leBytes 16 nonces.2.toNat
  let low := keyLt [cz me, cy me, cx me] [cz you, cy you, cx you]
  let salt := if low then mine ++ yours else yours ++ mine
  let tx := linkKdf lkey salt epoch me you
  let rx := linkKdf lkey salt epoch you me
  { epoch, kep := epoch % 4, txKey := tx.1, txSalt := tx.2, rxKey := rx.1, rxSalt := rx.2 }

/-- The 96-bit IV: salt, then CTR, both little-endian. -/
def flitIv (salt : BitVec 48) (ctr : Nat) : List Byte := leBytes 6 salt.toNat ++ leBytes 6 ctr

/-! ### Flits (Tables PLANE-3, PLANE-4) -/

/-- A flit of 256 bytes from header, payload and tag. -/
def flitBytes (hdr payload tag : List Byte) : List Byte :=
  let b := hdr ++ payload ++ tag
  b ++ leBytes 4 (crc32 b).toNat

/-- KEP of the key in use; 0 without one. -/
def kepOf (p : PortSt) : Nat := match p.keys with | k :: _ => k.kep | [] => 0

/-- The header fields common to the flits of a port. -/
def flitHdr (p : PortSt) (kep ftype vc : Nat) (det som eom nak : Bool) (seq plen : Nat) : List Byte :=
  let ack := if p.rxAny then (p.rxSeq + seqMod - 1) % seqMod else 0xFFF
  leBytes 16 (ftype + put 2 vc + put 4 (b2n det) + put 5 (b2n som) + put 6 (b2n eom) + put 7 (b2n nak) + put 8 seq
    + put 20 ack + put 32 p.csel.val + put 35 (p.freed[p.csel] % seqMod) + put 48 p.ctr
    + put 96 kep + put 98 plen)

/-- A DATA flit sealed under the key in use (R341). -/
def dataFlit (p : PortSt) (f : TxFlit) : List Byte :=
  let h := flitHdr p (kepOf p) 0 f.vc.val f.det f.som f.eom p.nakDue f.seq f.plen
  match p.keys.head? with
  | none => flitBytes h f.payload (List.replicate 12 0)
  | some k =>
    let iv := flitIv k.txSalt p.ctr
    let ct := gcmCrypt (leBytes 32 k.txKey.toNat) iv f.payload
    flitBytes h ct ((gcmTag (leBytes 32 k.txKey.toNat) iv h ct).take 12)

/-- A CTRL flit: no payload, authenticated. -/
def ctrlFlit (p : PortSt) : List Byte :=
  let h := flitHdr p (kepOf p) 1 0 false false false p.nakDue 0 0
  match p.keys.head? with
  | none => flitBytes h (List.replicate 224 0) (List.replicate 12 0)
  | some k =>
    let iv := flitIv k.txSalt p.ctr
    flitBytes h (List.replicate 224 0) ((gcmTag (leBytes 32 k.txKey.toNat) iv h []).take 12)

/-- The CTR at which the port sets KEYAGE, and the one at which it goes DOWN (R342). -/
def keyAgeCtr : Nat := 2 ^ 47
/-- CTR's last value. -/
def lastCtr : Nat := 2 ^ 48 - 2

/-! ### Sending (R331, R334 to R339) -/

/-- Output buffers in the order of R339: control, schedule, exchange, maintenance, detour before normal. -/
def sendOrder : List (Fin 8) := [5, 4, 1, 0, 3, 2, 7, 6]

/-- A port's buffer may send a new DATA flit: its channel is carried, it holds a credit, and fewer than 1,024 flits are
unacknowledged. What a FENCED port held in its control channel, the NOTICE and the LINKEV of the fence, still leaves (log
entry 87). -/
def mayData (st : LinkSt) (p : PortSt) (b : Fin 8) : Bool :=
  (st == .up || decide (3 ≤ b.val / 2) || (st == .fenced && b.val / 2 == 2)) && !(p.txq[b]).isEmpty && decide (0 < p.credit[b]) && decide (p.replay.length < 1024)

/-- A kept flit sent once more. -/
def sentAgain (seq : Nat) (p : PortSt) : PortSt :=
  { p with replay := p.replay.map (fun f => if f.seq = seq then { f with sent := f.sent + 1 } else f) }

/-- After any flit: CTR rises, CSEL rotates, a NAK due has gone out. -/
def afterFlit (p : PortSt) : PortSt :=
  { p with ctr := p.ctr + 1, csel := p.csel + 1, nakDue := false, keyage := p.keyage || decide (keyAgeCtr ≤ p.ctr + 1),
           naks := if p.nakDue then satAdd cnt16Max p.naks 1 else p.naks }

/-- The source whose message sends next on an output buffer: the one that holds it, else the next in rotation that has one
(R339). -/
def nextSrc (p : PortSt) (b : Fin 8) : Option (Fin 7) :=
  (p.hold[b].toList ++ (List.finRange 7).map (fun k => p.turn[b] + 1 + k)).find? (fun x => p.txq[b].any (fun f => f.src == x))

/-- A new DATA flit of an output buffer taken: numbered, kept for replay, paid with a credit; its message holds the buffer until
its EOM. -/
def takeFresh (p : PortSt) (b : Fin 8) : Option (TxFlit × PortSt) :=
  (nextSrc p b).bind (fun x => (p.txq[b].find? (fun f => f.src == x)).map (fun f =>
    let g := { f with seq := p.txSeq, sent := 1 }
    (g, { p with txq := vmod p.txq b (fun l => l.eraseP (fun f => f.src == x)), txSeq := (p.txSeq + 1) % seqMod,
                 replay := p.replay ++ [g], credit := vmod p.credit b (· - 1), hold := vset p.hold b.val (if f.eom then none else some x),
                 turn := vset p.turn b.val x, rept := if f.isMarch then some (g.seq, 3) else none })))

/-- The flit that goes next, and the port after it: the repeats of a MARCH flit, then resends, then new DATA flits by
R339, else a CTRL flit. -/
def nextFlit (p : PortSt) : List Byte × PortSt :=
  let kept := fun (q : Nat) => (p.replay.find? (fun f => f.seq == q))
  let rep : Option (TxFlit × PortSt) := match p.rept with
    | some (q, n) => (kept q).map (fun f => (f, { sentAgain q p with rept := if n ≤ 1 then none else some (q, n - 1) }))
    | none => none
  let res : Option (TxFlit × PortSt) := match p.resend.dropWhile (fun q => (kept q).isNone) with
    | q :: r => (kept q).map (fun f => (f, { sentAgain q p with resend := r, rept := if f.isMarch then some (q, 3) else none }))
    | [] => none
  let fresh := (sendOrder.find? (mayData p.st p)).bind (takeFresh p)
  match (rep.orElse (fun _ => res)).orElse (fun _ => fresh) with
  | some (f, q) => (dataFlit p f, afterFlit q)
  | none => (ctrlFlit p, afterFlit { p with rept := none, resend := [] })

/-- A port whose link has come up sends a flit in every slot. -/
def linkLive (st : LinkSt) : Bool := st == .held || st == .up || st == .fenced

/-- FLIT_TX: the flit of one slot; at CTR 2^47 the port reports KEYAGE, and at 2^48 − 2 it sends no more (R342). -/
def flitTx (i : PortIx) (s : State) : State :=
  let p := s.ports[i]
  if linkLive p.st = false ∨ lastCtr ≤ p.ctr then s else
  let r := nextFlit p
  let s := send (.flit i r.1) (modPort i (fun _ => r.2) s)
  if p.keyage = false ∧ r.2.keyage = true then report "KEYAGE" s else s

/-! ### Receiving (R332 to R335, R338, R343) -/

/-- Header of a received flit. -/
def rxHdr (f : RxFlit) : BitVec 128 := BitVec.ofNat 128 (leAt f.bytes 0 16)
/-- FTYPE. -/
def rxType (f : RxFlit) : Nat := fld (rxHdr f) 0 2
/-- NAK. -/
def rxNak (f : RxFlit) : Bool := bitAt (rxHdr f) 7

/-- R332: the flit lay in correctable codewords and its CRC holds. -/
def rxGood (f : RxFlit) : Bool :=
  f.fecOk && decide (f.bytes.length = 256) && leAt f.bytes 252 4 == (crc32 (f.bytes.take 252)).toNat

/-- A gap in the sequence: a NAK goes out unless the expected flit comes in time. -/
def openGap (p : PortSt) : PortSt := { p with gap := p.gap.orElse (fun _ => some false) }

/-- The key that a flit's KEP selects. -/
def rxKeyOf (p : PortSt) (f : RxFlit) : Option LinkKey := p.keys.find? (fun k => k.kep == fld (rxHdr f) 96 2)

/-- R343: tag and counter pass under the key. -/
def rxAuth (f : RxFlit) (k : LinkKey) : Bool :=
  let h := f.bytes.take 16
  let ctr := fld (rxHdr f) 48 48
  let ct := if rxType f = 0 then slice f.bytes 16 224 else []
  (match k.lastCtr with | some c => decide (c < ctr) | none => true) &&
    (gcmTag (leBytes 32 k.rxKey.toNat) (flitIv k.rxSalt ctr) h ct).take 12 == slice f.bytes 240 12

/-- The CTR accepted under a key. -/
def markCtr (f : RxFlit) (p : PortSt) : PortSt :=
  { p with keys := p.keys.map (fun k => if k.kep = fld (rxHdr f) 96 2 then { k with lastCtr := some (fld (rxHdr f) 48 48) } else k) }

/-- ACK and the credit count of an authentic flit (R334, R338). -/
def takeAck (f : RxFlit) (p : PortSt) : PortSt :=
  let h := rxHdr f
  let ack := fld h 20 12
  let b : Fin 8 := Fin.ofNat 8 (fld h 32 3)
  let cc := fld h 35 12
  let n := (cc + seqMod - p.ccSeen[b]) % seqMod
  let kept := match p.replay.findIdx? (fun x => x.seq == ack) with
    | some k => p.replay.drop (k + 1)
    | none => p.replay
  { p with replay := kept, credit := vmod p.credit b (· + n), ccSeen := vset p.ccSeen b.val cc }

/-- A NAK: everything unacknowledged is resent; an ACK outside the window counts as a tag failure (R335). -/
def takeNak (f : RxFlit) (before : PortSt) (p : PortSt) : PortSt :=
  let ack := fld (rxHdr f) 20 12
  let first := match before.replay with | x :: _ => x.seq | [] => before.txSeq
  if before.replay.any (fun x => x.seq == ack) || (ack + 1) % seqMod == first then
    { p with resend := p.replay.map TxFlit.seq, rept := none, resends := satAdd cnt16Max p.resends 1 }
  else { p with tagFail := satAdd cnt16Max p.tagFail 1 }

/-- A sequence number is one of the 1,024 below the expected one (R333). -/
def isBehind (p : PortSt) (seq : Nat) : Bool :=
  let d := (p.rxSeq + seqMod - seq) % seqMod
  decide (1 ≤ d ∧ d ≤ 1024)

/-- A DATA flit that passed: accepted when it is the expected one, discarded silently when it is one of the 1,024 before,
and otherwise a gap (R333). -/
def takeData (f : RxFlit) (k : LinkKey) (p : PortSt) : PortSt :=
  let h := rxHdr f
  let seq := fld h 8 12
  if seq = p.rxSeq then
    let b : Fin 8 := Fin.ofNat 8 (2 * fld h 2 2 + fld h 4 1)
    let t : TxFlit :=
      { vc := Fin.ofNat 4 (fld h 2 2), det := bitAt h 4, som := bitAt h 5, eom := bitAt h 6, seq := seq, plen := fld h 98 8,
        payload := gcmCrypt (leBytes 32 k.rxKey.toNat) (flitIv k.rxSalt (fld h 48 48)) (slice f.bytes 16 224) }
    { p with rxq := vmod p.rxq b (· ++ [t]), rxSeq := (p.rxSeq + 1) % seqMod, rxAny := true, gap := none }
  else if isBehind p seq then p
  else openGap p

/-- A flit received: R332, then R343, then what its header and payload say. -/
def rxFlit (f : RxFlit) (p : PortSt) : PortSt :=
  if rxGood f = false then
    openGap { p with crcFail := satAdd cnt32Max p.crcFail 1, fecUnc := if f.fecOk then p.fecUnc else satAdd cnt32Max p.fecUnc 1 }
  else match (rxKeyOf p f).filter (rxAuth f) with
    | none =>
      let q := { p with tagFail := satAdd cnt16Max p.tagFail 1 }
      if rxType f = 0 ∧ isBehind p (fld (rxHdr f) 8 12) = false then openGap q else q
    | some k =>
      let q := takeAck f (markCtr f p)
      let q := if rxNak f then takeNak f p q else q
      if rxType f = 0 then takeData f k q else q

/-- A flit of a type taken by a port whose link has come up. -/
def flitRx (i : PortIx) (sel : RxFlit → Bool) (f : RxFlit) (s : State) : State :=
  if linkLive s.ports[i].st && (!rxGood f || sel f) then modPort i (rxFlit f) s else s

/-- NAK_TIMEOUT: 4 flit slots have passed since a gap opened, or 512 since the last NAK (R333). -/
def nakTimeout (i : PortIx) (s : State) : State :=
  if linkLive s.ports[i].st ∧ s.ports[i].gap.isSome = true then
    modPort i (fun p => { p with gap := some true, nakDue := true }) s
  else s

/-! ### Bringing a link up and giving it up (R337, R338, R342) -/

/-- A link that comes up: keys derived for the epoch, and for one that is pending (R341); sequence numbers, counters and credits
fresh. -/
def comeUp (s : State) (lkey : BitVec 256) (i : PortIx) (epoch : Nat) (p : PortSt) : PortSt :=
  let nonces := (p.nonce, p.peerNonce)
  let next := match s.epochPend with
    | some (e, _) => if e.num.toNat = epoch then [] else [linkKey s lkey i nonces e.num.toNat]
    | none => []
  { p with
    keys := linkKey s lkey i nonces epoch :: next, keyNonces := nonces, ctr := 0, hold := Vector.replicate 8 none, keyage := false, txSeq := 0, replay := [], resend := [], rept := none,
    txq := Vector.replicate 8 [], rxSeq := 0, rxAny := false, gap := none, nakDue := false, credit := linkCredits,
    ccSeen := Vector.replicate 8 0, freed := Vector.replicate 8 0, rxq := Vector.replicate 8 [], csel := 0 }

/-- The replay and receive buffers discarded, and the link keys wiped (R337, Table CTRL-8). -/
def emptyPort (p : PortSt) : PortSt :=
  { p with
    keys := [], replay := [], resend := [], rept := none, txq := Vector.replicate 8 [], rxq := Vector.replicate 8 [],
    hold := Vector.replicate 8 none, gap := none, nakDue := false, nonce := 0, peerNonce := 0, prevNonce := 0, keyNonces := (0, 0),
    helloSeen := false, helloDue := false, attested := false, upSent := false, upSeen := false,
    syncT1 := none }

/-- What a port command may change. -/
def footPort (s t : State) : State :=
  { s with out := t.out, freeIx := t.freeIx, regs := t.regs, ports := t.ports, plane := t.plane, mc := t.mc, run := t.run,
           sec := keepLc s t, err := t.err, nv := { s.nv with lastFatal := t.nv.lastFatal } }

/-- FLIT_TX (R331). -/
def execFlitTx (port : PortIx) (s : State) : Host.Outcome State Fault Refusal := .next (footPort s (flitTx port s))

/-- DATA_FLIT_RX (R333). -/
def execDataFlitRx (port : PortIx) (flit : RxFlit) (s : State) : Host.Outcome State Fault Refusal :=
  .next (footPort s (flitRx port (fun f => rxType f == 0) flit s))

/-- CTRL_FLIT_RX (R338). -/
def execCtrlFlitRx (port : PortIx) (flit : RxFlit) (s : State) : Host.Outcome State Fault Refusal :=
  .next (footPort s (flitRx port (fun f => rxType f == 1) flit s))

/-- NAK_RX (R335). -/
def execNakRx (port : PortIx) (flit : RxFlit) (s : State) : Host.Outcome State Fault Refusal :=
  .next (footPort s (flitRx port (fun f => decide (rxType f < 2) && rxNak f) flit s))

/-- NAK_TIMEOUT (R333). -/
def execNakTimeout (port : PortIx) (s : State) : Host.Outcome State Fault Refusal := .next (footPort s (nakTimeout port s))

end Sys2Proof.Machine
end

