-- ==== Sys2Proof/Machine/Discovery.lean ====
section
/-!
DEFINITION. Discovery, link states, drain and forwarding (R337, R351 to R357, R366, R367, R348 to R350).
-/

namespace Sys2Proof.Machine

/-! ### What the plan expects (R354, R409) -/

/-- The chip of the plan at a coordinate; none for an empty position or one outside the box. -/
def planAt (pl : Plan) (c : Coord) : Option PlanEnt :=
  if inBox pl c then
    match pl.ents[boxIndex pl c]? with
    | some e => if e.iddig.all (· == 0) then none else some e
    | none => none
  else none

/-- The neighbour that the plan expects on a port. -/
def expected (s : State) (p : PortIx) : Option (Coord × PlanEnt) :=
  match s.plane.plan, neighCoord s.plane.coord p with
  | some pl, some c => (planAt pl c).map (fun e => (c, e))
  | _, _ => none

/-- WIDTH of a port in a plan entry. -/
def entWidth (e : PlanEnt) (p : PortIx) : Nat := fld e.widths (2 * p.val) 2

/-- The configuration epoch that hellos and link keys name: the one in force, before any the plan's. -/
def linkEpoch (s : State) : Nat :=
  match s.epoch, s.plane.plan with
  | some e, _ => e.num.toNat
  | none, some p => p.epoch.toNat
  | none, none => 0

/-! ### Hellos (R353, Table PLANE-10) -/

/-- FWVER of the running image; 0 in the boot ROM. -/
def runFwver (s : State) : Word := match s.cc.image with | some f => f.fwver | none => 0

/-- Bytes 0x000 to 0x15F of a hello of a port. -/
def helloHead (s : State) (i : PortIx) (nonce : BitVec 128) : List Byte :=
  let p := s.ports[i]
  let pl := s.plane.plan
  leBytes 4 0x314C4857 ++ leBytes 2 1 ++ leBytes 1 i.val ++ leBytes 1 p.width
    ++ leBytes 4 (s.plane.coord.toNat + put 18 (b2n s.plane.coordOk)) ++ leBytes 2 0xB0 ++ leBytes 2 0
    ++ leBytes 4 (runFwver s).toNat ++ leBytes 4 (match pl with | some x => x.slice.toNat | none => 0)
    ++ leBytes 8 (linkEpoch s) ++ (match pl with | some x => slice x.digest 0 48 | none => List.replicate 48 0)
    ++ leBytes 16 nonce.toNat ++ leBytes 16 p.peerNonce.toNat ++ slice s.nv.idpub 0 97 ++ List.replicate 143 0

/-- A signature with IDKEY (R353); none once RETIRE has destroyed it. -/
def helloSig (s : State) (k : Nat) (head : List Byte) : List Byte :=
  match s.nv.idkey with
  | some x => ecdsaSign x.toNat k head
  | none => List.replicate 96 0

/-- The two LMGMT flits of a hello: neither sequenced nor encrypted, with the next two CTR values. -/
def helloFlits (p : PortSt) (kep : Nat) (h : List Byte) : List Byte :=
  let one := fun (k : Nat) =>
    flitBytes (flitHdr { p with ctr := p.ctr + k } kep 2 0 false (k == 0) (k == 1) false 0 224) (slice h (224 * k) 224) (List.replicate 12 0)
  one 0 ++ one 1

/-- A port owes a hello: one in HELLO every 1 ms, one that is UP once when a new epoch takes effect; not once CTR is exhausted
(R342, R355). -/
def helloOwed (p : PortSt) : Bool := (p.st == .hello || (p.st == .up && p.helloDue)) && decide (p.ctr + 2 ≤ lastCtr)

/-- HELLO_TX: a hello under a fresh nonce; its two flits take the next two CTR values. -/
def helloTx (i : PortIx) (s : State) : State :=
  let p := s.ports[i]
  if helloOwed p = false then s else
  let nonce := Config.free 128 s.freeIx
  let head := helloHead s i nonce
  let h := head ++ helloSig s (Config.free 384 (s.freeIx + 1)).toNat head
  let late := p.st == .up && decide (keyAgeCtr ≤ p.ctr + 2)
  let s := send (.flit i (helloFlits p (linkEpoch s % 4) h)) (modPort i (fun q => { q with
    nonce := nonce, prevNonce := q.nonce, helloDue := false, ctr := q.ctr + 2, keyage := q.keyage || late }) { s with freeIx := s.freeIx + 2 })
  if late ∧ p.keyage = false then report "KEYAGE" s else s

/-- A port disabled with a reason; told to the management controller. -/
def disable (i : PortIx) (reason : Nat) (s : State) : State :=
  report "PORT" (setLink i .disabled reason (modPort i emptyPort s))

/-- MAGIC and FORMAT of a hello are right and it has its length; otherwise it is no hello. -/
def helloValid (h : List Byte) : Bool := h.length == 448 && leAt h 0 4 == 0x314C4857 && leAt h 4 2 == 1

/-- PEER_NONCE of a hello echoes the port's last nonce (order 3 of Table PLANE-11). DESIGN CHOICE: zero is no echo but no failure
in HELLO, where the neighbour may have received none yet, and on an UP link the nonce before the last counts too, since both ends
send at the same boundary (log entry 41). -/
def echoOk (p : PortSt) (v : Nat) : Bool :=
  v == p.nonce.toNat || (p.st == .hello && v == 0) || (p.st == .up && v == p.prevNonce.toNat)

/-- Orders 3 to 5 of Table PLANE-11 for an expected neighbour: the reason of the first that holds. -/
def helloFault (s : State) (i : PortIx) (c : Coord) (e : PlanEnt) (h : List Byte) : Option Nat :=
  let p := s.ports[i]
  if ecdsaVerify (slice h 0x70 97) (h.take 0x160) (slice h 0x160 96) = false ∨ echoOk p (leAt h 0x60 16) = false then some 3
  else if sha384 (slice h 0x70 97) ≠ e.iddig then some 4
  else if nfld (leAt h 8 4) 0 19 ≠ c.toNat + 2 ^ 18 ∨ leAt h 6 1 ≠ (oppPort i).val then some 5
  else none

/-- Order 8 of Table PLANE-11: PLAN, EPOCH, STEPPING or FWVER differ. -/
def helloDiffers (s : State) (h : List Byte) : Bool :=
  let pl := match s.plane.plan with | some x => slice x.digest 0 48 | none => List.replicate 48 0
  decide (slice h 0x20 48 ≠ pl ∨ leAt h 0x18 8 ≠ linkEpoch s ∨ leAt h 0x0C 2 ≠ 0xB0 ∨ leAt h 0x10 4 ≠ (runFwver s).toNat)

/-- Four of a port's latest times DOWN lie within 10 s (R366). -/
def flapping (p : PortSt) : Bool :=
  match p.downTimes with
  | u :: _ :: _ :: t :: _ => decide (u ≤ t + 10000000000)
  | _ => false

/-- A port that has passed Table PLANE-11 comes up once LKEY exists: keys derived, HELD; a recovered link is flooded UP
unless it flaps (R366). Before that it waits in HELLO. -/
def holdPort (i : PortIx) (s : State) : State :=
  match s.sec.lkey with
  | none => setLink i .hello 0 s
  | some k =>
    let fl := s.ports[i].flap || flapping s.ports[i]
    let t := setLink i .held (if fl then 0xE else 0) (modPort i (fun q => { comeUp s k i (linkEpoch s) q with flap := fl }) s)
    if s.plane.cut.contains (linkOf s.plane.coord i) ∧ fl = false then
      floodLinkev 1 i 0 (modPort i (fun q => { q with upSent := true }) t)
    else t

/-- Ports that wait in HELLO for LKEY come up when it arrives (Table CTRL-10, order 4). -/
def holdWaiting (s : State) : State :=
  (List.finRange 6).foldl (fun s i => if s.ports[i].st = .hello ∧ s.ports[i].attested = true then holdPort i s else s) s

/-- The loss of the parent link begins holdover (R307). -/
def loseParent (i : PortIx) (s : State) : State :=
  if s.mc.parent = some i ∧ s.mc.holdover.isNone = true then { s with mc := { s.mc with holdover := some s.mc.tick.toNat } } else s

/-! ### Link states (Table PLANE-12, R337, R366) -/

/-- PMD_TRAINING_DONE: hellos begin with no nonce known (R327). The width written is taken, once in each configuration epoch
(R329). -/
def trained (i : PortIx) (s : State) : State :=
  let e := linkEpoch s
  if s.ports[i].st = .training then
    setLink i .hello 0 (modPort i (fun q => { q with
      width := if q.widthEpoch = some e then q.width else q.widthCfg, widthEpoch := some e, nonce := 0, prevNonce := 0, peerNonce := 0,
      helloSeen := false, attested := false }) s)
  else s

/-- A link given up (R337): buffers and keys gone, counted, DOWN with its reason; the event flooded and reported. -/
def giveUp (i : PortIx) (reason : Nat) (s : State) : State :=
  let q := s.ports[i]
  let t := modPort i (fun p => { emptyPort p with
    downs := satAdd cnt16Max q.downs 1, downTimes := (s.mc.tick.toNat :: q.downTimes).take 4 }) s
  floodLinkev 0 i reason (setLink i .down reason t)

/-- DISCOVERY_TIMEOUT: no valid hello within 1 s of the port being enabled (order 1 of Table PLANE-11). -/
def discoveryTimeout (i : PortIx) (s : State) : State :=
  let p := s.ports[i]
  if (p.st = .training ∨ p.st = .hello) ∧ p.helloSeen = false ∧ (expected s i).isSome = true then giveUp i 1 s else s

/-- The conditions of R337 that the state shows: retries, tag failures, the counter; alignment and silence are seen by the
electrical layer. -/
def giveUpOk (p : PortSt) (reason : Nat) : Bool :=
  linkLive p.st && (reason == 9 || reason == 0xA || (reason == 0xB && p.replay.any (fun f => decide (17 ≤ f.sent)))
    || (reason == 0xC && decide (16 ≤ p.tagFail)) || (reason == 0xD && decide (lastCtr ≤ p.ctr)))

/-- LINK_DOWN: codes 0x9 to 0xD of R337. The parent link's loss begins holdover (R307). -/
def linkDown (i : PortIx) (reason : Nat) (s : State) : State :=
  if giveUpOk s.ports[i] reason = false then s else
  loseParent i (giveUp i reason s)

/-- RETRAIN_TIMER: every 100 ms a DOWN port tries again, from order 1 of Table PLANE-11 (R366). -/
def retrain (i : PortIx) (s : State) : State :=
  if s.ports[i].st = .down then setLink i .training 0 (modPort i emptyPort s) else s

/-! ### Drain (R367) -/

/-- SVC_DRAIN: a LINKEV DRAIN for each UP in-box port; in no slice the chip is DRAINED at once (Table PLANE-15). -/
def svcDrain (s : State) : State :=
  if s.plane.drainReq ∨ s.plane.st = .drained then s
  else match s.plane.plan with
    | none => report "DRAINED" (raiseInt 6 1 { s with plane := { s.plane with drainReq := true, st := .drained } })
    | some pl =>
      let l := (upPorts s).filter (fun p => (boxNeigh pl s.plane.coord p).isSome)
      let s := l.foldl (fun s p => floodLinkev 2 p 0 s) s
      raiseInt 6 1 { s with plane := { s.plane with drainReq := true, st := .draining } }

/-- The replay and receive buffers of a port are empty. -/
def portEmpty (p : PortSt) : Bool := p.replay.isEmpty && p.rxq.toList.all List.isEmpty && p.txq.toList.all List.isEmpty

/-- DRAIN_COMPLETE: no step runs, every port is empty: the ports DISABLED, the plane DRAINED, and a report. -/
def drainComplete (s : State) : State :=
  if s.plane.st = .draining ∧ (s.run.isOpen = false ∨ fencedOrCut s = true) ∧ s.ports.toList.all portEmpty = true then
    let s := (List.finRange 6).foldl (fun s i => setLink i .disabled 0 s) s
    report "DRAINED" (raiseInt 6 1 { s with plane := { s.plane with st := .drained } })
  else s

/-! ### Forwarding (R348 to R350) -/

/-- The virtual channel on which a message stands at the front of a port's receive buffer; that of its kind otherwise. -/
def rxVc (s : State) (p : PortIx) (det : Bool) (m : Msg) : Fin 4 :=
  let own := kindVc (mKind m)
  let front := fun (v : Fin 4) =>
    let b : Fin 8 := ⟨2 * v.val + (if det then 1 else 0), by split <;> omega⟩
    let w := msgFlits 6 v det m
    ((s.ports[p].rxq[b].take w.length).map TxFlit.payload) == w.map TxFlit.payload
  if mKind m < 6 then ((List.finRange 4).find? front).getD 1 else own

/-- A message for another chip leaves by its route; a flood is sent on ahead of its delivery, once (R348, R350). -/
def forward (port : PortIx) (det : Bool) (m : Msg) (s : State) : State :=
  if s.plane.plan.isNone ∨ linkLive s.ports[port].st = false then s
  else if notHere m s then passOn (srcOf (some port)) (rxVc s port det m) det m s
  else if mDst m ≠ floodDst then s
  else if refusedSrc s (mSrc m) then
    let t := freeFlits m s
    { t with plane := { t.plane with srcDrop := plane16 t.plane.srcDrop } }
  else if s.plane.seen.contains (msgKey m) ∨ s.plane.passed.contains (msgKey m) then
    let t := freeFlits m s
    { t with plane := { t.plane with dup := plane16 t.plane.dup } }
  else
    let t := floodFrom (some port) m s
    { t with plane := { t.plane with passed := t.plane.passed ++ [msgKey m] } }

/-! ### The commands -/

/-- PMD_TRAINING_DONE (R327). -/
def execPmdTrainingDone (port : PortIx) (s : State) : Host.Outcome State Fault Refusal := .next (footPort s (trained port s))

/-- HELLO_TX (R355). -/
def execHelloTx (port : PortIx) (s : State) : Host.Outcome State Fault Refusal := .next (footPort s (helloTx port s))

/-- DISCOVERY_TIMEOUT (R354). -/
def execDiscoveryTimeout (port : PortIx) (s : State) : Host.Outcome State Fault Refusal := .next (footPort s (discoveryTimeout port s))

/-- LINK_DOWN (R337). -/
def execLinkDown (port : PortIx) (reason : Fin 16) (s : State) : Host.Outcome State Fault Refusal :=
  .next (footPort s (linkDown port reason.val s))

/-- RETRAIN_TIMER (R366). -/
def execRetrainTimer (port : PortIx) (s : State) : Host.Outcome State Fault Refusal := .next (footPort s (retrain port s))

/-- SVC_DRAIN (R367). -/
def execSvcDrain (s : State) : Host.Outcome State Fault Refusal := .next (footPort s (svcDrain s))

/-- DRAIN_COMPLETE (R367). -/
def execDrainComplete (s : State) : Host.Outcome State Fault Refusal := .next (footPort s (drainComplete s))

/-- MSG_FORWARD (R348). -/
def execMsgForward (port : PortIx) (det : Bool) (m : Msg) (s : State) : Host.Outcome State Fault Refusal :=
  .next (footPort s (forward port det m s))

end Sys2Proof.Machine
end

