-- ==== Sys2Proof/Machine/Wipes.lean ====
section
/-!
DEFINITION. The wipes of Table SEC-12 (R17, R376, R390), partition reset (R417), the end of slice membership (R356, R375),
and the commands HELLO_RX, COLD_RESET, AUTUMN_WIPE_DONE, PARTITION_WIPE_DONE and KEYED_CLEAR_DONE.
-/

namespace Sys2Proof.Machine

/-- A core after the core wipe: only what Table REGS-11 keeps stays (R17, R117). -/
def wipeCore (c : CoreSt) : CoreSt :=
  { part := c.part, partNext := c.partNext, partLast := c.partLast, bypNext := c.bypNext, byp := c.byp, stall := c.stall,
    gated := c.gated, colFaults := c.colFaults, wiped := true }

/-- Cores of a partition set to 0x1F and wiped. -/
def freeCores (p : Part) (s : State) : State :=
  { s with cores := s.cores.map (fun c =>
      let c := if c.partNext = p.val then { c with partNext := 0x1F } else c
      if c.part = p.val then wipeCore { c with part := 0x1F } else c) }

/-- First byte and length of a partition's HBM window. -/
def hbmWindow (q : PartSt) : Nat × Nat := (q.win.hbmBase * Config.hbmUnit, q.win.hbmCount * Config.hbmUnit)

/-- The partition's window reads as zero (R383). -/
def zeroWindow (p : Part) (s : State) : State :=
  let w := hbmWindow s.parts[p]
  zeroBytes w.1 w.2 s

/-- Order 5 of Table CTRL-11: rings abandoned, cache lines invalidated, slots, records and descriptors emptied, keys
zeroed, the window zeroed, the tables of the partition's memory gone. -/
def wipePart (p : Part) (s : State) : State :=
  let q := s.parts[p]
  let w := q.win
  let s := zeroWindow p s
  let s := { s with
    clusters := s.clusters.map (fun c =>
      { c with lines := c.lines.filter (fun l => decide (l.2.part ≠ p)), regions := c.regions.filter (fun r => decide (r.2.part ≠ p.val)) })
    slots := tabClear s.slots w.slotBase w.slotCount
    vrecs := tabClear s.vrecs (4 * w.slotBase) (4 * w.slotCount)
    attrNext := s.attrNext.filter (fun x => !slotIn q x.1)
    evictNext := s.evictNext.filter (fun e => decide (e.part ≠ p))
    residentNext := s.residentNext.filter (fun x => !slotIn q x)
    tensors := s.tensors.filter (fun t => decide (t.2.part ≠ p))
    tensorNext := s.tensorNext.filter (fun t => decide (t.2.part ≠ p))
    freezeNext := s.freezeNext.filter (fun x => !slotIn q x.1)
    tdigs := s.tdigs.filter (fun d => decide (d.part ≠ p))
    recs := tabClear s.recs w.reqBase w.reqCount
    rings := tabClear s.rings w.ringBase w.ringCount
    adm := { s.adm with
      next := s.adm.next.map (fun a => if a.part = p then { a with akind := 4 } else a)
      taken := s.adm.taken.filter (fun t => decide (dPart t.desc ≠ p)) } }
  modPart p (fun q => { q with
    st := .resetting, ready := false, presetPend := none, pkey := none, mkey := none, ckey := none, ikey := none,
    akeys := Vector.replicate 64 none, resq := { q.resq with ents := [], rd := q.resq.wr },
    rccq := { q.rccq with ents := [], rd := q.rccq.wr }, rccf := { q.rccf with ents := [], rd := q.rccf.wr },
    moves := [], cold := [], freeing := [], compl := [], holds := [], hps := [], hpsNext := [], repsets := [], shards := [],
    pdescs := [], plists := [], pdescsOpen := [], plistsOpen := [], handles := [], ctabs := [] }) s

/-- Order 6 of Table CTRL-11: counters, error ring and registers to their reset values, OWNER and POLICY cleared, credits
whole again (R466, R483); the windows stay. -/
def resetPart (p : Part) (s : State) : State :=
  let s := { s with regs := { s.regs with
    pages := vmod s.regs.pages (pmPage p) (fun _ => {}),
    reqs := vmod s.regs.reqs ⟨p.val + 1, by omega⟩ (fun r => { r with
      chsel := [], colfIdx := 0, uuTidx := 0, iddigIdx := 0, logIdx := 0, rtIdx := 0 }) } }
  raiseInt 2 0 (modPart p (fun q => { st := .resetting, ready := true, toIdle := q.toIdle, win := q.win, winNext := q.winNext }) s)

/-- The PENDING command that waits on a piece of work is answered by GET_STATUS with a status (R407). -/
def endPending (sel : PendWork → Bool) (status : Nat) (s : State) : State :=
  match s.cc.pendCmd with
  | some (c, q, w) =>
    if sel w then { s with cc := { s.cc with pendCmd := none, pendLast := (c, q, status) } } else s
  | none => s

/-- Order 7 of Table CTRL-11: CONFIGURED with its windows, or IDLE when the chip has left its slice (R375). -/
def finishPart (p : Part) (s : State) : State :=
  let q := s.parts[p]
  let s := modPart p (fun q => if q.toIdle then {} else { q with st := .configured, ready := false }) s
  let s := endPending (fun w => match w with | .preset x => decide (x = p) | _ => false) 0 s
  if q.toIdle then s else chipLog 0x13 .event 0 0 p.val 0 s

/-- A PRESET acts: its cores freed and wiped, the partition wiped (orders 4 and 5 of Table CTRL-11). -/
def actPreset (p : Part) (s : State) : State := wipePart p (freeCores p s)

/-- A wipe of a partition has ended; with no step running nothing is waited for (log entry 38). -/
def wipeDone (p : Part) (s : State) : State :=
  let q := s.parts[p]
  if q.st ≠ .resetting ∨ q.ready = true ∨ q.presetPend.isSome = true then s else
  let s := resetPart p s
  if s.run.isOpen then s else finishPart p s

/-- The keyed clear of a partition's window has ended (R383, Table SEC-3). -/
def clearDone (p : Part) (s : State) : State :=
  if s.parts[p].st = .keying then modPart p (fun q => { q with ready := true }) s else s

/-! ### Column bypass fuses (R110, R111, R475) -/

/-- The bypass fields that the fuses of an array give: the first blown column is bypassed, and two or more disable the array
(R110, R475). -/
def fuseBypass (fuses : List (Fin 256 × Fin 32)) (array : Nat) : Bypass :=
  match (fuses.filter (fun x => x.1.val == array)).map (fun x => x.2.val) |>.dedup with
  | [] => {}
  | c :: more => { col := c, en := true, dis := decide (more ≠ []) }

/-- The bypass fields of every core from the fuses. -/
def loadBypass (s : State) : State :=
  { s with cores := Vector.ofFn (fun n =>
      let b : Vector Bypass 4 := Vector.ofFn (fun a => fuseBypass s.nv.bypass (4 * n.val + a.val))
      { s.cores[n] with byp := b, bypNext := b }) }

/-! ### The coordinate (R351, R352) -/

/-- A coordinate whose parts are in range (R351). -/
def coordValid (c : Coord) : Bool := decide (cx c ≤ 31 ∧ cy c ≤ 31 ∧ cz c ≤ 15)

/-- With COORD_SRC 1 the coordinate is that of the straps, while the chip is in no slice, and with COORD_SRC 0 it has none yet;
a chip without a valid one reports itself (R351, R352). -/
def strapCoord (s : State) : State :=
  if s.plane.st ≠ .none then s
  else if s.plane.rwl.coordSrc then
    let ok := coordValid s.plane.strap
    let t := { s with plane := { s.plane with coord := s.plane.strap, coordOk := ok } }
    if ok then t else report "NO_COORD" t
  else report "NO_COORD" { s with plane := { s.plane with coord := 0, coordOk := false } }

/-! ### Leaving a slice (R356, R375) -/

/-- Every partition that is not IDLE goes to IDLE through the partition wipe. -/
def idleParts (s : State) : State :=
  (List.finRange 16).foldl (fun s p =>
    if s.parts[p].st = .idle then s
    else
      let again := s.parts[p].st = .resetting ∧ s.parts[p].presetPend = none
      let s := modPart p (fun q => { q with toIdle := true }) s
      if again then s else actPreset p s) s

/-- A port returns to DISABLED: its keys and buffers are gone, its counters stay. -/
def clearPort (q : PortSt) : PortSt :=
  { widthCfg := q.widthCfg, width := q.width, fecCorr := q.fecCorr, fecUnc := q.fecUnc, crcFail := q.crcFail,
    naks := q.naks, resends := q.resends, tagFail := q.tagFail, downs := q.downs, st := q.st, reason := q.reason,
    downTimes := q.downTimes }

/-- The chip leaves its slice: LKEY and every key derived from it wiped, every port DISABLED, no plan, no epoch, no
program, no running step, no role in the March counter, every partition to IDLE. -/
def leaveSlice (s : State) : State :=
  let s := (List.finRange 6).foldl (fun s i => setLink i .disabled 0 (modPort i clearPort s)) s
  let s := { s with
    sec := { s.sec with lkey := none }
    plane := { rwl := s.plane.rwl, strap := s.plane.strap, grant := s.plane.grant, coord := if s.plane.rwl.coordSrc then s.plane.coord else 0,
               coordOk := s.plane.rwl.coordSrc && s.plane.coordOk, routeDrop := s.plane.routeDrop,
               epochDrop := s.plane.epochDrop, srcDrop := s.plane.srcDrop, partDrop := s.plane.partDrop, dup := s.plane.dup,
               stray := s.plane.stray }
    mc := { tick := s.mc.tick, step := s.mc.step, overruns := s.mc.overruns, misses := s.mc.misses, syncIgn := s.mc.syncIgn,
            syncEn := s.mc.syncEn, guard := s.mc.guard, guardNext := s.mc.guardNext,
            fenced := s.mc.fenced && s.err.fatal.isSome }
    epoch := none, epochPend := none, progs := Vector.replicate 8 none, run := {}, adm := {}
    faces := s.faces.map (fun f =>
      { rbCap := f.rbCap, rbCapStep := f.rbCapStep, rbCapNext := f.rbCapNext, bufs := f.bufs, fcLate := f.fcLate }) }
  idleParts s

/-! ### Hellos received (R354, R355, R357) -/

/-- Order 7 of Table PLANE-11: a neighbour inside the box reports another slice, so the port is DISABLED, and a chip that still
forms its slice refuses admission: it belongs to none, and TRANSIT is reported (R357; log entry 145). -/
def refuseSlice (i : PortIx) (s : State) : State :=
  if s.plane.st = .forming then report "TRANSIT" (setLink i .disabled 7 (leaveSlice s)) else disable i 7 s

/-- WIDTH differs (order 6): the neighbour's, or this port's, is not the one that the plan gives the link. -/
def widthDiffers (s : State) (i : PortIx) (e : PlanEnt) (h : List Byte) : Bool :=
  let w := entWidth e (oppPort i)
  decide (leAt h 7 1 ≠ w ∨ s.ports[i].width ≠ w)

/-- A hello on a port in HELLO: Table PLANE-11 from order 2 on. A chip without a plan has nothing to check it against and keeps
its nonce; one that echoes no nonce cannot bring the link up (log entry 41). -/
def helloNew (i : PortIx) (h : List Byte) (s : State) : State :=
  let echo := leAt h 0x60 16
  let s := modPort i (fun q => { q with peerNonce := BitVec.ofNat 128 (leAt h 0x50 16) }) s
  if s.plane.plan.isNone then s else
  match expected s i with
  | none => disable i 2 s
  | some (c, e) =>
    match helloFault s i c e h with
    | some r => disable i r s
    | none =>
      let slice := leAt h 0x14 4
      let mine := match s.plane.plan with | some x => x.slice.toNat | none => 0
      if widthDiffers s i e h then disable i 6 s
      else if slice ≠ 0 ∧ slice ≠ mine then refuseSlice i s
      else
        let s := modPort i (fun q => { q with neigh := (c, (oppPort i).val, true), helloSeen := q.helloSeen || echo != 0 }) s
        if helloDiffers s h then setLink i .hello 8 s
        else if echo = 0 then s
        else holdPort i (modPort i (fun q => { q with attested := true }) s)

/-- A hello on an UP port, sent when a new epoch takes effect: its nonce is kept, and only orders 3 to 5 act (R353, R355). -/
def helloUp (i : PortIx) (h : List Byte) (s : State) : State :=
  match expected s i with
  | none => s
  | some (c, e) =>
    match helloFault s i c e h with
    | some r => loseParent i (floodLinkev 0 i r (disable i r s))
    | none => modPort i (fun q => { q with peerNonce := BitVec.ofNat 128 (leAt h 0x50 16) }) s

/-- HELLO_RX. -/
def helloRx (i : PortIx) (h : List Byte) (s : State) : State :=
  if helloValid h = false then s
  else if s.ports[i].st = .hello then helloNew i h s
  else if s.ports[i].st = .up then helloUp i h s
  else s

/-! ### The Autumn wipe (R390) -/

/-- A core after the Autumn wipe: CORE_BYP is what the fuses give. -/
def wipedCore (fuses : List (Fin 256 × Fin 32)) (n : Nat) : CoreSt :=
  let b : Vector Bypass 4 := Vector.ofFn (fun a => fuseBypass fuses (4 * n + a.val))
  { byp := b, bypNext := b, wiped := true }

/-- What the Autumn wipe leaves of a state: fuses and non-volatile store, the running image and the management exchange
under way, the RWL fields, and the counters that only a cold reset clears (Table SEC-12, R369, R466; log entry 39). -/
def autumnWipe (transition : Bool) (s : State) : State :=
  { pending := s.pending, out := s.out, freeIx := s.freeIx, nv := s.nv
    cc := { s.cc with slotSt := .empty, slotLen := 0, slotDigest := [], slotBytes := [], slotImage := none,
                      activateAt := none, ckptStep := none, ckptOld := none, ckptCopy := none, ckptMarks := (0, 0, 0),
                      wdogT := 0x124F80, restarts := 0, restartCause := 0, restartSteps := [] }
    sec := { wiping := true, lastWipe := transition, imgCtr := s.sec.imgCtr, pendLc := s.sec.pendLc }
    plane := { rwl := s.plane.rwl, strap := s.plane.strap, coord := 0, grant := s.plane.grant, routeDrop := s.plane.routeDrop,
               epochDrop := s.plane.epochDrop, srcDrop := s.plane.srcDrop, partDrop := s.plane.partDrop, dup := s.plane.dup,
               stray := s.plane.stray }
    ports := s.ports.map (fun q => { clearPort q with st := .disabled, reason := 0 })
    cores := Vector.ofFn (fun n => wipedCore s.nv.bypass n.val)
    err := { fatal := s.err.fatal }
    pw := { islands := s.pw.islands, warn := s.pw.warn, hot := s.pw.hot, coolSince := s.pw.coolSince, total := s.pw.total,
            stackPower := s.pw.stackPower, vin := s.pw.vin, energy := s.pw.energy, temps := s.pw.temps } }

/-- COLD_RESET (R413): every register to its reset value, with what the fuses and the non-volatile store keep; the fatal
record survives (R432), and the image counter goes on from the block not yet reserved (R237). -/
def coldReset (s : State) : State :=
  { pending := s.pending, out := s.out, freeIx := s.freeIx, nv := s.nv
    sec := { imgCtr := s.nv.imgReserved }
    err := { fatal := s.err.fatal } }

/-- The RWL fields and the NV store after a transition commits (R387, R388, Table SEC-10). -/
def commitLc (dest : LifeCycle) (s : State) : State :=
  let nv := s.nv
  let keep : Nv := { nv with lc := dest }
  match dest with
  | .blank => { s with nv := { keep with prov := none }, plane := { s.plane with rwl := {} } }
  | .provisioned =>
    if s.nv.lc = .blank then { s with nv := keep }
    else { s with nv := { keep with prov := none }, plane := { s.plane with rwl := {} } }
  | .operational =>
    if s.nv.lc = .provisioned then { s with nv := { keep with prov := some s.plane.rwl, provCount := nv.provCount + 1 } }
    else { s with nv := keep }
  | .service => { s with nv := keep }
  | .retired => { s with nv := { keep with prov := none, idkey := none } }

/-- The end of the Autumn wipe and of the keyed clear of units 0 and 1: ZKEY is drawn, the count rises, a transition
commits, and a cold bring-up goes on to phase 0x5 (R378, R383, R390, R414). -/
def wipeEnd (s : State) : State :=
  let up := s.cc.bootph == 4
  if s.sec.wiping = false ∨ s.cc.bootph < 4 ∨ 8 < s.cc.bootph then s else
  let s := { s with
    sec := { s.sec with wiping := false, zkey := some (Config.free 512 s.freeIx) }
    nv := { s.nv with wipes := satAdd cnt16Max s.nv.wipes 1 }
    freeIx := s.freeIx + 1
    cc := { s.cc with bootph := if up then 5 else s.cc.bootph } }
  let s := raiseInt 2 0 s
  match s.sec.pendLc with
  | some d =>
    strapCoord (endPending (fun w => match w with | .transition _ => true | _ => false) 0
      (commitLc d { s with sec := { s.sec with pendLc := none } }))
  | none => s

/-! ### The commands -/

/-- COLD_RESET (R413). -/
def execColdReset (s : State) : Host.Outcome State Fault Refusal := .next (coldReset s)

/-- What a hello may change: a refused admission ends the membership, and no core belongs to a partition before the first step
(Table CTRL-10). -/
def footHello (s t : State) : State :=
  { t with pending := s.pending, cores := s.cores, sec := keepLc s t, nv := { s.nv with lastFatal := t.nv.lastFatal } }

/-- HELLO_RX (R354). -/
def execHelloRx (port : PortIx) (hello : List Byte) (s : State) : Host.Outcome State Fault Refusal :=
  .next (footHello s (helloRx port hello s))

/-- What the end of a partition's wipe or keyed clear may change. -/
def footWipe (s t : State) : State := { s with cc := t.cc, regs := t.regs, parts := t.parts, err := t.err }

/-- PARTITION_WIPE_DONE (R417). -/
def execPartitionWipeDone (part : Part) (s : State) : Host.Outcome State Fault Refusal := .next (footWipe s (wipeDone part s))

/-- KEYED_CLEAR_DONE (R374). -/
def execKeyedClearDone (part : Part) (s : State) : Host.Outcome State Fault Refusal := .next (footWipe s (clearDone part s))

end Sys2Proof.Machine
end

