-- ==== Sys2Proof/Machine/Security.lean ====
section
/-!
DEFINITION. Session commands (R371, R380, R381, Table SEC-6), the SPDM responder (R379, R386) and the MCTP control
commands (R405).
-/

namespace Sys2Proof.Machine

/-- Codes of Table SEC-3. -/
def pCode : PState → Nat
  | .idle => 0 | .configured => 1 | .claimed => 2 | .keying => 3 | .keyed => 4 | .resetting => 5

/-- Codes of Table SEC-9. -/
def lcCode : LifeCycle → Nat
  | .blank => 0 | .provisioned => 1 | .operational => 2 | .service => 3 | .retired => 4

/-! ### What the management path answers, phase by phase (Table CTRL-9, R390, R415) -/

/-- MCTP control commands are answered. -/
def mctpOpen (s : State) : Bool :=
  decide (2 ≤ s.cc.bootph ∧ s.cc.bootph ≠ 4) && !(s.sec.wiping && decide (5 ≤ s.cc.bootph ∧ s.cc.bootph ≤ 8))

/-- SPDM messages other than GET_VERSION are answered. -/
def spdmOpen (s : State) : Bool := decide (5 ≤ s.cc.bootph ∧ s.cc.bootph ≤ 8) && !s.sec.wiping

/-! ### Session commands (R380, R381) -/

/-- The open session with a number, once FINISH has been answered. -/
def sessionOf (s : State) (n : Fin 8) : Option Session := s.sec.sessions[n].filter Session.established

/-- A session command's response. -/
def answerSession (n : Fin 8) (cmd status : Nat) (body : List Byte) (s : State) : State :=
  raiseInt 2 1 (send (.session n.val cmd status body) s)

/-- A residency command that is not yet DONE names a key slot (R381). -/
def keyNamed (q : PartSt) (s : State) (p : Part) (key : Nat) : Bool :=
  q.resq.ents.any (fun c => match c with
    | .save _ _ k _ => k == key
    | .evict _ true k _ => k == key
    | _ => false)
  || q.cold.any (fun c => match c with
    | .write _ _ _ k _ _ _ _ => k == key
    | _ => false)
  || s.evictNext.any (fun e => decide (e.part = p) && e.save && e.key == key)

/-- The checks of R381 in order: format and length, authority, bounds, state; the status of the first that fails, 0 when
none does. `own` tells whether the session's requester is the authority the command needs. -/
def sessionStatus (s : State) (x : Session) (fmt own bounds state : Bool) : Nat :=
  if !fmt then 2
  else if !x.mutualOk || !own then 3
  else if !bounds then 2
  else if s.nv.lc != .operational || !state then 1
  else 0

/-- A command of a partition's session: format of its PART and body length, owner, bounds and state by the arguments,
and its effect when every check passes. -/
def partSession (n : Fin 8) (cmd : Nat) (part : Byte) (body : List Byte) (len : Nat) (anyOwner : Bool) (bounds : Bool)
    (state : PartSt → Bool) (act : Part → Session → State → Nat × List Byte × State) (s : State) : State :=
  match sessionOf s n with
  | none => s
  | some x =>
    let p : Part := Fin.ofNat 16 part.toNat
    let q := s.parts[p]
    let fmt := decide (part.toNat < 16) && body.length == len
    let own := anyOwner || q.owner == some x.digest
    let st := sessionStatus s x fmt own bounds (state q)
    if st = 0 then
      let r := act p x s
      answerSession n cmd r.1 r.2.1 r.2.2
    else answerSession n cmd st [] s

/-- The map of filled key slots. -/
def keyMap (q : PartSt) : Nat :=
  q.akeys.toList.zipIdx.foldl (fun a x => if x.1.isSome then a + 2 ^ x.2 else a) 0

/-- GET_PINFO: the state; to the owner also OWNER, POLICY and the key map. The body's layout is the model's. -/
def pinfo (p : Part) (x : Session) (s : State) : Nat × List Byte × State :=
  let q := s.parts[p]
  let more := match q.owner with
    | some o => if o = x.digest then o ++ leBytes 4 q.policy.toNat ++ leBytes 8 (keyMap q) else []
    | none => []
  (0, leBytes 1 (pCode q.st) ++ more, s)

/-- CLAIM: OWNER becomes the requester's digest. -/
def claimAct (p : Part) (x : Session) (s : State) : Nat × List Byte × State :=
  (0, [], modPart p (fun q => { q with owner := some x.digest, st := .claimed }) s)

/-- PUT_PKEY: MKEY, CKEY and IKEY drawn; the keyed clear of the window begins (R383). -/
def putPkeyAct (key : List Byte) (p : Part) (_ : Session) (s : State) : Nat × List Byte × State :=
  let i := s.freeIx
  let s := zeroWindow p { s with freeIx := i + 3 }
  (0, [], modPart p (fun q => { q with
    pkey := some (BitVec.ofNat 256 (leNat key)), mkey := some (Config.free 512 i), ckey := some (Config.free 512 (i + 1)),
    ikey := some (Config.free 256 (i + 2)), st := .keying, ready := false }) s)

/-- PUT_KEY: the adapter key unwrapped under PKEY; an integrity failure fills nothing. -/
def putKeyAct (slot : Nat) (wrapped : List Byte) (p : Part) (_ : Session) (s : State) : Nat × List Byte × State :=
  match s.parts[p].pkey with
  | none => (4, [], s)
  | some k =>
    match keyUnwrap (keyBytes k) wrapped with
    | none => (4, [], s)
    | some a => (0, [], modPart p (fun q => { q with akeys := vset q.akeys slot (some (BitVec.ofNat 256 (leNat a))) }) s)

/-- DEL_KEY: the slot zeroed. -/
def delKeyAct (slot : Nat) (p : Part) (_ : Session) (s : State) : Nat × List Byte × State :=
  (0, [], modPart p (fun q => { q with akeys := vset q.akeys slot none }) s)

/-- SET_POLICY: POLICY for the next boundary. -/
def setPolicyAct (body : List Byte) (p : Part) (_ : Session) (s : State) : Nat × List Byte × State :=
  (0, [], modPart p (fun q => { q with policyNext := some (BitVec.ofNat 2 (leNat body)) }) s)

/-- A PRESET is taken (order 1 of Table CTRL-11): the partition's candidates for the next step are withdrawn (R275). With no
step running the following orders act at once (log entry 40). -/
def takePreset (operator : Bool) (p : Part) (s : State) : State :=
  if s.run.isOpen then
    let s := { s with adm := { s.adm with
      next := s.adm.next.map (fun a => if a.part = p then { a with akind := 4 } else a) } }
    modPart p (fun q => { q with presetPend := some operator }) s
  else actPreset p s

/-- PRESET in the owner's session. -/
def presetAct (p : Part) (_ : Session) (s : State) : Nat × List Byte × State := (0, [], takePreset false p s)

/-- PUT_LINKKEY: LKEY set, in a slice in state FORMING, by the slice owner. -/
def putLinkkey (n : Fin 8) (part : Byte) (body : List Byte) (s : State) : State :=
  match sessionOf s n with
  | none => s
  | some x =>
    let own := match s.plane.plan with | some pl => pl.slowner == x.digest | none => false
    let st := sessionStatus s x (part.toNat == 255 && body.length == 32) own true (s.plane.st == .forming)
    if st = 0 then
      answerSession n 0x10 0 [] (holdWaiting { s with sec := { s.sec with lkey := some (BitVec.ofNat 256 (leNat body)) } })
    else answerSession n 0x10 st [] s

/-- A partition takes its owner's commands: no PRESET has been accepted (R417). -/
def notPreset (q : PartSt) : Bool := q.presetPend.isNone

/-- What a session command may change. -/
def footSession (s t : State) : State :=
  { s with out := t.out, freeIx := t.freeIx, regs := t.regs, hbm := t.hbm, parts := t.parts, sec := keepLc s t, adm := t.adm,
           cores := keepAssign s t, clusters := t.clusters, slots := t.slots, vrecs := t.vrecs, attrNext := t.attrNext,
           evictNext := t.evictNext, residentNext := t.residentNext, tensors := t.tensors, tensorNext := t.tensorNext,
           freezeNext := t.freezeNext, tdigs := t.tdigs, recs := t.recs, rings := t.rings,
           ports := t.ports, plane := t.plane, err := t.err }

/-- GET_PINFO (R371). -/
def execGetPinfo (session : Fin 8) (part : Byte) (body : List Byte) (s : State) : Host.Outcome State Fault Refusal :=
  .next (footSession s (partSession session 0x01 part body 0 true true (fun _ => true) pinfo s))

/-- CLAIM (R374). -/
def execClaim (session : Fin 8) (part : Byte) (body : List Byte) (s : State) : Host.Outcome State Fault Refusal :=
  .next (footSession s (partSession session 0x02 part body 0 true true (fun q => q.st == .configured) claimAct s))

/-- PUT_PKEY (R383). -/
def execPutPkey (session : Fin 8) (part : Byte) (body : List Byte) (s : State) : Host.Outcome State Fault Refusal :=
  .next (footSession s (partSession session 0x03 part body 32 false true (fun q => q.st == .claimed && notPreset q)
    (putPkeyAct body) s))

/-- PUT_KEY (R380). -/
def execPutKey (session : Fin 8) (part slot : Byte) (body : List Byte) (s : State) : Host.Outcome State Fault Refusal :=
  let p : Part := Fin.ofNat 16 part.toNat
  .next (footSession s (partSession session 0x04 part body 40 false (decide (slot.toNat < 64))
    (fun q => q.st == .keyed && notPreset q && (q.akeys.getD slot.toNat none).isNone && !keyNamed q s p slot.toNat)
    (putKeyAct slot.toNat body) s))

/-- DEL_KEY (R380). -/
def execDelKey (session : Fin 8) (part slot : Byte) (body : List Byte) (s : State) : Host.Outcome State Fault Refusal :=
  let p : Part := Fin.ofNat 16 part.toNat
  .next (footSession s (partSession session 0x05 part body 0 false (decide (slot.toNat < 64))
    (fun q => q.st == .keyed && notPreset q && (q.akeys.getD slot.toNat none).isSome && !keyNamed q s p slot.toNat)
    (delKeyAct slot.toNat) s))

/-- SET_POLICY (R380); the reserved bits of its body have no effect (R9). -/
def execSetPolicy (session : Fin 8) (part : Byte) (body : List Byte) (s : State) : Host.Outcome State Fault Refusal :=
  .next (footSession s (partSession session 0x06 part body 4 false true
    (fun q => q.st == .keyed && notPreset q) (setPolicyAct body) s))

/-- PRESET in the owner's session (R376). -/
def execPresetSession (session : Fin 8) (part : Byte) (body : List Byte) (s : State) : Host.Outcome State Fault Refusal :=
  let t := partSession session 0x07 part body 0 false true
    (fun q => (q.st == .claimed || q.st == .keyed) && notPreset q) presetAct s
  .next { footSession s t with cores := t.cores }

/-- PUT_LINKKEY (R380). -/
def execPutLinkkey (session : Fin 8) (part : Byte) (body : List Byte) (s : State) : Host.Outcome State Fault Refusal :=
  .next (footSession s (putLinkkey session part body s))

/-! ### The SPDM responder (R379, Table SEC-5) -/

/-- An SPDM response; the message raises its interrupt (Table REGS-3). -/
def spdmAnswer (what : String) (body : List Byte) (s : State) : State := raiseInt 1 1 (send (.spdm what body) s)

/-- An SPDM request that the responder takes after the algorithms are agreed. -/
def spdmAgreed (act : State → State) (s : State) : State :=
  if spdmOpen s = false then s
  else if s.sec.negotiated then act s
  else spdmAnswer "ERROR" [] s

/-- A signature with IDKEY over a transcript; the per-signature secret is a free value. None once RETIRE has destroyed IDKEY. -/
def idSign (msg : List Byte) (s : State) : Option (List Byte) × State :=
  match s.nv.idkey with
  | some k => (some (ecdsaSign k.toNat (Config.free 384 s.freeIx).toNat msg), { s with freeIx := s.freeIx + 1 })
  | none => (none, s)

/-- The certificate slots: only slot 0 exists. -/
def certSlot (slot : Byte) : Bool := slot == 0

/-- A signed response over the transcript that the request completes. -/
def spdmSigned (what : String) (body transcript : List Byte) (s : State) : State :=
  let r := idSign (transcript ++ body) s
  match r.1 with
  | some sig => spdmAnswer what (body ++ sig) r.2
  | none => spdmAnswer "ERROR" [] r.2

/-- The content of a measurement (Table SEC-8); none for an index it does not list. -/
def measurement (s : State) (i : Nat) : Option (List Byte) :=
  if i = 1 then some s.cc.romDigest
  else if i = 2 then
    some (match s.cc.image with | some f => f.digest ++ leBytes 4 f.fwver.toNat | none => List.replicate 52 0)
  else if i = 3 then
    some (leBytes 1 (lcCode s.nv.lc) ++ (match s.nv.prov with
      | some r => sha384 (Config.provRecord r.coordSrc r.thThrottle r.thTrip s.nv.provCount)
      | none => List.replicate 48 0))
  else if i = 4 then
    some (leBytes 2 Config.stepping ++ sha384 (Config.fuseMap s.nv.idser (s.nv.bypass.map (fun x => (x.1.val, x.2.val)))))
  else if i = 5 then some (match s.plane.plan with | some p => p.digest ++ p.slowner | none => List.replicate 96 0)
  else if h : 16 ≤ i ∧ i < 32 then
    let q := s.parts[i - 16]'(by omega)
    some (leBytes 1 (pCode q.st) ++ leBytes 1 (b2n q.owner.isSome))
  else none

/-- The indices of Table SEC-8. -/
def measIndices : List Nat := [1, 2, 3, 4, 5] ++ (List.range 16).map (· + 16)

/-- GET_MEASUREMENTS: one index, or all with 0xFF, signed with IDKEY (R386). -/
def getMeas (index : Byte) (transcript : List Byte) (s : State) : State :=
  let l := if index.toNat = 255 then measIndices else [index.toNat]
  let blocks := l.map (fun i => (measurement s i).map (fun b => leBytes 1 i ++ leBytes 2 b.length ++ b))
  if blocks.all Option.isSome then spdmSigned "MEASUREMENTS" (blocks.filterMap id).flatten transcript s
  else spdmAnswer "ERROR" [] s

/-- KEY_EXCHANGE: a new session under the lowest free number; a ninth is answered BUSY. -/
def keyExchange (peer : SpdmPeer) (s : State) : State :=
  match (List.finRange 8).find? (fun n => s.sec.sessions[n].isNone) with
  | none => spdmAnswer "BUSY" [] s
  | some n =>
    let x : Session := { digest := peer.digest, mutualOk := peer.mutualOk, key := Config.free 256 s.freeIx, alive := s.mc.tick.toNat }
    spdmAnswer "KEY_EXCHANGE_RSP" (leBytes 1 n.val)
      { s with freeIx := s.freeIx + 1, sec := { s.sec with sessions := vmod s.sec.sessions n (fun _ => some x) } }

/-- A message inside an open session. -/
def inSession (n : Fin 8) (f : Session → Option Session) (what : String) (s : State) : State :=
  if spdmOpen s = false then s else
  match s.sec.sessions[n] with
  | none => spdmAnswer "ERROR" [] s
  | some x => spdmAnswer what [] { s with sec := { s.sec with sessions := vmod s.sec.sessions n (fun _ => f x) } }

/-- What an SPDM or MCTP message may change. -/
def footSpdm (s t : State) : State := { s with out := t.out, freeIx := t.freeIx, regs := t.regs, sec := keepLc s t, cc := t.cc }

/-- GET_VERSION (R379), answered in the Autumn wipe too (R390): a new negotiation begins (DSP0274). -/
def execGetVersion (s : State) : Host.Outcome State Fault Refusal :=
  let go := decide (4 ≤ s.cc.bootph ∧ s.cc.bootph ≤ 8)
  .next (footSpdm s (if go then spdmAnswer "VERSION" (leBytes 2 0x1300) { s with sec := { s.sec with negotiated := false } } else s))

/-- GET_CAPABILITIES (R379). -/
def execGetCapabilities (s : State) : Host.Outcome State Fault Refusal :=
  .next (footSpdm s (if spdmOpen s then spdmAnswer "CAPABILITIES" [] s else s))

/-- NEGOTIATE_ALGORITHMS (R379): the algorithms of Table SEC-5 and no others. -/
def execNegotiateAlgorithms (offersAll : Bool) (s : State) : Host.Outcome State Fault Refusal :=
  .next (footSpdm s (if spdmOpen s then
    spdmAnswer (if offersAll then "ALGORITHMS" else "ERROR") [] { s with sec := { s.sec with negotiated := offersAll } } else s))

/-- GET_DIGESTS (R379): the digest of the chain of slot 0. -/
def execGetDigests (s : State) : Host.Outcome State Fault Refusal :=
  .next (footSpdm s (spdmAgreed (fun s => spdmAnswer "DIGESTS" (sha384 s.nv.chain) s) s))

/-- GET_CERTIFICATE (R379). -/
def execGetCertificate (slot : Byte) (s : State) : Host.Outcome State Fault Refusal :=
  .next (footSpdm s (spdmAgreed (fun s => if certSlot slot then spdmAnswer "CERTIFICATE" s.nv.chain s else spdmAnswer "ERROR" [] s) s))

/-- CHALLENGE (R379). -/
def execChallenge (slot : Byte) (transcript : List Byte) (s : State) : Host.Outcome State Fault Refusal :=
  .next (footSpdm s (spdmAgreed (fun s =>
    if certSlot slot then spdmSigned "CHALLENGE_AUTH" (sha384 s.nv.chain) transcript s else spdmAnswer "ERROR" [] s) s))

/-- GET_MEASUREMENTS (R386). -/
def execGetMeasurements (index : Byte) (transcript : List Byte) (s : State) : Host.Outcome State Fault Refusal :=
  .next (footSpdm s (spdmAgreed (getMeas index transcript) s))

/-- KEY_EXCHANGE (R379). -/
def execKeyExchange (peer : SpdmPeer) (s : State) : Host.Outcome State Fault Refusal :=
  .next (footSpdm s (spdmAgreed (keyExchange peer) s))

/-- FINISH (R379): the session is established. -/
def execFinish (session : Fin 8) (s : State) : Host.Outcome State Fault Refusal :=
  .next (footSpdm s (inSession session (fun x => some { x with established := true, alive := s.mc.tick.toNat }) "FINISH_RSP" s))

/-- HEARTBEAT (R379). -/
def execHeartbeat (session : Fin 8) (s : State) : Host.Outcome State Fault Refusal :=
  .next (footSpdm s (inSession session (fun x => some { x with alive := s.mc.tick.toNat }) "HEARTBEAT_ACK" s))

/-- SESSION_EXPIRY (R379): the heartbeat period of DSP0274 has passed without a message; the partition keeps its state
and keys (Table SEC-13). -/
def execSessionExpiry (session : Fin 8) (s : State) : Host.Outcome State Fault Refusal :=
  .next { s with sec := { s.sec with sessions := vmod s.sec.sessions session (fun _ => none) } }

/-- KEY_UPDATE (R379): the session's keys are replaced. -/
def execKeyUpdate (session : Fin 8) (s : State) : Host.Outcome State Fault Refusal :=
  let k := Config.free 256 s.freeIx
  .next (footSpdm s (inSession session (fun x => some { x with key := k, alive := s.mc.tick.toNat }) "KEY_UPDATE_ACK"
    { s with freeIx := s.freeIx + 1 }))

/-- END_SESSION (R379). -/
def execEndSession (session : Fin 8) (s : State) : Host.Outcome State Fault Refusal :=
  .next (footSpdm s (inSession session (fun _ => none) "END_SESSION_ACK" s))

/-! ### MCTP control (R405) -/

/-- An MCTP control response; the message raises its interrupt. -/
def mctpAnswer (what : String) (body : List Byte) (s : State) : State :=
  if mctpOpen s then raiseInt 1 0 (send (.mctp what body) s) else s

/-- SET_ENDPOINT_ID (R405); 0x00 and 0xFF are no endpoint IDs (DSP0236). -/
def execSetEndpointId (eid : Byte) (s : State) : Host.Outcome State Fault Refusal :=
  let ok := eid != 0 && eid != 0xFF
  let t := mctpAnswer "SET_ENDPOINT_ID" (leBytes 1 (if ok then 0 else 2)) s
  .next (footSpdm s (if mctpOpen s ∧ ok = true then { t with cc := { t.cc with eid := eid } } else t))

/-- GET_ENDPOINT_ID (R405). -/
def execGetEndpointId (s : State) : Host.Outcome State Fault Refusal :=
  .next (footSpdm s (mctpAnswer "GET_ENDPOINT_ID" [s.cc.eid] s))

/-- GET_ENDPOINT_UUID (R405). -/
def execGetEndpointUuid (s : State) : Host.Outcome State Fault Refusal :=
  .next (footSpdm s (mctpAnswer "GET_ENDPOINT_UUID" (leBytes 16 s.nv.uuid.toNat) s))

/-- The message types of R405: control, SPDM, secured messages, vendor defined. -/
def mctpTypes : List Byte := [0x00, 0x05, 0x06, 0x7F]

/-- GET_MCTP_VERSION_SUPPORT (R405): whether a message type is supported; 0xFF asks for the base. -/
def execGetMctpVersionSupport (msgType : Byte) (s : State) : Host.Outcome State Fault Refusal :=
  .next (footSpdm s (mctpAnswer "GET_MCTP_VERSION_SUPPORT"
    (leBytes 1 (if msgType == 0xFF || mctpTypes.contains msgType then 0 else 0x80)) s))

/-- GET_MESSAGE_TYPE_SUPPORT (R405). -/
def execGetMessageTypeSupport (s : State) : Host.Outcome State Fault Refusal :=
  .next (footSpdm s (mctpAnswer "GET_MESSAGE_TYPE_SUPPORT" mctpTypes s))

/-- GET_VENDOR_DEFINED_MSG_SUPPORT (R405): the enterprise number ID_PEN. -/
def execGetVendorDefinedMsgSupport (s : State) : Host.Outcome State Fault Refusal :=
  .next (footSpdm s (mctpAnswer "GET_VENDOR_DEFINED_MSG_SUPPORT" (leBytes 4 s.nv.pen.toNat) s))

end Sys2Proof.Machine
end

