-- ==== Sys2Proof/Machine/Sync.lean ====
section
/-!
DEFINITION. The March counter between boundaries (R302 to R316, R321): sync exchanges, lock and holdover, external sync,
the March control messages, and the commands MARCH and MARCH_DEADLINE.
-/

namespace Sys2Proof.Machine

/-! ### One time across the slice (R303 to R307) -/

/-- The tick count in bits 47:0 of the extended tick. -/
def tickLow (s : State) : Nat := s.mc.tick.toNat % 2 ^ 48

/-- The root of a box (R303). -/
def rootOf (pl : Plan) : Coord :=
  mkCoord (cx pl.org + pl.dim.1 / 2) (cy pl.org + pl.dim.2.1 / 2) (cz pl.org + pl.dim.2.2 / 2)

/-- The parent port: the first hop of this chip's normal route toward the root; none at the root. -/
def parentOf (s : State) (pl : Plan) : Option PortIx :=
  let e := entryAt pl s.plane.cut (fun p => s.ports[p].st == .up) false s.plane.coord (rootOf pl)
  if h : e % 8 < 6 then some ⟨e % 8, h⟩ else none

/-- Body of a TSYNC (Table PLANE-19). -/
def tsyncBody (xseq dir t1 t2 t3 : Nat) : List Byte :=
  leBytes 32 (xseq + put 16 dir + put 64 t1 + put 128 t2 + put 192 t3)

/-- A TSYNC sent to the neighbour of a port: one hop on the maintenance channel, MSG counted per link (Table PLANE-8). -/
def sendTsync (i : PortIx) (body : List Byte) (s : State) : State :=
  let no := s.ports[i].tsyncNo
  sendOn 6 i 3 false (mkMsg s 8 no 0 ((neighCoord s.plane.coord i).getD 0) body) (modPort i (fun q => { q with tsyncNo := (no + 1) % 65535 }) s)

/-- A timestamp as TSYNC carries it: bits 53:0. -/
def stamp54 (t : Nat) : Nat := t % 2 ^ 54

/-- The difference of two timestamps: they wrap with the tick count (R302; log entry 127). -/
def stampDiff (a b : Nat) : Int := sgn 54 ((a + (2 ^ 54 - b % 2 ^ 54)) % 2 ^ 54)

/-- SYNC_EXCHANGE: this end starts an exchange on a link (R304). -/
def syncExchange (i : PortIx) (tx : Nat) (s : State) : State :=
  if portCarries s i 3 = false then s else
  let n := s.ports[i].syncSeq
  sendTsync i (tsyncBody (n % 65536) 0 (stamp54 tx) 0 0)
    (modPort i (fun q => { q with syncSeq := n + 1, syncT1 := some (stamp54 tx) }) s)

/-- A LOCK entry: INFO0 0 lost, 1 regained, INFO1 the offset (Table REL-7). -/
def lockEntry (regained : Bool) (s : State) : State :=
  raiseInt 5 0 (chipLog 0x0F .event 0 0 (b2n regained) (twos 64 s.mc.offset) s)

/-- LOCKED set or cleared; each change adds its entry (R306, R307). -/
def setLock (v : Bool) (s : State) : State :=
  if s.mc.locked = v then s else lockEntry v { s with mc := { s.mc with locked := v } }

/-- The rate trim that removes an offset: within ±200 ppm, its law is not given (a free value, log entry 1). -/
def trimOf (i : Nat) : Int := ((Config.free 16 i).toNat % 401 : Nat) - 200

/-- An offset from the parent measured: the trim follows, the run of exchanges within ±1 ns counts toward LOCKED, and
holdover ends (R304, R306, R307). -/
def takeOffset (off : Int) (s : State) : State :=
  let run := if off.natAbs ≤ 64 then s.mc.okRun + 1 else 0
  let t : State := { s with
    freeIx := s.freeIx + 1
    mc := { s.mc with offset := off, okRun := run, trim := trimOf s.freeIx, holdover := none } }
  setLock (decide (16 ≤ run)) t

/-- WRAP of a parent's tick count that a child copies: a TSYNC carries the tick count alone, so a count below START_TICK's is taken
to have wrapped once since admission (log entry 146). -/
def parentWrap (pl : Plan) (now : Nat) : Nat :=
  pl.startTick.toNat / 2 ^ 48 + (if now < pl.startTick.toNat % 2 ^ 48 then 1 else 0)

/-- The starting values copied from the parent (R303): the step number, and the parent's tick at this moment. -/
def takeStart (pl : Plan) (now : Nat) (s : State) : State :=
  if s.mc.started then s
  else { s with mc := { s.mc with started := true, step := pl.startStep, tick := BitVec.ofNat 64 (parentWrap pl now * 2 ^ 48 + now) } }

/-- What a hop adds to FLOOD_MEAS, in units of 1/6,400 ns: its measured delay and 3 repeat intervals of 1.28 ns at the port's
width (R310, R336). -/
def hopCost (q : PortSt) : Nat := 100 * q.delay + 3 * 8192 * 2 ^ q.width

/-- The largest such sum, in ticks, over the pieces of flood paths that cross this chip: a hop that ends here and one that the
line pattern then takes, over links measured. -/
def ownFlood (pl : Plan) (s : State) : Nat :=
  let l := (List.finRange 6).filter (fun p => (boxNeigh pl s.plane.coord p).isSome && linkLive s.ports[p].st && s.ports[p].delay != 0)
  let cost := fun (p : PortIx) => hopCost s.ports[p]
  let sums := l.flatMap (fun a => cost a :: (l.filter (fun b => (patternPorts (some a)).contains b)).map (fun b => cost a + cost b))
  cdiv (sums.foldl max 0) 6400

/-- The answer to an exchange: delay of the link, and from the parent the offset. FLOOD_MEAS is formed again: never below
what this chip's own links give, and what paths between other chips add to that reaches the chip in no way that the spec gives (a
free value, log entry 42). With links cut, a G below it is reported (Table
PLANE-15). -/
def takeAnswer (i : PortIx) (t1 t2 t3 t4 : Nat) (s : State) : State :=
  let a := stampDiff t2 t1
  let b := stampDiff t4 t3
  let delay := ((a + b) / 2).toNat
  let t := modPort i (fun q => { q with delay := delay, syncT1 := none }) s
  match s.plane.plan with
  | none => t
  | some pl =>
    let t : State := { t with freeIx := t.freeIx + 1, mc := { t.mc with floodMeas := min 0xFFFF (max (ownFlood pl t) (Config.free 16 t.freeIx).toNat) } }
    let t := if t.plane.cut ≠ [] ∧ t.mc.guard < t.mc.floodMeas then report "GUARD" t else t
    if s.mc.parent ≠ some i then t
    else if s.mc.started then takeOffset ((a - b) / 2) t
    else takeStart pl ((t3 + delay) / 64 % 2 ^ 48) t

/-- A TSYNC received on a port with its receive timestamp (R304, Table PLANE-19). -/
def takeTsync (i : PortIx) (rx : Nat) (m : Msg) (s : State) : State :=
  let v := leAt m.body 0 32
  let xseq := nfld v 0 16
  if nfld v 16 1 = 0 then
    let tx := tickLow s * 64 + (Config.free 6 s.freeIx).toNat
    sendTsync i (tsyncBody xseq 1 (nfld v 64 64) (stamp54 rx) tx) { s with freeIx := s.freeIx + 1 }
  else
    let p := s.ports[i]
    if p.syncT1 = some (nfld v 64 64) ∧ (xseq + 1) % 65536 = p.syncSeq % 65536 then
      takeAnswer i (nfld v 64 54) (nfld v 128 54) (nfld v 192 54) (stamp54 rx) s
    else s

/-- HOLDOVER_EXPIRY: holdover beyond 4,000,000 ticks ends LOCKED (R307). -/
def holdoverExpiry (s : State) : State :=
  match s.mc.holdover with
  | some t => if t + 4000000 < s.mc.tick.toNat then setLock false { s with mc := { s.mc with okRun := 0 } } else s
  | none => s

/-! ### External sync (R314 to R316) -/

/-- R316: the edge is taken. -/
def edgeOk (s : State) (width : Nat) : Bool :=
  s.mc.eLast.isSome && s.run.isOpen && s.mc.syncm && s.mc.syncEn && !fencedOrCut s && decide (20 ≤ width) && s.mc.heldErr.isNone
    && (match s.mc.lastEdge with | some t => decide (t + 1000 ≤ s.mc.tick.toNat) | none => true)

/-- The error of an edge at tick t (R314). -/
def edgeError (t eLast sNext : Nat) : Int :=
  if (t : Int) - eLast ≤ (sNext : Int) - t then (t : Int) - eLast else (t : Int) - sNext

/-- STEP_SYNC_EDGE. -/
def syncEdge (width : Nat) (s : State) : State :=
  if edgeOk s width = false then { s with mc := { s.mc with syncIgn := satAdd cnt16Max s.mc.syncIgn 1 } }
  else
    let t := s.mc.tick.toNat
    let e := edgeError t (s.mc.eLast.getD 0) s.mc.sNext
    raiseInt 5 2 (floodMarch 2 s.mc.step (twos 64 e) { s with mc := { s.mc with heldErr := some e, lastEdge := some t } })

/-! ### March control messages (R309, R321, Table STEP-1) -/

/-- STEP. -/
def marchStep (m : Msg) : BitVec 64 := BitVec.ofNat 64 (nfld (leAt m.body 0 32) 8 64)
/-- VALUE. -/
def marchValue (m : Msg) : Nat := nfld (leAt m.body 0 32) 96 64

/-- A March control message of one TYPE. -/
def takeMarch (typ : Nat) (m : Msg) (act : State → State) (s : State) : State :=
  if mKind m = 6 ∧ marchType m ≠ typ then s else takeFlood 6 m act s

/-- A LATE that arrives by S is collected (R309). -/
def takeLate (m : Msg) (s : State) : State :=
  if s.mc.tick.toNat ≤ s.mc.sNext ∧ s.mc.lates.contains (mSrc m) = false then
    { s with mc := { s.mc with lates := s.mc.lates ++ [mSrc m] } }
  else s

/-- A DONE is collected with its arrival tick. -/
def takeDone (m : Msg) (s : State) : State := { s with mc := { s.mc with dones := s.mc.dones ++ [(mSrc m, marchValue m)] } }

/-- A SYNC: its error is held for the closing boundary (R314). -/
def takeSync (m : Msg) (s : State) : State := { s with mc := { s.mc with heldErr := some (sgn 64 (marchValue m)) } }

/-- A NOTICE makes the chip fence at the next boundary (R321). -/
def takeNotice (m : Msg) (s : State) : State := { s with mc := { s.mc with notice := some (marchStep m, mSrc m) } }

/-- A NOTICE is addressed to its chip alone. -/
def recvNotice (m : Msg) (s : State) : State :=
  if mKind m = 6 ∧ marchType m ≠ 3 then s
  else if mDst m = floodDst then takeFlood 6 m (takeNotice m) s
  else takeMsg 6 m (takeNotice m) s

/-! ### The March barrier (R132, R309) -/

/-- A queue of the running program has completed its last word. -/
def queueDone (s : State) (i : Issuer) : Bool := decide (i.count ≤ tabGet 0 s.run.ptr i.queue)

/-- Every queue but the control queue has completed its last word; a void step runs no word. -/
def queuesDone (s : State) : Bool :=
  s.run.void != 0 || (s.run.flight.isEmpty && (match s.run.prog with
    | some p => p.issuers.all (fun i => i.queue == 215 || queueDone s i)
    | none => true))

/-- The MARCH word of the control queue may issue. -/
def marchReady (s : State) : Bool :=
  s.run.isOpen && s.run.segmented && s.run.acted == 5 && s.mc.locked && !fencedOrCut s && s.err.fatal.isNone && !s.run.held && queuesDone s &&
    (s.run.void != 0 || (match readyWord s 215 with | some (_, w) => wOp w == 2 | none => false))

/-- MARCH: the chip arrives at the barrier; a chip that had flooded LATE floods DONE with its arrival tick. -/
def arrive (s : State) : State :=
  if marchReady s = false then s else
  let t := s.mc.tick.toNat
  let s := modRun (fun r => { r with acted := 6, ptr := if r.void = 0 then tabMod 0 r.ptr 215 (· + 1) else r.ptr }) s
  let s := { s with mc := { s.mc with arrived := some t } }
  if s.mc.ownLate then
    floodMarch 1 s.mc.step t { s with mc := { s.mc with dones := s.mc.dones ++ [(s.plane.coord, t)] } }
  else s

/-- MARCH_DEADLINE: at S − G the MARCH has not issued: LATE is flooded. -/
def deadline (s : State) : State :=
  if s.run.isOpen ∧ s.mc.arrived = none ∧ s.mc.ownLate = false ∧ s.mc.sNext ≤ s.mc.tick.toNat + s.mc.guard ∧ s.err.fatal.isNone = true then
    floodMarch 0 s.mc.step 0 { s with mc := { s.mc with ownLate := true, lates := s.mc.lates ++ [s.plane.coord] } }
  else s

/-! ### The commands -/

/-- What a time command or a March control message may change. -/
def footSync (s t : State) : State := { footNet s t with freeIx := t.freeIx }

/-- STEP_SYNC_EDGE (R314). -/
def execStepSyncEdge (widthNs : Nat) (s : State) : Host.Outcome State Fault Refusal := .next (footSync s (syncEdge widthNs s))

/-- SYNC_EXCHANGE (R304). -/
def execSyncExchange (port : PortIx) (txStamp : Nat) (s : State) : Host.Outcome State Fault Refusal :=
  .next (footSync s (syncExchange port txStamp s))

/-- TSYNC_MSG (R304). -/
def execTsyncMsg (port : PortIx) (rxStamp : Nat) (m : Msg) (s : State) : Host.Outcome State Fault Refusal :=
  .next (footSync s (takeMsg 8 m (takeTsync port rxStamp m) s))

/-- HOLDOVER_EXPIRY (R307). -/
def execHoldoverExpiry (s : State) : Host.Outcome State Fault Refusal := .next (footSync s (holdoverExpiry s))

/-- LATE_MSG (R309). -/
def execLateMsg (m : Msg) (s : State) : Host.Outcome State Fault Refusal := .next (footSync s (takeMarch 0 m (takeLate m) s))

/-- DONE_MSG (R309). -/
def execDoneMsg (m : Msg) (s : State) : Host.Outcome State Fault Refusal := .next (footSync s (takeMarch 1 m (takeDone m) s))

/-- SYNC_MSG (R314). -/
def execSyncMsg (m : Msg) (s : State) : Host.Outcome State Fault Refusal := .next (footSync s (takeMarch 2 m (takeSync m) s))

/-- NOTICE_MSG (R321). -/
def execNoticeMsg (m : Msg) (s : State) : Host.Outcome State Fault Refusal := .next (footSync s (recvNotice m s))

/-- MARCH (R132). -/
def execMarch (s : State) : Host.Outcome State Fault Refusal := .next (footSync s (arrive s))

/-- MARCH_DEADLINE (R309). -/
def execMarchDeadline (s : State) : Host.Outcome State Fault Refusal := .next (footSync s (deadline s))

end Sys2Proof.Machine
end

