-- ==== Sys2Proof/Machine/Tail.lean ====
section
/-!
DEFINITION. Actions 4 and 5 of Table ENGINE-5 (R180, R243, R277, R282, R291, R292, R298, R299, R428 to R431, Tables
REL-5, CTRL-11): the command TAIL_COMMIT; and the replay of a step (R433 to R435): the command STEP_REPLAY.
-/

namespace Sys2Proof.Machine

/-! ### Action 4: folds and tails -/

/-- A PRESET of the partition is under way and its boundary has not come. -/
def presetting (s : State) (p : Part) : Bool := s.parts[p].presetPend.isSome

/-- An admitted request runs in the step: neither withdrawn nor listed as not run. -/
def ranIn (a : Adm) : Bool := a.akind != 3 && a.akind != 4

/-- Every token report that action 4 awaits is in (R267); none of a cancelled request, of a partition being reset or in a
void step. -/
def reportsIn (s : State) : Bool :=
  s.run.void != 0 || s.run.adms.all (fun a => !ranIn a || !a.gen || a.cancelled || presetting s a.part || a.report.isSome)

/-- Action 4 may begin: every queue but the control queue is done, the hand-over check is over, and the reports are in. -/
def tailReady (s : State) : Bool :=
  s.run.isOpen && s.run.segmented && (s.run.void != 0 || s.run.checked) && decide (s.run.acted < 4) && s.err.fatal.isNone &&
    !s.run.held && !s.cc.restarting && queuesDone s && reportsIn s

/-- A waiting CANCEL that ends its request in the running step (R285): one taken for the next step or before. -/
def endsNowBy (s : State) (t : Taken) : Bool := waitsEnd s t && decide (t.step.toNat ≤ (nextStep s).toNat)

/-- The requests that the step cancels are marked: by a CANCEL, or by a PRESET of their partition (Table CTRL-11). -/
def markCancelled (s : State) : State :=
  let gone := (s.adm.taken.filter (endsNowBy s)).map Taken.req
  modRun (fun r => { r with adms := r.adms.map (fun a =>
    if a.akind ≠ 4 ∧ (gone.contains a.req = true ∨ presetting s a.part = true) then { a with cancelled := true } else a) }) s

/-- The report that action 4 commits for an admitted request. -/
def acceptedReport (a : Adm) : Option TokenReport := if ranIn a && !a.cancelled && a.gen then a.report else none

/-- The fold count of an admitted request (R180, R267): 0 when cancelled, the host's K where a report was awaited, and its
rows where none was. -/
def foldOf (a : Adm) : Nat :=
  if ranIn a = false ∨ a.cancelled = true then 0
  else match acceptedReport a with
    | some r => confirmed a.rows r
    | none => a.rows

/-- The bytes that an accepted report adds to OUTCRC (R282): D, the D confirmed drafts, C. -/
def reportBytes (q : ReqRec) (a : Adm) (r : TokenReport) : List Byte :=
  let d := draftCount q a r
  leBytes 1 d ++ ((q.nextToks.drop (b2n (tR0c r))).take d).flatMap (fun t => leBytes 4 t.toNat) ++ leBytes 4 (tC r).toNat

/-- An accepted report committed to the request record (R282, R298). -/
def commitReport (a : Adm) (r : TokenReport) (q : ReqRec) : ReqRec :=
  { q with
    lastTok := tC r, outcrc := crc64From q.outcrc (reportBytes q a r), newDone := q.newDone + draftCount q a r + 1,
    nextToks := r.toks.take (tNnext r) }

/-- The request ends with the step (R277, R300): it was cancelled, its report or its MAXNEW ends it, or its prompt is
complete and it generates nothing. -/
def endedBy (q : ReqRec) (a : Adm) : Bool :=
  a.cancelled || (ranIn a && ((a.prefillEnd && !a.gen) ||
    (match acceptedReport a with | some r => tEnd r || decide (q.maxNew ≤ q.newDone) | none => false)))

/-- The count table of an admitted request after action 4 (R292): the first k tail tokens fold, the tail is gone. -/
def foldTail (k : Nat) (c : CountTab) : CountTab := { (c.tail.take k).foldl foldToken c with tail := [] }

/-- Action 4 for one admitted request. -/
def commitAdm (a : Adm) (s : State) : State :=
  if a.akind = 4 then s else
  let k := foldOf a
  let s := modCtab a.part a.req (foldTail k) s
  let full := !(tabGet {} s.parts[a.part].ctabs a.req).spill.isEmpty
  let s := modReq a.req (fun q => { q with ctFull := q.ctFull || full }) s
  let s := match acceptedReport a with
    | some r =>
      let s := modReq a.req (commitReport a r) s
      if a.akind = 2 ∧ k = 0 then
        modPart a.part (fun q => { q with counted := { q.counted with specZero := q.counted.specZero + 1 } }) s
      else s
    | none => s
  let code := match s.run.rcc.find? (fun r => r.req == a.req) with | some r => r.code | none => 0
  modAdm a.req (fun x => { x with fold := k, rcc := code, done := endedBy (recOf s a.req) x }) s

/-- Page commands at the front of the command rings that a list of the running step holds back (R182, RC_HELD). -/
def heldPages (s : State) : Nat :=
  ((List.finRange 16).map (fun p =>
    ((s.parts[p].rccq.ents).filter (fun e => (pcTouches s.parts[p] e).any (fun d => (stepPages s p).contains d))).length)).sum

/-- Action 4 of Table ENGINE-5; actions 2 and 3 have been done by the words of the program. A void step commits nothing. -/
def action4 (s : State) : State :=
  let held := heldPages s
  let s := if s.run.void = 0 then beginAction2 s else s
  let s := markCancelled s
  let s := if s.run.void = 0 then
      rccCommit (fun r => match admOf s r with | some a => foldOf a | none => 0) s
    else s
  let s := s.run.adms.foldl (fun s a => commitAdm a s) s
  modRun (fun r => { r with acted := 4 }) { s with rcc := { s.rcc with held := min 0xFFFE held } }

/-! ### Action 5: what ends (R243, R277, R285, R289, Table CTRL-11) -/

/-- A request ends: its pin falls, its record is ENDING, its completion record tells how. -/
def endReq (req : Nat) (how : CState) (s : State) : State :=
  let q := recOf s req
  let s := if q.st = .running then modPins q.slot q.version (· - 1) s else s
  let s := modReq req (fun q => { q with st := .ending, ringEn := false, notRun := none, fromHold := none }) s
  setCompl q.part { seq := q.seq, req, st := how, newDone := q.newDone % 65536, outcrc := q.outcrc, when_ := s.mc.step } s

/-- The requests of the step that end in it. -/
def endAdms (s : State) : State :=
  s.run.adms.foldl (fun s a =>
    if a.akind ≠ 4 ∧ a.done = true ∧ (recOf s a.req).st = .running then
      endReq a.req (if a.cancelled then .cancelled else .done) s
    else s) s

/-- Cancelled requests that do not run in the step, and the requests of a partition being reset, end CANCELLED. -/
def endOthers (s : State) : State :=
  let s := (s.adm.taken.filter (endsNowBy s)).foldl (fun s t => endReq t.req .cancelled s) s
  let s := s.recs.foldl (fun s x =>
    if presetting s x.2.part = true ∧ x.2.st ≠ .free ∧ (recOf s x.1).st ≠ .ending then endReq x.1 .cancelled s else s) s
  { s with parts := s.parts.map (fun q => if q.presetPend.isSome then { q with st := .resetting, ready := false } else q) }

/-- Expired holds: the pin falls, the completion record is EXPIRED, the entry is FREE (R289). A hold whose moves are over
makes its completion record HELD with the handle (R277, R288). -/
def endHolds (p : Part) (s : State) : State :=
  s.parts[p].holds.foldl (fun s x =>
    let h := holdOf s.parts[p] x.1
    let c := complOf s.parts[p] h.seq
    if h.st = .ended then
      let s := modPins h.slot h.version (· - 1) s
      let s := match c with
        | some c => setCompl p { c with st := .expired, newDone := h.newDone, outcrc := h.outcrc, when_ := s.mc.step,
                                        byCancel := h.cancelled } s
        | none => s
      modHold p x.1 (fun y => { gen := y.gen }) s
    else if h.st = .held then
      match c with
      | some c =>
        if c.st = .live then
          setCompl p { c with st := .held, newDone := h.newDone, outcrc := h.outcrc, when_ := handleOf x.1 h } s
        else s
      | none => s
    else s) s

/-- The ends of action 5. -/
def action5Ends (s : State) : State := (List.finRange 16).foldl (fun s p => endHolds p s) (endOthers (endAdms s))

/-! ### Action 5: drops and counters (R36, R37, R40, R472) -/

/-- The drop codes of the rows of an admitted request. -/
def admDrops (s : State) (a : Adm) : List Nat :=
  if s.run.void ≠ 0 ∨ a.akind = 4 then [] else ((s.run.drops.drop a.first).take a.rows).filter (· != 0)

/-- Drop flags and counts, once for each dropped row; a void step counts none. -/
def sealDrops (s : State) : State :=
  if s.run.void ≠ 0 then s else
  let s := s.run.adms.foldl (fun s a =>
    match admDrops s a with
    | d :: _ => modReq a.req (fun q => { q with dropSeen := true, dropRsn := d }) s
    | [] => s) s
  (s.run.tags.zip s.run.drops).foldl (fun s x =>
    if x.2 = 0 then s
    else modPart (tagPart x.1) (fun q => { q with counted := { q.counted with drop := q.counted.drop + 1 } }) s) s

/-- A 64-bit counter with its step's events added (R40). -/
def addCount (v n : Nat) : Nat := satAdd Config.counterMax v n

/-- The counters of the partitions take the step's events. -/
def sealCounts (s : State) : State :=
  { s with parts := s.parts.map (fun q => { q with
      drop := addCount q.drop q.counted.drop, rccMiss := addCount q.rccMiss q.counted.rccMiss,
      trainDiscard := addCount q.trainDiscard q.counted.trainDiscard, trainSkip := addCount q.trainSkip q.counted.trainSkip,
      resDiscard := addCount q.resDiscard q.counted.resDiscard, dup := addCount q.dup q.counted.dup,
      specZero := addCount q.specZero q.counted.specZero, counted := {} }) }

/-! ### Action 5: error entries (R84, R85, R162, R431) -/

/-- The latches of a core in the order of R431: (ARRAY, HALF), the vector unit, whose ARRAY and HALF are 0, after half 0 of
array 0. -/
def latchOrder : List (Fin 9) := [0, 8, 1, 2, 3, 4, 5, 6, 7]

/-- ARITH entries: one for each array half and vector unit with a flag (R84). -/
def sealLatches (s : State) : State :=
  (List.finRange 64).foldl (fun s n => latchOrder.foldl (fun s i =>
    let l := s.cores[n].latches[i]
    let f := latchFlags l
    match corePart s n with
    | some p => if f = 0 then s
                else partErr p { step := s.mc.step, code := 0x01, cls := .contained, info0 := l.coord.toNat, info1 := f } s
    | none => s) s) s

/-- Word entries in ascending word index, then the others in the order they came. -/
def sealWords (s : State) : State :=
  let l := s.run.wordErrs.mergeSort (fun a b => decide (a.1 ≤ b.1))
  let s := l.foldl (fun s x => partErr x.2.1 x.2.2 s) s
  s.run.otherErrs.foldl (fun s x => partErr x.1 x.2 s) s

/-- The sticky flags of a tensor, WIN, NAN and OVF in bits 0 to 2. -/
def stickyFlags (t : Tensor) : BitVec 3 := BitVec.ofNat 3 (b2n t.win + 2 * b2n t.nan + 4 * b2n t.ovf)

/-- TFLAG entries: one for each sticky flag that has become set (R85). -/
def sealTensors (s : State) : State :=
  s.tensors.foldl (fun s x =>
    let fresh := stickyFlags x.2 &&& ~~~ x.2.told
    let s := (List.range 3).foldl (fun s b =>
      if fresh.getLsbD b then
        partErr x.2.part { step := s.mc.step, code := 0x02, cls := .contained, info0 := x.1, info1 := 2 ^ b } s
      else s) s
    { s with tensors := tabMod {} s.tensors x.1 (fun t => { t with told := stickyFlags t }) }) s

/-! ### Action 5: the status word and the batches -/

/-- The boundary that closes the step is already known to come late: a LATE is held, or the deadline S − G has passed (R26,
R309). -/
def knownLate (s : State) : Bool := !s.mc.lates.isEmpty || decide (s.mc.sNext < s.mc.tick.toNat + s.mc.guard)

/-- A status stands in the completed run, in half 0 or half 1. -/
def statusStands (s : State) (code : Nat) : Bool :=
  s.run.status.any (fun x => x.2.toNat % 16 == code || x.2.toNat / 16 == code)

/-- The step status word (Table REL-5). -/
def statusWord (s : State) : BitVec 64 :=
  let flag := fun (b : Nat) (v : Bool) => put b (b2n v)
  let ran := s.run.void == 0
  let arith := s.cores.toList.any (fun c => c.latches.toList.any (fun l => latchFlags l != 0))
  let hw := statusStands s 2
  let lost := statusStands s 6
  let unc := s.run.otherErrs.any (fun x => x.2.code == 0x0C)
  BitVec.ofNat 64 (flag 0 (s.run.overrun || knownLate s) + flag 1 s.run.barrierMiss + flag 2 arith + flag 3 hw +
    flag 4 (statusStands s 3) + flag 5 (statusStands s 5) + flag 6 lost + flag 7 s.run.linkFault + flag 8 s.run.replayed +
    flag 9 (ran && (hw || unc || lost)) + flag 10 s.run.skipped + flag 11 s.run.froze +
    flag 12 (s.run.pwr || s.pw.warn || s.pw.hot) + flag 13 s.run.corrected +
    put 16 (min Config.maxStrands s.run.strands.toList.sum) + put 48 s.run.errParts.toNat)

/-- The result entry of an admitted request (Table SERVE-10). -/
def resEntry (s : State) (a : Adm) : ResEntry :=
  let q := recOf s a.req
  let d := admDrops s a
  { req := a.req, part := a.part, done := a.done, cancelled := a.cancelled, diverted := a.diverted, drop := !d.isEmpty,
    drsn := d.headD 0, rcc := a.rcc, ctFull := q.ctFull, rows := a.rows, k := a.fold, seq := a.seq,
    clen := (reqList s a.req).clen, newDone := q.newDone % 65536, lastTok := q.lastTok, outcrc := q.outcrc }

/-- The admitted requests of a face that have a result entry, those beyond RB_CAP and bound to a ring DIVERTED. An entry's place
counts every admitted candidate of the face, one withdrawn since among them (R283). -/
def faceAdms (s : State) (f : FaceIx) : List Adm :=
  (((s.run.adms.filter (fun a => decide (a.face = f))).zipIdx).map (fun x =>
    if x.1.ringEn ∧ s.faces[f].rbCapStep ≤ x.2 then { x.1 with diverted := true } else x.1)).filter (fun a => a.akind != 4)

/-- The result batch of a face (R279, R281 to R283). -/
def faceBatch (s : State) (f : FaceIx) (status : BitVec 64) : Batch :=
  let l := faceAdms s f
  { face := f, void := s.run.void, step := s.mc.step, status, pslot := s.run.pslot,
    pdigest := match s.run.prog with | some p => p.digest64 | none => 0
    ls := s.parts.toList.map (fun q => q.loss.ls)
    adms := s.run.adms.filter (fun a => decide (a.face = f))
    ents := (l.filter (fun a => !a.diverted)).map (resEntry s) ++ s.faces[f].current ++ s.faces[f].refusals
    ringEnts := (l.filter (fun a => a.ringEn)).map (fun a => (a.ring, resEntry s a)) }

/-- The result batches sealed with the status word; what is known late is recorded in it. -/
def sealBatches (s : State) : State :=
  let w := statusWord s
  let s := { s with faces := Vector.ofFn (fun f => let x := s.faces[f]
    { x with sealed := x.sealed ++ [faceBatch s f w], current := [], refusals := [] }) }
  modRun (fun r => { r with acted := 5, sealedUp := true, overrun := knownLate s }) s

/-- The latches shown until the next sealing (R476), and the partition that owned each core (R459). -/
def snapLatches (s : State) : State :=
  { s with cores := s.cores.map (fun c => { c with snap := c.latches }) }

/-- The status bytes of the step placed in the instruction-status area of its slot, where firmware may read them from result
sealing on (R161, R162): in a void step every word's byte is SKIPPED. -/
def sealStatus (s : State) : State :=
  match s.run.prog with
  | none => s
  | some p =>
    let t := if s.run.void = 0 then s.run.status else (List.range p.words.length).map (fun i => (i, 0x4))
    { s with instStatus := vset s.instStatus s.run.pslot t }

/-- What actions 4 and 5 may change. -/
def footTail (s t : State) : State :=
  { s with instStatus := t.instStatus, out := t.out, freeIx := t.freeIx, regs := t.regs, hbm := t.hbm, tensors := t.tensors, slots := t.slots,
           vrecs := t.vrecs, recs := t.recs, parts := t.parts, faces := t.faces, cores := keepAssign s t, uuOpt := t.uuOpt,
           rcc := t.rcc, run := t.run, err := t.err }

/-- What action 4 and the ends, counts and entries of action 5 may change: the faces take their batches last. -/
def footEnds (s t : State) : State := { footTail s t with faces := s.faces, out := s.out }

/-- Action 5 of Table ENGINE-5 up to its last part, the sealing of the batches. -/
def action5 (s : State) : State :=
  snapLatches (sealStatus (sealTensors (sealWords (sealLatches (sealCounts (sealDrops (action5Ends s)))))))

/-- Actions 4 and 5. -/
def tailCommit (s : State) : State := sealBatches (footEnds s (action5 (action4 s)))

/-- TAIL_COMMIT (R180): actions 4 and 5, once the queues are done and the reports are in. -/
def execTailCommit (s : State) : Host.Outcome State Fault Refusal :=
  .next (footTail s (if tailReady s then tailCommit s else s))

/-! ### Replay (R433, R434) -/

/-- A fault is replayed (R433): its source, REPLAY_EN, a log that has not stopped, no replay before; and the inputs of the
step are still whole, so no action of Table ENGINE-5 from 2 on has begun. -/
def replayOk (s : State) (f : StepFault) : Bool :=
  s.run.isOpen && decide (1 ≤ f.src ∧ f.src ≤ 9) && s.err.replayEn && !s.run.logStopped && !s.run.replayed &&
    decide (s.run.acted < 2)

/-- Codes of the entries that words of the step bring about. -/
def wordCodes : List Nat := [0x04, 0x05, 0x06, 0x07, 0x08, 0x09, 0x0B]

/-- A tensor at its value at the opening boundary: flags of the step gone, sticky flags those already told. -/
def rewindTensor (t : Tensor) : Tensor :=
  { t with touched := false, stepWin := false, stepNan := false, stepSet := 0, outcnt := 0, win := t.win && t.told.getLsbD 0,
           nan := t.nan && t.told.getLsbD 1, ovf := t.ovf && t.told.getLsbD 2 }

/-- Order 2 of Table REL-8: latches, flags, status bytes, tokens, stall counts and drop tallies cleared, accumulators
cleared, and the step set up again; the log and the record of what has been sent stay. -/
def rewindStep (s : State) : State :=
  let s := s.tensors.foldl (fun s x => if x.2.touched then clearAcc x.1 s else s) s
  -- the frames that the hand-over check took are zero again, so that the repeated check takes them (R177, R181)
  let s := s.run.rcc.foldl (fun s r => ((r.copy.map (fun c => c.2.2)).toList ++ r.fresh.map Prod.snd).foldl (fun s d =>
    zeroBytes (openDesc s.parts[r.part] d).addr (frameBytes s.parts[r.part]) s) s) s
  let s := { s with
    tensors := (s.tensors.map Prod.fst).foldl (fun t i => tabMod {} t i rewindTensor) s.tensors
    cores := s.cores.map (fun c => { c with latches := Vector.replicate 9 {}, stall := 0, feed := [], feedSeg := [], head := [],
                                            staging := c.staging.map (Option.map (fun t => { t with taken := true })) })
    clusters := s.clusters.map (fun c => { c with lines := c.lines.filter (fun l => !l.2.bad), reds := [], uvals := [] })
    parts := s.parts.map (fun q => { q with counted := { q.counted with drop := 0, rccMiss := 0, trainDiscard := 0, trainSkip := 0 } })
    uuNow := Vector.replicate 32 0 }
  modRun (fun r => { r with
    segmented := false, checked := false, drops := [], segs := [], rowList := [], zero := Vector.replicate 16 [],
    strands := Vector.replicate 16 0, ptr := [], tokens := [], flight := [], status := [], poison := [], gradRefused := [], blocks := [],
    made := [], rcc := [], rccTaken := [], gradOut := [], rowreqIn := [], summary := 0, swept := false, wordErrs := [],
    otherErrs := r.otherErrs.filter (fun x => !wordCodes.contains x.2.code), held := false, hw := [], skipped := false, skipParts := 0,
    froze := false, rowsGot := [], mirEnd := [], replayed := true }) s

/-- A replayed fault: CORRECTED, one REPLAY entry, REPLAYED set (R434). -/
def replayFault (f : StepFault) (s : State) : State :=
  let s := countCorrected f.src (rewindStep s)
  let s := chipLog 0x0D .corrected f.src 0 f.word f.cycle s
  raiseInt 3 2 { s with err := { s.err with replays := satAdd cnt16Max s.err.replays 1 } }

/-- A fault that is not eligible: counted and logged, with AUX 2 when the step had been replayed, AUX 1 otherwise; its word
completes HW_FAULT and poisons what Table CORE-9 says, with an entry for the partition of the core (R162). -/
def containFault (f : StepFault) (col : Nat) (s : State) : State :=
  let s := countContained f.src { s with err := { s.err with notElig := satAdd cnt16Max s.err.notElig 1 } }
  let s := chipLog 0x0D .contained f.src (if s.run.replayed then 2 else 1) f.word f.cycle s
  if s.run.isOpen ∧ s.run.acted < 5 then
    wordErr f.word (corePart s f.core)
      { code := 0x03, cls := .contained, src := f.src,
        info0 := f.word % 2 ^ 20 + put 20 f.core.val + put 26 f.array.val + put 28 (b2n f.half), info1 := f.row }
      (setStatus f.word 2 f.half (modRun (fun r => { r with hw := r.hw ++ [(f, col)] }) s))
  else s

/-- A residue mismatch counts against its column; at COLTH the column is suspect (Table CORE-9, R438). -/
def countColumn (f : StepFault) (col : Nat) (s : State) : State :=
  let n := satAdd cnt16Max (tabGet 0 s.cores[f.core].colFaults (32 * f.array.val + col)) 1
  let s := modCore f.core (fun c => { c with colFaults := tabSet 0 c.colFaults (32 * f.array.val + col) n }) s
  if n = s.err.colth then chipLog 0x15 .event f.src 0 (f.core.val + put 6 f.array.val + put 8 col) n s else s

/-- A transient fault of the running step. The column of a residue mismatch is not among what the event carries: it is a
free value (log entry 43). -/
def stepReplay (f : StepFault) (s : State) : State :=
  if s.run.isOpen = false ∨ s.err.fatal.isSome = true then s
  else
    let col := (Config.free 5 s.freeIx).toNat
    let s := if f.src = 7 then countColumn f col { s with freeIx := s.freeIx + 1 } else s
    if replayOk s f then replayFault f s else containFault f col s

/-- STEP_REPLAY (R434). -/
def execStepReplay (fault : StepFault) (s : State) : Host.Outcome State Fault Refusal :=
  let t := stepReplay fault s
  .next { s with freeIx := t.freeIx, regs := t.regs, hbm := t.hbm, tensors := t.tensors, cores := keepAssign s t,
                 clusters := t.clusters, parts := t.parts, uuNow := t.uuNow, run := t.run, err := t.err }

end Sys2Proof.Machine
end

