-- ==== Sys2Proof/Machine/Boundary.lean ====
section
/-!
DEFINITION. The step boundary (R24 to R26, R308 to R322, R363, R395, R412, R474): agreement (action 7), publication and
frees (8), re-pins, admissions, resets and core reassignments (9), the release of the result batches (10), the step number
(11) and the opening of the next step; the commands BOUNDARY, RESULT_RELEASE and RING_WRITE.
-/

namespace Sys2Proof.Machine

/-! ### When the boundary comes (R308, R309) -/

/-- The LATE sources still waited for, those that the link events have cut by now left out (Table PLANE-15). -/
def waitedLates (s : State) : List Coord :=
  match s.plane.plan with
  | some pl => (cutEvents pl s.mc.tick.toNat s).mc.lates
  | none => s.mc.lates

/-- Latest tick at which link events that are old enough by now became so; 0 with none. -/
def ripeTick (s : State) : Nat := (ripeEvents s.mc.tick.toNat s).foldl (fun a e => max a (e.origin + 2 * s.mc.guard)) 0

/-- E of R309: S when no LATE was collected, else max(S, A + G); none while the DONE of a collected source is awaited. A
source that has been cut is not waited for, and its cut acts at E. -/
def closeTick (s : State) : Option Nat :=
  let l := waitedLates s
  let arr := (s.mc.dones.filter (fun d => l.contains d.1)).foldl (fun a d => max a d.2) 0
  if l.any (fun c => !s.mc.dones.any (fun d => d.1 == c)) then none
  else
    let base := if l = [] then s.mc.sNext else max s.mc.sNext (arr + s.mc.guard)
    some (if l.length < s.mc.lates.length then max base (ripeTick s) else base)

/-! ### The agreement word (R319, R320) -/

/-- Code of a residency state (Table ARITH-2). -/
def slotCode : SlotState → Nat
  | .free => 0 | .loading => 1 | .resident => 2 | .evicting => 3

/-- VSTATE as the digest takes it: that of a PUBLISHED or RETAINED record, else 0 (Table STEP-6). -/
def digestVState : VState → Nat
  | .published => 3 | .retained => 4 | _ => 0

/-- Item 1 of Table STEP-6 for a slot; each field in the smallest count of whole bytes (log entry 44). -/
def digestSlot (s : State) (n : Nat) : List Byte :=
  let e := slotOf s n
  leBytes 1 (slotCode e.st) ++ leBytes 1 (b2n e.pub) ++ leBytes 1 (b2n e.sharded) ++ leBytes 1 e.part.val ++ leBytes 2 e.rank ++
    leBytes 2 e.tmask.toNat ++ leBytes 4 e.scale.toNat ++ leBytes 3 e.home.toNat ++ leBytes 4 e.tag.toNat

/-- Item 2 for the records of a slot. -/
def digestRecs (s : State) (n : Nat) : List Byte :=
  (List.range 4).flatMap (fun k => let r := vrecOf s n k; leBytes 1 (digestVState r.st) ++ leBytes 2 r.version)

/-- The 32 bytes of a hyperparameter set (R216). -/
def hpBytes (h : HpSet) : List Byte :=
  [h.lr, h.beta1, h.beta2, h.eps, h.wd].flatMap (fun x => leBytes 4 x.toNat) ++ leBytes 12 (b2n h.valid)

/-- Item 3 for a partition. -/
def digestHps (q : PartSt) : List Byte := (List.range 256).flatMap (fun i => hpBytes (tabGet {} q.hps i))

/-- Item 4 for a partition. -/
def digestPart (q : PartSt) : List Byte :=
  leBytes 2 q.force.segCap ++ leBytes 1 (b2n q.force.efmt) ++ leBytes 2 q.force.pgsz ++ leBytes 1 q.loss.ls ++ leBytes 1 q.force.lsMin ++
    leBytes 1 q.force.lsMax ++ leBytes 2 q.force.lsRun ++ leBytes 2 q.win.slotBase ++ leBytes 3 q.win.slotCount ++
    leBytes 1 (b2n q.force.pdfmt) ++ leBytes 1 (b2n q.force.ddfmt)

/-- The adapter-table digest of a state (R320). -/
def adapterDigest (s : State) : BitVec 64 :=
  let c := (List.range 65535).foldl (fun c n => crc64From c (digestSlot s n)) 0
  let c := (List.range 65535).foldl (fun c n => crc64From c (digestRecs s n)) c
  let c := s.parts.toList.foldl (fun c q => crc64From c (digestHps q)) c
  s.parts.toList.foldl (fun c q => crc64From c (digestPart q)) c

/-- The pending epoch takes effect at the opening of a step. -/
def epochDue (s : State) (step : BitVec 64) : Option Epoch :=
  match s.epochPend with
  | some (e, n) => if n = step then some e else none
  | none => none

/-- The image that an epoch activates (R403). -/
def imageDue (s : State) (e : Epoch) : Option FwImage := if s.cc.activateAt = some e.num then s.cc.slotImage else none

/-- EPOCH in force for a step about to open. -/
def epochAt (s : State) (step : BitVec 64) : BitVec 64 := match epochDue s step with | some e => e.num | none => epochNum s

/-- FWVER for a step about to open. -/
def fwverAt (s : State) (step : BitVec 64) : Word :=
  match (epochDue s step).bind (imageDue s) with
  | some f => f.fwver
  | none => runFwver s

/-- STEP_CYCLES of the selected program; 0 when the slot is empty. -/
def nextCycles (s : State) : Nat := match s.progs[s.seg.pslot] with | some p => p.stepCycles | none => 0

/-- The agreement word for a step about to open, from the state as it will stand after action 9 (Table STEP-5). -/
def agreeWord (step : BitVec 64) (t : State) : BitVec 512 :=
  BitVec.ofNat 512 (step.toNat + put 64 (epochAt t step).toNat + put 128 (fwverAt t step).toNat + put 192 (adapterDigest t).toNat +
    put 256 (nextCycles t) + put 284 t.seg.pslot.val)

/-- The fields of Table STEP-5 in which two words differ, one bit for each row of the table but SUMMARY (log entry 45). -/
def agreeDiff (a b : BitVec 512) : Nat :=
  let ne := fun (lo n : Nat) => decide (fld a lo n ≠ fld b lo n)
  b2n (ne 0 64) + put 1 (b2n (ne 64 64)) + put 2 (b2n (ne 128 32)) + put 4 (b2n (ne 192 64)) + put 5 (b2n (ne 256 28)) +
    put 6 (b2n (ne 284 3))

/-! ### Action 7: agreement (R321, R412) -/

/-- The neighbours whose link is up and not fenced. -/
def agreePorts (s : State) : List PortIx := (upPorts s).filter (fun p => !s.mc.refused[p])

/-- The ports whose neighbour's word differs, with the fields: the word compared is the one that this chip sent on the port, or
the one it holds where it sent none (log entry 117). At T0 a word that has not arrived differs. -/
def agreeBad (s : State) (first : Bool) (own : BitVec 512) : List (PortIx × Nat) :=
  (agreePorts s).filterMap (fun p =>
    let mine := s.mc.agreeSent[p].getD own
    match s.mc.agrees[p] with
    | some w => if agreeDiff mine w = 0 then none else some (p, agreeDiff mine w)
    | none => if first then some (p, 0x7F) else none)

/-- The chip fences itself: its links' fence is flooded, while they still carry it, and the entry of R322 quotes the fields that
differed and the neighbour (R322, R363). -/
def fenceAgree (fields : Nat) (neigh : Coord) (s : State) : State :=
  if s.mc.fenced then s else
  let s := chipLog 0x10 .event 0 0 fields neigh.toNat s
  fenceChip ((upPorts s).foldl (fun s p => floodLinkev 0 p 0xF s) s)

/-- What the entry of R322 quotes: the neighbour that sent a NOTICE where its own word differed, else the first that differed. -/
def fenceQuote (s : State) (bad : List (PortIx × Nat)) : Nat × Coord :=
  let at_ := fun (x : PortIx × Nat) => (neighCoord s.plane.coord x.1).getD 0
  let from_ := s.mc.notice.map Prod.snd
  match (bad.find? (fun x => from_ == some (at_ x))).orElse (fun _ => bad.head?) with
  | some x => (x.2, at_ x)
  | none => (0, from_.getD 0)

/-- A neighbour refused: it gets a NOTICE, its link is fenced, and the plane is told (R321, R322). -/
def refuseNeigh (step : BitVec 64) (x : PortIx × Nat) (s : State) : State :=
  let c := (neighCoord s.plane.coord x.1).getD 0
  let s := chipLog 0x10 .event 0 0 x.2 c.toNat s
  let s := sendOn 6 x.1 2 false (mkMsg s 6 3 0 c (marchBody s 3 step 0)) s
  let s := setLink x.1 .fenced 0xF { s with mc := { s.mc with refused := vset s.mc.refused x.1.val true } }
  loseParent x.1 (floodLinkev 0 x.1 0xF s)

/-- Action 7: true when the chip goes on to open the step. -/
def action7 (first : Bool) (step : BitVec 64) (own : BitVec 512) (s : State) : Bool × State :=
  let bad := agreeBad s first own
  let q := fenceQuote s bad
  if s.mc.notice.isSome ∨ (agreePorts s).length < 2 * bad.length then (false, fenceAgree q.1 q.2 s)
  else (true, bad.foldl (fun s x => refuseNeigh step x s) s)

/-! ### Action 9: re-pins, admissions, resets, cores (R17, R24, R243, R275, R301) -/

/-- The loss scale of a partition after a step's training summary (R203). -/
def lossStep (active ovf : Bool) (r : PRegs) (l : LossScale) : LossScale :=
  if active = false then l
  else if ovf then { l with ls := max (l.ls - 1) r.lsMin, lsClean := 0 }
  else
    -- LS_CLEAN has 16 bits (Table TRAIN-4)
    let n := (l.lsClean + 1) % 2 ^ 16
    if n = r.lsRun then { l with ls := min (l.ls + 1) r.lsMax, lsClean := 0 } else { l with lsClean := n }

/-- R203 for every partition, after a step that was not void. -/
def lossUpdate (s : State) : State :=
  if s.run.isOpen = false ∨ s.run.void ≠ 0 then s else
  let w := s.run.summary
  { s with parts := Vector.ofFn (fun p => let q := s.parts[p]
      { q with loss := lossStep (w.getLsbD p.val) (w.getLsbD (16 + p.val)) q.force q.loss }) }

/-- A candidate admitted may run in the step: it was not withdrawn (R275) and its record still waits or runs. -/
def mayAdmit (s : State) (a : Adm) : Bool :=
  let q := recOf s a.req
  a.akind != 4 && q.seq == a.seq && (q.st == .queued || q.st == .running)

/-- A CANCEL taken for the step after the one that opens: it cancels the request in the step that opens (R285). -/
def cancelledNext (s : State) (step : BitVec 64) (a : Adm) : Bool :=
  s.adm.taken.any (fun t => t.ok && dKind t.desc == 2 && t.req == a.req && dRef t.desc == a.seq && t.step == step + 1)

/-- A candidate admitted to the step that opens: at its first admission it is pinned, numbered and RUNNING; its prompt rows
are taken, and its tail tokens stand in its count table (R243, R263, R291). -/
def admitOne (step : BitVec 64) (a : Adm) (s : State) : State :=
  let q := recOf s a.req
  let s := if q.st = .queued then
      let n := s.parts[a.part].admCount
      modReq a.req (fun q => { q with st := .running, admNo := n, admStep := step })
        (pinReq a.req (modPart a.part (fun x => { x with admCount := n + 1 }) s))
    else s
  let toks := q.nextToks.take a.rows
  let s := if a.decode then modCtab a.part a.req (fun c => { c with tail := toks }) s else s
  modReq a.req (fun q => { q with
    pleft := if a.decode then q.pleft else q.pleft - a.rows, notRun := none, fromHold := none,
    split := a.split, tailn := if a.decode then a.rows else 0 }) s

/-- The admitted list: withdrawn candidates marked, the others admitted. What a void step did not run heads the list of the
step after it only (R270). -/
def admitStep (step : BitVec 64) (s : State) : State :=
  let l := s.adm.next.map (fun a =>
    if mayAdmit s a then { a with cancelled := cancelledNext s step a } else { a with akind := 4 })
  let s := l.foldl (fun s a => if a.akind = 4 then s else admitOne step a s) s
  let s := { s with recs := (s.recs.map Prod.fst).foldl (fun t i => tabMod {} t i (fun q => { q with notRun := none })) s.recs }
  { s with adm := { s.adm with next := l } }

/-- A request whose prefill completed in the step and that generates moves to the D-face (R271). -/
def moveFaces (s : State) : State :=
  if s.run.isOpen = false then s else
  s.run.adms.foldl (fun s a => if ranIn a ∧ a.prefillEnd ∧ a.gen then modReq a.req (fun q => { q with face := 1, tailn := 0 }) s
    else modReq a.req (fun q => { q with tailn := 0 }) s) s

/-- ENDING records become FREE (Table SERVE-4), with their count tables; firmware releases their pages (log entry 49). -/
def freeEnded (s : State) : State :=
  s.recs.foldl (fun s x => if x.2.st = .ending then
      modPart x.2.part (fun q => { q with ctabs := tabSet {} q.ctabs x.1 {} }) { s with recs := tabSet {} s.recs x.1 {} }
    else s) s

/-- PRESETs taken act: the partitions that action 5 left RESETTING with a PRESET pending (Table CTRL-11, orders 4 and 5). -/
def actPresets (s : State) : State :=
  (List.finRange 16).foldl (fun s p =>
    if s.parts[p].st = .resetting ∧ s.parts[p].presetPend.isSome then actPreset p s else s) s

/-- Core assignments written take effect; a core whose partition changes is wiped (R17). Bypass fields take effect (R110). -/
def assignCores (s : State) : State :=
  { s with cores := s.cores.map (fun c =>
      let n := { c with partLast := c.part, wiped := false, byp := c.bypNext }
      if c.partNext = c.part then n else wipeCore { n with part := c.partNext }) }

/-- Tables of the partition's memory after its base registers come into force: a table placed anew reads as zero (R216; log
entry 57). -/
def placeTables (q : PartSt) : PartSt :=
  let a := q.force
  let b := q.regs
  { q with
    compl := if a.cplBase = b.cplBase then q.compl else []
    holds := if a.holdBase = b.holdBase then q.holds else []
    hps := if a.hpBase = b.hpBase then q.hps else []
    pdescs := if a.rccdBase = b.rccdBase then q.pdescs else []
    repsets := if a.rsBase = b.rsBase then q.repsets else []
    shards := if a.ssBase = b.ssBase then q.shards else [] }

/-- Registers of the partition managers and policies written take effect (R301, R172, R380). -/
def takeRegs (s : State) : State :=
  { s with parts := s.parts.map (fun q =>
      { placeTables q with force := q.regs, win := q.winNext, policy := q.policyNext.getD q.policy, policyNext := none }) }

/-- Partition states that change at a boundary: KEYED after the keyed clear, CONFIGURED after the wipe (Table SEC-3). -/
def settleParts (s : State) : State :=
  (List.finRange 16).foldl (fun s p =>
    let q := s.parts[p]
    if q.st = .keying ∧ q.ready then modPart p (fun q => { q with st := .keyed, ready := false }) s
    else if q.st = .resetting ∧ q.ready then finishPart p s
    else s) s

/-- Loss scales written take effect with a new epoch (R202). -/
def takeLoss (s : State) : State :=
  { s with parts := s.parts.map (fun q => { q with
      loss := { q.loss with ls := q.loss.lsNext.getD q.loss.ls, lsNext := none } }) }

/-- Action 9 for the step that opens. -/
def action9 (step : BitVec 64) (s : State) : State :=
  let s := if (epochDue s step).isSome then takeLoss s else s
  let s := moveFaces (actTaken step s)
  let s := admitStep step s
  let s := freeEnded s
  let s := takeRegs (assignCores (actPresets s))
  mirrorSlots s

/-- What actions 8 and 9 leave as it is. -/
def footNine (s t : State) : State :=
  { t with pending := s.pending, cc := s.cc, mc := s.mc, run := s.run, plane := s.plane, ports := s.ports, epoch := s.epoch,
           epochPend := s.epochPend, progs := s.progs, seg := s.seg, pw := s.pw }

/-- Actions 8 and 9 at a boundary tick E: what they read of time is E. -/
def eightNine (e : Nat) (step : BitVec 64) (s : State) : State :=
  footNine s (action9 step (tensorBoundary (action8 (lossUpdate { s with mc := { s.mc with tick := BitVec.ofNat 64 e } }))))

/-- The agreement word that this chip sends and compares (R319). -/
def ownWord (e : Nat) (step : BitVec 64) (s : State) : BitVec 512 := agreeWord step (eightNine e step s)

/-! ### Action 10: results leave (R280 to R283) -/

/-- The buffer of a step's batch. -/
def batchBuf (b : Batch) : Nat := b.step.toNat % 2

/-- Bytes of a batch. -/
def batchBytes (b : Batch) : Nat := 64 + 16 * b.adms.length + 64 * b.ents.length

/-- A sealed batch may be written: its buffer's previous batch is acknowledged, and it fits (R280, R301). -/
def batchFits (x : FaceSt) (b : Batch) : Bool :=
  x.acks.toList.getD (batchBuf b) false && decide (batchBytes b ≤ (x.bufs.toList.getD (batchBuf b) (0, 0)).2.toNat)

/-- The face has no sealed batch, or the oldest may be written; and its ring entries of earlier steps are out (R465). -/
def faceClear (s : State) (f : FaceIx) : Bool :=
  let x := s.faces[f]
  x.ringOut.isEmpty && (match x.sealed with | [] => true | b :: _ => batchFits x b)

/-- The oldest sealed batch of a face written to its buffer; its ring entries follow. -/
def releaseFace (f : FaceIx) (s : State) : State :=
  match s.faces[f].sealed with
  | [] => s
  | b :: rest =>
    let k := batchBuf b
    send (.batch f k (batchData b)) (modFace f (fun x => { x with
      sealed := rest, acks := vset x.acks k false, waiting := false, ringOut := x.ringOut ++ b.ringEnts }) s)

/-- The batches of both faces. -/
def releaseFaces (s : State) : State :=
  let t := releaseFace 1 (releaseFace 0 s)
  { s with out := t.out, faces := t.faces }

/-- The oldest sealed batch of a face exceeds its buffer, acknowledged or not: its release is refused with a bounds status (R301).
DESIGN CHOICE: the status is a notice to the host, one for each wait (log entry 150). -/
def tellOversize (f : FaceIx) (s : State) : State :=
  match s.faces[f].sealed with
  | b :: _ =>
    if (s.faces[f].bufs.toList.getD (batchBuf b) (0, 0)).2.toNat < batchBytes b then send (.oversize f (batchBuf b)) s else s
  | [] => s

/-- A boundary that must wait for a face: an overrun is counted once, WAIT is shown (R280), and a batch that exceeds its buffer
is refused (R301). -/
def holdRelease (s : State) : State :=
  let s := (List.finRange 2).foldl (fun s f =>
    if faceClear s f then s
    else if s.faces[f].waiting then s
    else tellOversize f <| raiseInt (facePage f) 1 (modFace f (fun x => { x with waiting := true }) s)) s
  modRun (fun r => { r with waited := true }) s

/-! ### Action 11 and the opening of the step -/

/-- A port's link keys when a new epoch takes effect: CTR begins again under a new key, and an UP port owes a hello (R341, R342,
R355). -/
def switchKeys (e : Epoch) (q : PortSt) : PortSt :=
  let q : PortSt := { q with helloDue := q.st == .up }
  match q.keys with
  | [] => q
  | now :: _ =>
    if now.epoch = e.num.toNat then q
    else match q.keys.find? (fun k => k.epoch == e.num.toNat) with
      | some k => { q with keys := [k, now], ctr := 0, keyage := false }
      | none => q

/-- Ports held for flapping are let go with the new epoch: the recovery of one that is HELD is flooded (R366). -/
def endFlaps (s : State) : State :=
  (List.finRange 6).foldl (fun s p =>
    if s.ports[p].flap = false then s
    else if s.ports[p].st = .held then
      floodLinkev 1 p 0 (setLink p .held 0 (modPort p (fun q => { q with flap := false, upSent := true }) s))
    else modPort p (fun q => { q with flap := false }) s) s

/-- The image that the epoch activates runs; SVN_MIN rises (R403). -/
def activate (f : FwImage) (s : State) : State :=
  { s with cc := { s.cc with image := some f, slotImage := none, slotSt := .running, activateAt := none }
           nv := { s.nv with svnMin := max s.nv.svnMin f.svn } }

/-- The pending epoch in force from the step that opens. -/
def switchEpoch (step : BitVec 64) (s : State) : State :=
  match epochDue s step with
  | none => s
  | some e =>
    let s := match imageDue s e with | some f => activate f s | none => s
    endFlaps { s with
      epoch := some e, epochPend := none, ports := s.ports.map (switchKeys e)
      mc := { s.mc with guard := s.mc.guardNext } }

/-- The row tags of a batch (R33, R275, R474): the array that firmware stored, the rows of withdrawn candidates made padding;
none when SG_NEXT holds no batch. -/
def openTags (s : State) : List RowTag :=
  if s.seg.valid = false then [] else
  let gone := s.adm.next.filter (fun a => a.akind = 4)
  ((List.range s.seg.rows).map (fun i => s.seg.tagArray.getD i 0)).zipIdx.map (fun x =>
    if gone.any (fun a => decide (a.first ≤ x.2 ∧ x.2 < a.first + a.rows)) then x.1 &&& BitVec.ofNat 64 (2 ^ 64 - 1 - 2 ^ 54) else x.1)

/-- The mirrors that wait for tiles of an owner, in the order their commands were accepted (R250). -/
def waitingMirrors (s : State) (owner : Coord) : List (Nat × VRec) :=
  (s.vrecs.filter (fun x => x.2.mirror && x.2.st == .building && x.2.owner == owner)).mergeSort
    (fun a b => decide ((a.2.mirNo, a.1).1 ≤ b.2.mirNo))

/-- Runs of missing tiles of a matrix and layer: first tile and count. -/
def missingRuns (have_ : Nat → Bool) (n : Nat) : List (Nat × Nat) :=
  ((List.range n).foldl (fun (acc : List (Nat × Nat)) i =>
    if have_ i then acc
    else match acc with
      | (f, c) :: r => if f + c = i then (f, c + 1) :: r else (i, 1) :: acc
      | [] => [(i, 1)]) []).reverse

/-- The 16-byte entries that ask for the tiles that a mirror misses (R250). TILE counts from the matrix's first tile, as in
R197, in its 15 bits; LAYER says which of the tiles of that number is meant (log entry 46). -/
def mirrorAsks (s : State) (i : Nat) (r : VRec) : List Byte :=
  let slot := i / 4
  let e := slotOf s slot
  (areaMats e.tmask).flatMap (fun m =>
    let tpl := tilesPerLayer (targetOf s m.1) m.2 e.rank
    (List.range (recLayers s r)).flatMap (fun layer =>
      (missingRuns (fun k => r.arrived.contains (2 * m.1 + b2n m.2, layer * tpl + k)) tpl).flatMap (fun x =>
        leBytes 16 (r.oslot + put 16 r.version + put 32 m.1 + put 36 (b2n m.2) + put 37 layer + put 47 ((layer * tpl + x.1) % 2 ^ 15) +
          put 62 x.2 + put 78 e.part.val))))

/-- The owners that ROWREQ words of a program name. -/
def askedOwners (prog : Option Program) : List Coord :=
  match prog with
  | none => []
  | some p =>
    ((p.words.filter (fun w => wOp w == 0x70 && fld w 48 4 == 1)).map (fun w => (BitVec.ofNat 18 (fld w 52 18) : Coord))).dedup

/-- The mirrors that those owners are asked for. -/
def openAsked (s : State) (prog : Option Program) : List (Nat × Coord × Nat × Nat × Nat) :=
  (askedOwners prog).flatMap (fun c => (waitingMirrors s c).map (fun x =>
    (x.2.mirNo, c, x.2.oslot, x.2.version, (slotOf s (x.1 / 4)).rank)))

/-- The entries for each of those owners. -/
def openAsks (s : State) (prog : Option Program) : List (Coord × List Byte) :=
  (askedOwners prog).map (fun c => (c, (waitingMirrors s c).flatMap (fun x => mirrorAsks s x.1 x.2)))

/-- Replica digests of a step: of each (slot, version) with an ACTIVE tensor that has a replica set and whose DIGINT divides
the step number (R224). -/
def openDigests (s : State) (step : BitVec 64) : List (Nat × Nat × BitVec 64) :=
  let l := (s.tensors.filter (fun x => x.2.st == .active && x.2.repset != 0xFFF && x.2.digint != 0 &&
    step.toNat % x.2.digint == 0)).map (fun x => (x.2.slot, x.2.version))
  l.dedup.map (fun x => (x.1, x.2, replicaDigest s x.1 x.2))

/-- The update units' work on those digests, one element a cycle (Table TRAIN-10). -/
def busyDigests (l : List (Nat × Nat × BitVec 64)) (s : State) : State :=
  l.foldl (fun s d => (versionTensors s d.1 d.2.1).foldl (fun s x => busyTensor x.2 s) s) s

/-- The faces at the opening of a step: the answers taken for it stand in its batch. -/
def openFace (x : FaceSt) : FaceSt :=
  { x with rbCapStep := x.rbCapNext, current := x.answers, answers := x.answersLater, answersLater := [],
           fcLate := x.lateNow, lateNow := 0 }

/-- What a step leaves shown of itself: touched tensors, busy cycles, the RCC unit's counts, stalls (R85, R90, R478). The
cycles that stalls and passes took are free values (log entry 1). -/
def showLast (s : State) : State :=
  if s.run.isOpen = false then s else
  let copies := (s.run.rcc.filter (fun r => r.copy.isSome)).map (fun r => s.parts[r.part].force.pgsz)
  let walked := (s.run.rcc.map (fun r => r.list.npages)).sum
  let served := (s.run.rcc.filter (fun r => r.code == 0 || r.code == 4)).length
  let ran := s.run.prog.isSome && s.run.void == 0
  { s with
    freeIx := s.freeIx + 3
    tensors := s.tensors.map (fun x => (x.1, { x.2 with
      touchedLast := x.2.touched, touched := false, stepped := false, stepWin := false, stepNan := false, stepSet := 0 }))
    uuBusy := s.uuNow, uuNow := Vector.replicate 32 0
    cores := Vector.ofFn (fun n => { s.cores[n] with stall := ((Config.free 2048 s.freeIx).toNat / 2 ^ (32 * n.val)) % 2 ^ 32 })
    rcc := { s.rcc with
      hchk := min 0xFFFF (16 + cdiv walked 8 + cdiv (256 * copies.sum) 4096), copy := copies.sum % 2 ^ 32, served
      missed := s.run.rcc.length - served
      kpass := if ran then (Config.free 24 (s.freeIx + 1)).toNat else 0
      vpass := if ran then (Config.free 24 (s.freeIx + 2)).toNat else 0 } }

/-- The queues of cores and clusters emptied and the latches cleared for a new step (R84); a load that a step before did not
issue no longer holds back a fill (R147, log entry 126). -/
def clearStep (s : State) : State :=
  { s with
    cores := s.cores.map (fun c => { c with latches := Vector.replicate 9 {}, feed := [], feedSeg := [], head := [],
                                            staging := c.staging.map (Option.map (fun t => { t with taken := true })) })
    clusters := s.clusters.map (fun c => { c with reds := [], uvals := [] }) }

/-- Islands whose RETAIN or OFF was asked begin to move when no core of them belongs to a partition (R441). -/
def islandCores (s : State) (i : Fin 20) : List CoreSt :=
  if 2 ≤ i.val ∧ i.val < 10 then ((List.range 8).map (fun j => s.cores[coreOf (Fin.ofNat 8 (i.val - 2)) j])) else []

/-- Requests for island states taken at a boundary. -/
def takeIslands (s : State) : State :=
  { s with pw := { s.pw with islands := Vector.ofFn (fun i =>
      let x := s.pw.islands[i]
      if x.req ≠ x.st ∧ (x.req = .active ∨ (islandCores s i).all (fun c => c.part == 0x1F) = true) then { x with going := true } else x) } }

/-- The overruns and misses counted at the boundary that closes a step (Table STEP-8). -/
def countLate (e : Nat) (s : State) : State :=
  if s.run.isOpen = false then s else
  let late := s.run.waited || decide (s.mc.sNext < e)
  let s := { s with mc := { s.mc with
    overruns := if late then satAdd cnt16Max s.mc.overruns 1 else s.mc.overruns
    misses := if s.run.barrierMiss then satAdd cnt16Max s.mc.misses 1 else s.mc.misses } }
  if late then raiseInt 5 1 s else s

/-- Slew of the next boundary (R314, R315): the correction after the boundary, and the slew taken from it. -/
def slewNext (s : State) (p : Nat) : Int × Int :=
  let used : Int := match s.mc.eLast with
    | some l => if s.run.isOpen then (s.mc.sNext : Int) - ((l + s.mc.period : Nat) : Int) else 0
    | none => 0
  let r := match s.mc.heldErr with | some e => e | none => s.mc.corr - used
  let lim : Int := (p / 16 : Nat)
  (r, max (-lim) (min lim r))

/-- Period of a program, in ticks (R308). -/
def periodOf (cycles : Nat) : Nat := cdiv ((cycles + 32) * 4) 7

/-- The March counter at the opening of a step at E. An empty slot keeps the period (log entry 47). -/
def openMarch (e : Nat) (step : BitVec 64) (s : State) : March :=
  let p := match s.progs[s.seg.pslot] with | some x => periodOf x.stepCycles | none => s.mc.period
  let r := slewNext s p
  { s.mc with
    step, period := p, corr := r.1, sNext := ((e : Int) + p + r.2).toNat, eLast := some e, heldErr := none, lates := [], dones := [],
    ownLate := false, arrived := none, notice := none, agrees := Vector.replicate 6 none, agreeSent := Vector.replicate 6 none, missNext := false, start := none }

/-- The rows admitted to the step, by partition, remembered for the rolling window (R273). -/
def pushHist (l : List Adm) (s : State) : State :=
  { s with parts := Vector.ofFn (fun p => let q := s.parts[p]
      { q with admHist := (((l.filter (fun a => a.part = p)).map Adm.rows).sum :: q.admHist).take 65534 }) }

/-- The running step at its opening (R21, R33, R129, R474). -/
def openRun (e : Nat) (step : BitVec 64) (s : State) : Run :=
  let prog := s.progs[s.seg.pslot]
  { isOpen := true, openTick := e, pslot := s.seg.pslot, prog, tags := openTags s, adms := s.adm.next,
    rowreq := openAsks s prog, asked := openAsked s prog, digests := openDigests s step, pwr := s.pw.warn || s.pw.hot,
    overrun := s.run.isOpen && !s.run.overrun && (s.run.waited || decide (s.mc.sNext < e)), barrierMiss := s.mc.missNext }

/-- A checkpoint begins at a boundary unless one is being copied (R395). -/
def beginCkpt (step : BitVec 64) (s : State) : State :=
  match s.cc.ckptCopy with
  | none => { s with cc := { s.cc with ckptCopy := some step, ckptMarks := (s.cc.ckptMarks.1, s.cc.ckptMarks.2.1, s.regs.inputs) } }
  | some _ => s

/-- The PAE opens a step at E: the segment unit takes SG_NEXT, and the step's own state begins anew. -/
def openStep (e : Nat) (step : BitVec 64) (s : State) : State :=
  let s := showLast (countLate e s)
  let run := openRun e step s
  let mc := openMarch e step s
  let s := if s.seg.valid then raiseInt 8 0 s else s
  let s := clearStep (pushHist s.adm.next s)
  let s := takeIslands { s with
    run := run, mc := mc, seg := { s.seg with valid := false }
    faces := s.faces.map openFace
    parts := s.parts.map (fun q => { q with rccfOpen := q.rccf.ents.length, pdescsOpen := q.pdescs, plistsOpen := q.plists })
    adm := { taken := s.adm.taken, prevReps := s.adm.reps }
    plane := { s.plane with
      seen := s.plane.seen.filter (fun k => decide (8 ≤ k.2.2.1 ∨ k.1 = step)), passed := s.plane.passed.filter (fun k => decide (k.1 = step)) }
    err := { s.err with ecc := s.err.eccNext } }
  beginCkpt step (raiseInt 1 2 (busyDigests run.digests s))

/-- A step's number with no step to follow: the slice is SPLIT or draining (R365, R367), or the chip leaves it (R375). The
step number advances, the chip holds its state as at the boundary. -/
def closeOnly (e : Nat) (step : BitVec 64) (s : State) : State :=
  let s := showLast (countLate e s)
  beginCkpt step (raiseInt 1 2 { s with
    run := {}, adm := { taken := s.adm.taken }
    faces := s.faces.map openFace, err := { s.err with ecc := s.err.eccNext }
    mc := { s.mc with step, eLast := some e, lates := [], dones := [], ownLate := false, arrived := none, heldErr := none } })

/-- No step follows the boundary. -/
def staysClosed (s : State) : Bool := s.plane.st == .split || s.plane.st == .draining || s.plane.drainReq

/-- The candidates of the step that opens; with no batch handed over none is admitted (log entry 48). -/
def batchList (s : State) : State :=
  if s.seg.valid then s else { s with adm := { s.adm with next := [] } }

/-- The boundary window at E: actions 7 to 11, with closure between 7 and 8, and what follows. -/
def window (e : Nat) (step : BitVec 64) (first : Bool) (s : State) : State :=
  let s := batchList s
  let r := action7 first step (if agreePorts s = [] then 0 else ownWord e step s) s
  if r.1 = false then { r.2 with run := { r.2.run with isOpen := false, held := true } } else
  let s := applyClosure e r.2
  if fencedOrCut s then { s with run := { s.run with isOpen := false, held := true } } else
  let s := match s.plane.plan with
    | some pl => { s with mc := { s.mc with parent := if s.mc.root then none else parentOf s pl } }
    | none => s
  let leaving := s.plane.leaving
  let closed := staysClosed s
  let s := releaseFaces (eightNine e step (settleParts s))
  if leaving then leaveSlice (closeOnly e step s)
  else if closed then closeOnly e step s
  else openStep e step (switchEpoch step s)

/-- The first boundary of a slice, T0 of SLICE_START (R412): the slice becomes ACTIVE, DEGRADED with a cut set. A chip that is
not LOCKED by then is fenced (R306). -/
def firstBoundary (n0 : BitVec 64) (t0 : Nat) (s : State) : State :=
  if s.mc.locked = false then let t := fenceAgree 0 0 s; { t with mc := { t.mc with start := none } } else
  let s := { s with adm := { s.adm with next := [] }, seg := { s.seg with valid := false } }
  let t := window t0 n0 true s
  if t.run.isOpen then
    { t with plane := { t.plane with st := if t.plane.cut = [] then .active else .degraded }, mc := { t.mc with start := none } }
  else { t with mc := { t.mc with start := none } }

/-- The chip may cross the boundary of the running step: MARCH has issued, nothing of the chip holds it. -/
def mayClose (s : State) : Bool :=
  s.run.isOpen && s.run.acted == 6 && s.err.fatal.isNone && !fencedOrCut s && !s.cc.restarting && s.mc.locked

/-- The boundary that closes the running step. A boundary held for the admission input or for a face is an overrun (R269,
R280), and E is then the tick at which nothing holds it any more (R26, log entry 92); a chip that is not LOCKED is fenced
(R306). -/
def closeBoundary (s : State) : State :=
  if s.run.isOpen ∧ s.mc.locked = false ∧ s.mc.fenced = false ∧ s.mc.sNext ≤ s.mc.tick.toNat then
    let t := fenceAgree 0 0 s
    { t with run := { t.run with isOpen := false, held := true } }
  else if mayClose s = false then s
  else match closeTick s with
    | none => s
    | some e =>
      if s.mc.tick.toNat < e then s else
      let s := if s.adm.closed then s else closeAdmission s
      if s.adm.complete = false then modRun (fun r => { r with waited := true }) s
      else if (List.finRange 2).all (faceClear s) = false then holdRelease s
      else window (if s.run.waited then max e s.mc.tick.toNat else e) (s.mc.step + 1) false s

/-- BOUNDARY: of the running step, or the first one of a slice that has been started. -/
def boundary (s : State) : State :=
  if s.run.isOpen then closeBoundary s
  else match s.mc.start with
    | some x => if x.2 ≤ s.mc.tick.toNat ∧ fencedOrCut s = false ∧ s.err.fatal.isNone = true ∧ s.cc.restarting = false then
        firstBoundary x.1 x.2 s
      else s
    | none => s

/-! ### The commands -/

/-- What a boundary never changes: the queue, and of the non-volatile store all but SVN_MIN and the
image counter's reservation. -/
def footBoundary (s t : State) : State :=
  { t with pending := s.pending, sec := keepLc s t,
           nv := { s.nv with svnMin := max s.nv.svnMin t.nv.svnMin, imgReserved := max s.nv.imgReserved t.nv.imgReserved } }

/-- BOUNDARY (R25). -/
def execBoundary (s : State) : Host.Outcome State Fault Refusal := .next (footBoundary s (boundary s))

/-- The release of a face that waits goes on once its buffer is free and large enough (R280). -/
def resultRelease (f : FaceIx) (s : State) : State :=
  if s.faces[f].waiting ∧ faceClear s f then releaseFace f s else s

/-- RESULT_RELEASE (R280). -/
def execResultRelease (face : FaceIx) (s : State) : Host.Outcome State Fault Refusal :=
  let t := resultRelease face s
  .next { s with out := t.out, faces := t.faces }

/-- The first entry of a face that waits for a ring is written to it when the ring has room (R283, R465). -/
def ringWrite (n : Nat) (f : FaceIx) (s : State) : State :=
  let ring := tabGet {} s.rings n
  match s.faces[f].ringOut.find? (fun x => x.1 == n) with
  | some x =>
    if 0 < ringRoom ring then
      send (.ring n (entBytes x.2)) (modFace f (fun y => { y with ringOut := y.ringOut.erase x })
        { s with rings := tabSet {} s.rings n (ringPush ring x.2) })
    else s
  | none => s

/-- RING_WRITE (R283): the entry of the P-face first. -/
def execRingWrite (ring : Fin 16384) (s : State) : Host.Outcome State Fault Refusal :=
  let f : FaceIx := if s.faces[(0 : FaceIx)].ringOut.any (fun x => x.1 == ring.val) then 0 else 1
  let t := ringWrite ring.val f s
  .next { s with out := t.out, faces := t.faces, rings := t.rings }

end Sys2Proof.Machine
end

