-- ==== Sys2Proof/Machine/Exchange.lean ====
section
/-!
DEFINITION. The exchange words and the messages they send and take (R154, R208, R211, R213, R223 to R226, R247 to R253,
R348, R360, R436): the commands XSEND, XRECV, PSUM_MSG, ROWREQ_MSG, ROWS_MSG, GRAD_MSG, AGREE_MSG, DIGEST_MSG and TDIG_MSG.
-/

namespace Sys2Proof.Machine

/-- Fields of an XSEND or XRECV word (Table ISA-15). -/
structure XWord where
  /-- VC. -/
  vc : Fin 4
  /-- KIND. -/
  kind : Nat
  /-- PEER. -/
  peer : Coord
  /-- CORE. -/
  core : CoreIx
  /-- ADDR, in bytes. -/
  addr : Nat
  /-- LEN, in bytes. -/
  len : Nat
  /-- MSG. -/
  msg : Nat
  /-- RID. -/
  rid : Nat
  deriving DecidableEq, Repr

/-- The fields of an exchange word. -/
def xWord (w : IWord) : XWord :=
  { vc := Fin.ofNat 4 (fld w 46 2), kind := fld w 48 4, peer := BitVec.ofNat 18 (fld w 52 18), core := xCore w,
    addr := 128 * fld w 76 15, len := 128 * fld w 91 12, msg := fld w 103 16, rid := fld w 119 6 }

/-- The queue of a port's exchange words (Table ISA-1). -/
def portQueue (p : PortIx) : Nat := 205 + p.val

/-- The words of the running program in the queue of a cluster. -/
def clusterWords (s : State) (c : ClusterIx) : List IWord :=
  match s.run.prog, issuerOf s (192 + c.val) with
  | some p, some i => (p.words.drop i.first).take i.count
  | _, _ => []

/-! ### Payloads formed (R154, R208, R224, R247, R251) -/

/-- The PSUM payload that a REDUCE PART left at the word's address, its length from that word (log entry 16). -/
def psumBytes (s : State) (x : XWord) : List Byte :=
  let c := clusterOf x.core
  let store := s.cores[x.core].store
  match (clusterWords s c).find? (fun w => wOp w == 0x40 && fld w 68 2 == 3 && 128 * fld w 93 15 == x.addr &&
      fld w 90 3 == x.core.val % 8) with
  | some w =>
    let r := reduceWord w
    let sg := s.run.segs.getD r.seg {}
    let k := (redPositions s c r sg).length
    let n := ((List.range (rankGroups sg.rank)).map (fun g => 16 + k * (min 32 (sg.rank - 32 * g)) * 4)).sum
    memRead store x.addr (min n x.len)
  | none => memRead store x.addr x.len

/-- The mirror request formed at the opening boundary for a peer, up to LEN (R250). -/
def rowreqBytes (s : State) (x : XWord) : List Byte :=
  match s.run.rowreq.find? (fun y => y.1 == x.peer) with
  | some y => y.2.take x.len
  | none => []

/-- Fields of a ROWREQ entry (R250). -/
structure RowAsk where
  /-- The owner's slot. -/
  slot : Nat
  /-- VERSION. -/
  version : Nat
  /-- TARGET. -/
  target : Nat
  /-- MAT: true B. -/
  matB : Bool
  /-- First tile. -/
  tile : Nat
  /-- LAYER. -/
  layer : Nat := 0
  /-- NTILES. -/
  n : Nat
  /-- The requesting partition. -/
  part : Nat
  deriving DecidableEq, Repr

/-- The fields of a ROWREQ entry. -/
def rowAsk (b : List Byte) : RowAsk :=
  let v := leAt b 0 16
  { slot := nfld v 0 16, version := nfld v 16 16, target := nfld v 32 4, matB := nfld v 36 1 == 1, tile := nfld v 47 15, layer := nfld v 37 10,
    n := nfld v 62 16, part := nfld v 78 4 }

/-- The number of an entry's first tile in its matrix: LAYER tells apart the tiles whose numbers agree in 15 bits. -/
def askTile (tpl : Nat) (a : RowAsk) : Nat := a.layer * tpl + (a.tile + 2 ^ 15 - (a.layer * tpl) % 2 ^ 15) % 2 ^ 15

/-- The record from which the owner serves an entry; none when it answers REFUSED (R249). DESIGN CHOICE: R250 gives an entry no
RANK and no TMASK, so they match when the entry's target is present and its tiles lie within the matrix (log entry 50). -/
def ownerServes (s : State) (a : RowAsk) : Option VRec :=
  let e := slotOf s a.slot
  match servingRec s a.slot a.version with
  | some k =>
    let r := vrecOf s a.slot k
    let tpl := tilesPerLayer (targetOf s a.target) a.matB e.rank
    if e.st = .resident ∧ e.pub = true ∧ e.train = false ∧ e.part.val = a.part ∧ bitAt e.tmask a.target = true ∧
        askTile tpl a + a.n ≤ recLayers s r * tpl then some r else none
  | none => none

/-- The 16-byte header of a tile in a ROWS message (R251). -/
def rowsHeader (a : RowAsk) (tile status : Nat) : List Byte :=
  leBytes 16 (a.slot + put 16 a.version + put 32 a.target + put 36 (b2n a.matB) + put 37 (tile % 2 ^ 15) + put 52 status)

/-- The pieces that answer an entry: a header, codes, scale byte and padding for each tile; one header alone when the entry
is refused (log entry 50). -/
def rowsPieces (s : State) (a : RowAsk) : List (List Byte) :=
  match ownerServes s a with
  | none => [rowsHeader a a.tile 1]
  | some r =>
    let e := dirEnt s.hbm r.area a.target a.matB
    let first := askTile e.tpl a
    (List.range a.n).map (fun j =>
      let t := areaTile s.hbm r.area e (first + j)
      let body := t.1 ++ [t.2]
      rowsHeader a (first + j) 0 ++ body ++ List.replicate (roundUp 16 body.length - body.length) 0)

/-- Pieces in order until the length is reached. -/
def takePieces (len : Nat) : List (List Byte) → List Byte
  | [] => []
  | b :: r => if b.length ≤ len then b ++ takePieces (len - b.length) r else []

/-- The answer to the ROWREQ of a peer (R251). -/
def rowsBytes (s : State) (x : XWord) : List Byte :=
  match s.run.rowreqIn.find? (fun y => y.1 == x.peer) with
  | some y => takePieces x.len ((chunk 16 (y.2.2.length / 16) y.2.2).flatMap (fun b => rowsPieces s (rowAsk b)))
  | none => []

/-- The partition of the slot that a GRAD tile names. -/
def gradPart (s : State) (b : List Byte) : Part := (slotOf s (leAt b 0 2)).part

/-- The GRAD tiles waiting for a peer that a word of a partition sends: those that fit in LEN, and those left. -/
def gradSplit (s : State) (p : Part) (x : XWord) : Nat → List (Coord × List Byte) → List Byte × List (Coord × List Byte)
  | _, [] => ([], [])
  | room, t :: r =>
    if t.1 = x.peer ∧ gradPart s t.2 = p then
      if t.2.length ≤ room then let q := gradSplit s p x (room - t.2.length) r; (t.2 ++ q.1, q.2)
      else ([], t :: r)
    else let q := gradSplit s p x room r; (q.1, t :: q.2)

/-- A version's replica set holds a peer (R209). -/
def replicaPeer (s : State) (p : Part) (slot version : Nat) (peer : Coord) : Bool :=
  s.tensors.any (fun t => t.2.st != .empty && t.2.slot == slot && t.2.version == version && t.2.repset != 0xFFF &&
    (homesOf s p t.2.repset).contains peer)

/-- The replica digests of a partition that a peer shares (R224). -/
def sharedDigests (s : State) (p : Part) (peer : Coord) : List (Nat × Nat × BitVec 64) :=
  s.run.digests.filter (fun d => decide ((slotOf s d.1).part = p) && replicaPeer s p d.1 d.2.1 peer)

/-- The DIGEST payload: 16 bytes for each, with SLOT, VERSION, TAG and digest (log entry 51). -/
def digestBytes (s : State) (p : Part) (peer : Coord) : List Byte :=
  (sharedDigests s p peer).flatMap (fun d =>
    leBytes 8 (d.1 + put 16 d.2.1 + put 32 (slotOf s d.1).tag.toNat) ++ leBytes 8 d.2.2.toNat)

/-- The AGREE payload: the word for the step about to open, and SUMMARY as it stands (R213, R319). -/
def agreeBytes (s : State) : List Byte :=
  leBytes 64 ((ownWord s.mc.sNext (s.mc.step + 1) s) ||| BitVec.ofNat 512 (put 160 (summaryNow s).toNat)).toNat

/-- The payload of an XSEND for the partition of its CORE. GRAD tiles and digests are a partition's own: a word of a core that
no partition has sends none (log entry 142). -/
def sendBody (s : State) (p : Option Part) (x : XWord) : List Byte :=
  if x.kind = 0 then psumBytes s x
  else if x.kind = 1 then rowreqBytes s x
  else if x.kind = 2 then rowsBytes s x
  else if x.kind = 4 then agreeBytes s
  else match p with
    | none => []
    | some p => if x.kind = 3 then (gradSplit s p x x.len s.run.gradOut).1 else digestBytes s p x.peer

/-- The GRAD tiles that an XSEND takes are gone from those that wait. -/
def takeGradOut (p : Option Part) (x : XWord) (s : State) : State :=
  match p with
  | some p => if x.kind = 3 then modRun (fun r => { r with gradOut := (gradSplit s p x x.len s.run.gradOut).2 }) s else s
  | none => s

/-- The agreement word that an XSEND carries is the one that stands for action 7 toward its neighbour (R319, R321). -/
def noteAgree (x : XWord) (s : State) : State :=
  match portOf s x.peer with
  | some q =>
    if x.kind = 4 then { s with mc := { s.mc with agreeSent := vset s.mc.agreeSent q.val (some (ownWord s.mc.sNext (s.mc.step + 1) s)) } }
    else s
  | none => s

/-- PEER's entry is UNREACHABLE; a PEER outside the box is a ROUTE_DROP instead (R360). -/
def peerLost (s : State) (x : XWord) : Bool :=
  (match s.plane.plan with | some pl => inBox pl x.peer | none => true) && routeEntry s false x.peer % 8 == 7

/-- The work of XSEND: its message takes the route toward PEER; it sends nothing when that is UNREACHABLE (R360), nor when it had
completed before a replay (Table REL-8). -/
def xsendWork (i : Nat) (w : IWord) (s : State) : Option State :=
  let x := xWord w
  let p := corePart s x.core
  let m := mkMsg s x.kind x.msg ((p.map Fin.val).getD 0) x.peer (sendBody s p x)
  let t := takeGradOut p x s
  let t := if s.run.sentWords.contains i ∨ peerLost s x = true then t
    else modRun (fun r => { r with sentWords := r.sentWords ++ [i] }) (routeMsg 6 x.vc false m (noteAgree x t))
  some (setStatus i 0 false t)

/-! ### Payloads taken -/

/-- The segment that the reduction of an XRECV of KIND PSUM works for: that of the next REDUCE with the same RID in the
cluster of CORE. -/
def psumReduce (s : State) (x : XWord) : Option ReduceWord :=
  let c := clusterOf x.core
  ((flightWords s (192 + c.val) ++ (clusterWords s c).drop (tabGet 0 s.run.ptr (192 + c.val))).find? (fun w => wOp w == 0x40 && fld w 46 6 == x.rid)).map reduceWord

/-- The shard of a coordinate in the shard set of a segment: tree level and node index (R246, R247). -/
def shardNode (s : State) (sg : Seg) (c : Coord) : Option (Nat × Nat) :=
  match anyRec s sg.slot sg.version with
  | none => none
  | some k =>
    let ix := (vrecOf s sg.slot k).shset
    if ix = 0xFFF then none else
    let e := tabGet 0 s.parts[sg.part].shards ix
    ((List.range (fld e 60 4)).find? (fun j => decide ((BitVec.ofNat 18 (fld e (64 * j) 18) : Coord) = c))).map (fun j =>
      let cnt := fld e (64 * j + 30) 12
      (Nat.log2 cnt, fld e (64 * j + 18) 12 / max 1 cnt))

/-- Nodes entered in a reduction; one that stands there already is discarded (R253). -/
def enterNodes (c : ClusterIx) (rid : Nat) (l : List RedNode) (s : State) : State :=
  modCluster c (fun k => { k with reds := tabMod [] k.reds rid (fun old =>
    l.foldl (fun acc x => if acc.any (fun y => y.level == x.level && y.node == x.node && y.rgrp == x.rgrp && y.pos == x.pos)
      then acc else acc ++ [x]) old) }) s

/-- Canonical NaN in every lane of a node, at every position of the segment in the cluster (R248). -/
def nanNodes (s : State) (c : ClusterIx) (r : ReduceWord) (sg : Seg) (node : Nat × Nat) : List RedNode :=
  (List.range (rankGroups sg.rank)).flatMap (fun g => (redPositions s c r sg).map (fun x =>
    { level := node.1, node := node.2, rgrp := g, pos := x.2, lanes := List.replicate (min 32 (sg.rank - 32 * g)) f32Nan }))

/-- The header of a PSUM payload (Table RES-7): VERSION, LEVEL, NODE, RGRP, COUNT. -/
def psumHeader (b : List Byte) : Nat × Nat × Nat × Nat × Nat :=
  let v := leAt b 0 16
  (nfld v 0 16, nfld v 16 4, nfld v 20 12, nfld v 32 3, nfld v 39 16)

/-- The parts of a PSUM payload, one rank group after another, each with its header and its values (log entry 16). -/
def psumParts (rank : Nat) : Nat → List Byte → List ((Nat × Nat × Nat × Nat × Nat) × List Byte)
  | 0, _ => []
  | n + 1, b =>
    if b.length < 16 then [] else
    let h := psumHeader b
    let size := h.2.2.2.2 * min 32 (rank - 32 * h.2.2.2.1) * 4
    (h, slice b 16 size) :: psumParts rank n (b.drop (16 + size))

/-- The nodes of one part. -/
def psumNodes (rank first : Nat) (x : (Nat × Nat × Nat × Nat × Nat) × List Byte) : List RedNode :=
  let h := x.1
  let lanes := min 32 (rank - 32 * h.2.2.2.1)
  (List.range h.2.2.2.2).map (fun j =>
    { level := h.2.1, node := h.2.2.1, rgrp := h.2.2.2.1, pos := first + j,
      lanes := (List.range lanes).map (fun l => BitVec.ofNat 32 (leAt x.2 (4 * (j * lanes + l)) 4)) })

/-- Every header of a payload names the shard's node and the segment's version, with a COUNT that is one (R10, R248). -/
def psumAgrees (node : Nat × Nat) (version : Nat) (l : List ((Nat × Nat × Nat × Nat × Nat) × List Byte)) : Bool :=
  l != [] && l.all (fun x => decide ((x.1.2.1, x.1.2.2.1) = node ∧ x.1.1 = version ∧ x.1.2.2.2.2 ≠ 0xFFFF))

/-- An XRECV that completes NO_SOURCE, with its entry for the partition of its core (R162). -/
def noSourceWord (i : Nat) (x : XWord) (s : State) : State :=
  setStatus i 6 false (wordErr i (corePart s x.core)
    { code := 0x06, cls := .contained, info0 := i, info1 := x.peer.toNat, aux := x.kind } s)

/-- A PSUM taken (R248): its nodes enter the reduction, or NaN enters in their place, the segment's partition gets an entry, and
the word is NO_SOURCE. -/
def takePsum (i : Nat) (x : XWord) (b : List Byte) (s : State) : State :=
  let c := clusterOf x.core
  match psumReduce s x with
  | none => setStatus i 4 false s
  | some r =>
    if s.run.segs.length ≤ r.seg then setStatus i 4 false s else
    let sg := s.run.segs.getD r.seg {}
    let h := psumHeader b
    let first := clusterFirst (planRow s r.seg) c.val
    let parts := psumParts sg.rank (rankGroups sg.rank) b
    match shardNode s sg x.peer with
    | some node =>
      if psumAgrees node sg.version parts then
        setStatus i 0 false (enterNodes c x.rid (parts.flatMap (psumNodes sg.rank first)) (storeWrite x.core x.addr b s))
      else reject r sg node h s
    | none => reject r sg (h.2.1, h.2.2.1) h s
where
  /-- The message discarded: an entry quoting its source, and NaN in the node's place. -/
  reject (r : ReduceWord) (sg : Seg) (node : Nat × Nat) (h : Nat × Nat × Nat × Nat × Nat) (s : State) : State :=
    let c := clusterOf x.core
    let s := wordErr i (some sg.part) { code := 0x0B, cls := .contained, info0 := x.peer.toNat, info1 := h.2.1 + put 4 h.2.2.1 } s
    noSourceWord i x (enterNodes c x.rid (nanNodes s c r sg node) s)

/-- Bytes of one OK tile in a ROWS message, header and padding among them. -/
def rowsTileLen (tbytes : Nat) : Nat := 16 + roundUp 16 (tbytes + 1)

/-- The mirrors that asked an owner for a tile at the opening boundary and are still being filled, in that order. -/
def askingMirrors (s : State) (src : Coord) (p : Part) (a : RowAsk) : List (Nat × VRec) :=
  (waitingMirrors s src).filter (fun y => y.2.oslot == a.slot && y.2.version == a.version && (slotOf s (y.1 / 4)).part == p &&
    s.run.asked.any (fun k => k.1 == y.2.mirNo))

/-- Bytes that an OK tile takes in a ROWS message: by the rank with which its mirror asked, also when that one is gone. -/
def askedTileLen (s : State) (src : Coord) (a : RowAsk) (rest : Nat) : Nat :=
  match s.run.asked.find? (fun k => k.2.1 == src && k.2.2.1 == a.slot && k.2.2.2.1 == a.version) with
  | some k => rowsTileLen (tileBytes a.matB k.2.2.2.2)
  | none => rest

/-- One tile of a ROWS message for the mirrors that asked for it: an OK tile is written at its canonical place, the first one of
its number that has not come, a REFUSED tile ends every mirror that asked for it (R251 to R253). Answers the bytes the tile
took. -/
def placeTile (src : Coord) (p : Part) (b : List Byte) (s : State) : Nat × State :=
  let a : RowAsk := { rowAsk b with tile := leAt b 0 8 / 2 ^ 37 % 2 ^ 15 }
  let ms := askingMirrors s src p a
  if leAt b 0 8 / 2 ^ 52 % 4 = 1 then
    (16, modRun (fun r => { r with mirEnd := r.mirEnd ++ (ms.map (fun y => y.2.mirNo)).filter (fun i => !r.mirEnd.contains i) }) s)
  else
    let k := 2 * a.target + b2n a.matB
    let want := ms.findSome? (fun y =>
      let e := dirEnt s.hbm y.2.area a.target a.matB
      ((List.range (recLayers s y.2 * e.tpl)).find? (fun t => t % 2 ^ 15 == a.tile && !y.2.arrived.contains (k, t) &&
        !s.run.rowsGot.contains (y.2.mirNo, k, t))).map (fun t => (y.2, e, t)))
    (askedTileLen s src a b.length, match want with
      | some (r, e, t) =>
        let hbm := memWrite s.hbm (r.area + e.codes + t * e.tbytes) (slice b 16 e.tbytes)
        modRun (fun x => { x with rowsGot := x.rowsGot ++ [(r.mirNo, k, t)] })
          { s with hbm := memWrite hbm (r.area + e.scales + t) (slice b (16 + e.tbytes) 1) }
      | none => s)

/-- The tiles of a ROWS message. -/
def takeRows (src : Coord) (p : Part) : Nat → List Byte → State → State
  | 0, _, s => s
  | n + 1, b, s =>
    if b.length < 16 then s else
    let r := placeTile src p b s
    takeRows src p n (b.drop (max 16 r.1)) r.2

/-- The tiles of a GRAD message, each contribution by R75 (R208, R211). The length of a tile follows from the rank of its
slot; where that slot holds no adapter the message's rest is discarded and counts one (log entry 52). -/
def takeGrad (p : Part) : Nat → List Byte → State → State
  | 0, _, s => s
  | n + 1, b, s =>
    if b.length < 8 then s else
    let v := leAt b 0 8
    let slot := nfld v 0 16
    let matB := nfld v 36 1 == 1
    let sfmt := nfld v 54 2
    let els := tileBytes matB (slotOf s slot).rank
    if els = 0 then countDiscard p 1 s else
    let width := contribBytes sfmt
    let vals := (chunk width els (slice b 8 (els * width))).map (fun c => fpDecode (contribFmt sfmt) (leNat c))
    let s := addTile p slot (nfld v 16 16) (nfld v 32 4) matB (nfld v 37 15) vals s
    takeGrad p n (b.drop (roundUp 8 (8 + els * width))) s

/-- An AGREE taken: the word stands for action 7, its SUMMARY is ORed into the chip's own (R213, R319). -/
def takeAgree (src : Coord) (b : List Byte) (s : State) : State :=
  let w : BitVec 512 := BitVec.ofNat 512 (leAt b 0 64)
  let s := modRun (fun r => { r with summary := r.summary ||| BitVec.ofNat 32 (fld w 160 32), swept := true }) s
  match portOf s src with
  | some q => { s with mc := { s.mc with agrees := vset s.mc.agrees q.val (some w) } }
  | none => s

/-! ### Freezing (R225, R226) -/

/-- Digests of every tile of a version, by (TARGET, MAT): tensor index and digests. -/
def ownDigs (s : State) (slot version : Nat) : List (Nat × Tensor × List (BitVec 64)) :=
  (versionTensors s slot version).map (fun t =>
    (t.1, t.2, (List.range (t.2.nlayers * tensorTpl s t.2)).map (fun i => tileDigest s t.2 i)))

/-- The tile digests of a peer for a tile of a tensor, if they have come. -/
def peerDig (s : State) (src : Coord) (p : Part) (tag : Word) (version : Nat) (t : Tensor) (i : Nat) : Option (BitVec 64) :=
  s.tdigs.findSome? (fun d =>
    if d.src = src ∧ d.part = p ∧ d.tag = tag ∧ d.version = version ∧ d.target = t.target ∧ d.matB = t.matB ∧ d.first ≤ i then
      d.digs[i - d.first]? else none)

/-- The search of R226 for one peer, once the digests of every tile of the frozen adapter have come from it: an entry for the
first tile that differs. -/
def searchTiles (src : Coord) (p : Part) (slot version : Nat) (s : State) : State :=
  let e := slotOf s slot
  let own := ownDigs s slot version
  let all := own.flatMap (fun t => t.2.2.zipIdx.map (fun x => (t.1, x.2, x.1, peerDig s src p e.tag version t.2.1 x.2)))
  if e.frozen = false ∨ all = [] ∨ all.any (fun x => x.2.2.2.isNone) then s else
  let s := { s with tdigs := s.tdigs.filter (fun d => !(d.src == src && decide (d.part = p) && d.tag == e.tag && d.version == version)) }
  match all.find? (fun x => x.2.2.2 != some x.2.2.1) with
  | some x => noteErr p { code := 0x0A, cls := .event, info0 := x.1, info1 := x.2.1 } s
  | none => s

/-- The tile digests of a frozen adapter sent to the other homes of its replica set, MSG counted for the freeze (R226). -/
def sendTdigs (p : Part) (slot version : Nat) (s : State) : State :=
  let e := slotOf s slot
  let own := ownDigs s slot version
  let s := own.foldl (fun s t => busyTensor t.2.1 s) s
  let homes := ((own.flatMap (fun t => homesOf s p t.2.1.repset)).dedup).filter (fun c => c != s.plane.coord)
  own.zipIdx.foldl (fun s t =>
    let hdr := leBytes 32 (slot + put 16 version + put 32 e.tag.toNat + put 64 t.1.2.1.target + put 68 (b2n t.1.2.1.matB) +
      put 84 t.1.2.2.length)
    let body := hdr ++ t.1.2.2.flatMap (fun d => leBytes 8 d.toNat)
    homes.foldl (fun s c => routeMsg 6 3 false (mkMsg s 9 t.2 p.val c body) s) s) s

/-- An adapter freezes on a difference with a peer, its tile digests go out, and those that have come are searched. -/
def freezeVersion (p : Part) (slot version : Nat) (peer : Coord) (s : State) : State :=
  if (slotOf s slot).frozen then s else
  searchTiles peer p slot version (sendTdigs p slot version (freezeSlot p slot peer s))

/-- A DIGEST taken: every shared digest that differs or is missing freezes its adapter (R225). -/
def takeDigest (src : Coord) (p : Part) (b : List Byte) (s : State) : State :=
  let got := (chunk 16 (b.length / 16) b).map (fun e => (leAt e 2 2, leAt e 4 4, leAt e 8 8))
  (sharedDigests s p src).foldl (fun s d =>
    if got.contains (d.2.1, (slotOf s d.1).tag.toNat, d.2.2.toNat) then s else freezeVersion p d.1 d.2.1 src s) s

/-! ### XRECV -/

/-- The message of an XRECV can no longer come: its source is cut, fenced or refused, a cut link lies on its route, or it
has no route (R154, R322, R360, Table PLANE-13). -/
def lostSource (s : State) (peer : Coord) : Bool :=
  s.run.noSource.contains peer || refusedSrc s peer || routeEntry s false peer % 8 == 7 ||
    (match s.plane.plan with | some pl => isCut s pl peer | none => true)

/-- An XRECV whose message does not come (Table REL-9): by KIND, NaN in the node's place, the partition's step skipped, the
summary full, the shared adapters frozen. -/
def noSource (i : Nat) (x : XWord) (s : State) : State :=
  let p := corePart s x.core
  let s := noSourceWord i x s
  if x.kind = 0 then
    match psumReduce s x with
    | some r =>
      let sg := s.run.segs.getD r.seg {}
      match shardNode s sg x.peer with
      | some n => enterNodes (clusterOf x.core) x.rid (nanNodes s (clusterOf x.core) r sg n) s
      | none => s
    | none => s
  else if x.kind = 4 then modRun (fun r => { r with summary := r.summary ||| 0xFFFF0000#32, swept := true }) s
  else match p with
    | none => s
    | some p =>
      if x.kind = 3 then summaryBits p false true s
      else if x.kind = 5 then (sharedDigests s p x.peer).foldl (fun s d => freezeVersion p d.1 d.2.1 x.peer s) s
      else s

/-- What a payload does, by KIND. -/
def xrecvTake (i : Nat) (x : XWord) (b : List Byte) (s : State) : State :=
  if x.kind = 0 then takePsum i x b s
  else
    let s := if x.kind ≤ 3 then storeWrite x.core x.addr b s else s
    setStatus i 0 false (
      if x.kind = 1 then modRun (fun r => { r with rowreqIn := r.rowreqIn ++ [(x.peer, x.msg, b)] }) s
      else if x.kind = 4 then takeAgree x.peer b s
      else match corePart s x.core with
        | none => s
        | some p => if x.kind = 2 then takeRows x.peer p b.length b s
          else if x.kind = 3 then takeGrad p b.length b s
          else takeDigest x.peer p b s)

/-- The work of XRECV: the payload of the message with its SRC, KIND and MSG, from the replay log or as delivered. DESIGN CHOICE:
Table ISA-19 has no bounds status, so a payload longer than the window of LEN is refused as a message that does not come: nothing
of it is placed, and the word is NO_SOURCE (R11; log entry 143). -/
def xrecvWork (i : Nat) (w : IWord) (s : State) : Option State :=
  let x := xWord w
  match s.run.inbox.find? (fun m => m.src == x.peer && m.kind == x.kind && m.msg == x.msg) with
  | some m =>
    let r := takePayload i m.body s
    some (if x.kind ≤ 3 ∧ x.len < r.1.length then noSource i x r.2 else xrecvTake i x r.1 r.2)
  | none => if lostSource s x.peer then some (noSource i x s) else none

/-- What an exchange word or message may change: what words change, the agreement words and the tile digests. -/
def footXchg (s t : State) : State :=
  { footWord s t with mc := { s.mc with agrees := t.mc.agrees, agreeSent := t.mc.agreeSent, missNext := t.mc.missNext }, tdigs := t.tdigs }

/-- XSEND (R154). -/
def execXsend (port : PortIx) (s : State) : Host.Outcome State Fault Refusal :=
  .next (footXchg s (issuePlain (portQueue port) (fun w => wOp w == 0x70) xsendWork s))

/-- XRECV (R154). -/
def execXrecv (port : PortIx) (s : State) : Host.Outcome State Fault Refusal :=
  .next (footXchg s (issueFlight (portQueue port) (fun w => wOp w == 0x71) (fun _ => false) xrecvWork s))

/-! ### Messages -/

/-- PSUM_MSG (R248): it waits for its XRECV, which runs the checks of R248. -/
def execPsumMsg (m : Msg) (s : State) : Host.Outcome State Fault Refusal := .next (footXchg s (takeMsg 0 m (deliver m) s))

/-- ROWREQ_MSG (R251): it waits for its XRECV; the ROWS word answers it. -/
def execRowreqMsg (m : Msg) (s : State) : Host.Outcome State Fault Refusal := .next (footXchg s (takeMsg 1 m (deliver m) s))

/-- ROWS_MSG (R251): it waits for its XRECV, which writes its tiles. -/
def execRowsMsg (m : Msg) (s : State) : Host.Outcome State Fault Refusal := .next (footXchg s (takeMsg 2 m (deliver m) s))

/-- GRAD_MSG (R211): it waits for its XRECV, which adds its contributions. -/
def execGradMsg (m : Msg) (s : State) : Host.Outcome State Fault Refusal := .next (footXchg s (takeMsg 3 m (deliver m) s))

/-- AGREE_MSG (R213): it waits for its XRECV; before the first step the word is taken at once (R412). -/
def execAgreeMsg (m : Msg) (s : State) : Host.Outcome State Fault Refusal :=
  .next (footXchg s (takeMsg 4 m (fun t => if s.run.isOpen then deliver m t else takeAgree (mSrc m) m.body t) s))

/-- DIGEST_MSG (R225): it waits for its XRECV, which compares it. -/
def execDigestMsg (m : Msg) (s : State) : Host.Outcome State Fault Refusal := .next (footXchg s (takeMsg 5 m (deliver m) s))

/-- Tile digests received (Table PLANE-20): kept, and searched once every tile of the frozen adapter has come. -/
def takeTdig (m : Msg) (s : State) : State :=
  let v := leAt m.body 0 32
  let tag : Word := BitVec.ofNat 32 (nfld v 32 32)
  let version := nfld v 16 16
  let n := min (nfld v 84 16) ((m.body.length - 32) / 8)
  let d : TDig := { src := mSrc m, part := mPart m, tag, version, target := nfld v 64 4, matB := nfld v 68 1 == 1,
                    first := nfld v 69 15, digs := (List.range n).map (fun j => BitVec.ofNat 64 (leAt m.body (32 + 8 * j) 8)) }
  let s := { s with tdigs := s.tdigs ++ [d] }
  match s.slots.find? (fun x => x.2.frozen && decide (x.2.part = mPart m) && x.2.tag == tag && (versionTensors s x.1 version) != []) with
  | some x => searchTiles (mSrc m) (mPart m) x.1 version s
  | none => s

/-- TDIG_MSG (R226). -/
def execTdigMsg (m : Msg) (s : State) : Host.Outcome State Fault Refusal := .next (footXchg s (takeMsg 9 m (takeTdig m) s))

end Sys2Proof.Machine
end

