-- ==== Sys2Proof/Machine/Boot.lean ====
section
/-!
DEFINITION. Cold bring-up (R414, R415), the firmware image (R401 to R404), restart and halt of the control core (R395 to
R400): the commands PLL_LOCK_DONE, FUSE_LOAD_DONE, BOOT_ROM_MEASURED, HBM_TRAINING_DONE, FIRMWARE_START_DONE,
IMAGE_VERIFY_DONE, CHECKPOINT_COMPLETE, WATCHDOG_EXPIRY, CONTROL_CORE_FAULT, RESTART_COMPLETE and FATAL_ERROR.
-/

namespace Sys2Proof.Machine

/-- A phase of Table CTRL-9 ends: the next phase, and what comes with it. -/
def phaseEnd (now next : Nat) (act : State → State) (s : State) : State :=
  if s.cc.bootph = now then act { s with cc := { s.cc with bootph := next } } else s

/-! ### Fuses and straps (R110, R351, R378) -/

/-- FUSE_LOAD_DONE: straps sampled, fuses loaded. -/
def fuseLoad (straps : Coord) (s : State) : State :=
  phaseEnd 1 2 (fun s => loadBypass { s with plane := { s.plane with strap := straps } }) s

/-- HBM_TRAINING_DONE: the Autumn wipe begins, or the chip stops in BOOTFAIL (R415). -/
def hbmTrained (failed : Option (Fin 4)) (s : State) : State :=
  match failed with
  | none => phaseEnd 3 4 (fun s => { s with sec := { s.sec with wiping := true, lastWipe := false } }) s
  | some k => phaseEnd 3 9 (fun s => { s with cc := { s.cc with booterr := k.val } }) s

/-- FIRMWARE_START_DONE: in OPERATIONAL and SERVICE the RWL fields come from the provisioning record (R387). -/
def firmwareStart (s : State) : State :=
  phaseEnd 7 8 (fun s =>
    let rwl := if s.nv.lc = .operational ∨ s.nv.lc = .service then s.nv.prov.getD {} else s.plane.rwl
    strapCoord { s with plane := { s.plane with rwl } }) s

/-! ### The image (R401 to R404) -/

/-- The staged bytes of the image slot. -/
def slotBytes (s : State) : List Byte := memRead s.cc.slotBytes 0 s.cc.slotLen

/-- The length and format checks of R402. -/
def imageFormat (b : List Byte) : Bool :=
  let code := leAt b 0x10 4
  let data := leAt b 0x14 4
  leAt b 0 4 == 0x31574650 && leAt b 4 2 == 1 && leAt b 6 2 == Config.stepping && decide (4096 ≤ code ∧ code ≤ 1048576 ∧ code % 4096 = 0)
    && decide (data ≤ 1048576 ∧ data % 64 = 0) && b.length == 256 + code + data

/-- The signature, digest and SVN checks of R402, and the digest that FW_BEGIN announced. -/
def imageIntegrity (s : State) (b : List Byte) : Bool :=
  decide (sha384 s.nv.fwKey = s.nv.fwKeyHash) && ecdsaVerify s.nv.fwKey (b.take 0xA0) (slice b 0xA0 96)
    && decide (sha384 (b.drop 256) = slice b 0x20 48) && decide (sha384 b = s.cc.slotDigest)
    && decide (s.nv.svnMin ≤ leAt b 0xC 1 ∧ leAt b 0xC 1 ≤ 254)

/-- The image that a header describes. -/
def imageOf (b : List Byte) : FwImage :=
  { fwver := BitVec.ofNat 32 (leAt b 8 4), svn := leAt b 0xC 1, abi := leAt b 0xE 2, digest := sha384 b }

/-- A slot emptied (R404). -/
def emptySlot (c : Cc) : Cc := { c with slotSt := .empty, slotLen := 0, slotDigest := [], slotBytes := [], slotImage := none }

/-- IMAGE_VERIFY_DONE: the FW_END under way is decided; an accepted image runs at once in the boot ROM (R402, R403). -/
def imageVerify (s : State) : State :=
  match s.cc.pendCmd with
  | some (_, _, .fwEnd) =>
    let b := slotBytes s
    let st := if !imageFormat b then 5 else if !imageIntegrity s b then 4 else 0
    let t := endPending (fun w => match w with | .fwEnd => true | _ => false) st s
    if st ≠ 0 then { t with cc := { emptySlot t.cc with bootph := if s.cc.bootph = 6 then 5 else s.cc.bootph } }
    else if s.cc.bootph = 6 then
      let u := activate (imageOf b) t
      { u with cc := { u.cc with bootph := 7 } }
    else { t with cc := { t.cc with slotSt := .pending, slotImage := some (imageOf b) } }
  | _ => s

/-! ### Restart and halt (R395 to R400) -/

/-- The control core halts: HALTED in CC_BOOT, the chip fenced, a block-fatal error (R400, R437). -/
def haltCore (err src code aux info0 : Nat) (s : State) : State :=
  fatalError src code aux info0 0 { s with cc := { s.cc with bootph := 10, booterr := err } }

/-- SRC of Table REL-4 for a restart by its CAUSE. -/
def restartSrc (cause : Nat) : Nat := if cause = 2 ∨ cause = 3 ∨ cause = 4 then 0x0B else if cause = 5 then 0x0E else 0

/-- The control core restarts from the newer complete checkpoint (R398): every value stays, boundaries wait until the journal
has been replayed (R399); the fifth restart within 1,000 steps halts it (R400). The watchdog counts anew. -/
def restart (cause : Nat) (s : State) : State :=
  if s.cc.bootph < 5 ∨ 8 < s.cc.bootph then s else
  let recent := (s.mc.step :: s.cc.restartSteps).filter (fun x => decide (s.mc.step.toNat < x.toNat + 1000))
  let s := { s with cc := { s.cc with
    restarts := satAdd cnt16Max s.cc.restarts 1, restartCause := cause, restartSteps := recent.take 5, restarting := true,
    wdogKick := s.mc.tick.toNat } }
  let s := chipLog 0x14 (if cause = 6 then .event else .corrected) (restartSrc cause) 0 cause 0 s
  let s := if restartSrc cause = 0 then s else countCorrected (restartSrc cause) s
  let s := if cause = 6 then s else modRun (fun r => { r with corrected := true }) s
  if 5 ≤ recent.length then haltCore 2 0x0B 0x18 0 0x0B s else s

/-- WATCHDOG_EXPIRY: WDOG_T control-clock cycles have passed since the last KICK, 6 cycles in 5 ticks. -/
def watchdog (s : State) : State :=
  if 5 * s.cc.wdogT.toNat ≤ 6 * (s.mc.tick.toNat - s.cc.wdogKick) then restart 1 s else s

/-- An uncorrectable error of the control core (R398, R400). Where both checkpoint areas are lost, the address of the entry is
a free value (log entry 1); an instruction SRAM line is repaired only while the slot holds the running image (log entry 54). -/
def coreFault (f : CcFault) (s : State) : State :=
  if s.cc.bootph < 5 ∨ 8 < s.cc.bootph then s else
  match f with
  | .dataSram => restart 2 s
  | .regFile => restart 3 s
  | .pipeline => restart 4 s
  | .ckptRead both =>
    if both then haltCore 3 0x0E 0x0C 3 (Config.free 38 s.freeIx).toNat { s with freeIx := s.freeIx + 1 } else restart 5 s
  | .instrSram =>
    if s.cc.image = none then s
    else if s.cc.slotSt = .running then countCorrected 0x0C s
    else haltCore 1 0x0C 0x18 0 0x0C s

/-- RESTART_COMPLETE: the journal is exhausted. -/
def restartDone (s : State) : State := { s with cc := { s.cc with restarting := false } }

/-- CHECKPOINT_COMPLETE: the copy becomes the newer checkpoint, the newer one the older (R395); inputs from before the older
one leave the journal (R396). -/
def checkpointDone (s : State) : State :=
  match s.cc.ckptCopy with
  | none => s
  | some n => { s with cc := { s.cc with
      ckptStep := some n, ckptOld := s.cc.ckptStep, ckptArea := !s.cc.ckptArea, ckptCopy := none,
      ckptMarks := (s.cc.ckptMarks.2.1, s.cc.ckptMarks.2.2, s.cc.ckptMarks.2.2) } }

/-- FATAL_ERROR of a source of Table REL-4 (R437). -/
def fatal (src : Nat) (s : State) : State :=
  if src = 0 ∨ 0x0F < src then s
  else if src = 0x0E then
    fatalError src 0x0C 5 (Config.free 38 s.freeIx).toNat 0 { s with freeIx := s.freeIx + 1 }
  else fatalSrc src s

/-! ### The commands -/

/-- What bring-up and the control core's own events may change. -/
def footBoot (s t : State) : State :=
  { s with out := t.out, freeIx := t.freeIx, cc := t.cc, sec := keepLc s t, regs := t.regs, mc := t.mc, plane := t.plane, ports := t.ports,
           cores := keepAssign s t, run := t.run, err := t.err,
           nv := { s.nv with svnMin := max s.nv.svnMin t.nv.svnMin, lastFatal := t.nv.lastFatal } }

/-- PLL_LOCK_DONE (R414). -/
def execPllLockDone (s : State) : Host.Outcome State Fault Refusal := .next (footBoot s (phaseEnd 0 1 (fun t => t) s))

/-- FUSE_LOAD_DONE (R414). -/
def execFuseLoadDone (straps : Coord) (s : State) : Host.Outcome State Fault Refusal :=
  let t := fuseLoad straps s
  .next { s with cc := t.cc, plane := t.plane, cores := t.cores }

/-- BOOT_ROM_MEASURED (R414). -/
def execBootRomMeasured (digest : List Byte) (s : State) : Host.Outcome State Fault Refusal :=
  .next (footBoot s (phaseEnd 2 3 (fun t => { t with cc := { t.cc with romDigest := digest } }) s))

/-- HBM_TRAINING_DONE (R415). -/
def execHbmTrainingDone (failed : Option (Fin 4)) (s : State) : Host.Outcome State Fault Refusal :=
  .next (footBoot s (hbmTrained failed s))

/-- FIRMWARE_START_DONE (R414). -/
def execFirmwareStartDone (s : State) : Host.Outcome State Fault Refusal := .next (footBoot s (firmwareStart s))

/-- IMAGE_VERIFY_DONE (R402). -/
def execImageVerifyDone (s : State) : Host.Outcome State Fault Refusal := .next (footBoot s (imageVerify s))

/-- WATCHDOG_EXPIRY (R398). -/
def execWatchdogExpiry (s : State) : Host.Outcome State Fault Refusal := .next (footBoot s (watchdog s))

/-- CONTROL_CORE_FAULT (R398). -/
def execControlCoreFault (fault : CcFault) (s : State) : Host.Outcome State Fault Refusal := .next (footBoot s (coreFault fault s))

/-- RESTART_COMPLETE (R398). -/
def execRestartComplete (s : State) : Host.Outcome State Fault Refusal := .next (footBoot s (restartDone s))

/-- CHECKPOINT_COMPLETE (R395). -/
def execCheckpointComplete (s : State) : Host.Outcome State Fault Refusal := .next (footBoot s (checkpointDone s))

/-- FATAL_ERROR (R437). -/
def execFatalError (src : Nat) (s : State) : Host.Outcome State Fault Refusal := .next (footBoot s (fatal src s))

end Sys2Proof.Machine
end

