-- ==== Sys2Proof/Machine/Ecc.lean ====
section
/-!
DEFINITION. The memory code of R422 and R423: RS(72,64) over GF(2^8) with field polynomial 0x11D, generator roots α^0 to α^7,
decoded within a bounded distance.
-/

namespace Sys2Proof.Machine

/-- Product in GF(2^8) with field polynomial 0x11D. -/
def rsMulFrom : Nat → Byte → Byte → Byte
  | 0, _, _ => 0
  | n + 1, a, b =>
    let half := rsMulFrom n (if a.getLsbD 7 then (a <<< 1) ^^^ 0x1D else a <<< 1) (b >>> 1)
    if b.getLsbD 0 then half ^^^ a else half

/-- Product in the field of the code. -/
def rsMul (a b : Byte) : Byte := rsMulFrom 8 a b

/-- α^n, α = 0x02. -/
def rsPow : Nat → Byte
  | 0 => 1
  | n + 1 => rsMul 2 (rsPow n)

/-- Inverse of a field element: a^254. -/
def rsInv (a : Byte) : Byte := (List.range 7).foldl (fun (x : Byte × Byte) _ =>
  let s := rsMul x.1 x.1
  (s, rsMul x.2 s)) (a, 1) |>.2

/-- The eight syndromes of an error pattern: symbol i stands at power i of the codeword polynomial. -/
def rsSyndromes (e : List (Fin 72 × Byte)) : List Byte :=
  (List.range 8).map (fun j => e.foldl (fun s x => s ^^^ rsMul x.2 (rsPow (j * x.1.val))) 0)

/-- State of the search for the error locator: locator, the one before the last change, its discrepancy, its age, length. -/
structure RsState where
  /-- Locator, constant term first. -/
  loc : List Byte := [1]
  /-- The locator before the length last changed. -/
  old : List Byte := [1]
  /-- Its discrepancy. -/
  disc : Byte := 1
  /-- Steps since. -/
  age : Nat := 1
  /-- Length L. -/
  len : Nat := 0
  deriving DecidableEq, Repr

/-- Coefficientwise sum of two polynomials. -/
def rsAdd : List Byte → List Byte → List Byte
  | [], b => b
  | a, [] => a
  | x :: a, y :: b => (x ^^^ y) :: rsAdd a b

/-- One step of the search with syndrome n. -/
def rsStep (syn : List Byte) (c : RsState) (n : Nat) : RsState :=
  let d := (List.range (c.len + 1)).foldl (fun s i => s ^^^ rsMul (c.loc.getD i 0) (syn.getD (n - i) 0)) 0
  if d = 0 then { c with age := c.age + 1 } else
  let k := rsMul d (rsInv c.disc)
  let next := rsAdd c.loc (List.replicate c.age 0 ++ c.old.map (rsMul k))
  if 2 * c.len ≤ n then { loc := next, old := c.loc, disc := d, age := 1, len := n + 1 - c.len }
  else { c with loc := next, age := c.age + 1 }

/-- The error locator of the syndromes. -/
def rsLocator (syn : List Byte) : RsState := (List.range 8).foldl (rsStep syn) {}

/-- The codeword positions that a locator names. -/
def rsRoots (loc : List Byte) : List Nat :=
  (List.range 72).filter (fun i =>
    let x := rsInv (rsPow i)
    loc.foldr (fun c acc => c ^^^ rsMul acc x) 0 == 0)

/-- What the decoder makes of a codeword (Table REL-2). -/
inductive RsOutcome where
  /-- Read as error-free and it is. -/
  | clean
  /-- Corrected to the codeword that was written. -/
  | corrected
  /-- Read as error-free, or corrected, to another codeword. -/
  | wrong (reported : Bool)
  /-- Reported uncorrectable. -/
  | uncorrectable
  deriving DecidableEq, Repr

/-- Symbol errors a mode corrects (Table REL-2). -/
def eccLimit (mode : Nat) : Nat := if mode = 0 then 4 else if mode = 1 then 3 else if mode = 2 then 2 else 0

/-- Errors at one position merged; positions without an error left out. -/
def rsErrors (e : List (Fin 72 × Byte)) : List (Fin 72 × Byte) :=
  (List.finRange 72).filterMap (fun i =>
    let v := e.foldl (fun s x => if x.1 = i then s ^^^ x.2 else s) (0 : Byte)
    if v = 0 then none else some (i, v))

/-- The decoder of a mode on a codeword with an error pattern. -/
def rsDecode (mode : Nat) (errs : List (Fin 72 × Byte)) : RsOutcome :=
  let e := rsErrors errs
  let syn := rsSyndromes e
  let limit := eccLimit mode
  if e = [] then .clean
  else if syn.all (· == 0) then .wrong false
  else if e.length ≤ limit then .corrected
  else
    let c := rsLocator syn
    if c.len ≤ limit ∧ (rsRoots c.loc).length = c.len then .wrong true else .uncorrectable

end Sys2Proof.Machine
end

