-- ==== Sys2Proof/Machine/Power.lean ====
section
/-!
DEFINITION. Memory scrubbing, temperature, power and self-test events (R422 to R425, R438, R439, R441, R445 to R447): the
commands PATROL_SCRUB, TEMP_SAMPLE, TELEMETRY_REFRESH, PWR_WARN_ASSERT, PWR_WARN_RELEASE, ISLAND_STATE_REACHED and
SELFTEST_DONE.
-/

namespace Sys2Proof.Machine

/-! ### The patrol scrub (R424, R425) -/

/-- Data units of the whole HBM. -/
def hbmUnits : Nat := Config.hbmBytes / 64

/-- An uncorrectable codeword of units 0 and 1, whose layout the spec does not give: which row of Table REL-3 holds it is a free
value (log entry 53). -/
def coreRegion (a : Nat) (s : State) : State :=
  let k := (Config.free 8 s.freeIx).toNat
  let s := { s with freeIx := s.freeIx + 1 }
  if k % 3 = 0 then coreFault (.ckptRead (k / 3 % 2 == 1)) s
  else if k % 3 = 1 then
    let slot : PSlot := Fin.ofNat 8 (k / 3)
    countContained 0x0E (chipLog 0x0C .contained 0x0E 4 a slot.val { s with progs := vset s.progs slot.val none })
  else fatalError 0x0E 0x0C 5 a 0 s

/-- An uncorrectable codeword found in a partition's memory: the tensors whose area holds it become HELD; variant areas and
what requests read are handled by the words and checks that read them (Table REL-3). -/
def partRegion (s : State) : State := s.tensors.foldl (fun s x => checkTensor x.1 s) s

/-- The key under which the controllers hold a data unit: ZKEY in HBM units 0 and 1, else the MKEY of the partition whose window
holds it (R382). -/
def unitKey (s : State) (u : Nat) : Option (BitVec 512) :=
  let a := 64 * u
  if a < 2 * Config.hbmUnit then s.sec.zkey
  else (List.finRange 16).findSome? (fun p =>
    let w := hbmWindow s.parts[p]
    if w.1 ≤ a ∧ a < w.1 + w.2 then s.parts[p].mkey else none)

/-- The 64 bytes with which data stand in HBM: AES-256-XTS with the unit index as tweak (R382); raw where no key is held. -/
def sealUnit (s : State) (u : Nat) (plain : List Byte) : List Byte :=
  match unitKey s u with
  | some k => xts false k u plain
  | none => plain

/-- The data that a read of those bytes gives. -/
def openUnit (s : State) (u : Nat) (stored : List Byte) : List Byte :=
  match unitKey s u with
  | some k => xts true k u stored
  | none => stored

/-- The ciphertext that the memory code of R422 covers. State.hbm holds what the controllers read and write, before it is encrypted
(log entry 147). -/
def storedUnit (s : State) (u : Nat) : List Byte := sealUnit s u (memRead s.hbm (64 * u) 64)

/-- Another codeword stands in a data unit unnoticed: its ciphertext is a free value (log entry 1), and the data are what that
decrypts to. -/
def wrongUnit (u : Nat) (s : State) : State :=
  let b := openUnit s u (leBytes 64 (Config.free 512 s.freeIx).toNat)
  let s := { s with freeIx := s.freeIx + 1 }
  if 64 * u < 2 * Config.hbmUnit then s else { s with hbm := memWrite s.hbm (64 * u) b }

/-- PATROL_SCRUB: one data unit read and decoded by ECC_MODE (Table REL-2). A unit that stands as uncorrectable stays so. -/
def patrol (u : Nat) (errs : List (Fin 72 × Byte)) (s : State) : State :=
  if hbmUnits ≤ u then s else
  let s := { s with err := { s.err with scrubbed := (s.err.scrubbed + 1) % hbmUnits } }
  if s.err.badUnits.contains u then s else
  match rsDecode s.err.ecc errs with
  | .clean => s
  | .corrected => countCorrected 0x0E s
  | .wrong reported => wrongUnit u (if reported then countCorrected 0x0E s else s)
  | .uncorrectable =>
    let s := { s with err := { s.err with badUnits := s.err.badUnits ++ [u] } }
    if 64 * u < 2 * Config.hbmUnit then coreRegion (64 * u) s else partRegion s

/-! ### Temperature and telemetry (R446, R447) -/

/-- Ticks of 10 ms. -/
def coolTicks : Nat := 10000000

/-- CLUSTER, MEM and PORT islands switched OFF (R446). -/
def islandsOff (s : State) : State :=
  { s with pw := { s.pw with islands := Vector.ofFn (fun i =>
      if 2 ≤ i.val then { s.pw.islands[i] with req := .off, st := .off, going := false } else s.pw.islands[i]) } }

/-- A throttle is in force for any cause (PW_WARN.THROTTLE). -/
def throttled (s : State) : Bool := s.pw.warn || s.pw.hot

/-- The causes of the throttle become `warn` and `hot`; its beginning and its end raise THROTTLE (Table REGS-3). -/
def setThrottle (warn hot : Bool) (s : State) : State :=
  let t : State := { s with pw := { s.pw with warn := warn, hot := hot } }
  if throttled s = throttled t then t else raiseInt 4 1 t

/-- The throttle for temperature begins: one THERMAL entry. -/
def beginHot (sensor temp : Nat) (s : State) : State :=
  chipLog 0x17 .event 0 0 sensor temp
    (modRun (fun r => { r with pwr := true }) (setThrottle s.pw.warn true { s with pw := { s.pw with coolSince := none } }))

/-- The throttle ends once every reading has been 5 °C below the threshold for 10 ms. -/
def coolDown (all : Bool) (s : State) : State :=
  let now := s.mc.tick.toNat
  if s.pw.hot = false then s
  else if all = false then { s with pw := { s.pw with coolSince := none } }
  else match s.pw.coolSince with
    | none => { s with pw := { s.pw with coolSince := some now } }
    | some t => if coolTicks ≤ now - t then setThrottle s.pw.warn false { s with pw := { s.pw with coolSince := none } } else s

/-- TEMP_SAMPLE: the twelve readings. -/
def tempSample (readings : List Nat) (s : State) : State :=
  let v : Vector Nat 12 := Vector.ofFn (fun i => readings.getD i.val 0)
  let s := { s with pw := { s.pw with temps := v } }
  let hi := s.plane.rwl.thThrottle.toNat
  let trip := s.plane.rwl.thTrip.toNat
  let l := v.toList.zipIdx
  match l.find? (fun x => decide (trip ≤ x.1)) with
  | some x => islandsOff (fatalError 0 0x17 1 x.2 x.1 s)
  | none =>
    match l.find? (fun x => decide (hi ≤ x.1)) with
    | some x => if s.pw.hot then { s with pw := { s.pw with coolSince := none } } else beginHot x.2 x.1 s
    | none => coolDown (v.toList.all (fun t => decide (t + 50 ≤ hi))) s

/-- TELEMETRY_REFRESH: the fields of R452 from one sample set; ENERGY accumulates. -/
def telemetry (t : Telemetry) (s : State) : State :=
  { s with pw := { s.pw with
      total := t.total, stackPower := t.stackPower, vin := t.vin, energy := s.pw.energy + BitVec.ofNat 64 t.energy
      islands := Vector.ofFn (fun i => { s.pw.islands[i] with power := t.islands.getD i.val 0 }) } }

/-! ### Power warning (R445) -/

/-- PWR_WARN_ASSERT: throttle, entry, PWR. -/
def warnOn (s : State) : State :=
  if s.pw.warn then s else
  raiseInt 4 0 (chipLog 0x16 .event 0 0 0 s.mc.tick.toNat
    (modRun (fun r => { r with pwr := true })
      (setThrottle true s.pw.hot { s with pw := { s.pw with warns := satAdd cnt16Max s.pw.warns 1 } })))

/-- PWR_WARN_RELEASE: the throttle lifted 1 ms after the line went high. -/
def warnOff (s : State) : State :=
  if s.pw.warn then raiseInt 4 0 (chipLog 0x16 .event 0 0 1 s.mc.tick.toNat (setThrottle false s.pw.hot s)) else s

/-! ### Islands (R441, R442) -/

/-- A cluster that leaves OFF has its cache and core stores zeroed. -/
def zeroCluster (k : ClusterIx) (s : State) : State :=
  { s with
    clusters := vmod s.clusters k (fun c => { c with lines := [], regions := [] })
    cores := Vector.ofFn (fun n => if clusterOf n = k then { s.cores[n] with store := [] } else s.cores[n]) }

/-- ISLAND_STATE_REACHED: the island is in the state asked for. -/
def islandReached (i : Fin 20) (s : State) : State :=
  let x := s.pw.islands[i]
  if x.going = false then s else
  let s := raiseInt 4 2 { s with pw := { s.pw with islands := vmod s.pw.islands i (fun y => { y with st := y.req, going := false }) } }
  if x.st = .off ∧ 2 ≤ i.val ∧ i.val < 10 then zeroCluster (Fin.ofNat 8 (i.val - 2)) s else s

/-! ### Self-test (R439) -/

/-- ST_RES of a core: for each array the count of bad columns, at most 2, and the first of them. -/
def selfRes (bad : List (Nat × List (Fin 32))) (core : Nat) : BitVec 28 :=
  BitVec.ofNat 28 ((List.range 4).foldl (fun w a =>
    let cols := ((bad.filter (fun x => x.1 == 4 * core + a)).flatMap (fun x => x.2.map Fin.val)).dedup
    let first := cols.foldl min 32
    w + put (7 * a) (min 2 cols.length + 4 * (first % 32))) 0)

/-- SELFTEST_DONE: the results of the cores in the mask, and the PENDING command answered OK. -/
def selftestDone (bad : List (Nat × List (Fin 32))) (s : State) : State :=
  match s.cc.pendCmd with
  | some (_, _, .selftest mask) =>
    let res := (maskBits mask.toNat 64).foldl (fun t n => tabSet 0 t n (selfRes bad n)) s.err.stRes
    let s : State := { s with err := { s.err with stRes := res } }
    endPending (fun w => match w with | .selftest _ => true | _ => false) 0 s
  | _ => s

/-! ### The commands -/

/-- What these events may change. -/
def footPower (s t : State) : State :=
  { s with out := t.out, freeIx := t.freeIx, cc := t.cc, regs := t.regs, mc := t.mc, ports := t.ports, progs := t.progs, hbm := t.hbm,
           tensors := t.tensors, cores := keepAssign s t, clusters := t.clusters, parts := t.parts, run := t.run, err := t.err, pw := t.pw,
           nv := { s.nv with lastFatal := t.nv.lastFatal } }

/-- PATROL_SCRUB (R424). -/
def execPatrolScrub (unit : Nat) (errs : List (Fin 72 × Byte)) (s : State) : Host.Outcome State Fault Refusal :=
  .next (footPower s (patrol unit errs s))

/-- TEMP_SAMPLE (R446). -/
def execTempSample (readings : List Nat) (s : State) : Host.Outcome State Fault Refusal := .next (footPower s (tempSample readings s))

/-- TELEMETRY_REFRESH (R447). -/
def execTelemetryRefresh (sample : Telemetry) (s : State) : Host.Outcome State Fault Refusal :=
  .next (footPower s (telemetry sample s))

/-- PWR_WARN_ASSERT (R445). -/
def execPwrWarnAssert (s : State) : Host.Outcome State Fault Refusal := .next (footPower s (warnOn s))

/-- PWR_WARN_RELEASE (R445). -/
def execPwrWarnRelease (s : State) : Host.Outcome State Fault Refusal := .next (footPower s (warnOff s))

/-- ISLAND_STATE_REACHED (R441). -/
def execIslandStateReached (island : Fin 20) (s : State) : Host.Outcome State Fault Refusal :=
  .next (footPower s (islandReached island s))

/-- SELFTEST_DONE (R439). -/
def execSelftestDone (bad : List (Nat × List (Fin 32))) (s : State) : Host.Outcome State Fault Refusal :=
  .next (footPower s (selftestDone bad s))

end Sys2Proof.Machine
end

