-- ==== Sys2Proof/Machine/RegRead.lean ====
section
/-!
DEFINITION. Reading the register space (chapter REGS): the page map, the value of every register, who may read what, and
the commands REGISTER_READ and PAIR_LO_READ.
-/

namespace Sys2Proof.Machine

/-! ### The page map (Table REGS-1) -/

/-- TYPE of a page. -/
def pageType (page : Nat) : Nat := if page < 0x0B then page else if page = 0x0B then 0x0A else min page 0x10

/-- Channels behind CHSEL; a page without channels has channel 0 only. -/
def channels (page : Nat) : Nat :=
  match page with
  | 0x02 => 16 | 0x03 => 64 | 0x04 => 20 | 0x07 => 6 | 0x0A => 16 | 0x0B => 16 | 0x0C => 16384 | 0x0D => 64 | 0x0E => 256
  | 0x0F => 32 | _ => 1

/-- Partition of a partition manager page. -/
def pagePart (page : Nat) : Part := Fin.ofNat 16 (page - 16)

/-- The partition that owns an output ring: the one whose RINGWIN holds it (R284). -/
def ringOwner (s : State) (ring : Nat) : Option Part :=
  (List.finRange 16).find? (fun p => let w := s.parts[p].win; decide (w.ringBase ≤ ring ∧ ring < w.ringBase + w.ringCount))

/-- A snapshot register of the core page (R459). -/
def snapReg (off : Nat) : Bool := off == 0x8C || off == 0xA0 || off == 0xA4 || off == 0xA8

/-- The page is BUSY: the Autumn wipe runs, or on a partition manager page the partition wipe or the keyed clear. -/
def pageBusy (s : State) (page : Nat) : Bool :=
  s.sec.wiping || (decide (16 ≤ page) && (let q := s.parts[pagePart page]; q.st == .resetting || q.st == .keying))

/-! ### Codes of states -/

/-- STATE of PW_ISL. -/
def islCode : IslSt → Nat
  | .active => 0 | .gated => 1 | .retain => 2 | .off => 3

/-- STATE of LP_STATE (Table PLANE-12). -/
def linkCode : LinkSt → Nat
  | .disabled => 0 | .border => 1 | .training => 2 | .hello => 3 | .held => 4 | .up => 5 | .down => 6 | .fenced => 7

/-- SSTATE of PL_STATE. -/
def sliceCode : SliceSt → Nat
  | .none => 0 | .forming => 1 | .active => 2 | .degraded => 3 | .split => 4 | .draining => 5 | .drained => 6

/-- SLOTST of CC_SLOT. -/
def slotStCode : SlotSt → Nat
  | .empty => 0 | .staging => 1 | .running => 2 | .pending => 3

/-- CLASS of an error entry. -/
def classCode : ErrClass → Nat
  | .corrected => 0 | .contained => 1 | .fatal => 2 | .event => 3

/-- STATE of a tensor descriptor (Table TRAIN-2). -/
def tensorCode : TState → Nat
  | .empty => 0 | .active => 1 | .held => 2

/-- An error entry as the 256 bits of Table REL-6. -/
def errBits (e : ErrEntry) : Nat :=
  e.step.toNat + put 64 (e.code % 256) + put 72 (classCode e.cls) + put 74 (e.part % 16) + put 78 (b2n e.chip)
    + put 80 (e.src % 256) + put 96 (e.aux % 2 ^ 32) + put 128 (e.info0 % 2 ^ 64) + put 192 (e.info1 % 2 ^ 64)

/-- Word k of a number. -/
def word32 (v k : Nat) : Nat := nfld v (32 * k) 32

/-! ### The common header (Table REGS-2) -/

/-- The power state of an island: a PORT island is OFF whenever its port is DISABLED or BORDER; an ACTIVE island of COMMON,
CLUSTER or MEM shows GATED while its clocks are gated (R442, Table REL-10). -/
def islandState (s : State) (i : Nat) : IslSt :=
  let st := (s.pw.islands.getD i {}).st
  if 14 ≤ i then
    let l := (s.ports.getD (i - 14) {}).st
    if l = .disabled ∨ l = .border then .off else st
  else if st = .active ∧ 1 ≤ i ∧ Config.islandGated i s.mc.tick = true then .gated
  else st

/-- The island of a page's unit, on its channel (Table REL-10). -/
def pageIsland (page ch : Nat) : Nat :=
  match page with
  | 0x05 => 1 | 0x08 => 1 | 0x09 => 1 | 0x0A => 1 | 0x0B => 1 | 0x0C => 1
  | 0x07 => 14 + ch
  | 0x0D => 2 + ch / 8
  | 0x0E => 2 + ch / 32
  | 0x0F => 10 + ch / 8
  | _ => 0

/-- A page raises an interrupt (R462). -/
def pageRaises (h : PageHdr) : Bool := h.ien && (h.intStatus &&& h.intEnable) != 0

/-- The registers of the header; CHSEL is the requester's. -/
def hdrWord (s : State) (page ch off : Nat) : Nat :=
  let h := s.regs.pages.getD page {}
  match off with
  | 0x00 => page + put 8 (pageType page) + put 16 (if 16 ≤ page then page - 16 else 0)
  | 0x04 => 0x01 + put 8 Config.stepping
  | 0x08 => b2n (decide (5 ≤ s.cc.bootph) && !s.sec.wiping) + put 1 (b2n (pageBusy s page)) + put 2 (islCode (islandState s (pageIsland page ch)))
  | 0x0C => b2n h.ien
  | 0x10 => h.intStatus.toNat
  | 0x14 => h.intEnable.toNat
  | 0x18 => ch
  | _ => 0

/-! ### Identity page (Table REGS-5) -/

/-- The presented form of array 4 × core + array in force. -/
def arrayForm (s : State) (i : Nat) : Nat := bypCode ((s.cores.getD (i / 4) {}).byp.getD (i % 4) {})

/-- Arrays that a core presents (R111). -/
def coreArrays (s : State) (n : Nat) : Nat := ((List.range 4).filter (fun a => arrayForm s (4 * n + a) != 2)).length

/-- ID_ASTAT of a requester. -/
def astatWord : Option (Nat × Nat × Nat) → Nat
  | none => 0
  | some x => x.1 + put 8 x.2.1 + put 20 x.2.2 + put 31 1

/-- The identity page. -/
def idWord (s : State) (own : ReqCopy) (off : Nat) : Nat :=
  if 0x40 ≤ off ∧ off < 0x80 then
    let w := (off - 0x40) / 4
    (List.range 16).foldl (fun a k => a + put (2 * k) (arrayForm s (16 * w + k))) 0
  else if 0x80 ≤ off ∧ off < 0xA0 then
    let w := (off - 0x80) / 4
    (List.range 8).foldl (fun a k => a + put (4 * k) (coreArrays s (8 * w + k))) 0
  else match off with
  | 0x20 => Config.stepping + put 16 1
  | 0x24 => s.nv.pen.toNat
  | 0x28 => 0x40 + put 8 0x08 + put 16 0x10 + put 24 0x06
  | 0x2C => 0x10000 + put 17 0x2000
  | 0x30 => 0x40000
  | 0x34 => 0x400000
  | 0x38 => 0x10000 + put 17 0x1000
  | 0x3C => 0x4000 + put 15 0x0100
  | 0xA0 => s.regs.pages.toList.zipIdx.foldl (fun a x => a + put x.2 (b2n (pageRaises x.1))) 0
  | 0xA4 => astatWord own.astat
  | 0xA8 => s.regs.aref
  | _ => 0

/-! ### The units' pages -/

/-- The control core page (Table CTRL-13). -/
def ccWord (s : State) (off : Nat) : Nat :=
  let img := s.cc.image
  match off with
  | 0x20 => s.cc.bootph + put 4 s.cc.booterr
  | 0x24 => (img.map (fun f => f.fwver.toNat)).getD 0
  | 0x28 => (img.map FwImage.svn).getD 0 + put 8 s.nv.svnMin + put 16 ((img.map FwImage.abi).getD 0)
  | 0x2C => slotStCode s.cc.slotSt
  | 0x30 => s.cc.wdogT.toNat
  | 0x34 => s.cc.restarts + put 16 s.cc.restartCause
  | 0x38 => word32 ((s.cc.ckptStep.getD 0).toNat) 0
  | 0x3C => word32 ((s.cc.ckptStep.getD 0).toNat) 1
  | 0x40 => journalFill s.regs.inputs s.cc.ckptMarks.1
  | 0x44 => s.cc.eid.toNat + put 16 s.cc.lastSeq.toNat
  | _ => 0

/-- The security page (Table SEC-14). -/
def secWord (s : State) (own : ReqCopy) (ch off : Nat) : Nat :=
  match off with
  | 0x20 => lcCode s.nv.lc + put 3 (b2n s.sec.wiping) + put 4 (b2n s.sec.lastWipe)
  | 0x24 => s.nv.idser.toNat
  | 0x28 => own.iddigIdx.toNat
  | 0x2C => leAt s.nv.iddig (4 * own.iddigIdx.toNat) 4
  | 0x30 => s.nv.wipes
  | 0x34 => (s.sec.sessions.toList.filter Option.isSome).length
  | 0x80 =>
    let q := s.parts.getD ch {}
    if ch < 16 then
      pCode q.st + put 3 (b2n q.owner.isSome) + put 4 (q.akeys.toList.filter Option.isSome).length
    else 0
  | _ => 0

/-- The chip-log word that ERR_LOG_IDX selects (R432). -/
def logWord (s : State) (idx : BitVec 13) : Nat :=
  let n := s.err.log.length
  let i := (fld idx 3 10 + 1024 + n - s.err.prod.toNat) % 1024
  if i < n then word32 (errBits (s.err.log.getD i {})) (fld idx 0 3) else 0

/-- The error page (Table REL-15). -/
def errWord (s : State) (own : ReqCopy) (ch off : Nat) : Nat :=
  let e := s.err
  let fatalStep := (e.fatal.map (fun f => f.2.toNat)).getD 0
  match off with
  | 0x20 => b2n e.replayEn + put 1 e.eccNext + put 4 e.colth + put 16 e.scrubH
  | 0x24 => e.replays + put 16 e.notElig
  | 0x28 => match e.fatal with | some f => 1 + put 1 (f.1 % 256) | none => 0
  | 0x2C => word32 fatalStep 0
  | 0x30 => word32 fatalStep 1
  | 0x34 => e.prod.toNat
  | 0x38 => own.logIdx.toNat
  | 0x3C => logWord s own.logIdx
  | 0x40 => e.scrubbed / 2 ^ 20
  | 0x80 => if 1 ≤ ch ∧ ch ≤ 15 then let c := tabGet (0, 0) e.cnt ch; c.1 + put 16 c.2 else 0
  | 0x84 => (tabGet 0 e.stRes ch).toNat
  | _ => 0

/-- The power and telemetry page (Table REL-17). -/
def pwWord (s : State) (ch off : Nat) : Nat :=
  let p := s.pw
  match off with
  | 0x20 => p.duty
  | 0x24 => b2n p.warn + put 1 (b2n (throttled s)) + put 16 p.warns
  | 0x28 => p.total.toNat
  | 0x2C => p.stackPower.toNat
  | 0x30 => p.vin.toNat
  | 0x34 => word32 p.energy.toNat 0
  | 0x38 => word32 p.energy.toNat 1
  | 0x3C => s.plane.rwl.thThrottle.toNat + put 11 s.plane.rwl.thTrip.toNat
  | 0x80 => let i := p.islands.getD ch {}; islCode i.req + put 2 (islCode (islandState s ch)) + put 16 i.power.toNat
  | 0x84 => if ch < 12 then p.temps.getD ch 0 % 2 ^ 12 else 0
  | _ => 0

/-- The March counter page (Table STEP-8). -/
def mcWord (s : State) (off : Nat) : Nat :=
  let m := s.mc
  match off with
  | 0x20 => word32 m.step.toNat 0
  | 0x24 => word32 m.step.toNat 1
  | 0x28 => word32 m.tick.toNat 0
  | 0x2C => word32 m.tick.toNat 1
  | 0x30 => m.period
  | 0x34 => m.guardNext + put 16 m.floodMeas
  | 0x38 => b2n m.root + put 1 (b2n m.syncm) + put 2 (b2n m.admitter)
  | 0x3C => b2n m.syncEn
  | 0x40 => twos 32 m.corr
  | 0x44 => b2n m.locked + put 1 (b2n m.holdover.isSome) + put 2 ((m.parent.map Fin.val).getD 7)
  | 0x48 => twos 32 m.offset
  | 0x4C => m.overruns + put 16 m.misses
  | 0x50 => m.syncIgn
  | 0x54 => b2n m.fenced + put 1 (m.refused.toList.zipIdx.foldl (fun a x => a + put x.2 (b2n x.1)) 0)
  | _ => 0

/-- The plane page (Table PLANE-17). -/
def plWord (s : State) (own : ReqCopy) (off : Nat) : Nat :=
  let p := s.plane
  let dim := (p.plan.map Plan.dim).getD (0, 0, 0)
  match off with
  | 0x20 => b2n p.rwl.coordSrc
  | 0x24 => p.coord.toNat + put 18 (b2n p.coordOk)
  | 0x28 => p.strap.toNat
  | 0x2C => (p.plan.map (fun x => x.slice.toNat)).getD 0
  | 0x30 => (p.plan.map (fun x => x.org.toNat)).getD 0
  | 0x34 => dim.1 + put 6 dim.2.1 + put 12 dim.2.2
  | 0x38 => sliceCode p.st + put 3 (b2n p.drainReq) + put 4 (p.cut.length % 2 ^ 16)
  | 0x3C => own.rtIdx.toNat
  | 0x40 =>
    if p.plan.isNone then 0
    else (tabGet 7 (if bitAt own.rtIdx 14 then p.rtDetour else p.rtNormal) (fld own.rtIdx 0 14)).toNat
  | 0x44 => p.routeDrop + put 16 p.epochDrop
  | 0x48 => p.srcDrop + put 16 p.partDrop
  | 0x4C => p.dup + put 16 p.stray
  | _ => 0

/-- The link port page, one channel a port (Table PLANE-16). -/
def lpWord (s : State) (ch off : Nat) : Nat :=
  let p := s.ports.getD ch {}
  match off with
  | 0x80 => p.widthCfg + put 2 (b2n p.en)
  | 0x84 => linkCode p.st + put 4 (p.reason % 16) + put 8 (b2n p.keyage)
  | 0x88 => p.neigh.1.toNat + put 18 (p.neigh.2.1 % 8) + put 21 (b2n p.neigh.2.2)
  | 0x8C => p.delay % 2 ^ 32
  | 0x90 => p.fecCorr
  | 0x94 => p.fecUnc
  | 0x98 => p.crcFail
  | 0x9C => p.naks + put 16 p.resends
  | 0xA0 => p.tagFail + put 16 p.downs
  | 0xA4 => word32 p.ctr 0
  | 0xA8 => word32 p.ctr 1
  | 0xAC => p.replay.length
  | _ => 0

/-- The segment unit page (Table REGS-10). -/
def sgWord (s : State) (off : Nat) : Nat :=
  let g := s.seg
  match off with
  | 0x20 => word32 g.tagsAddr.toNat 0
  | 0x24 => word32 g.tagsAddr.toNat 1
  | 0x28 => g.rows + put 17 g.pslot.val + put 20 (b2n g.valid)
  | 0x2C => g.lastSegs % 2 ^ 13 + put 13 (b2n g.lastFit) + put 14 g.lastVoid
  | 0x30 => g.lastAdapted
  | 0x34 => g.lastBatch
  | 0x38 => g.lastCycles % 2 ^ 16
  | 0x3C => g.lastStrands
  | _ => 0

/-- The RCC unit page (Table REGS-14). -/
def rcWord (s : State) (off : Nat) : Nat :=
  let r := s.rcc
  match off with
  | 0x20 => r.hchk % 2 ^ 16
  | 0x24 => r.copy % 2 ^ 32
  | 0x28 => r.served
  | 0x2C => r.missed
  | 0x30 => r.kpass % 2 ^ 24
  | 0x34 => r.vpass % 2 ^ 24
  | 0x38 => r.held % 2 ^ 16
  | _ => 0

/-- A request face page (Table REGS-15). -/
def faceWordReg (s : State) (f : Nat) (ch off : Nat) : Nat :=
  let x := s.faces.getD f {}
  let q := s.parts.getD ch {}
  let b := fun (i : Nat) => x.bufs.getD i (0, 0)
  match off with
  | 0x20 => x.rbCap
  | 0x24 => word32 (b 0).1.toNat 0
  | 0x28 => word32 (b 0).1.toNat 1
  | 0x2C => (b 0).2.toNat
  | 0x30 => word32 (b 1).1.toNat 0
  | 0x34 => word32 (b 1).1.toNat 1
  | 0x38 => (b 1).2.toNat
  | 0x40 => b2n (x.acks.getD 0 true) + put 1 (b2n (x.acks.getD 1 true)) + put 2 (b2n x.waiting)
  | 0x44 => x.fcLate % 2 ^ 16
  | 0x80 => q.dqFill.getD f 0
  | 0x84 => q.dqCred.getD f 0
  | 0x88 => q.dqRefused.getD f 0
  | _ => 0

/-- The ring page (Table SERVE-11). -/
def ringWordReg (s : State) (ch off : Nat) : Nat :=
  let r : Ring ResEntry := tabGet {} s.rings ch
  match off with
  | 0x80 => word32 r.base.toNat 0
  | 0x84 => word32 r.base.toNat 1
  | 0x88 => r.log2n
  | 0x8C => r.wr.toNat
  | 0x90 => r.rd.toNat
  | _ => 0

/-- Columns of an array whose bypass fuse is blown, in the order blown. -/
def fusedCols (s : State) (array : Nat) : List Nat := ((s.nv.bypass.filter (fun x => x.1.val == array)).map (fun x => x.2.val)).dedup

/-- CORE_BYP of a core: the fields of each array as written, and FUSED (Table REGS-11). -/
def bypWord (s : State) (n : Nat) : Nat :=
  (List.range 4).foldl (fun w a =>
    let b : Bypass := (s.cores.getD n {}).bypNext.getD a {}
    w + put (8 * a) (b.col + put 5 (b2n b.en) + put 6 (b2n b.dis) + put 7 (b2n (fusedCols s (4 * n + a) ≠ [])))) 0

/-- The core page (Tables SEC-15, REGS-11). -/
def coreWordReg (s : State) (own : ReqCopy) (ch off : Nat) : Nat :=
  let c := s.cores.getD ch {}
  let v := c.snap.getD 8 {}
  match off with
  | 0x80 => c.partNext
  | 0x84 => bypWord s ch
  | 0x88 => coreArrays s ch + put 3 (b2n c.wiped)
  | 0x8C => c.stall % 2 ^ 32
  | 0x90 => word32 c.gated 0
  | 0x94 => word32 c.gated 1
  | 0x98 => own.colfIdx.toNat
  | 0x9C => tabGet 0 c.colFaults (32 * fld own.colfIdx 0 2 + fld own.colfIdx 2 5)
  | 0xA0 => word32 v.coord.toNat 0
  | 0xA4 => word32 v.coord.toNat 1
  | 0xA8 => latchFlags v
  | _ => 0

/-- The array-exception page, channel 4 × core + array (Table REGS-12). -/
def axWord (s : State) (ch off : Nat) : Nat :=
  let c := s.cores.getD (ch / 4) {}
  let h := fun (k : Nat) => c.snap.getD (2 * (ch % 4) + k) {}
  match off with
  | 0x80 => word32 (h 0).coord.toNat 0
  | 0x84 => word32 (h 0).coord.toNat 1
  | 0x88 => latchFlags (h 0)
  | 0x90 => word32 (h 1).coord.toNat 0
  | 0x94 => word32 (h 1).coord.toNat 1
  | 0x98 => latchFlags (h 1)
  | _ => 0

/-- Tiles that wait for a SEAL rebuild (R241); every unit has a share of each (R222; log entry 55). -/
def sealTiles (s : State) : Nat :=
  (s.vrecs.map (fun x => if x.2.sealing then (touchedTiles s (x.1 / 4) x.2).length else 0)).sum

/-- The update-unit page (Table REGS-13). -/
def uuWord (s : State) (own : ReqCopy) (ch off : Nat) : Nat :=
  let t := tabGet {} s.tensors own.uuTidx.toNat
  match off with
  | 0x20 => own.uuTidx.toNat
  | 0x24 => b2n t.win + put 1 (b2n t.nan) + put 2 (b2n t.ovf) + put 3 (tensorCode t.st) + put 5 (b2n t.touchedLast)
  | 0x80 => word32 (s.uuAdd.getD ch 0) 0
  | 0x84 => word32 (s.uuAdd.getD ch 0) 1
  | 0x88 => s.uuOpt.getD ch 0 % 2 ^ 32
  | 0x8C => s.uuBusy.getD ch 0 % 2 ^ 32
  | 0x90 => sealTiles s % 2 ^ 16
  | _ => 0

/-! ### Partition manager page (Tables SEC-15, RES-9, SERVE-16, TRAIN-4, REGS-6 to REGS-8) -/

/-- Base, LOG2N and the two indices of a ring group at an offset within the group. -/
def groupWord {ε : Type} (r : Ring ε) (lost off : Nat) : Nat :=
  match off with
  | 0x00 => word32 r.base.toNat 0
  | 0x04 => word32 r.base.toNat 1
  | 0x08 => r.log2n
  | 0x0C => r.wr.toNat
  | 0x10 => r.rd.toNat
  | 0x14 => lost
  | _ => 0

/-- The ring groups of Table REGS-7. -/
def groupRegs (q : PartSt) (off : Nat) : Nat :=
  let o := off % 0x20
  if off < 0x120 then groupWord q.resq 0 o
  else if off < 0x140 then groupWord q.resc 0 o
  else if off < 0x160 then groupWord q.rccq 0 o
  else if off < 0x180 then groupWord q.rccc 0 o
  else if off < 0x1A0 then groupWord q.rccf 0 o
  else if off < 0x1C0 then groupWord q.rccr 0 o
  else groupWord q.er q.erLost o

/-- Counter k of Table REGS-8. -/
def counterReg (q : PartSt) (k : Nat) : Nat :=
  match k with
  | 0 => q.drop | 1 => q.rccMiss | 2 => q.trainDiscard | 3 => q.trainSkip | 4 => q.resDiscard | 5 => q.dup | 6 => q.specZero
  | 7 => q.seqHigh.toNat | _ => 0

/-- The base registers of Table REGS-6: the address of the pair whose _LO or _HI stands at an offset. -/
def baseReg (r : PRegs) (off : Nat) : Option (BitVec 48) :=
  match off with
  | 0x80 => some r.recBase | 0x84 => some r.recBase | 0x88 => some r.cplBase | 0x8C => some r.cplBase
  | 0x90 => some r.holdBase | 0x94 => some r.holdBase | 0x98 => some r.hpBase | 0x9C => some r.hpBase
  | 0xA0 => some r.rccdBase | 0xA4 => some r.rccdBase | 0xAC => some r.rsBase | 0xB0 => some r.rsBase
  | 0xB4 => some r.ssBase | 0xB8 => some r.ssBase
  | _ => none

/-- A base register at an offset is the _HI of its pair. -/
def baseHi (off : Nat) : Bool := if off < 0xA8 then off % 8 == 4 else off == 0xB0 || off == 0xB8

/-- Mirrors of a partition in LOADING or BUILDING (MIRROR_PEND). -/
def mirrorPend (s : State) (p : Part) : Nat :=
  (s.vrecs.filter (fun x => x.2.mirror && x.2.st == .building && decide ((slotOf s (x.1 / 4)).part = p))).length

/-- The registers of offsets 0x020 to 0x07F. -/
def pmLow (s : State) (p : Part) (off : Nat) : Nat :=
  let q := s.parts[p]
  let w := q.winNext
  let r := q.regs
  match off with
  | 0x20 => w.hbmBase + put 10 w.hbmCount
  | 0x24 => w.coldBase + put 15 w.coldCount
  | 0x28 => w.slotBase + put 16 w.slotCount
  | 0x2C => w.reqBase
  | 0x30 => w.reqCount
  | 0x34 => w.ringBase + put 14 w.ringCount
  | 0x38 => q.policy.toNat
  | 0x3C => r.segCap
  | 0x40 => r.admClose
  | 0x44 => r.tokStep
  | 0x48 => r.tokWin
  | 0x4C => r.winSteps
  | 0x50 => r.chunkMax
  | 0x54 => r.topkMax
  | 0x58 => r.ttlMax + put 16 r.ttlDef
  | 0x5C => q.loss.ls + put 8 r.lsMin + put 16 r.lsMax
  | 0x60 => r.lsRun + put 16 q.loss.lsClean
  | 0x64 => b2n r.pdfmt + put 1 (b2n r.ddfmt)
  | 0x68 => b2n r.efmt + put 16 r.pgsz
  | 0x6C => mirrorPend s p % 2 ^ 16
  | 0x70 => q.strands % 2 ^ 23
  | 0x74 => w.tensBase
  | 0x78 => w.tensCount
  | _ => 0

/-- A partition manager page. -/
def pmWord (s : State) (p : Part) (off : Nat) : Nat :=
  let q := s.parts[p]
  if off < 0x80 then pmLow s p off
  else if off = 0xA8 then q.regs.rccdCount
  else if 0x100 ≤ off ∧ off < 0x1E0 then groupRegs q off
  else if 0x200 ≤ off ∧ off < 0x240 then word32 (counterReg q ((off - 0x200) / 8)) (off % 8 / 4)
  else match baseReg q.regs off with
    | some a => word32 a.toNat (b2n (baseHi off))
    | none => 0

/-! ### The value of a register -/

/-- The value of the register at an aligned offset, on the channel `ch`, for a requester's own copies. An offset that no table
maps reads as zero (R455). -/
def regWord (s : State) (own : ReqCopy) (page ch off : Nat) : Nat :=
  if off < 0x20 then hdrWord s page ch off
  else match page with
  | 0x00 => idWord s own off
  | 0x01 => ccWord s off
  | 0x02 => secWord s own ch off
  | 0x03 => errWord s own ch off
  | 0x04 => pwWord s ch off
  | 0x05 => mcWord s off
  | 0x06 => plWord s own off
  | 0x07 => lpWord s ch off
  | 0x08 => sgWord s off
  | 0x09 => rcWord s off
  | 0x0A => faceWordReg s 0 ch off
  | 0x0B => faceWordReg s 1 ch off
  | 0x0C => ringWordReg s ch off
  | 0x0D => coreWordReg s own ch off
  | 0x0E => axWord s ch off
  | 0x0F => uuWord s own ch off
  | _ => if page < 0x20 then pmWord s (pagePart page) off else 0

/-- The value as a register word. -/
def regVal (s : State) (own : ReqCopy) (page ch off : Nat) : Word := BitVec.ofNat 32 (regWord s own page ch off)

/-! ### Pairs (R463) -/

/-- The _HI offset of the pair whose _LO stands at an offset of a page. -/
def pairHi (page off : Nat) : Option Nat :=
  let l : List Nat := match page with
    | 0x01 => [0x38] | 0x03 => [0x2C] | 0x04 => [0x34] | 0x05 => [0x20, 0x28] | 0x07 => [0xA4] | 0x08 => [0x20]
    | 0x0A => [0x24, 0x30] | 0x0B => [0x24, 0x30] | 0x0C => [0x80] | 0x0D => [0x90, 0xA0] | 0x0E => [0x80, 0x90] | 0x0F => [0x80]
    | _ => if page < 0x10 then [] else
        [0x80, 0x88, 0x90, 0x98, 0xA0, 0xAC, 0xB4, 0x100, 0x120, 0x140, 0x160, 0x180, 0x1A0, 0x1C0,
         0x200, 0x208, 0x210, 0x218, 0x220, 0x228, 0x230, 0x238]
  if l.contains off then some (off + 4) else none

/-- The key of a latch: page, offset of _HI, channel. -/
def hiKey (page off ch : Nat) : Nat := (page * 4096 + off) * 65536 + ch

/-! ### Who may read what (R458, R459, R461, R477) -/

/-- The requester's own copy of a register stands at an offset of every such page: CHSEL, ID_ASTAT and the index registers. -/
def ownReg (page off : Nat) : Bool :=
  off == 0x18 || (page == 0 && off == 0xA4) || (page == 2 && off == 0x28) || (page == 3 && off == 0x38) || (page == 6 && off == 0x3C)
    || (page == 0xD && off == 0x98) || (page == 0xF && off == 0x20)

/-- A tensor index lies in a partition's tensor window (R411). -/
def inTensWin (q : PartSt) (i : Nat) : Bool := decide (q.win.tensBase ≤ i ∧ i < q.win.tensBase + q.win.tensCount)

/-- The page or channel belongs to another partition than p. -/
def foreign (s : State) (p : Part) (own : ReqCopy) (page ch off : Nat) : Bool :=
  if 16 ≤ page then decide (pagePart page ≠ p)
  else if page = 0x0F ∧ off = 0x24 then !inTensWin s.parts[p] own.uuTidx.toNat
  else if off < 0x80 then false
  else if page = 0x0A ∨ page = 0x0B then decide (ch ≠ p.val)
  else if page = 0x0C then decide (ringOwner s ch ≠ some p)
  else if page = 0x0E then decide ((s.cores.getD (ch / 4) {}).partLast ≠ p.val)
  else if page = 0x0D then
    decide ((if snapReg off then (s.cores.getD ch {}).partLast else (s.cores.getD ch {}).part) ≠ p.val)
  else false

/-- The partition of a requester; none for the root. -/
def reqPart (r : Requester) : Option Part := if h : 0 < r.val then some ⟨r.val - 1, by omega⟩ else none

/-- Causes of ID_ASTAT (Table REGS-5). -/
inductive Cause where
  /-- BOUNDS. -/
  | bounds
  /-- STATE. -/
  | state
  /-- PARTITION. -/
  | partition
  /-- ACCESS. -/
  | access
  deriving DecidableEq, Repr

/-- The code of a cause. -/
def causeCode : Cause → Nat
  | .bounds => 1 | .state => 2 | .partition => 3 | .access => 4

/-- The copies of one requester changed. -/
def modReqCopy (r : Requester) (f : ReqCopy → ReqCopy) (s : State) : State :=
  { s with regs := { s.regs with reqs := vmod s.regs.reqs r f } }

/-- A refused access recorded in the requester's ID_ASTAT (R464). -/
def refuseAccess (r : Requester) (page off : Nat) (c : Cause) (s : State) : State :=
  modReqCopy r (fun x => { x with astat := some (page, off, causeCode c) }) s

/-- The channel that a requester has selected on a page. -/
def chanOf (own : ReqCopy) (page : Nat) : Nat := tabGet 0 own.chsel page

/-- A read refused, by cause: misaligned (R455), or of another partition's page or channel (R458). -/
def readRefused (s : State) (r : Requester) (page off : Nat) : Option Cause :=
  let own := s.regs.reqs[r]
  if off % 4 ≠ 0 then some .access
  else match reqPart r with
    | none => none
    | some p => if !ownReg page off && foreign s p own page (chanOf own page) off then some .partition else none

/-- The value that a read returns: a latched _HI half, or the live value (R463). -/
def readValue (s : State) (r : Requester) (page off : Nat) : Word :=
  let own := s.regs.reqs[r]
  let ch := chanOf own page
  match tabGet none own.hiLatch (hiKey page off ch) with
  | some w => w
  | none => regVal s own page ch off

/-- The latch of a pair after a read: _LO latches _HI, and a read of _HI uses its latch up (R463). -/
def readLatch (page off : Nat) (r : Requester) (s : State) : State :=
  let own := s.regs.reqs[r]
  let ch := chanOf own page
  match pairHi page off with
  | some hi => modReqCopy r (fun x => { x with hiLatch := tabSet none x.hiLatch (hiKey page hi ch) (some (regVal s own page ch hi)) }) s
  | none => modReqCopy r (fun x => { x with hiLatch := tabSet none x.hiLatch (hiKey page off ch) none }) s

/-- A read by the control core is an input: the journal records it (R457). -/
def readInput (s : State) : State :=
  let t : State := { s with regs := { s.regs with inputs := s.regs.inputs + 1 } }
  { s with regs := if 7168 ≤ journalFill t.regs.inputs t.cc.ckptMarks.1 then (setInt 1 3 t).regs else t.regs }

/-- A read of the register space: the value it returns goes to the requester. -/
def readReg (r : Requester) (page off : Nat) (s : State) : State :=
  match readRefused s r page off with
  | some c => readInput (send (.reg r page off 0) (refuseAccess r page off c s))
  | none => readInput (send (.reg r page off (readValue s r page off)) (readLatch page off r s))

/-! ### The commands -/

/-- What a register read may change. -/
def footRead (s t : State) : State := { s with out := t.out, regs := t.regs }

/-- REGISTER_READ (R458). -/
def execRegisterRead (req : Requester) (page : Fin 32) (offset : BitVec 12) (s : State) : Host.Outcome State Fault Refusal :=
  .next (footRead s (readReg req page.val offset.toNat s))

/-- PAIR_LO_READ (R463): a read of the _LO half of a pair; another offset has no pair, and nothing is read. -/
def execPairLoRead (req : Requester) (page : Fin 32) (offset : BitVec 12) (s : State) : Host.Outcome State Fault Refusal :=
  .next (footRead s (if (pairHi page.val offset.toNat).isSome then readReg req page.val offset.toNat s else s))

end Sys2Proof.Machine
end

