-- ==== Sys2Proof/Machine/RegWrite.lean ====
section
/-!
DEFINITION. Writing the register space (chapter REGS): the checks of R464 in order, the effect of a write on every register,
and the commands of the register writes.
-/

namespace Sys2Proof.Machine

/-! ### Who may write what (R16, R458, R464) -/

/-- A register that the control core alone writes (R16, R456). -/
def rootOnly (page off : Nat) : Bool :=
  if 16 ≤ page then false
  else decide (off < 0x20 ∨ page ≤ 9) || ((page == 0xA || page == 0xB || page == 0xE) && decide (off < 0x80))
    || (page == 0xD && (off == 0x80 || off == 0x84)) || (page == 0xF && decide (0x80 ≤ off))

/-- The cause for which a write is refused before its register is looked at: ACCESS, PARTITION, then STATE. -/
def writeCause (s : State) (r : Requester) (page off : Nat) : Option Cause :=
  let own := s.regs.reqs[r]
  let busy := if pageBusy s page then some .state else none
  if off % 4 ≠ 0 then some .access
  else match reqPart r with
    | none => busy
    | some p =>
      if !ownReg page off && (foreign s p own page (chanOf own page) off || rootOnly page off) then some .partition
      else if s.parts[p].st ≠ .keyed ∨ s.parts[p].presetPend.isSome = true then some .state
      else busy

/-- A refused write: recorded in ID_ASTAT and counted in ID_AREF. -/
def refuseWrite (r : Requester) (page off : Nat) (c : Cause) (s : State) : State :=
  let s := refuseAccess r page off c s
  { s with regs := { s.regs with aref := satAdd cnt16Max s.regs.aref 1 } }

/-- What firmware stored before a register write, and the write makes visible (log entry 7). -/
structure Along where
  /-- Ring entries. -/
  ents : RingEnts := .none
  /-- Tables written in place. -/
  stores : List FwStore := []
  /-- The row tags of the next batch. -/
  tags : Option (List RowTag) := none
  deriving DecidableEq, Repr

/-- A value within bounds, and the state after it. -/
def within (ok : Bool) (s : State) : Except Cause State := if ok then .ok s else .error .bounds

/-! ### Header and own copies (R461, R462, R469, R477) -/

/-- Registers of the header but CHSEL. -/
def setHdr (page : Fin 32) (off : Nat) (v : Word) (s : State) : State :=
  let f := fun (h : PageHdr) =>
    match off with
    | 0x0C => { h with ien := bitAt v 0 }
    | 0x10 => { h with intStatus := h.intStatus &&& ~~~ BitVec.ofNat 8 v.toNat }
    | 0x14 => { h with intEnable := BitVec.ofNat 8 v.toNat }
    | _ => h
  { s with regs := { s.regs with pages := vmod s.regs.pages page f } }

/-- A requester's own copies. -/
def setOwn (r : Requester) (page off : Nat) (v : Word) (s : State) : Except Cause State :=
  let mod := fun (f : ReqCopy → ReqCopy) => modReqCopy r f s
  if off = 0x18 then
    within (decide (fld v 0 16 < channels page)) (mod (fun x => { x with chsel := tabSet 0 x.chsel page (fld v 0 16) }))
  else match page with
  | 0 => .ok (if bitAt v 31 then mod (fun x => { x with astat := none }) else s)
  | 2 => within (decide (fld v 0 4 ≤ 11)) (mod (fun x => { x with iddigIdx := BitVec.ofNat 4 (fld v 0 4) }))
  | 3 => .ok (mod (fun x => { x with logIdx := BitVec.ofNat 13 (fld v 0 13) }))
  | 6 => .ok (mod (fun x => { x with rtIdx := BitVec.ofNat 15 (fld v 0 15) }))
  | 0xD => .ok (mod (fun x => { x with colfIdx := BitVec.ofNat 7 (fld v 0 7) }))
  | _ =>
    let i := fld v 0 18
    let ok := match reqPart r with | some p => inTensWin s.parts[p] i | none => true
    if ok then .ok (mod (fun x => { x with uuTidx := BitVec.ofNat 18 i })) else .error .partition

/-! ### The control core's pages -/

/-- RWL fields are set in BLANK and PROVISIONED only (R12). -/
def rwlOpen (s : State) : Bool := s.nv.lc == .blank || s.nv.lc == .provisioned

/-- An RWL register: PL_CFG on page 6, TH_CFG on page 4. A change of COORD_SRC changes the coordinate of a chip in no slice. -/
def setRwl (page : Nat) (v : Word) (s : State) : State :=
  if page = 6 then strapCoord { s with plane := { s.plane with rwl := { s.plane.rwl with coordSrc := bitAt v 0 } } }
  else { s with plane := { s.plane with rwl := { s.plane.rwl with
    thThrottle := BitVec.ofNat 11 (fld v 0 11), thTrip := BitVec.ofNat 11 (fld v 11 11) } } }

/-- CC_WDOG: WDOG_T, and KICK restarts the count (R400). -/
def setWdog (v : Word) (s : State) : State :=
  { s with cc := { s.cc with wdogT := BitVec.ofNat 31 v.toNat, wdogKick := if bitAt v 31 then s.mc.tick.toNat else s.cc.wdogKick } }

/-- ERR_CFG; ECC_MODE takes effect at the next boundary (R423). -/
def setErrCfg (v : Word) (s : State) : Except Cause State :=
  let ecc := fld v 1 3
  let col := fld v 4 12
  let hrs := fld v 16 8
  within (decide (ecc ≤ 3 ∧ 1 ≤ col ∧ col ≤ 4094 ∧ 1 ≤ hrs ∧ hrs ≤ 254))
    { s with err := { s.err with replayEn := bitAt v 0, eccNext := ecc, colth := col, scrubH := hrs } }

/-- PW_ISL.REQ (R442, Table REL-17). -/
def setIsland (ch : Nat) (v : Word) (s : State) : Except Cause State :=
  let req := fld v 0 2
  let cluster := decide (2 ≤ ch ∧ ch < 10)
  let used := (List.range 8).any (fun j => let c := s.cores.getD (8 * (ch - 2) + j) {}; c.part != 0x1F || c.partNext != 0x1F)
  let st : IslSt := if req = 2 then .retain else if req = 3 then .off else .active
  if req = 1 ∨ (req ≠ 0 ∧ cluster = false) then .error .bounds
  else if req ≠ 0 ∧ used = true then .error .state
  else .ok { s with pw := { s.pw with islands := Vector.ofFn (fun i =>
    let x := s.pw.islands[i]
    if i.val = ch ∧ cluster = true then { x with req := st } else x) } }

/-- A guard that may be written: 1 to 65,534 and not below FLOOD_MEAS (R310). -/
def guardOk (s : State) (g : Nat) : Bool := decide (1 ≤ g ∧ g ≤ 65534 ∧ s.mc.floodMeas ≤ g)

/-- LP_CFG: WIDTH for the next bring-up, and EN. A port enabled begins discovery, in a slice or in none (R352); one no longer enabled ends a
discovery that has not come up (log entry 56). -/
def setPortCfg (ch : Nat) (v : Word) (s : State) : Except Cause State :=
  if fld v 0 2 = 3 then .error .bounds else
  let i : PortIx := Fin.ofNat 6 ch
  let en := bitAt v 2
  let t := modPort i (fun q => { q with widthCfg := fld v 0 2, en := en }) s
  let st := s.ports[i].st
  if en = true ∧ s.ports[i].en = false ∧ st = .disabled then
    .ok (setLink i .training 0 (modPort i emptyPort t))
  else if en = false ∧ (st = .training ∨ st = .hello ∨ st = .down) then .ok (setLink i .disabled 0 (modPort i emptyPort t))
  else .ok t

/-- Bytes of the control core's region (R373). -/
def coreRegionBytes : Nat := 2 ^ 29

/-- The segment unit's registers (Table REGS-10). -/
def setSeg (off : Nat) (v : Word) (tags : Option (List RowTag)) (s : State) : Except Cause State :=
  let g := s.seg
  let n : SegUnit := match off with
    | 0x20 => { g with tagsAddr := BitVec.ofNat 48 (put 32 (fld g.tagsAddr 32 16) + put 3 (fld v 3 29)) }
    | 0x24 => { g with tagsAddr := BitVec.ofNat 48 (put 32 (fld v 0 16) + fld g.tagsAddr 0 32) }
    | _ => { g with rows := fld v 0 17, pslot := Fin.ofNat 8 (fld v 17 3), valid := bitAt v 20, tagArray := tags.getD g.tagArray }
  within (decide (n.rows ≤ 65536 ∧ n.tagsAddr.toNat + 8 * n.rows ≤ coreRegionBytes)) { s with seg := n }

/-- Registers of the pages 0x01 to 0x08 from offset 0x20 up; an offset that no table maps, and a field that is RO, has no
effect. -/
def setCorePages (page ch off : Nat) (v : Word) (x : Along) (s : State) : Except Cause State :=
  if page = 1 ∧ off = 0x30 then .ok (setWdog v s)
  else if page = 3 ∧ off = 0x20 then setErrCfg v s
  else if page = 4 ∧ off = 0x20 then within (decide (fld v 0 2 ≠ 0)) { s with pw := { s.pw with duty := fld v 0 2 } }
  else if (page = 4 ∧ off = 0x3C) ∨ (page = 6 ∧ off = 0x20) then .ok (if rwlOpen s then setRwl page v s else s)
  else if page = 4 ∧ off = 0x80 then setIsland ch v s
  else if page = 5 ∧ off = 0x34 then
    within (guardOk s (fld v 0 16)) { s with mc := { s.mc with guardNext := fld v 0 16 } }
  else if page = 5 ∧ off = 0x3C then .ok { s with mc := { s.mc with syncEn := bitAt v 0 } }
  else if page = 7 ∧ off = 0x80 then setPortCfg ch v s
  else if page = 8 ∧ (off = 0x20 ∨ off = 0x24 ∨ off = 0x28) then setSeg off v x.tags s
  else .ok s

/-! ### Request faces (R479) -/

/-- A result buffer's registers: while its buffer is unacknowledged a write is refused. -/
def setBuf (f : FaceIx) (n : Fin 2) (k : Nat) (v : Word) (s : State) : Except Cause State :=
  if s.faces[f].acks[n] = false then .error .state else
  let b := s.faces[f].bufs[n]
  let new : BitVec 64 × Word := match k with
    | 0 => (BitVec.ofNat 64 (put 32 (fld b.1 32 32) + put 6 (fld v 6 26)), b.2)
    | 1 => (BitVec.ofNat 64 (put 32 v.toNat + fld b.1 0 32), b.2)
    | _ => (b.1, v)
  within (decide (k < 2 ∨ (64 ≤ v.toNat ∧ v.toNat ≤ 0xFFFFFFC0 ∧ v.toNat % 64 = 0)))
    (modFace f (fun y => { y with bufs := vmod y.bufs n (fun _ => new) }) s)

/-- A face page. RB_ACK has no effect from any requester of R453. -/
def setFace (f : FaceIx) (off : Nat) (v : Word) (s : State) : Except Cause State :=
  match off with
  | 0x20 => within (decide (1 ≤ fld v 0 16 ∧ fld v 0 16 ≤ 65534)) (modFace f (fun y => { y with rbCap := fld v 0 16 }) s)
  | 0x24 => setBuf f 0 0 v s | 0x28 => setBuf f 0 1 v s | 0x2C => setBuf f 0 2 v s
  | 0x30 => setBuf f 1 0 v s | 0x34 => setBuf f 1 1 v s | 0x38 => setBuf f 1 2 v s
  | _ => .ok s

/-! ### Rings (R465, R471, R481) -/

/-- A write to a ring's register at an offset within its group: `fw` tells a ring that firmware writes, `lo` the low bits of
its base that are reserved, `hi` the bits of _HI; `add` the entries that firmware placed, zero entries standing for any not
given (log entry 7). -/
def setRing {ε : Type} (fw : Bool) (lo hi : Nat) (add : List ε) (zero : ε) (o : Nat) (v : Word) (r : Ring ε) : Except Cause (Ring ε) :=
  match o with
  | 0x00 =>
    if r.wr ≠ r.rd then .error .state
    else .ok { r with base := BitVec.ofNat 64 (put 32 (fld r.base 32 32) + put lo (fld v lo (32 - lo))) }
  | 0x04 =>
    if r.wr ≠ r.rd then .error .state else .ok { r with base := BitVec.ofNat 64 (put 32 (fld v 0 hi) + fld r.base 0 32) }
  | 0x08 =>
    let n := fld v 0 5
    if r.wr ≠ r.rd then .error .state
    else if n < 4 ∨ 16 < n then .error .bounds
    else .ok (ringDrain r.wait.length { r with log2n := n, wr := 0, rd := 0, ents := [] })
  | 0x0C =>
    if fw then
      let n := (fld v 0 16 + 65536 - r.rd.toNat) % 65536
      if (r.log2n = 0 ∧ 0 < n) ∨ 2 ^ r.log2n < n then .error .bounds
      else
        let l := r.ents ++ add
        .ok { r with wr := BitVec.ofNat 16 v.toNat, ents := (l ++ List.replicate (n - l.length) zero).take n }
    else .ok r
  | 0x10 =>
    if fw then .ok r
    else
      let n := (fld v 0 16 + 65536 - r.rd.toNat) % 65536
      if r.ents.length < n then .error .bounds
      else .ok (ringDrain r.wait.length { r with rd := BitVec.ofNat 16 v.toNat, ents := r.ents.drop n })
  | _ => .ok r

/-- A group changed, and the interrupt of a ring to which entries that waited have been written (Table REGS-3). -/
def groupDone {ε : Type} (p : Part) (bit : Nat) (old new : Ring ε) (s : State) : State :=
  if new.wait.length < old.wait.length then raiseInt (pmPage p) bit s else s

/-- Entries of a RESQ write. -/
def entsResq : RingEnts → List ResCmd | .resq l => l | _ => []
/-- Entries of an RCCQ write. -/
def entsRccq : RingEnts → List (BitVec 256) | .rccq l => l | _ => []
/-- Entries of an RCCF write. -/
def entsRccf : RingEnts → List Nat | .rccf l => l | _ => []

/-- The ring groups of a partition manager page (Table REGS-7). Entries that no code names complete at once with BOUNDS when
they stand at the front (R410, R473). -/
def setGroup (p : Part) (off : Nat) (v : Word) (e : RingEnts) (s : State) : Except Cause State :=
  let q := s.parts[p]
  let o := off % 0x20
  if off < 0x120 then
    (setRing true 8 16 (entsResq e) (.reserved 0) o v q.resq).map (fun r =>
      dropReserved p r.ents.length (modPart p (fun q => { q with resq := r }) s))
  else if off < 0x140 then
    (setRing false 8 16 [] {} o v q.resc).map (fun r => groupDone p 0 q.resc r (modPart p (fun q => { q with resc := r }) s))
  else if off < 0x160 then
    (setRing true 8 16 (entsRccq e) 0 o v q.rccq).map (fun r =>
      dropBadPage p r.ents.length (modPart p (fun q => { q with rccq := r }) s))
  else if off < 0x180 then
    (setRing false 8 16 [] {} o v q.rccc).map (fun r => groupDone p 1 q.rccc r (modPart p (fun q => { q with rccc := r }) s))
  else if off < 0x1A0 then
    (setRing true 8 16 (entsRccf e) 0 o v q.rccf).map (fun r => modPart p (fun q => { q with rccf := r }) s)
  else if off < 0x1C0 then
    (setRing false 8 16 [] 0 o v q.rccr).map (fun r => groupDone p 2 q.rccr r (modPart p (fun q => { q with rccr := r }) s))
  else (setRing false 5 16 [] {} o v q.er).map (fun r => modPart p (fun q => { q with er := r }) s)

/-- An output ring (Table SERVE-11). -/
def setOutRing (ch off : Nat) (v : Word) (s : State) : Except Cause State :=
  (setRing false 6 32 [] {} (off - 0x80) v (tabGet {} s.rings ch)).map (fun r => { s with rings := tabSet {} s.rings ch r })

/-- A page descriptor read by Table RCC-5; reserved bits have no effect (R9). -/
def pageDescOf (w : BitVec 128) : PageDesc :=
  { addr := fld w 0 48, fill := fld w 48 9, st := fld w 57 3, f8 := bitAt w 60, ref := fld w 64 16, gen := fld w 80 8,
    slot := fld w 88 16, version := fld w 104 16 }

/-- A page list read by Table RCC-6: NPAGES and CLEN of the header, and the NPAGES entries that stand after it. -/
def pageListOf (b : List Byte) : PageList :=
  let h := leAt b 0 16
  { npages := nfld h 0 13, clen := nfld h 16 21,
    ents := (chunk 4 (min (nfld h 0 13) ((b.length - 16) / 4)) (b.drop 16)).map (fun e => (leAt e 0 3, leAt e 3 1)) }

/-- A store of firmware into a table of the partition. -/
def applyStore (p : Part) (x : FwStore) (s : State) : State :=
  modPart p (fun q => match x with
    | .repset i e => { q with repsets := tabSet 0 q.repsets i e }
    | .shardset i e => { q with shards := tabSet 0 q.shards i e }
    | .pagedesc i e => { q with pdescs := tabSet {} q.pdescs i (pageDescOf e) }
    | .pagelist a l => { q with plists := tabSet {} q.plists a (pageListOf l) }
    | .handle i a => { q with handles := tabSet 0 q.handles i a }) s

/-! ### Cores and update units (R377, R475, R477) -/

/-- A core given to a partition, or to none, at the next boundary (R377). -/
def setCorePart (n v : Nat) (s : State) : Except Cause State :=
  if 0x10 ≤ v ∧ v ≤ 0x1E then .error .bounds
  else
    let q := s.parts.getD v {}
    if s.nv.lc ≠ .operational ∨ (v < 16 ∧ (q.st ≠ .keyed ∨ q.presetPend.isSome = true)) then .error .state
    else .ok { s with cores := s.cores.setIfInBounds n { s.cores.getD n {} with partNext := v } }

/-- The bypass fields that a value gives an array. -/
def bypField (v : Word) (a : Nat) : Bypass := { col := fld v (8 * a) 5, en := bitAt v (8 * a + 5), dis := bitAt v (8 * a + 6) }

/-- The cause for which the fields of an array are refused (R475). -/
def bypCause (cols : List Nat) (b : Bypass) : Option Cause :=
  match cols with
  | [] => if b.en && b.dis then some .bounds else none
  | c :: more =>
    if b.col ≠ c ∨ b.en = false ∨ (more ≠ [] ∧ b.dis = false) then some .state
    else if more = [] ∧ b.dis = true then some .bounds
    else none

/-- CORE_BYP of a core. -/
def setByp (n : Nat) (v : Word) (s : State) : Except Cause State :=
  match (List.range 4).findSome? (fun a => bypCause (fusedCols s (4 * n + a)) (bypField v a)) with
  | some c => .error c
  | none => .ok { s with cores := s.cores.setIfInBounds n { s.cores.getD n {} with bypNext := Vector.ofFn (fun a => bypField v a.val) } }

/-- UU_TFLAG: sticky flags cleared; one that the step has set again stays (R85, R477). -/
def clearFlags (i : Nat) (v : Word) (s : State) : State :=
  { s with tensors := tabMod {} s.tensors i (fun t => { t with
      win := t.win && (!bitAt v 0 || t.stepSet.getLsbD 0), nan := t.nan && (!bitAt v 1 || t.stepSet.getLsbD 1),
      ovf := t.ovf && (!bitAt v 2 || t.stepSet.getLsbD 2) }) }

/-! ### Partition manager page -/

/-- The registers as written. -/
def modRegs (p : Part) (f : PRegs → PRegs) (s : State) : State := modPart p (fun q => { q with regs := f q.regs }) s

/-- The windows with one window register written (Tables RES-9, SEC-15, SERVE-16, TRAIN-4). -/
def putWindow (off : Nat) (v : Word) (w : Windows) : Windows :=
  match off with
  | 0x20 => { w with hbmBase := fld v 0 10, hbmCount := fld v 10 11 }
  | 0x24 => { w with coldBase := fld v 0 15, coldCount := fld v 15 15 }
  | 0x28 => { w with slotBase := fld v 0 16, slotCount := fld v 16 16 }
  | 0x2C => { w with reqBase := fld v 0 18 }
  | 0x30 => { w with reqCount := fld v 0 19 }
  | 0x34 => { w with ringBase := fld v 0 14, ringCount := fld v 14 15 }
  | 0x74 => { w with tensBase := fld v 0 18 }
  | _ => { w with tensCount := fld v 0 19 }

/-- A window register, written by the control core (R456): refused where the window leaves its range or meets another
partition's (R230, R373). The request, ring and tensor windows take effect at the next boundary (R301, R470), the others at once
(log entry 152). -/
def setWindow (p : Part) (off : Nat) (v : Word) (s : State) : Except Cause State :=
  let w := putWindow off v s.parts[p].winNext
  within (windowFits s p w) (modPart p (fun q =>
    { q with winNext := w, win := if (0x2C ≤ off ∧ off ≤ 0x34) ∨ 0x74 ≤ off then q.win else putWindow off v q.win }) s)

/-- SEG_CAP of the other partitions. -/
def otherCaps (s : State) (p : Part) : Nat :=
  ((List.finRange 16).map (fun x => if x = p then 0 else s.parts[x].regs.segCap)).sum

/-- LSCALE: LS for the next epoch, LS_MIN and LS_MAX (R202). -/
def setLscale (p : Part) (v : Word) (s : State) : Except Cause State :=
  let ls := fld v 0 8
  let mn := fld v 8 8
  let mx := fld v 16 8
  within (decide (mn ≤ ls ∧ ls ≤ mx ∧ mx ≤ 64))
    (modPart p (fun q => { q with loss := { q.loss with lsNext := some ls }, regs := { q.regs with lsMin := mn, lsMax := mx } }) s)

/-- Registers of offsets 0x03C to 0x068 (Tables SERVE-16, TRAIN-4, REGS-6). -/
def setPmLow (p : Part) (off : Nat) (v : Word) (s : State) : Except Cause State :=
  let upd := fun (ok : Bool) (f : PRegs → PRegs) => within ok (modRegs p f s)
  let lo16 := fld v 0 16
  match off with
  | 0x3C => upd (decide (fld v 0 13 ≤ 4096 ∧ otherCaps s p + fld v 0 13 ≤ 4096)) (fun r => { r with segCap := fld v 0 13 })
  | 0x40 => upd true (fun r => { r with admClose := fld v 0 28 })
  | 0x44 => upd (decide (fld v 0 17 ≤ 65536)) (fun r => { r with tokStep := fld v 0 17 })
  | 0x48 => upd (decide (v.toNat ≤ 0xFFFFFFFE)) (fun r => { r with tokWin := v.toNat })
  | 0x4C => upd (decide (1 ≤ lo16 ∧ lo16 ≤ 65534)) (fun r => { r with winSteps := lo16 })
  | 0x50 => upd (decide (1 ≤ fld v 0 17 ∧ fld v 0 17 ≤ 65536)) (fun r => { r with chunkMax := fld v 0 17 })
  | 0x54 => upd (decide (fld v 0 8 ≤ 254)) (fun r => { r with topkMax := fld v 0 8 })
  | 0x58 => upd (decide (1 ≤ fld v 0 11 ∧ fld v 0 11 ≤ 1440 ∧ 1 ≤ fld v 16 11 ∧ fld v 16 11 ≤ fld v 0 11))
      (fun r => { r with ttlMax := fld v 0 11, ttlDef := fld v 16 11 })
  | 0x5C => setLscale p v s
  | 0x60 => upd (decide (1 ≤ lo16 ∧ lo16 ≤ 65534)) (fun r => { r with lsRun := lo16 })
  | 0x64 => upd true (fun r => { r with pdfmt := bitAt v 0, ddfmt := bitAt v 1 })
  | 0x68 => upd (decide (1 ≤ fld v 16 16 ∧ fld v 16 16 ≤ 65534)) (fun r => { r with efmt := bitAt v 0, pgsz := fld v 16 16 })
  | _ => .ok s

/-- Bytes of the table behind a base register (Table REGS-6). -/
def tableBytes (q : PartSt) (off : Nat) : Nat :=
  if off < 0x88 then 128 * q.winNext.reqCount
  else if off < 0x90 then 2 ^ 25
  else if off < 0x98 then 2 ^ 22
  else if off < 0xA0 then 2 ^ 13
  else if off < 0xA8 then 16 * q.regs.rccdCount
  else if off < 0xB4 then 4095 * 32
  else 4095 * 64

/-- A base register set. -/
def withBase (off : Nat) (a : BitVec 48) (r : PRegs) : PRegs :=
  if off < 0x88 then { r with recBase := a }
  else if off < 0x90 then { r with cplBase := a }
  else if off < 0x98 then { r with holdBase := a }
  else if off < 0xA0 then { r with hpBase := a }
  else if off < 0xA8 then { r with rccdBase := a }
  else if off < 0xB4 then { r with rsBase := a }
  else { r with ssBase := a }

/-- Every request record of a partition is FREE. -/
def recordsFree (s : State) (p : Part) : Bool := s.recs.all (fun x => x.2.st == .free || x.2.part != p)

/-- A half of a base pair, checked as the pair then stands (R470); an open step reads the tables of every partition that has
request records. -/
def setBase (p : Part) (off : Nat) (v : Word) (old : BitVec 48) (s : State) : Except Cause State :=
  let a : BitVec 48 := BitVec.ofNat 48
    (if baseHi off then put 32 (fld v 0 16) + fld old 0 32 else put 32 (fld old 32 16) + put 8 (fld v 8 24))
  let q := s.parts[p]
  if hbmIn q a.toNat (tableBytes q off) = false then .error .bounds
  else if s.run.isOpen = true ∧ recordsFree s p = false then .error .state
  else .ok (modRegs p (withBase off a) s)

/-- RCC_DESC_COUNT: the table it gives must lie in the window. -/
def setDescCount (p : Part) (v : Word) (s : State) : Except Cause State :=
  let n := fld v 0 24
  let q := s.parts[p]
  within (decide (n ≤ 16777214) && (n == 0 || hbmIn q q.regs.rccdBase.toNat (16 * n))) (modRegs p (fun r => { r with rccdCount := n }) s)

/-- A partition manager page. The window registers take the root's writes only. -/
def setPm (r : Requester) (p : Part) (off : Nat) (v : Word) (x : Along) (s : State) : Except Cause State :=
  if (0x20 ≤ off ∧ off ≤ 0x34) ∨ off = 0x74 ∨ off = 0x78 then (if r = 0 then setWindow p off v s else .ok s)
  else if off < 0x80 then setPmLow p off v s
  else if off = 0xA8 then setDescCount p v s
  else if 0x100 ≤ off ∧ off < 0x1E0 then setGroup p off v x.ents (x.stores.foldl (fun s y => applyStore p y s) s)
  else match baseReg s.parts[p].regs off with
    | some a => setBase p off v a s
    | none => .ok s

/-! ### A write -/

/-- The effect of a write on the register at an aligned offset, or the cause for which the register refuses it. -/
def setReg (r : Requester) (page : Fin 32) (off : Nat) (v : Word) (x : Along) (s : State) : Except Cause State :=
  let own := s.regs.reqs[r]
  let ch := chanOf own page
  if ownReg page off then setOwn r page off v s
  else if off < 0x20 then .ok (setHdr page off v s)
  else if page.val < 0xA then setCorePages page ch off v x s
  else match page.val with
  | 0xA => setFace 0 off v s
  | 0xB => setFace 1 off v s
  | 0xC => if 0x80 ≤ off then setOutRing ch off v s else .ok s
  | 0xD => if off = 0x80 then setCorePart ch (fld v 0 5) s else if off = 0x84 then setByp ch v s else .ok s
  | 0xE => .ok s
  | 0xF => if off = 0x24 then .ok (clearFlags own.uuTidx.toNat v s) else .ok s
  | _ => setPm r (pagePart page) off v x s

/-- A write of the register space (R464). -/
def writeReg (r : Requester) (page : Fin 32) (off : Nat) (v : Word) (x : Along) (s : State) : State :=
  match writeCause s r page off with
  | some c => refuseWrite r page off c s
  | none =>
    match setReg r page off v x s with
    | .ok t => t
    | .error c => refuseWrite r page off c s

/-! ### The commands -/

/-- What a register write may change. -/
def footReg (s t : State) : State :=
  { s with out := t.out, cc := t.cc, regs := t.regs, mc := t.mc, plane := t.plane, ports := t.ports, cores := keepAssign s t,
           tensors := t.tensors, parts := t.parts, rings := t.rings, faces := t.faces, seg := t.seg, err := t.err, pw := t.pw }

/-- CHSEL_WRITE (R461). -/
def execChselWrite (req : Requester) (page : Fin 32) (value : Word) (s : State) : Host.Outcome State Fault Refusal :=
  .next (footReg s (writeReg req page 0x18 value {} s))

/-- INT_STATUS_CLEAR (R462). -/
def execIntStatusClear (req : Requester) (page : Fin 32) (value : Word) (s : State) : Host.Outcome State Fault Refusal :=
  .next (footReg s (writeReg req page 0x10 value {} s))

/-- ID_ASTAT_CLEAR (R469). -/
def execIdAstatClear (req : Requester) (value : Word) (s : State) : Host.Outcome State Fault Refusal :=
  .next (footReg s (writeReg req 0 0xA4 value {} s))

/-- UU_TFLAG_CLEAR (R85). -/
def execUuTflagClear (req : Requester) (value : Word) (s : State) : Host.Outcome State Fault Refusal :=
  .next (footReg s (writeReg req 0xF 0x24 value {} s))

/-- KICK (R400). -/
def execKick (req : Requester) (value : Word) (s : State) : Host.Outcome State Fault Refusal :=
  .next (footReg s (writeReg req 1 0x30 value {} s))

/-- The buffer that BUF names becomes free for a batch. A buffer that was already free stays so: the acknowledgement is of
the previous batch (R280, Table REGS-16). -/
def ackBuf (f : FaceIx) (v : Word) (s : State) : State :=
  let n : Fin 2 := Fin.ofNat 2 (fld v 0 1)
  raiseInt (facePage f) 0 (modFace f (fun y => { y with acks := vmod y.acks n (fun _ => true) }) s)

/-- RB_ACK (R280): the host's register of the face, which no wipe in progress lets it write. -/
def execRbAck (face : FaceIx) (value : Word) (s : State) : Host.Outcome State Fault Refusal :=
  .next (footReg s (if pageBusy s (facePage face) then s else ackBuf face value s))

/-- An offset of a ring's index that its requester advances: of a group of Table REGS-7, or RING_CONS. -/
def indexReg (page off : Nat) : Bool :=
  if page = 0xC then off == 0x90
  else decide (16 ≤ page ∧ 0x100 ≤ off ∧ off < 0x1E0) &&
    (if (off - 0x100) / 0x20 = 0 ∨ (off - 0x100) / 0x20 = 2 ∨ (off - 0x100) / 0x20 = 4 then off % 0x20 == 0x0C else off % 0x20 == 0x10)

/-- RING_INDEX_WRITE (R465); another register is not written by it. -/
def execRingIndexWrite (req : Requester) (page : Fin 32) (offset : BitVec 12) (value : Word) (ents : RingEnts)
    (stores : List FwStore) (s : State) : Host.Outcome State Fault Refusal :=
  .next (footReg s (if indexReg page offset.toNat then writeReg req page offset.toNat value { ents, stores } s else s))

/-- An offset of a ring's _LO, _HI or _CTL. -/
def configReg (page off : Nat) : Bool :=
  if page = 0xC then off == 0x80 || off == 0x84 || off == 0x88
  else decide (16 ≤ page ∧ 0x100 ≤ off ∧ off < 0x1E0 ∧ off % 0x20 ≤ 8 ∧ off % 4 = 0)

/-- RING_CONFIG_WRITE (R465); another register is not written by it. -/
def execRingConfigWrite (req : Requester) (page : Fin 32) (offset : BitVec 12) (value : Word) (s : State) :
    Host.Outcome State Fault Refusal :=
  .next (footReg s (if configReg page offset.toNat then writeReg req page offset.toNat value {} s else s))

/-- CORE_BYP_WRITE (R475), on the core that CHSEL selects. -/
def execCoreBypWrite (req : Requester) (value : Word) (s : State) : Host.Outcome State Fault Refusal :=
  .next (footReg s (writeReg req 0xD 0x84 value {} s))

/-- PW_ISL_REQ (R442), on the island that CHSEL selects. -/
def execPwIslReq (req : Requester) (value : Word) (s : State) : Host.Outcome State Fault Refusal :=
  .next (footReg s (writeReg req 4 0x80 value {} s))

/-- SG_NEXT_WRITE (R474). -/
def execSgNextWrite (req : Requester) (value : Word) (tags : List RowTag) (s : State) : Host.Outcome State Fault Refusal :=
  .next (footReg s (writeReg req 8 0x28 value { tags := some tags } s))

/-- SEGCAP_WRITE (R38). -/
def execSegcapWrite (req : Requester) (part : Part) (value : Word) (s : State) : Host.Outcome State Fault Refusal :=
  .next (footReg s (writeReg req (pmPage part) 0x3C value {} s))

/-- LSCALE_WRITE (R202). -/
def execLscaleWrite (req : Requester) (part : Part) (run : Bool) (value : Word) (s : State) : Host.Outcome State Fault Refusal :=
  .next (footReg s (writeReg req (pmPage part) (if run then 0x60 else 0x5C) value {} s))

/-- REGISTER_WRITE (R464). -/
def execRegisterWrite (req : Requester) (page : Fin 32) (offset : BitVec 12) (value : Word) (s : State) :
    Host.Outcome State Fault Refusal :=
  .next (footReg s (writeReg req page offset.toNat value {} s))

end Sys2Proof.Machine
end

