-- ==== Sys2Proof/Machine/Load.lean ====
section
/-!
DEFINITION. The container of a step program (Tables ISA-2 to ISA-4, ISA-9) and the load checks of Table ISA-18 (R160, log
entry 61).
-/

namespace Sys2Proof.Machine

/-! ### The container (R122 to R124, R138) -/

/-- An issuer table entry (Table ISA-3). -/
def issuerOfBytes (b : List Byte) : Issuer :=
  let v := leAt b 0 8
  { first := nfld v 0 20, count := nfld v 20 21, queue := nfld v 41 8 }

/-- A plan entry (Table ISA-4). -/
def planOfBytes (b : List Byte) : PlanRow :=
  let v := leAt b 0 16
  { maxRows := nfld v 0 17, rmax := nfld v 17 9, clFirst := nfld v 26 3, cln := nfld v 29 4, abase := nfld v 33 15,
    obase := nfld v 48 15, astr := nfld v 64 11, ostr := nfld v 75 11 }

/-- n records of `size` bytes each from an offset. -/
def records {α : Type} (b : List Byte) (off n size : Nat) (f : List Byte → α) : List α :=
  (List.range n).map (fun j => f (slice b (off + size * j) size))

/-- The program that a container holds (Table ISA-2). -/
def containerOf (b : List Byte) : Program :=
  { epoch := BitVec.ofNat 64 (leAt b 0x08 8), stepCycles := leAt b 0x18 4, tokens := leAt b 0x16 2, tlpairs := leAt b 0x1E 2
    present := BitVec.ofNat 512 (leAt b 0x40 64)
    issuers := records b (leAt b 0x80 8) (leAt b 0x14 2) 8 issuerOfBytes
    plan := records b (leAt b 0x88 8) (leAt b 0x1C 2) 16 planOfBytes
    descs := records b (leAt b 0x90 8) (leAt b 0x20 2) 32 (fun x => BitVec.ofNat 256 (leNat x))
    words := records b (leAt b 0x98 8) (leAt b 0x10 4) 16 (fun x => BitVec.ofNat 128 (leNat x))
    digest64 := BitVec.ofNat 64 (leNat ((sha384 b).take 8)) }

/-- MAGIC, FORMAT and STEPPING are those of Table ISA-2. -/
def formatFits (b : List Byte) : Bool :=
  leAt b 0 4 == 0x31454150 && leAt b 4 2 == 1 && leAt b 6 2 == 0xB0

/-- A section lies in the container at a multiple of 256 (R122). -/
def sectionFits (len off bytes : Nat) : Bool := decide (off % 256 = 0 ∧ off + bytes ≤ len)

/-- Sizes, counts and places of the sections (Table ISA-2). -/
def sectionsFit (b : List Byte) : Bool :=
  let len := b.length
  let instrs := leAt b 0x10 4
  let issuers := leAt b 0x14 2
  let plan := leAt b 0x1C 2
  let descs := leAt b 0x20 2
  decide (256 ≤ len ∧ len ≤ 0x1800000 ∧ 1 ≤ instrs ∧ instrs ≤ 1048575 ∧ 1 ≤ issuers ∧ issuers ≤ 216 ∧ leAt b 0x16 2 ≤ 1023
      ∧ 1 ≤ leAt b 0x18 4 ∧ leAt b 0x18 4 ≤ 268435455 ∧ plan ≤ 4096 ∧ leAt b 0x1E 2 ≤ 16384 ∧ descs ≤ 256)
    && sectionFits len (leAt b 0x80 8) (8 * issuers) && sectionFits len (leAt b 0x88 8) (16 * plan)
    && sectionFits len (leAt b 0x90 8) (32 * descs) && sectionFits len (leAt b 0x98 8) (16 * instrs)

/-- The issuers name consecutive runs that cover the words from `first` on, in rising order of queue (R123). -/
def runsCover : Nat → Nat → Nat → List Issuer → Bool
  | first, _, total, [] => first == total
  | first, queue, total, i :: r =>
    i.first == first && decide (queue ≤ i.queue ∧ i.queue < 216 ∧ 1 ≤ i.count) && runsCover (first + i.count) (i.queue + 1) total r

/-! ### Queues and groups -/

/-- The words of a queue. -/
def queueWords (p : Program) (q : Nat) : List IWord :=
  match p.issuers.find? (fun i => i.queue == q) with
  | some i => (p.words.drop i.first).take i.count
  | none => []

/-- Every word of a program with its queue. -/
def allWords (p : Program) : List (Nat × IWord) :=
  p.issuers.flatMap (fun i => (queueWords p i.queue).map (fun w => (i.queue, w)))

/-- A queue accepts an opcode (Table ISA-1). -/
def queueTakes (q op : Nat) : Bool :=
  op == 0 || op == 1 ||
  (if q < 64 then op == 0x20 || op == 0x21 || op == 0x30 || op == 0x31 || op == 0x32
   else if q < 128 then op == 0x50 || op == 0x51 || op == 0x80
   else if q < 192 then op == 0x10
   else if q < 200 then op == 0x11 || op == 0x40
   else if q < 202 then op == 0x60
   else if q < 204 then op == 0x61
   else if q = 204 then op == 0x90
   else if q < 211 then op == 0x70 || op == 0x71
   else if q < 215 then op == 0x81 || op == 0x82
   else op == 2)

/-- The groups of a core array queue: each issuing word with the array words that follow it up to the next issuing
word. -/
def groupsOf (l : List IWord) : List (IWord × List IWord) :=
  l.foldr (fun w (acc : List IWord × List (IWord × List IWord)) =>
    if wIsArray w then (w :: acc.1, acc.2) else ([], (w, acc.1) :: acc.2)) ([], []) |>.2

/-- A word heads a group. -/
def headsGroup (w : IWord) : Bool := wOp w == 0x20 || wOp w == 0x21

/-- The REDUCE word of a cluster for a reduction. -/
def reduceOf (p : Program) (cluster rid : Nat) : Option ReduceWord :=
  ((queueWords p (192 + cluster)).filter (fun w => wOp w == 0x40)).map reduceWord |>.find? (fun r => r.rid == rid)

/-- The segment entry whose rows a group of a core streams, where its words name one. -/
def groupSeg (p : Program) (core : Nat) (g : IWord × List IWord) : Option Nat :=
  let src := fld g.1 46 2
  if wOp g.1 = 0x20 ∧ src = 0 then some (fld g.1 48 12)
  else if wOp g.1 = 0x20 ∧ src = 2 then (reduceOf p (core / 8) (fld g.1 48 6)).map (·.seg)
  else (g.2.find? (fun w => (arrayWord w).acc == 2)).bind (fun w => (reduceOf p (core / 8) (arrayWord w).rid).map (·.seg))

/-- FIRST and COUNT of a group header. -/
def groupSpan (w : IWord) : Nat × Nat := if wOp w = 0x20 then (fld w 60 16, fld w 76 16) else (fld w 54 16, fld w 70 16)

/-- Rows of a group counted at MAXROWS (R135). -/
def groupRows (p : Program) (core : Nat) (g : IWord × List IWord) : Nat :=
  let s := groupSpan g.1
  if wOp g.1 = 0x20 ∧ fld g.1 46 2 ≠ 1 then
    match groupSeg p core g with
    | some i => min s.2 ((p.plan.getD i {}).maxRows - s.1)
    | none => s.2
  else s.2

/-! ### Order of the words (Table ISA-18: program order and token edges) -/

/-- The issuing words of every queue with their positions, and where each queue stands. -/
def queuesLeft (p : Program) : List (Nat × List (Nat × IWord)) :=
  p.issuers.map (fun i => (i.queue, ((queueWords p i.queue).zipIdx.filter (fun x => !wIsArray x.1)).map (fun x => (x.2, x.1))))

/-- A token may still be set by a word that has not issued, or by the word held back. -/
def tokenOpen (held : Option IWord) (l : List (Nat × List (Nat × IWord))) (t : Nat) : Bool :=
  l.any (fun q => q.2.any (fun x => wOp x.2 != 2 && wSet x.2 == t)) || (match held with | some w => wSet w == t | none => false)

/-- One word of each queue that program order and token edges let issue; `stop` holds a word back from issuing. -/
def issueRound (stop : Nat → Nat → Bool) (held : Option IWord) (l : List (Nat × List (Nat × IWord))) :
    List (Nat × List (Nat × IWord)) :=
  l.map (fun q => match q.2 with
    | [] => q
    | x :: r =>
      if stop q.1 x.1 || (wOp x.2 == 1 && tokenOpen held l (fld x.2 46 10))
          || (wOp x.2 == 2 && l.any (fun o => o.1 != q.1 && !o.2.isEmpty)) then q
      else (q.1, r))

/-- The words that can never issue while `stop` holds some back and the completion of `held` never counts. -/
def neverIssue (stop : Nat → Nat → Bool) (held : Option IWord) :
    Nat → List (Nat × List (Nat × IWord)) → List (Nat × List (Nat × IWord))
  | 0, l => l
  | n + 1, l => neverIssue stop held n (issueRound stop held l)

/-- The words of a program that never issue under a hold. -/
def leftWords (p : Program) (stop : Nat → Nat → Bool) (held : Option IWord) : List (Nat × Nat) :=
  (neverIssue stop held (p.words.length + 1) (queuesLeft p)).flatMap (fun q => q.2.map (fun x => (q.1, x.1)))

/-- Word b issues only after word a has issued. -/
def afterIssue (p : Program) (a b : Nat × Nat) : Bool :=
  (leftWords p (fun q k => decide (q = a.1 ∧ k = a.2)) none).contains b

/-- Word b issues only after word a has completed. -/
def afterDone (p : Program) (a b : Nat × Nat) : Bool :=
  a != b && (leftWords p (fun _ _ => false) ((queueWords p a.1)[a.2]?)).contains b

/-- The words of some queues that satisfy a test, as queue and position. -/
def wordsWhere (p : Program) (f : Nat → IWord → Bool) : List (Nat × Nat) :=
  p.issuers.flatMap (fun i => ((queueWords p i.queue).zipIdx.filter (fun x => f i.queue x.1)).map (fun x => (i.queue, x.2)))

/-- A word of a program by queue and position. -/
def wordIn (p : Program) (a : Nat × Nat) : IWord := (queueWords p a.1).getD a.2 0

/-! ### Counts (R10, Table ISA-18) -/

/-- Ranges of the counts of a plan entry (Table ISA-4). -/
def planFits (r : PlanRow) : Bool :=
  decide (1 ≤ r.maxRows ∧ r.maxRows ≤ 65536 ∧ 4 ≤ r.rmax ∧ r.rmax ≤ 256 ∧ r.rmax % 4 = 0 ∧ 1 ≤ r.cln ∧ r.clFirst + r.cln ≤ 8
    ∧ 1 ≤ r.astr ∧ 1 ≤ r.ostr)

/-- Ranges of a convolution descriptor (Table ISA-9). -/
def descFits (d : BitVec 256) : Bool :=
  let n := fun (lo w a z : Nat) => decide (a ≤ fld d lo w ∧ fld d lo w ≤ z)
  n 0 5 1 16 && n 5 5 1 16 && n 10 4 1 15 && n 14 4 1 15 && n 18 3 1 7 && n 21 3 1 7 && n 24 4 0 14 && n 28 4 0 14
    && n 32 16 1 65534 && n 48 16 1 65534 && n 64 16 1 65534 && n 80 16 1 65534
    && decide (fld d 96 16 % 32 = 0 ∧ fld d 32 16 ≤ fld d 96 16)

/-- The counts of one word lie in their ranges. -/
def countsFit (p : Program) (w : IWord) : Bool :=
  let n := fun (lo k a z : Nat) => decide (a ≤ fld w lo k ∧ fld w lo k ≤ z)
  if wOp w = 0x01 then n 56 10 1 1022
  else if wOp w = 0x20 then n 76 16 0 65534
  else if wOp w = 0x21 then n 70 16 0 65534 && decide (fld w 46 8 < p.descs.length)
  else if wOp w = 0x11 then n 105 16 1 65534
  else if wOp w = 0x40 then n 52 12 1 4094 && n 108 16 0 65534
  else if wOp w = 0x50 then n 110 12 1 4094 && (fld w 46 4 != 7 || n 103 9 1 256)
  else if wOp w = 0x51 then n 86 12 1 4094
  else if wOp w = 0x70 ∨ wOp w = 0x71 then n 48 4 4 15 || n 91 12 1 4094
  else if wOp w = 0x80 then n 95 16 1 65534
  else if wOp w = 0x81 ∨ wOp w = 0x82 then n 64 18 1 262142
  else if wOp w = 0x90 then (fld w 46 4 != 1 && fld w 46 4 != 2) || (n 75 13 1 4096 && n 88 16 1 65534)
  else true

/-! ### Core-store areas (R88, R141) -/

/-- An area of n bytes at a byte address ends within the core store. -/
def areaFits (a n : Nat) : Bool := decide (n = 0 ∨ a + n ≤ Config.coreStoreBytes)

/-- The rows of plan entry r at a base and a stride in granules, `n` bytes from an offset in each. -/
def rowsFit (base stride : Nat) (r : PlanRow) (off n : Nat) : Bool :=
  areaFits (base * 128) ((planBlock r - 1) * stride * 128 + off + n)

/-- Depth of a word's tile in its reading direction. -/
def wordDepth (a : ArrayWord) : Nat := let d := shapeDims a.shape; if a.op = 0x31 then d.2 else d.1

/-- Bytes of the accumulator area of an array word for n rows: none for FINAL; the indices of DIST lie behind the values
(R141, R144). -/
def accBytes (a : ArrayWord) (count n : Nat) : Nat :=
  let l := fullLanes a.shape (a.op == 0x31)
  if a.final then 0 else if a.op = 0x32 ∧ a.idx = true then (count + n) * l * 4 else n * l * 4

/-- The areas that a group reads and writes, counted at MAXROWS; an output element counts four bytes. -/
def groupAreas (p : Program) (core : Nat) (g : IWord × List IWord) : Bool :=
  let n := groupRows p core g
  let sp := groupSpan g.1
  let row := match groupSeg p core g with | some i => p.plan.getD i {} | none => {}
  let isStream := wOp g.1 == 0x20
  let src := fld g.1 46 2
  let conv := p.descs.getD (fld g.1 46 8) 0
  let lastY := (sp.1 + n - 1) / max 1 (fld conv 80 16) * fld conv 14 4 + (fld conv 5 5 - 1) * fld conv 21 3 - fld conv 28 4
  let last := min lastY (fld conv 64 16 - 1)
  decide (n = 0) ||
    ((isStream || areaFits (fld g.1 86 15 * 128) ((last * fld conv 48 16 + fld conv 48 16 - 1) * fld conv 96 16 + fld conv 32 16))
      && g.2.all (fun w =>
        let a := arrayWord w
        areaFits (a.accAddr * 128) (accBytes a sp.2 n)
          && (!(isStream && src == 0) || rowsFit row.abase row.astr row a.slice (wordDepth a))
          && (!(isStream && src == 1) ||
              areaFits (fld g.1 92 15 * 128) ((sp.1 + n - 1) * fld g.1 107 11 * 128 + a.slice + wordDepth a))
          && (!a.final || rowsFit row.obase row.ostr row (a.outOff * 128) (4 * fullLanes a.shape false))))

/-- Lines of a cluster cache below the segment area (R91). -/
def adapterLines : Nat := Config.cacheLines

/-- Bytes of a format code of CVT. -/
def cvtBytes (c : Nat) : Nat := if c = 2 then 2 else if c = 3 then 4 else 1

/-- The areas of a word that heads no group. -/
def wordAreas (p : Program) (e : Epoch) (w : IWord) : Bool :=
  let row := fun (i : Nat) => p.plan.getD i {}
  if wOp w = 0x40 then
    let r := reduceWord w
    let m := min r.count (row r.seg).maxRows
    let rw := if (row r.seg).rmax ≤ 128 then 128 else 256
    if r.dest = 2 then areaFits (r.addr * 128) (128 * cdiv r.count 128 * rw * 8)
    else if r.dest = 3 then areaFits (r.addr * 128) (rankGroups (row r.seg).rmax * 16 + m * (row r.seg).rmax * 4)
    else true
  else if wOp w = 0x50 then
    let v := vecWord w
    let two := v.op != 6 && v.op != 7
    let full := v.n * 4
    areaFits (v.dst * 128) (if v.op = 8 then v.n / 8 else full) && areaFits (v.sa * 128) full
      && (!two || areaFits (v.sb * 128) full)
      && areaFits (v.sc * 128) (if v.op = 3 then full else if v.op = 9 then v.n / 8 else 0)
  else if wOp w = 0x51 then
    let n := 128 * fld w 86 12
    areaFits (fld w 56 15 * 128) (n * cvtBytes (fld w 50 4)) && areaFits (fld w 71 15 * 128) (n * cvtBytes (fld w 46 4))
  else if wOp w = 0x60 then
    let f := faceWord w
    let t := e.targets.getD f.target {}
    let size := if f.kind = 0 then t.din else if f.kind = 1 then t.dout else if f.kind = 4 then 4 * t.dout else 0
    if f.route then areaFits (f.addr * 128) (((p.plan.map (·.maxRows)).sum - 1) * f.stride * 128 + size)
    else f.kind == 2 || f.kind == 3 || p.plan.all (fun r => rowsFit r.abase r.astr r 0 (if f.split then size / max 1 (maskBits f.cmask 8).length else size))
  else if wOp w = 0x61 then
    let f := faceWord w
    let t := e.targets.getD f.target {}
    let n := max 1 (maskBits f.cmask 8).length
    if f.kind = 9 then f.route || p.plan.all (fun r => rowsFit r.obase r.ostr r 0 (t.dout * 4 / n))
    else f.kind != 0xA || p.plan.all (fun r => rowsFit f.addr f.stride r 0 (t.din * 4 / n))
  else if wOp w = 0x70 ∨ wOp w = 0x71 then
    let x := xWord w
    decide (4 ≤ x.kind) || areaFits x.addr x.len
  else if wOp w = 0x80 then
    areaFits (fld w 65 15 * 128) (fld w 95 16 * tileBytes (bitAt w 64) (row (fld w 48 12)).rmax * contribBytes (fld w 46 2))
  else if wOp w = 0x11 then
    decide (fld w 54 19 + fld w 105 16 * tileLines (tileBytes (bitAt w 89) (row (fld w 73 12)).rmax) ≤ adapterLines)
  else if wOp w = 0x10 then
    decide (fld w 55 19 + (if bitAt w 54 then 1 else 16) ≤ adapterLines)
  else true

/-- The bounds checks of Table ISA-18. -/
def boundsFit (b : List Byte) (e : Epoch) (p : Program) : Bool :=
  sectionsFit b && runsCover 0 0 p.words.length p.issuers && p.plan.all planFits && p.descs.all descFits
    && p.words.all (countsFit p) && p.words.all (wordAreas p e)
    && (List.range 64).all (fun c => (groupsOf (queueWords p c)).all (groupAreas p c))
    && decide ((p.plan.map (·.maxRows)).sum * p.tlpairs ≤ 4194304)

/-! ### Codes and groups (R131, R133, R88, R96, R108, R143) -/

/-- The coded fields of a word hold no reserved value (R131, R134, R138, R140, R143, R149, R150, R154, R155, R188). -/
def codesFit (w : IWord) : Bool :=
  let a := arrayWord w
  if wOp w = 0x20 then
    let m := fld w 118 2
    fld w 46 2 != 3 && (m == 0 || (m == 1 && fld w 46 2 != 1) || (m == 2 && fld w 46 2 == 1))
  else if wOp w = 0x21 then fld w 113 2 == 0 || fld w 113 2 == 2
  else if wOp w = 0x30 then a.half != 3 && a.shape != 3 && a.acc != 3
  else if wOp w = 0x31 then a.half != 3 && a.shape != 3 && a.acc != 3 && !a.final
  else if wOp w = 0x32 then a.half != 3 && a.shape != 3 && decide (a.acc < 2) && !a.final && decide (a.target < 4)
  else if wOp w = 0x10 then fld w 52 2 != 3
  else if wOp w = 0x50 then decide (fld w 46 4 < 10) && (fld w 46 4 != 8 || decide (fld w 95 3 < 6))
  else if wOp w = 0x51 then decide (fld w 46 4 < 4 ∧ fld w 50 4 < 4 ∧ fld w 54 2 < 3)
  else if wOp w = 0x60 then decide (fld w 46 4 < 5)
  else if wOp w = 0x61 then decide (8 ≤ fld w 46 4 ∧ fld w 46 4 < 14)
  else if wOp w = 0x70 ∨ wOp w = 0x71 then decide (fld w 48 4 < 6)
  else if wOp w = 0x80 then fld w 46 2 != 3
  else if wOp w = 0x90 then decide (fld w 46 4 < 3)
  else true

/-- Two array words of a group may stand together: different arrays with disjoint accumulator areas, or one array's two
halves with equal SLICE fields that do not load and hold one register (R133, R88, R96). -/
def wordsMeet (count n : Nat) (v w : IWord) : Bool :=
  let a := arrayWord v
  let b := arrayWord w
  if a.array = b.array then
    ((a.half == 1 && b.half == 2) || (a.half == 2 && b.half == 1)) && a.slice == b.slice
      && (a.reg != b.reg || a.held == b.held)
  else
    let x := accBytes a count n
    let y := accBytes b count n
    decide (x = 0 ∨ y = 0 ∨ a.accAddr * 128 + x ≤ b.accAddr * 128 ∨ b.accAddr * 128 + y ≤ a.accAddr * 128)

/-- Every pair of a list satisfies a test. -/
def pairsAll {α : Type} (f : α → α → Bool) : List α → Bool
  | [] => true
  | x :: r => r.all (f x) && pairsAll f r

/-- The words of a core array queue form groups (R133). DESIGN CHOICE: a MULT word of a half word is refused also where no pair
stands in its group, since a transposed read takes the whole width (R108, log entry 61). -/
def groupsFit (p : Program) (core : Nat) : Bool :=
  let l := queueWords p core
  (match l.head? with | some w => !wIsArray w | none => true) &&
    (groupsOf l).all (fun g =>
      if headsGroup g.1 then
        decide (1 ≤ g.2.length ∧ g.2.length ≤ 8)
          && pairsAll (wordsMeet (groupSpan g.1).2 (groupRows p core g)) g.2
          && g.2.all (fun w => let a := arrayWord w; a.half == 0 || a.op != 0x31)
      else g.2.isEmpty)

/-! ### Presented widths, blocks, windows (R50, R112, R124) -/

/-- The DRAIN word that ends the accumulation of a word: the next one of its array, half and accumulator. -/
def drainOf (later : List ArrayWord) (a : ArrayWord) : Option ArrayWord :=
  (later.find? (fun b => b.array == a.array && b.half == a.half && b.accAddr == a.accAddr && b.op == a.op && !b.final && b.acc != 1))
    |>.filter (fun b => b.acc == 2)

/-- Working columns that a word needs (R112): the lanes of the ranks for a sum that a DRAIN of a normal read ends, every lane of
its width for other normal reads; of a transposed read, whose depth lies on the columns, the whole depth when a DRAIN ends it
(h_raw), and the ranks otherwise (the product with the A tile). -/
def lanesNeeded (rmax : Nat) (later : List ArrayWord) (a : ArrayWord) : Nat :=
  let full := (shapeDims a.shape).2
  let wide := if a.half = 0 then full else full / 2
  let drain := if a.acc = 2 then some a else if a.final then none else drainOf later a
  match drain with
  | some b => if a.op = 0x31 then full else min wide (rmax - 32 * b.rgrp)
  | none => if a.op = 0x31 then min full rmax else wide

/-- The columns that an array word needs lie in the presented width of its array, those of half 1 behind those of half 0, and the
array is not disabled (R108, R112). -/
def widthFits (p : Program) (core : Nat) (rmax : Nat) (later : List ArrayWord) (w : IWord) : Bool :=
  let a := arrayWord w
  let code := fld p.present (2 * (4 * core + a.array)) 2
  let full := (shapeDims a.shape).2
  let need := (if a.half = 2 then full / 2 else 0) + lanesNeeded rmax later a
  code == 0 || (code == 1 && decide (need ≤ full - full / 32))

/-- The words of an array, half and accumulator since its last START, newest first, when a DRAIN ends the chain. -/
def chainOf (core : List (IWord × List IWord)) (k : Nat) (a : ArrayWord) : List ArrayWord :=
  let before := ((core.take k).flatMap (fun g => g.2.map arrayWord)).reverse.filter (fun b =>
    b.array == a.array && b.half == a.half && b.accAddr == a.accAddr && b.op == a.op && !b.final)
  a :: (before.takeWhile (fun b => b.acc == 1)) ++ ((before.dropWhile (fun b => b.acc == 1)).take 1).filter (fun b => b.acc == 0)

/-- A word of a chain may have in its register the tile that its place in the block asks for (R50, R145): some TFILL of the entry it
loads from, or for a held tile of the array, takes that tile of its target from a region, or takes lines unpacked. -/
def tileStaged (p : Program) (e : Epoch) (core : Nat) (a : ArrayWord) : Bool :=
  let t := e.targets.getD a.target {}
  let back := a.op == 0x31
  let k := a.slice / wordDepth a
  let tile := if back then (if a.shape = 0 then a.rgrp * (t.dout / 32) + k else k) else a.rgrp * (t.din / wordDepth a) + k
  (queueWords p (128 + core)).any (fun w => wOp w == 0x10 && fld w 46 2 == a.array && (a.held || fld w 48 3 == a.stage)
    && (!bitAt w 54 || (fld w 86 4 == a.target && bitAt w 90 == back && fld w 91 15 == tile)))

/-- The tiles of a chain that ends in DRAIN fill one aligned block of 2^RBLK tiles, or the shorter last one; the chain is of one
target and rank group, BLK numbers the block, and the tiles are staged (R50, R142). -/
def blockFits (p : Program) (e : Epoch) (core : Nat) (a : ArrayWord) (chain : List ArrayWord) : Bool :=
  let t := e.targets.getD a.target {}
  let unit := wordDepth a
  let total := (if a.op = 0x31 then t.dout else t.din) / unit
  let size := 2 ^ t.rblk
  let first := (chain.getLast?.map (·.slice)).getD 0 / unit
  first % size == 0 && decide (first < total) && a.blk == first / size
    && chain.all (fun b => b.target == a.target && b.rgrp == a.rgrp && b.shape == a.shape && tileStaged p e core b)
    && chain.reverse.map (·.slice) == (List.range (min size (total - first))).map (fun j => (first + j) * unit)

/-- Widths, blocks and windows of a core array queue. -/
def coreFits (p : Program) (e : Epoch) (core : Nat) : Bool :=
  let gs := groupsOf (queueWords p core)
  gs.zipIdx.all (fun x =>
    let g := x.1
    let seg := groupSeg p core g
    let row := match seg with | some i => p.plan.getD i {} | none => {}
    let sp := groupSpan g.1
    let c := core / 8
    let isWin := decide (wOp g.1 = 0x20 ∧ fld g.1 46 2 = 0) || (wOp g.1 == 0x21 && seg.isSome)
    g.2.all (widthFits p core row.rmax ((gs.drop (x.2 + 1)).flatMap (fun h => h.2.map arrayWord)))
      && g.2.all (fun w => let a := arrayWord w; a.acc != 2 || blockFits p e core a (chainOf gs x.2 a))
      && (!(headsGroup g.1 && isWin) || sp.2 == 0 ||
          decide (row.clFirst ≤ c ∧ c < row.clFirst + row.cln ∧ clusterFirst row c ≤ sp.1
            ∧ sp.1 + sp.2 ≤ clusterFirst row c + planBlock row)))

/-! ### Tokens and times (R20, R120, R132) -/

/-- Words that set a token. -/
def setters (p : Program) (t : Nat) : List (Nat × Nat) := wordsWhere p (fun _ w => !wIsArray w && wOp w != 2 && wSet w == t)

/-- SET and NEED fields, MARCH and cycles (Table ISA-18). -/
def tokensFit (p : Program) : Bool :=
  let issuing := p.words.filter (fun w => !wIsArray w)
  issuing.all (fun w => wSet w == 0x3FF || decide (wSet w < p.tokens))
    && issuing.all (fun w => wOp w != 1 || decide (fld w 56 10 ≤ (setters p (fld w 46 10)).length))
    && (p.words.filter (fun w => wOp w == 2)).length == 1
    && (match (queueWords p 215).getLast? with | some w => wOp w == 2 | none => false)
    && (leftWords p (fun _ _ => false) none).isEmpty

/-- Rows that a step of a program may have (R124). -/
def planRows (p : Program) : Nat := (p.plan.map (·.maxRows)).sum

/-- Positions of a context tile, by rank (R166). -/
def passTok (r : Nat) : Nat := if r ≤ 8 then 128 else if r ≤ 16 then 64 else 32

/-- Bound of a pass in cycles at PGMAX and COUNT, with every plan entry a segment of at most COUNT rows, COUNT requests of one row,
and entries of two bytes (R191). -/
def passCycles (p : Program) (e : Epoch) (w : IWord) : Nat :=
  let d := e.atts.getD (fld w 72 3) {}
  let pages := fld w 75 13
  let count := fld w 88 16
  let hdim := 64 * 2 ^ d.hdim
  let n := max 1 (32 * (maskBits (fld w 64 8) 8).length)
  let r := p.plan.foldl (fun a x => max a x.rmax) 0
  let load := cdiv ((p.plan.map (fun x =>
    d.kvh * (hdim / passTok x.rmax * cdiv x.rmax 32) * (1 + min count x.maxRows * d.qpk))).sum) n
  let work := cdiv (count * (cdiv (256 * pages) (passTok r) * cdiv r 32 * (1 + d.kvh * d.qpk))) n
  let fetch := cdiv (count * 256 * pages * r * 2 + (p.plan.map (fun x => x.rmax * d.kvh * hdim)).sum) 4096
  48 + load + max work fetch + log2Up pages

/-- Bytes per cycle of a face (Table ENGINE-2). -/
def faceRate : Nat := 1024

/-- Cycles of a face word: its block at the face rate, one row for each row that the plan allows, deltas at two bytes an element;
a FACEOUT TOPK finishes its logits first (R56, R296). Blocks whose length depends on the context count none (log entry 61). -/
def faceCycles (s : State) (e : Epoch) (p : Program) (w : IWord) : Nat :=
  let f := faceWord w
  let t := e.targets.getD f.target {}
  let n := planRows p
  let block := fun (bytes : Nat) => cdiv (n * bytes) faceRate
  if f.kind = 0 then block t.din
  else if f.kind = 1 then block (2 * t.dout)
  else if f.kind = 4 ∨ f.kind = 9 then block (2 * t.dout)
  else if f.kind = 0xA then block (2 * t.din)
  else if f.kind = 0xD then
    let cores := max 1 ((maskBits f.clmask 8).length * (maskBits f.cmask 8).length)
    let most := s.parts.toList.foldl (fun a q => max a q.force.topkMax) 0
    32 + cdiv (n * (3 * cdiv t.dout 128 + cdiv 4112 8 + 2 * most)) cores
  else 0

/-- Cycles of a word from issue to completion, as far as the spec counts them, at MAXROWS (R56, R94, R102, R113, R115, R191, R222,
R296; log entry 61). -/
def wordCycles (s : State) (e : Epoch) (p : Program) (q k : Nat) : Nat :=
  let w := wordIn p (q, k)
  let row := fun (i : Nat) => p.plan.getD i {}
  if headsGroup w then
    match (groupsOf ((queueWords p q).drop k)).head? with
    | some g => b2n (g.2.any (fun x => !(arrayWord x).held)) + groupRows p q g + 6
    | none => 0
  else if wOp w = 0x40 then
    let r := reduceWord w
    let els := min r.count (row r.seg).maxRows * (row r.seg).rmax
    (if r.dest = 0 then 7 else if r.dest = 2 then 2 else 1) + log2Up r.nblk + (cdiv els 128 - 1)
  else if wOp w = 0x50 then 3 + fld w 110 12
  else if wOp w = 0x51 then 3 + fld w 86 12
  else if wOp w = 0x10 then cdiv (if bitAt w 54 then tileBytes (bitAt w 90) (row (fld w 74 12)).rmax else 1024) 512
  else if wOp w = 0x90 then (if fld w 46 4 = 0 then 0 else passCycles p e w)
  else if wOp w = 0x60 ∨ wOp w = 0x61 then faceCycles s e p w
  else if wOp w = 0x80 then cdiv (35 * cdiv (fld w 95 16 * tileBytes (bitAt w 64) (row (fld w 48 12)).rmax) 32) 22
  else 0

/-- Island of a queue: 0 array, 1 link, 2 update, 3 control (Table ENGINE-1). -/
def queueIsland (q : Nat) : Nat := if q < 205 then 0 else if q < 211 then 1 else if q < 215 then 2 else 3

/-- Lanes of the port that a queue drives, in the code of LP_CFG: 0 eight, 1 four, 2 two (Table PLANE-2). -/
def queueWidth (s : State) (q : Nat) : Nat :=
  if 205 ≤ q ∧ q < 211 then s.ports[(Fin.ofNat 6 (q - 205) : Fin 6)].width else 0

/-- Array-clock cycles of a crossing from the island of a queue into the array island, and back out of it (Table ENGINE-3). -/
def crossIn (s : State) (q : Nat) : Nat :=
  let i := queueIsland q
  if i = 1 then 6 + (if queueWidth s q = 0 then 0 else if queueWidth s q = 1 then 2 else 6)
  else if i = 2 then 5 else if i = 3 then 5 else 0

/-- Cycles from the array island into the island of a queue. -/
def crossOut (s : State) (q : Nat) : Nat :=
  let i := queueIsland q
  if i = 1 then 4 + (if queueWidth s q = 0 then 0 else if queueWidth s q = 1 then 2 else 6)
  else if i = 2 then 6 else if i = 3 then 6 else 0

/-- Cycles of a crossing between the islands of two queues; one through the array island counts both. Ports of one link island
cross nothing. -/
def crossing (s : State) (a b : Nat) : Nat := if queueIsland a = queueIsland b then 0 else crossIn s a + crossOut s b

/-- The WAIT words that stand directly before position k of a queue. -/
def waitsBefore (l : List IWord) (k : Nat) : List IWord := (l.take k).reverse.takeWhile (fun w => wOp w == 1)

/-- A word that follows a WAIT counts its setters' durations and crossings, those of a link at the width in force (R20, R329). -/
def timesFit (s : State) (e : Epoch) (p : Program) : Bool :=
  p.issuers.all (fun i =>
    let l := queueWords p i.queue
    l.zipIdx.all (fun x =>
      wIsArray x.1 || wOp x.1 == 1 || wNb x.1 == 0 ||
        (waitsBefore l x.2).all (fun v => (setters p (fld v 46 10)).all (fun a =>
          decide (wNb (wordIn p a) + wordCycles s e p a.1 a.2 + crossing s a.1 i.queue ≤ wNb x.1)))))

/-! ### Targets, faces and exchanges (R30, R52, R152, R184, R188, R189, R214, R296) -/

/-- The target that a word names, when it names one. -/
def namedTarget (w : IWord) : Option Nat :=
  if wOp w = 0x30 ∨ wOp w = 0x31 then some (fld w 69 4)
  else if wOp w = 0x20 then (if fld w 118 2 = 1 then some (fld w 120 4) else none)
  else if wOp w = 0x11 then some (fld w 85 4)
  else if wOp w = 0x10 then some (fld w 86 4)
  else if wOp w = 0x40 then some (fld w 64 4)
  else if wOp w = 0x60 then some (fld w 50 4)
  else if wOp w = 0x61 then (if fld w 46 4 = 8 then none else some (fld w 50 4))
  else if wOp w = 0x80 then some (fld w 60 4)
  else if wOp w = 0x90 then (if fld w 46 4 = 0 then some (fld w 60 4) else none)
  else none

/-- A target of TYPE KEY or VALUE: it has no delta (R52, R163). -/
def kvTarget (t : Target) : Bool := t.typ == 1 || t.typ == 2

/-- Targets, faces, output pieces and peers of one word. A word that would form or return the delta of a KEY or VALUE target is
refused (R52, R163, log entry 61). -/
def targetFitsWord (s : State) (e : Epoch) (q : Nat) (w : IWord) : Bool :=
  let t := fun (i : Nat) => e.targets.getD i {}
  (match namedTarget w with | some i => (t i).en | none => true)
    && (!(wOp w == 0x60 || (wOp w == 0x61 && fld w 46 4 != 8)) || nfld (t (fld w 50 4)).faces (q % 2) 1 == 1)
    && (!(wOp w == 0x61 && fld w 46 4 == 9) || (t (fld w 50 4)).dout % (maskBits (fld w 72 8) 8).length == 0)
    && (!(wOp w == 0x70) || decide ((dorHop false s.plane.coord (xWord w).peer).map (·.val) = some (q - 205)))
    && (!((wOp w == 0x61 && fld w 46 4 == 9) || (wOp w == 0x30 && (arrayWord w).final)) || !kvTarget (t ((namedTarget w).getD 0)))
    && (!(wOp w == 0x90 && fld w 46 4 == 0) || (t (fld w 60 4)).typ == 1 || (t (fld w 60 4)).typ == 2)

/-- A HEAD target that FINAL words compute is returned by a FACEOUT DELTA (R52). -/
def headsReturned (p : Program) (e : Epoch) : Bool :=
  p.words.all (fun w =>
    let a := arrayWord w
    !(a.op == 0x30 && a.final && (e.targets.getD a.target {}).typ == 3) ||
      p.words.any (fun v => wOp v == 0x61 && (faceWord v).kind == 9 && (faceWord v).target == a.target))

/-- Some word that satisfies f completes before word b issues. -/
def someBefore (p : Program) (f : Nat → IWord → Bool) (b : Nat × Nat) : Bool := (wordsWhere p f).any (fun a => afterDone p a b)

/-- There are words that satisfy f, and all of them complete before word b issues. -/
def allBefore (p : Program) (f : Nat → IWord → Bool) (b : Nat × Nat) : Bool :=
  let l := wordsWhere p f
  !l.isEmpty && l.all (fun a => afterDone p a b)

/-- The exchanges of a layer run in the order of Table RCC-9, on every face and only for the targets that an enabled descriptor has
(R184). -/
def exchangesFit (p : Program) (e : Epoch) : Bool :=
  let att := fun (key : Bool) (t : Nat) => e.atts.toList.findIdx? (fun d => d.en && (if key then d.ken && d.ktgt == t else d.ven && d.vtgt == t))
  let isUw := fun (t l : Nat) (_ : Nat) (w : IWord) => wOp w == 0x90 && fld w 46 4 == 0 && fld w 60 4 == t && fld w 50 10 == l
  let isFace := fun (k t l : Nat) (_ : Nat) (w : IWord) =>
    (wOp w == 0x60 || wOp w == 0x61) && (faceWord w).kind == k && (faceWord w).target == t && (faceWord w).layer == l
  let isPass := fun (sub : Nat) (d : Option Nat) (l : Nat) (_ : Nat) (w : IWord) =>
    wOp w == 0x90 && fld w 46 4 == sub && d == some (fld w 72 3) && fld w 50 10 == l
  p.issuers.all (fun i => (queueWords p i.queue).zipIdx.all (fun x =>
    let w := x.1
    let b := (i.queue, x.2)
    let layer := fld w 50 10
    let d := e.atts.getD (fld w 72 3) {}
    let f := faceWord w
    if wOp w = 0x90 ∧ fld w 46 4 = 1 then
      d.en && d.ken && allBefore p (isUw d.ktgt layer) b && allBefore p (isFace 2 d.ktgt layer) b
    else if wOp w = 0x90 ∧ fld w 46 4 = 2 then
      d.en && d.ven && allBefore p (isUw d.vtgt layer) b && allBefore p (isFace 3 d.vtgt layer) b
    else if wOp w = 0x61 ∧ f.kind = 0xB then allBefore p (isPass 1 (att true f.target) f.layer) b
    else if wOp w = 0x61 ∧ f.kind = 0xC then allBefore p (isPass 2 (att false f.target) f.layer) b
    else true))

/-- The core queues that a word borrows: those of the clusters of a pass, of the named cores of a FACEOUT TOPK. -/
def borrowedCores (w : IWord) : List Nat :=
  if wOp w = 0x90 ∧ fld w 46 4 ≠ 0 then (maskBits (fld w 64 8) 8).flatMap (fun c => (List.range 8).map (fun j => 8 * c + j))
  else if wOp w = 0x61 ∧ (faceWord w).kind = 0xD then
    (maskBits (faceWord w).clmask 8).flatMap (fun c => (maskBits (faceWord w).cmask 8).map (fun j => 8 * c + j))
  else []

/-- After word a of a core array queue, word k loads or holds only what was staged or loaded after a (R189). -/
def freshTile (p : Program) (core : Nat) (a : Nat × Nat) (k : Nat) : Bool :=
  let l := queueWords p core
  let head := k - 1 - ((l.take k).reverse.takeWhile wIsArray).length
  let x := arrayWord (l.getD k 0)
  if x.held then
    (List.range k).any (fun j =>
      let y := arrayWord (l.getD j 0)
      let h := j - 1 - ((l.take j).reverse.takeWhile wIsArray).length
      wIsArray (l.getD j 0) && !y.held && y.array == x.array && y.reg == x.reg && y.half == x.half && afterDone p a (core, h))
  else decide (head = k) ||
    (wordsWhere p (fun q w => q == 128 + core && wOp w == 0x10 && fld w 46 2 == x.array && fld w 48 3 == x.stage)).any (fun b => afterDone p a b)

/-- Words of borrowed cores are ordered before or after the word that borrows them, two borrowers of a core are ordered, and
no later word uses a tile from before (R189, R296). -/
def borrowsFit (p : Program) : Bool :=
  let passes := wordsWhere p (fun _ w => !(borrowedCores w).isEmpty)
  passes.all (fun a =>
    let cores := borrowedCores (wordIn p a)
    passes.all (fun b => a == b || !(cores.any (fun c => (borrowedCores (wordIn p b)).contains c)) || afterDone p a b || afterDone p b a)
      && cores.all (fun c => [c, 64 + c, 128 + c].all (fun q =>
        (queueWords p q).zipIdx.all (fun x =>
          let w := x.1
          if wIsArray w then
            let head := x.2 - 1 - (((queueWords p q).take x.2).reverse.takeWhile wIsArray).length
            !(afterDone p a (q, head)) || freshTile p c a x.2
          else wOp w == 0 || wOp w == 1 || afterDone p a (q, x.2) || afterIssue p (q, x.2) a))))

/-- The neighbours of this chip in its slice box, with their ports. -/
def boxPorts (s : State) : List (Nat × Coord) :=
  match s.plane.plan with
  | some pl => (List.finRange 6).filterMap (fun p => (boxNeigh pl s.plane.coord p).map (fun c => (p.val, c)))
  | none => []

/-- The AGREE words to or from the neighbour on a port: XSEND 0x70, XRECV 0x71. -/
def agreeWords (p : Program) (op : Nat) (n : Nat × Coord) : List (Nat × Nat) :=
  wordsWhere p (fun i w => i == 205 + n.1 && wOp w == op && (xWord w).kind == 4 && decide ((xWord w).peer = n.2))

/-- The sweep of one axis at this chip (R214): a word each way for each neighbour of the axis, every send after `earlier`; what is
passed on along the line to one neighbour has come from the other, out and back. -/
def axisSweeps (p : Program) (ns : List (Nat × Coord)) (earlier : List (Nat × Nat)) : Bool :=
  ns.all (fun n =>
    let sends := agreeWords p 0x70 n
    !sends.isEmpty && !(agreeWords p 0x71 n).isEmpty
      && sends.all (fun b => earlier.all (fun a => afterDone p a b)
        && ns.all (fun m => decide (m.1 = n.1) || (agreeWords p 0x71 m).all (fun a => afterDone p a b))))

/-- A program that trains sweeps the summary along X, then Y, then Z after its last contribution, and orders every MOPT after the
sweep (R214). Its plan includes GRAD rows when it takes gradients, contributes or steps a tensor. -/
def sweepFits (s : State) (p : Program) : Bool :=
  let trains := p.words.any (fun w => wOp w == 0x80 || wOp w == 0x81 || (wOp w == 0x60 && (faceWord w).kind == 1))
  let last := wordsWhere p (fun _ w => wOp w == 0x80 || (wOp w == 0x71 && (xWord w).kind == 3))
  let axis := fun (k : Nat) => (boxPorts s).filter (fun n => n.1 / 2 == k)
  let recvs := fun (k : Nat) => (axis k).flatMap (agreeWords p 0x71)
  !trains || (axisSweeps p (axis 0) last && axisSweeps p (axis 1) (last ++ recvs 0) && axisSweeps p (axis 2) (last ++ recvs 0 ++ recvs 1)
    && (wordsWhere p (fun _ w => wOp w == 0x81)).all (fun b => (recvs 0 ++ recvs 1 ++ recvs 2).all (fun a => afterDone p a b)))

/-- A FACEOUT TOPK matches an earlier FACEIN LOGIT of its face with ROUTE 1 (R296). -/
def logitsFit (p : Program) : Bool :=
  (wordsWhere p (fun _ w => wOp w == 0x61 && (faceWord w).kind == 0xD)).all (fun b =>
    let f := faceWord (wordIn p b)
    someBefore p (fun q w => q + 2 == b.1 && wOp w == 0x60 && (faceWord w).kind == 4 && (faceWord w).route
      && (faceWord w).addr == f.addr && (faceWord w).target == f.target) b)

/-- The schedule checks of Table ISA-18. -/
def scheduleFits (s : State) (e : Epoch) (p : Program) : Bool :=
  (allWords p).all (fun x => queueTakes x.1 (wOp x.2) && codesFit x.2 && targetFitsWord s e x.1 x.2)
    && (List.range 64).all (groupsFit p) && (List.range 64).all (coreFits p e)
    && (p.present == presentField s || p.present == presentFieldNext s)
    && decide ((p.words.filter (fun w => wOp w == 0x80)).length ≤ 2 ^ 32)
    && tokensFit p && timesFit s e p && headsReturned p e && exchangesFit p e && borrowsFit p && sweepFits s p && logitsFit p

/-- The epoch that a container belongs to: in force or pending. -/
def programEpoch (s : State) (num : BitVec 64) : Option Epoch :=
  (s.epoch.toList ++ (s.epochPend.map Prod.fst).toList).find? (fun e => e.num == num)

/-- The status of a load (Table ISA-18, in its order; Table CTRL-4): 0 OK. -/
def loadStatus (s : State) (digest b : List Byte) : Nat :=
  if formatFits b = false then 5
  else if sha384 b ≠ digest then 4
  else
    let p := containerOf b
    match programEpoch s p.epoch with
    | none => 6
    | some e => if boundsFit b e p = false then 2 else if scheduleFits s e p = false then 8 else 0

end Sys2Proof.Machine
end

