-- ==== Sys2Proof/Machine/Manage.lean ====
section
/-!
DEFINITION. The management commands (R405 to R413, R454): the request wrapper with its retries and PENDING answers, and every
command of Table CTRL-5.
-/

namespace Sys2Proof.Machine

/-! ### Requests and answers (R406, R407, Table CTRL-9) -/

/-- Boot ROM commands are answered: phases 0x5 to 0x8, no Autumn wipe running. -/
def cmdOpen (s : State) : Bool := decide (5 ≤ s.cc.bootph ∧ s.cc.bootph ≤ 8) && !s.sec.wiping

/-- The Autumn wipe runs: identity reads only (R390). -/
def wipeRuns (s : State) : Bool := s.sec.wiping && decide (4 ≤ s.cc.bootph ∧ s.cc.bootph ≤ 8)

/-- GET_IDENT is answered from phase 0x2 on. -/
def identOpen (s : State) : Bool := decide (2 ≤ s.cc.bootph)

/-- GET_STATUS is answered by an image or the boot ROM, and in BOOTFAIL and HALTED (R415). -/
def statusOpen (s : State) : Bool := cmdOpen s || decide (9 ≤ s.cc.bootph)

/-- A management request: its SEQ equals the last one's and is answered again, or it is carried out. `pend` tells a command
that is answered PENDING: while another is incomplete it is answered BUSY (R407). `run` gives status, body and state. -/
def mgmt (cmd : Nat) (seq : BitVec 16) (avail pend : Bool) (run : State → Nat × List Byte × State) (s : State) : State :=
  if avail = false then s else
  let s := raiseInt 1 0 s
  if seq = 0 then send (.mgmt { cmd, seq, status := 2 }) s
  else if seq = s.cc.lastSeq then send (.mgmt s.cc.lastRsp) s
  else
    let r := if pend && s.cc.pendCmd.isSome then (9, [], s) else run s
    let rsp : MgmtRsp := { cmd, seq, status := r.1, body := r.2.1 }
    let t := r.2.2
    send (.mgmt rsp) { t with cc := { t.cc with lastSeq := seq, lastRsp := rsp } }

/-- The answer of a command without a body: the first status that is not 0 of the checks, in their order, or its effect. -/
def answer (checks : List (Bool × Nat)) (act : State → State) (s : State) : Nat × List Byte × State :=
  match checks.find? (fun c => c.1) with
  | some c => (c.2, [], s)
  | none => (0, [], act s)

/-- The answer of a command answered PENDING: its work is noted (R407). -/
def answerPending (cmd : Nat) (seq : BitVec 16) (checks : List (Bool × Nat)) (w : PendWork) (act : State → State) (s : State) :
    Nat × List Byte × State :=
  match checks.find? (fun c => c.1) with
  | some c => (c.2, [], s)
  | none => (0xB, [], act { s with cc := { s.cc with pendCmd := some (cmd, seq, w), pendLast := (cmd, seq, 0xB) } })

/-- A command that READY firmware alone carries out, in OPERATIONAL: its STATE check. -/
def notOperational (s : State) : Bool := decide (s.cc.bootph ≠ 8) || s.nv.lc != .operational

/-- A word in four bytes. -/
def wordBytes (v : Nat) : List Byte := leBytes 4 v

/-! ### Identity, status and registers -/

/-- GET_IDENT: the words ID_STEP to ID_ARRN7 of the identity page (log entry 58). -/
def identBody (s : State) : List Byte := (List.range 32).flatMap (fun k => wordBytes (regWord s {} 0 0 (0x20 + 4 * k)))

/-- GET_STATUS: CC_BOOT, SEC_LC, PL_STATE; SEQ, CMD and STATUS of the last PENDING command (log entry 58). -/
def statusBody (s : State) : List Byte :=
  wordBytes (ccWord s 0x20) ++ wordBytes (secWord s {} 0 0x20) ++ wordBytes (plWord s {} 0x38)
    ++ leBytes 2 s.cc.pendLast.2.1.toNat ++ leBytes 1 s.cc.pendLast.1 ++ leBytes 1 s.cc.pendLast.2.2

/-- The owner of a partition has set OPCNT. -/
def opCnt (s : State) (p : Nat) : Bool := (s.parts.getD p {}).policy.getLsbD 0 && decide (p < 16)

/-- A word that the management path may read (Table REGS-1, last column; log entry 59). -/
def mgmtReads (s : State) (page off ch : Nat) : Bool :=
  if page = 0x0E then false
  else if off < 0x20 then true
  else if page = 0x0A ∨ page = 0x0B then (if 0x80 ≤ off then opCnt s ch else true)
  else if page = 0x0C then (match ringOwner s ch with | some p => opCnt s p.val | none => false)
  else if page = 0x0D then !(off == 0xA0 || off == 0xA4 || off == 0xA8)
  else if page = 0x0F then decide (0x80 ≤ off)
  else if 16 ≤ page then
    let p := page - 16
    if off ≤ 0x38 ∨ off = 0x74 ∨ off = 0x78 then true
    else if off = 0x70 ∨ (0x200 ≤ off ∧ off < 0x240) then opCnt s p
    else if 0x1C0 ≤ off ∧ off < 0x1D8 then (s.parts.getD p {}).policy.getLsbD 1
    else false
  else true

/-- REG_READ (R454). -/
def regReadRun (page off count ch : Nat) (s : State) : Nat × List Byte × State :=
  let offs := (List.range count).map (fun k => off + 4 * k)
  if 0x1F < page ∨ off % 4 ≠ 0 ∨ count < 1 ∨ 64 < count ∨ 0x1000 < off + 4 * count ∨ channels page ≤ ch then (2, [], s)
  else if offs.all (fun o => mgmtReads s page o ch) = false then (3, [], s)
  else (0, offs.flatMap (fun o => wordBytes (regVal s {} page ch o).toNat), s)

/-- RWL_WRITE (R454): AUTH where no RWL field stands. -/
def rwlWriteRun (page off : Nat) (v : Word) (s : State) : Nat × List Byte × State :=
  answer [(decide (0x1F < page ∨ off % 4 ≠ 0 ∨ 0x1000 ≤ off), 2),
    (!((page == 4 && off == 0x3C) || (page == 6 && off == 0x20)), 3), (!rwlOpen s, 1)] (setRwl page v) s

/-! ### The firmware image (R402 to R404) -/

/-- Bytes of the image slot (Table CTRL-1). -/
def imageSlotBytes : Nat := 2097408

/-- FW_END is being decided. -/
def fwVerifying (s : State) : Bool := match s.cc.pendCmd with | some (_, _, .fwEnd) => true | _ => false

/-- FW_BEGIN: the slot emptied, staging begins (R404). An activation that named the slot's image goes with it. -/
def fwBeginRun (len : Nat) (digest : List Byte) (s : State) : Nat × List Byte × State :=
  answer [(decide (digest.length ≠ 48 ∨ len = 0 ∨ imageSlotBytes < len), 2), (s.nv.lc == .retired || fwVerifying s, 1)]
    (fun s => { s with cc := { emptySlot s.cc with slotSt := .staging, slotLen := len, slotDigest := digest, activateAt := none } }) s

/-- FW_DATA: bytes placed; BOUNDS beyond the length. -/
def fwDataRun (off : Nat) (b : List Byte) (s : State) : Nat × List Byte × State :=
  answer [(decide (b.length < 1 ∨ 1024 < b.length), 2), (s.cc.slotSt == .staging && decide (s.cc.slotLen < off + b.length), 2),
      (s.nv.lc == .retired || s.cc.slotSt != .staging || fwVerifying s, 1)]
    (fun s => { s with cc := { s.cc with slotBytes := memWrite s.cc.slotBytes off b } }) s

/-- FW_END: verification begins; in the boot ROM phase 0x6. -/
def fwEndRun (seq : BitVec 16) (s : State) : Nat × List Byte × State :=
  answerPending 0x12 seq [(s.nv.lc == .retired || s.cc.slotSt != .staging, 1)] .fwEnd
    (fun s => { s with cc := { s.cc with bootph := if s.cc.bootph = 5 then 6 else s.cc.bootph } }) s

/-- The chip is in no slice, DRAINED or fenced (R403). -/
def outOfSlice (s : State) : Bool := s.plane.plan.isNone || s.plane.st == .drained || s.mc.fenced

/-- FW_ACTIVATE (R403). -/
def fwActivateRun (epoch : BitVec 64) (s : State) : Nat × List Byte × State :=
  match s.cc.slotImage with
  | none => (1, [], s)
  | some f =>
    if s.nv.lc = .retired ∨ s.cc.bootph ≠ 8 then (1, [], s)
    else if epoch = 0 then
      if outOfSlice s then
        let t := activate f s
        (0, [], { t with cc := { t.cc with ckptStep := none, ckptOld := none, ckptCopy := none } })
      else (1, [], s)
    else
      let pends := match s.epochPend with | some (e, _) => decide (e.num = epoch) | none => false
      let same := match s.cc.image with | some g => g.abi == f.abi | none => false
      if s.plane.plan.isSome ∧ pends = true ∧ same = true then (0, [], { s with cc := { s.cc with activateAt := some epoch } })
      else (1, [], s)

/-! ### Life-cycle transitions (R388) -/

/-- The chip may leave OPERATIONAL: in no slice, DRAINED, fenced or cut. -/
def mayWipe (s : State) : Bool := s.plane.plan.isNone || s.plane.st == .drained || fencedOrCut s

/-- A transition command: from one of a list of states to another. The Autumn wipe begins; the new state is committed when it
ends. -/
def transitionRun (cmd : Nat) (seq : BitVec 16) (src : List LifeCycle) (dest : LifeCycle) (s : State) : Nat × List Byte × State :=
  answerPending cmd seq [(!src.contains s.nv.lc || (s.nv.lc == .operational && !mayWipe s), 1)] (.transition dest)
    (fun s => autumnWipe true { s with sec := { s.sec with pendLc := some dest } }) s

/-! ### Slice admission (R356, R357, R408, R409) -/

/-- COLD_GRANT. -/
def coldGrantRun (base : BitVec 64) (gib : Nat) (s : State) : Nat × List Byte × State :=
  answer [(decide (gib < 1 ∨ 16384 < gib), 2), (notOperational s || !(s.parts.toList.all (fun q => q.st == .idle)), 1)]
    (fun s => { s with plane := { s.plane with grant := some (base, gib) } }) s

/-- A range of the staging unit, cold-tier unit 0 of the grant, is out of bounds; an all-ones length is (R10). -/
def stagingBad (cold len : BitVec 64) : Bool := len == BitVec.allOnes 64 || decide (Config.coldUnit < cold.toNat + len.toNat)

/-- SLICE_ADMIT: the plan is to be read. A chip that is DRAINED, fenced or cut is re-admitted (R322, R367, R375). -/
def sliceAdmitRun (seq : BitVec 16) (cold len : BitVec 64) (digest : List Byte) (s : State) : Nat × List Byte × State :=
  answerPending 0x31 seq [(stagingBad cold len, 2), (notOperational s || !mayWipe s || s.plane.grant.isNone, 1)]
    (.sliceAdmit len.toNat digest) id s

/-- The plan that bytes hold (Table CTRL-6). -/
def planOf (b : List Byte) : Plan :=
  let d := leAt b 0x10 4
  let dim := (nfld d 0 6, nfld d 6 6, nfld d 12 6)
  { slice := BitVec.ofNat 32 (leAt b 8 4), org := BitVec.ofNat 18 (leAt b 0xC 4), dim, syncNamed := nfld (leAt b 0x14 4) 0 1 == 1,
    epoch := BitVec.ofNat 64 (leAt b 0x18 8), startStep := BitVec.ofNat 64 (leAt b 0x20 8), startTick := BitVec.ofNat 64 (leAt b 0x28 8),
    admitter := BitVec.ofNat 18 (leAt b 0x30 4), syncm := BitVec.ofNat 18 (leAt b 0x34 4), guard := leAt b 0x38 2, slowner := slice b 0x40 48,
    ents := (List.range (dim.1 * dim.2.1 * dim.2.2)).map (fun i =>
      { iddig := slice b (256 + 64 * i) 48, widths := BitVec.ofNat 16 (leAt b (256 + 64 * i + 0x30) 2) })
    digest := sha384 b }

/-- The two ends of every link of the plan have one width, which is no reserved code. -/
def planWidths (pl : Plan) : Bool :=
  (boxChips pl).all (fun c => (List.finRange 6).all (fun p =>
    match planAt pl c, (neighCoord c p).bind (planAt pl) with
    | some a, some b => entWidth a p != 3 && entWidth a p == entWidth b (oppPort p)
    | _, _ => true))

/-- Positions whose entry names this chip. -/
def ownPlaces (s : State) (pl : Plan) : List Coord := (boxChips pl).filter (fun c =>
  match planAt pl c with | some e => decide (e.iddig = s.nv.iddig) | none => false)

/-- BOUNDS cases of R409, and the ranges of SLICE and of the guard (R10). -/
def planBounds (s : State) (b : List Byte) (pl : Plan) : Bool :=
  decide (1 ≤ pl.dim.1 ∧ pl.dim.1 ≤ 32 ∧ 1 ≤ pl.dim.2.1 ∧ pl.dim.2.1 ≤ 32 ∧ 1 ≤ pl.dim.2.2 ∧ pl.dim.2.2 ≤ 16)
    && b.length == 256 + 64 * (pl.dim.1 * pl.dim.2.1 * pl.dim.2.2)
    && decide (1 ≤ pl.slice.toNat ∧ pl.slice.toNat ≤ 0xFFFFFFFE ∧ 1 ≤ pl.guard ∧ pl.guard ≤ 65534)
    && planWidths pl && (planAt pl pl.admitter).isSome && (!pl.syncNamed || (planAt pl pl.syncm).isSome)
    && pl.slowner.any (· != 0) && (ownPlaces s pl).length == 1

/-- The box stays within 32 × 32 × 16 (R357). -/
def planReach (pl : Plan) : Bool :=
  decide (cx pl.org + pl.dim.1 ≤ 32 ∧ cy pl.org + pl.dim.2.1 ≤ 32 ∧ cz pl.org + pl.dim.2.2 ≤ 16)

/-- The chip's coordinate in a plan: its straps with COORD_SRC 1, else its position. -/
def planCoord (s : State) (pl : Plan) : Coord := if s.plane.rwl.coordSrc then s.plane.strap else (ownPlaces s pl).headD 0

/-- The status of a plan that has been read: FORMAT, INTEGRITY, BOUNDS, TRANSIT, or 0. -/
def planStatus (s : State) (digest b : List Byte) : Nat :=
  let pl := planOf b
  if leAt b 0 4 ≠ 0x314C5050 ∨ leAt b 4 2 ≠ 1 then 5
  else if sha384 b ≠ digest then 4
  else if planBounds s b pl = false then 2
  else if planReach pl = false ∨ inBox pl (planCoord s pl) = false then 0xC
  else if (ownPlaces s pl).contains (planCoord s pl) then 0 else 2

/-- The ports at admission: BORDER where the neighbour lies outside the box, TRAINING where one is expected (Table CTRL-10). -/
def admitPort (pl : Plan) (own : Coord) (s : State) (i : PortIx) : State :=
  match boxNeigh pl own i with
  | none => setLink i .border 0 s
  | some c =>
    match planAt pl c, planAt pl own with
    | some _, some me =>
      setLink i .training 0 (modPort i (fun q => { emptyPort q with en := true, widthCfg := entWidth me i, widthEpoch := none }) s)
    | _, _ => s

/-- The slice admits this chip: FORMING, roles, routes, ports; the root takes the plan's starting values and is LOCKED (R303,
R306). -/
def admitSlice (pl : Plan) (own : Coord) (s : State) : State :=
  let s := if s.plane.plan.isSome then leaveSlice s else s
  let root := decide (rootOf pl = own)
  let s : State := { s with
    plane := { s.plane with st := .forming, plan := some pl, coord := own, coordOk := true, drainReq := false, leaving := false }
    mc := { s.mc with
      root := root, syncm := pl.syncNamed && decide (pl.syncm = own), admitter := decide (pl.admitter = own), guard := pl.guard, guardNext := pl.guard,
      started := root, step := if root then pl.startStep else s.mc.step, tick := if root then pl.startTick else s.mc.tick } }
  let s := (List.finRange 6).foldl (admitPort pl own) s
  let s := buildRoutes { s with mc := { s.mc with parent := if root then none else parentOf s pl } }
  if root then setLock true s else s

/-- SLICE_ADMIT_DONE: the plan has been read. -/
def sliceAdmitted (b : List Byte) (s : State) : State :=
  match s.cc.pendCmd with
  | some (_, _, .sliceAdmit _ digest) =>
    let st := planStatus s digest b
    let t := if st = 0 then admitSlice (planOf b) (planCoord s (planOf b)) s else s
    endPending (fun w => match w with | .sliceAdmit _ _ => true | _ => false) st t
  | _ => s

/-! ### Start and end of a slice (R375, R412) -/

/-- 1 ms in ticks. -/
def startLead : Nat := 1000000

/-- A program of an epoch is loaded. -/
def epochProgram (s : State) (e : Epoch) : Bool := s.progs.toList.any (fun p => match p with | some q => q.epoch == e.num | none => false)

/-- The conditions of R412, with N0 the plan's START_STEP (Table CTRL-10, order 7). -/
def mayStart (s : State) (n0 t0 : BitVec 64) : Bool :=
  s.plane.st == .forming && s.mc.start.isNone && (match s.plane.plan with | some pl => pl.startStep == n0 | none => false) && decide (s.mc.tick.toNat + startLead ≤ t0.toNat) && s.mc.locked
    && (List.finRange 6).all (fun i => (expected s i).isNone || (s.ports[i].st != .training && s.ports[i].st != .hello))
    && (match epochDue s n0 with | some e => epochProgram s e | none => false)

/-- SLICE_START accepted: HELD ports go UP, and the agreement word for step N0 goes to every neighbour. -/
def startSlice (n0 t0 : BitVec 64) (s : State) : State :=
  let s := (List.finRange 6).foldl (fun s i =>
    if s.ports[i].st = .held ∧ s.ports[i].flap = false then setLink i .up 0 s else s) s
  let s := buildRoutes { s with mc := { s.mc with start := some (n0, t0.toNat) } }
  let empty : State := { s with adm := { s.adm with next := [] }, seg := { s.seg with valid := false } }
  let l := agreePorts s
  if l = [] then s else
  let own := ownWord t0.toNat n0 empty
  let s := { s with mc := { s.mc with agreeSent := Vector.ofFn (fun i => if l.contains i then some own else none) } }
  l.foldl (fun s i => sendOn 6 i 2 false (mkMsg s 4 0 0 ((neighCoord s.plane.coord i).getD 0) (leBytes 64 own.toNat)) s) s

/-- SLICE_START. -/
def sliceStartRun (n0 t0 : BitVec 64) (s : State) : Nat × List Byte × State :=
  answer [(notOperational s || !mayStart s n0 t0, 1)] (startSlice n0 t0) s

/-- SLICE_LEAVE: at the next boundary, or at once when no step runs. -/
def sliceLeaveRun (s : State) : Nat × List Byte × State :=
  answer [(notOperational s || s.plane.plan.isNone || s.plane.leaving, 1)]
    (fun s => if s.run.isOpen ∧ s.mc.fenced = false then { s with plane := { s.plane with leaving := true } } else leaveSlice s) s

/-! ### Configuration epochs (R29, R30, R164, R165, R310, R408) -/

/-- A target descriptor of its bytes (Table ARITH-1). -/
def targetBytes (b : List Byte) : Target :=
  let v := leAt b 0 16
  { din := nfld v 0 32, dout := nfld v 32 32, inExp := sgn 8 (nfld v 64 8), typ := nfld v 72 2, en := nfld v 74 1 == 1,
    rblk := nfld v 75 3, faces := nfld v 78 2, vbase := nfld v 80 32 }

/-- An attention descriptor of its bytes (Table RCC-1). -/
def attBytes (b : List Byte) : AttDesc :=
  let v := leAt b 0 16
  { ktgt := nfld v 0 4, vtgt := nfld v 4 4, ken := nfld v 8 1 == 1, ven := nfld v 9 1 == 1, hdim := nfld v 10 2, kvh := nfld v 12 8,
    qpk := nfld v 20 7, qexp := sgn 8 (nfld v 27 8), en := nfld v 35 1 == 1 }

/-- The epoch that a block holds. -/
def epochOf (b : List Byte) : Epoch :=
  { num := BitVec.ofNat 64 (leAt b 8 8), guard := leAt b 0x10 2
    targets := Vector.ofFn (fun i => targetBytes (slice b (64 + 16 * i.val) 16))
    atts := Vector.ofFn (fun i => attBytes (slice b (320 + 16 * i.val) 16)) }

/-- Bytes of an epoch block: header, 16 targets, 8 attention descriptors. -/
def epochBlockBytes : Nat := 64 + 16 * 16 + 8 * 16

/-- An enabled target descriptor may stand (R30). DESIGN CHOICE: VBASE 0xFFFF_FFFF, outside Table ARITH-1, is refused too (log
entry 149). -/
def targetFits (t : Target) : Bool :=
  !t.en || (decide (128 ≤ t.din ∧ t.din ≤ 131072 ∧ t.din % 128 = 0 ∧ 128 ≤ t.dout ∧ t.dout ≤ 131072 ∧ t.dout % 128 = 0)
    && t.faces != 0 && t.vbase != 0xFFFFFFFF)

/-- A target named by an attention descriptor: enabled, of the type it needs, of the width of its heads (R165). -/
def attTarget (e : Epoch) (a : AttDesc) (on : Bool) (ix typ : Nat) : Bool :=
  let t := e.targets.getD ix {}
  !on || (t.en && t.typ == typ && t.dout == a.kvh * (64 * 2 ^ a.hdim))

/-- An enabled attention descriptor may stand (R164, R165). -/
def attFits (e : Epoch) (a : AttDesc) : Bool :=
  !a.en || ((a.ken || a.ven) && a.hdim != 3 && decide (1 ≤ a.kvh ∧ a.kvh ≤ 128 ∧ 1 ≤ a.qpk ∧ a.qpk ≤ 64 ∧ a.kvh * a.qpk ≤ 512)
    && attTarget e a a.ken a.ktgt 1 && attTarget e a a.ven a.vtgt 2)

/-- Times that the enabled descriptors name a target. -/
def attNames (e : Epoch) (ix : Nat) : Nat :=
  (e.atts.toList.map (fun a => if a.en then b2n (a.ken && a.ktgt == ix) + b2n (a.ven && a.vtgt == ix) else 0)).sum

/-- An epoch may be admitted (R30, R165, R310). -/
def epochFits (s : State) (e : Epoch) : Bool :=
  guardOk s e.guard && e.targets.toList.all targetFits && e.atts.toList.all (attFits e)
    && e.targets.toList.zipIdx.all (fun x => !(x.1.en && (x.1.typ == 1 || x.1.typ == 2)) || attNames e x.2 == 1)

/-- A pending epoch dropped, with its keys, its guard and an activation that waits for it (Table CTRL-12). -/
def dropEpoch (s : State) : State :=
  { s with epochPend := none, cc := { s.cc with activateAt := none }, mc := { s.mc with guardNext := s.mc.guard },
           ports := s.ports.map (fun q => { q with keys := q.keys.take 1 }) }

/-- An epoch pending for step S: the keys of the links of that epoch are derived (R340), and its G is the next guard. -/
def pendEpoch (e : Epoch) (step : BitVec 64) (s : State) : State :=
  let s := dropEpoch s
  let s := match s.sec.lkey with
    | some k => (List.finRange 6).foldl (fun (s : State) (i : PortIx) =>
        let q := s.ports[i]
        if q.keys = [] ∨ q.keys.any (fun x => x.epoch == e.num.toNat) = true then s
        else modPort i (fun q => { q with keys := q.keys ++ [linkKey s k i q.keyNonces e.num.toNat] }) s) s
    | none => s
  { s with epochPend := some (e, step), mc := { s.mc with guardNext := e.guard } }

/-- EPOCH_PEND: the block is read and checked; a refusal leaves no epoch pending. -/
def epochPendRun (cold len : BitVec 64) (digest : List Byte) (step : BitVec 64) (block : List Byte) (s : State) : Nat × List Byte × State :=
  let e := epochOf block
  let r := answer [(stagingBad cold len || decide (len.toNat ≠ epochBlockBytes), 2),
      (notOperational s || s.plane.plan.isNone || s.plane.grant.isNone, 1),
      (decide (leAt block 0 4 ≠ 0x31504550 ∨ leAt block 4 2 ≠ 1), 5), (decide (sha384 block ≠ digest), 4),
      (decide (block.length ≠ epochBlockBytes) || !epochFits s e, 2),
      (s.mc.eLast.isSome && decide (step.toNat ≤ s.mc.step.toNat), 2)]
    (pendEpoch e step) s
  if r.1 = 0 ∨ r.1 = 1 then r else (r.1, r.2.1, if s.plane.plan.isSome then dropEpoch s else s)

/-- EPOCH_ABORT. -/
def epochAbortRun (s : State) : Nat × List Byte × State :=
  answer [(notOperational s || s.plane.plan.isNone || s.epochPend.isNone, 1)] dropEpoch s

/-! ### Step programs (R128, R408) -/

/-- A program slot is selected for the running or the next step: a next step exists once a step runs or a slice has been
started. -/
def slotSelected (s : State) (slot : Nat) : Bool :=
  (s.run.isOpen && s.run.pslot.val == slot) || ((s.run.isOpen || s.mc.start.isSome) && s.seg.pslot.val == slot)

/-- Bytes of a container at most (Table ISA-18). -/
def containerMax : Nat := 24 * 2 ^ 20

/-- PROG_LOAD: the container is to be read. A load refused because its slot is selected or its container is too long for Table
ISA-18 leaves the slot empty (R128); any other refusal of the command has no effect. -/
def progLoadRun (seq : BitVec 16) (slot : Nat) (cold len : BitVec 64) (digest : List Byte) (s : State) : Nat × List Byte × State :=
  let r := answerPending 0x38 seq [(decide (7 < slot) || stagingBad cold len || decide (containerMax < len.toNat), 2),
      (notOperational s || s.plane.grant.isNone, 1), (slotSelected s slot, 7)]
    (.progLoad (Fin.ofNat 8 slot) len.toNat digest) id s
  if r.1 = 7 ∨ (r.1 = 2 ∧ stagingBad cold len = false) then (r.1, r.2.1, { s with progs := s.progs.setIfInBounds slot none }) else r

/-- PROG_LOAD_DONE: the container is checked and stands in its slot; a refused load leaves the slot empty (R128). -/
def progLoaded (b : List Byte) (s : State) : State :=
  match s.cc.pendCmd with
  | some (_, _, .progLoad slot _ digest) =>
    let sel := slotSelected s slot.val
    let st := if sel then 7 else loadStatus s digest b
    let prog := if st = 0 then some (containerOf b) else none
    let t : State := { s with progs := vmod s.progs slot (fun _ => prog) }
    endPending (fun w => match w with | .progLoad _ _ _ => true | _ => false) st t
  | _ => s

/-- PROG_DROP. -/
def progDropRun (slot : Nat) (s : State) : Nat × List Byte × State :=
  answer [(decide (7 < slot), 2), (notOperational s, 1), (slotSelected s slot, 7)]
    (fun s => { s with progs := s.progs.setIfInBounds slot none }) s

/-! ### Partitions (R373, R374, R408, R410, R411) -/

/-- CONFIGURE: windows set, the partition CONFIGURED (R373, Table SEC-3). -/
def configureRun (part : Nat) (w : Windows) (s : State) : Nat × List Byte × State :=
  let p : Part := Fin.ofNat 16 part
  answer [(decide (15 < part) || !windowFits s p w, 2),
      (notOperational s || s.plane.plan.isNone || s.parts[p].st != .idle, 1)]
    (modPart p (fun q => { q with win := w, winNext := w, st := .configured })) s

/-- UNCONFIGURE: windows cleared, IDLE. -/
def unconfigureRun (part : Nat) (s : State) : Nat × List Byte × State :=
  let p : Part := Fin.ofNat 16 part
  answer [(decide (15 < part), 2), (notOperational s || s.parts[p].st != .configured, 1)]
    (modPart p (fun q => { q with win := {}, winNext := {}, st := .idle })) s

/-- PRESET by the operator (R374, R417). -/
def presetRun (seq : BitVec 16) (part : Nat) (s : State) : Nat × List Byte × State :=
  let p : Part := Fin.ofNat 16 part
  let q := s.parts[p]
  answerPending 0x42 seq [(decide (15 < part), 2),
      (notOperational s || !(q.st == .claimed || q.st == .keyed) || !notPreset q, 1)] (.preset p) (takePreset true p) s

/-- CORE_ASSIGN: CORE_PART written (R377). -/
def coreAssignRun (core part : Nat) (s : State) : Nat × List Byte × State :=
  if 63 < core ∨ 0x1F < part then (2, [], s)
  else match setCorePart core part s with
    | .error .bounds => (2, [], s)
    | .error _ => (1, [], s)
    | .ok t => if notOperational s then (1, [], s) else (0, [], t)

/-- PCMD: one entry placed on the partition's command ring (R410). -/
def pcmdRun (part : Nat) (e : ResCmd) (s : State) : Nat × List Byte × State :=
  let p : Part := Fin.ofNat 16 part
  let q := s.parts[p]
  answer [(decide (15 < part), 2),
      (notOperational s || q.st != .keyed || !notPreset q || decide (ringRoom q.resq = 0), 1)]
    (fun s => let t := modPart p (fun q => { q with resq := ringPush q.resq e }) s; dropReserved p t.parts[p].resq.ents.length t) s

/-! ### Resets, self-test and fuses (R110, R413, R439) -/

/-- The slice is active: steps may run in it. -/
def sliceActive (s : State) : Bool :=
  s.plane.st == .active || s.plane.st == .degraded || s.plane.st == .split || s.plane.st == .draining

/-- RESET of kind 0x0 is refused while a slice is active, unless the chip is DRAINED, fenced or cut. -/
def resetColdRun (s : State) : Nat × List Byte × State :=
  answer [(decide (s.cc.bootph ≠ 8) || (sliceActive s && !mayWipe s), 1)] id s

/-- A port's buffers and keys are gone, and discovery begins again (Table CTRL-8); a link that was UP is flooded DOWN. A port
that the plan gives no neighbour, or that is not enabled, stays as it is (log entry 60). -/
def portReset (i : PortIx) (s : State) : State :=
  let q := s.ports[i]
  let t := modPort i emptyPort s
  if q.en = false ∨ q.st = .border ∨ s.plane.plan.isNone = true then t
  else
    let t := setLink i .training 0 t
    if linkLive q.st = true then loseParent i (if q.st = .up then floodLinkev 0 i q.reason t else t) else t

/-- RESET of kind 0x1. -/
def resetPortRun (port : Nat) (s : State) : Nat × List Byte × State :=
  answer [(decide (5 < port), 2), (decide (s.cc.bootph ≠ 8), 1)] (portReset (Fin.ofNat 6 port)) s

/-- RESET of kind 0x2. -/
def resetRestartRun (s : State) : Nat × List Byte × State := answer [(decide (s.cc.bootph ≠ 8), 1)] (restart 6) s

/-- Commands of SERVICE. -/
def notService (s : State) : Bool := decide (s.cc.bootph ≠ 8) || s.nv.lc != .service

/-- A bypass fuse blown (R110): the fuse wins from the next boundary (Table REGS-16). -/
def blowFuse (core array column : Nat) (s : State) : State :=
  let f : Fin 256 × Fin 32 := (Fin.ofNat 256 (4 * core + array), Fin.ofNat 32 column)
  let l := if s.nv.bypass.contains f then s.nv.bypass else s.nv.bypass ++ [f]
  let b := fuseBypass l (4 * core + array)
  { s with nv := { s.nv with bypass := l }
           cores := s.cores.setIfInBounds core (let c := s.cores.getD core {}; { c with bypNext := c.bypNext.setIfInBounds array b }) }

/-- FUSE_BYPASS. -/
def fuseBypassRun (core array column : Nat) (s : State) : Nat × List Byte × State :=
  answer [(decide (63 < core ∨ 3 < array ∨ 31 < column), 2), (notService s, 1)] (blowFuse core array column) s

/-! ### The commands -/

/-- What a query changes: what the chip sends, the management exchange and the interrupt it raises. -/
def footQuery (s t : State) : State := { s with out := t.out, cc := t.cc, regs := t.regs }

/-- What a management command never changes: the queue, the non-volatile store but for SVN_MIN, which only rises (R403), a
transition under way, and what is in force until a boundary: the assignment and the bypass of cores and the epoch (R24). -/
def footCommand (s t : State) : State :=
  { t with pending := s.pending, nv := { s.nv with svnMin := max s.nv.svnMin t.nv.svnMin }, sec := keepLc s t,
           cores := keepAssign s t, epoch := s.epoch }

/-- What a command that ends a membership or resets a partition never changes. -/
def footEnd (s t : State) : State := { t with pending := s.pending, nv := s.nv, sec := keepLc s t }

/-- What a life-cycle command never changes: the queue and the non-volatile store, which the end of the wipe commits (R388). -/
def footTransition (s t : State) : State := { t with pending := s.pending, nv := s.nv }

/-- GET_IDENT (R408). -/
def execGetIdent (seq : BitVec 16) (s : State) : Host.Outcome State Fault Refusal :=
  .next (footQuery s (mgmt 0x01 seq (identOpen s) false (fun s => (0, identBody s, s)) s))

/-- GET_STATUS (R408). -/
def execGetStatus (seq : BitVec 16) (s : State) : Host.Outcome State Fault Refusal :=
  .next (footQuery s (mgmt 0x02 seq (statusOpen s) false (fun s => (0, statusBody s, s)) s))

/-- REG_READ (R454); in the Autumn wipe of the identity page only (R390). -/
def execRegRead (seq : BitVec 16) (page : Byte) (offset : BitVec 16) (count : Byte) (channel : BitVec 16) (s : State) :
    Host.Outcome State Fault Refusal :=
  .next (footQuery s (mgmt 0x03 seq (cmdOpen s || (wipeRuns s && page == 0)) false
    (regReadRun page.toNat offset.toNat count.toNat channel.toNat) s))

/-- The wipe of a transition runs: an RWL_WRITE waits for its end (Table REGS-16). -/
def rwlWaits (s : State) : Bool := wipeRuns s && s.sec.pendLc.isSome

/-- RWL_WRITE (R454), answered when the wipe of a transition has ended (Table REGS-16). -/
def rwlWrite (seq : BitVec 16) (page : Byte) (offset : BitVec 16) (value : Word) (s : State) : State :=
  if rwlWaits s then { s with cc := { s.cc with rwlHeld := s.cc.rwlHeld ++ [(seq, page, offset, value)] } }
  else mgmt 0x04 seq (cmdOpen s) false (rwlWriteRun page.toNat offset.toNat value) s

/-- RWL_WRITE (R454). -/
def execRwlWrite (seq : BitVec 16) (page : Byte) (offset : BitVec 16) (value : Word) (s : State) : Host.Outcome State Fault Refusal :=
  .next (footCommand s (rwlWrite seq page offset value s))

/-- The end of the Autumn wipe; the RWL_WRITEs that waited then meet the new state (R390, Table REGS-16). -/
def wipeAnswered (s : State) : State :=
  let t := wipeEnd s
  if s.sec.wiping = false ∨ t.sec.wiping = true then t
  else t.cc.rwlHeld.foldl (fun s x => mgmt 0x04 x.1 (cmdOpen s) false (rwlWriteRun x.2.1.toNat x.2.2.1.toNat x.2.2.2) s)
    { t with cc := { t.cc with rwlHeld := [] } }

/-- AUTUMN_WIPE_DONE (R390). -/
def execAutumnWipeDone (s : State) : Host.Outcome State Fault Refusal :=
  let t := wipeAnswered s
  .next { s with sec := t.sec, nv := t.nv, freeIx := t.freeIx, cc := t.cc, regs := t.regs, plane := t.plane, out := t.out }

/-- FW_BEGIN (R404). -/
def execFwBegin (seq : BitVec 16) (len : Nat) (digest : List Byte) (s : State) : Host.Outcome State Fault Refusal :=
  .next (footQuery s (mgmt 0x10 seq (cmdOpen s) false (fwBeginRun len digest) s))

/-- FW_DATA (R408). -/
def execFwData (seq : BitVec 16) (offset : Nat) (bytes : List Byte) (s : State) : Host.Outcome State Fault Refusal :=
  .next (footQuery s (mgmt 0x11 seq (cmdOpen s) false (fwDataRun offset bytes) s))

/-- FW_END (R402). -/
def execFwEnd (seq : BitVec 16) (s : State) : Host.Outcome State Fault Refusal :=
  .next (footQuery s (mgmt 0x12 seq (cmdOpen s) true (fwEndRun seq) s))

/-- FW_ACTIVATE (R403). -/
def execFwActivate (seq : BitVec 16) (epoch : BitVec 64) (s : State) : Host.Outcome State Fault Refusal :=
  .next (footCommand s (mgmt 0x13 seq (cmdOpen s) false (fwActivateRun epoch) s))

/-- PROVISION (R388). -/
def execProvision (seq : BitVec 16) (s : State) : Host.Outcome State Fault Refusal :=
  .next (footTransition s (mgmt 0x20 seq (cmdOpen s) true (transitionRun 0x20 seq [.blank] .provisioned) s))

/-- COMMISSION (R388). -/
def execCommission (seq : BitVec 16) (s : State) : Host.Outcome State Fault Refusal :=
  .next (footTransition s (mgmt 0x21 seq (cmdOpen s) true (transitionRun 0x21 seq [.provisioned] .operational) s))

/-- DEPROVISION (R388). -/
def execDeprovision (seq : BitVec 16) (s : State) : Host.Outcome State Fault Refusal :=
  .next (footTransition s (mgmt 0x22 seq (cmdOpen s) true (transitionRun 0x22 seq [.provisioned, .service] .blank) s))

/-- ENTER_SERVICE (R388). -/
def execEnterService (seq : BitVec 16) (s : State) : Host.Outcome State Fault Refusal :=
  .next (footTransition s (mgmt 0x23 seq (cmdOpen s) true (transitionRun 0x23 seq [.operational] .service) s))

/-- RETURN (R388). -/
def execReturnCmd (seq : BitVec 16) (s : State) : Host.Outcome State Fault Refusal :=
  .next (footTransition s (mgmt 0x24 seq (cmdOpen s) true (transitionRun 0x24 seq [.service] .operational) s))

/-- REPROVISION (R388). -/
def execReprovision (seq : BitVec 16) (s : State) : Host.Outcome State Fault Refusal :=
  .next (footTransition s (mgmt 0x25 seq (cmdOpen s) true (transitionRun 0x25 seq [.service] .provisioned) s))

/-- RETIRE (R388). -/
def execRetire (seq : BitVec 16) (s : State) : Host.Outcome State Fault Refusal :=
  .next (footTransition s (mgmt 0x26 seq (cmdOpen s) true
    (transitionRun 0x26 seq [.blank, .provisioned, .operational, .service] .retired) s))

/-- COLD_GRANT (R408). -/
def execColdGrant (seq : BitVec 16) (base : BitVec 64) (gib : Nat) (s : State) : Host.Outcome State Fault Refusal :=
  .next (footCommand s (mgmt 0x30 seq (cmdOpen s) false (coldGrantRun base gib) s))

/-- SLICE_ADMIT (R409). -/
def execSliceAdmit (seq : BitVec 16) (cold len : BitVec 64) (digest : List Byte) (s : State) : Host.Outcome State Fault Refusal :=
  .next (footQuery s (mgmt 0x31 seq (cmdOpen s) true (sliceAdmitRun seq cold len digest) s))

/-- SLICE_ADMIT_DONE (R409). -/
def execSliceAdmitDone (plan : List Byte) (s : State) : Host.Outcome State Fault Refusal := .next (footEnd s (sliceAdmitted plan s))

/-- SLICE_START (R412). -/
def execSliceStart (seq : BitVec 16) (n0 t0 : BitVec 64) (s : State) : Host.Outcome State Fault Refusal :=
  .next (footCommand s (mgmt 0x32 seq (cmdOpen s) false (sliceStartRun n0 t0) s))

/-- SLICE_LEAVE (R375). -/
def execSliceLeave (seq : BitVec 16) (s : State) : Host.Outcome State Fault Refusal :=
  .next (footEnd s (mgmt 0x33 seq (cmdOpen s) false sliceLeaveRun s))

/-- EPOCH_PEND (R408). -/
def execEpochPend (seq : BitVec 16) (cold len : BitVec 64) (digest : List Byte) (step : BitVec 64) (block : List Byte) (s : State) :
    Host.Outcome State Fault Refusal :=
  .next (footCommand s (mgmt 0x34 seq (cmdOpen s) false (epochPendRun cold len digest step block) s))

/-- EPOCH_ABORT (R408). -/
def execEpochAbort (seq : BitVec 16) (s : State) : Host.Outcome State Fault Refusal :=
  .next (footCommand s (mgmt 0x35 seq (cmdOpen s) false epochAbortRun s))

/-- PROG_LOAD (R128). -/
def execProgLoad (seq : BitVec 16) (slot : Nat) (cold len : BitVec 64) (digest : List Byte) (s : State) : Host.Outcome State Fault Refusal :=
  .next (footCommand s (mgmt 0x38 seq (cmdOpen s) true (progLoadRun seq slot cold len digest) s))

/-- PROG_LOAD_DONE (R160). -/
def execProgLoadDone (container : List Byte) (s : State) : Host.Outcome State Fault Refusal :=
  .next (footCommand s (progLoaded container s))

/-- PROG_DROP (R408). -/
def execProgDrop (seq : BitVec 16) (slot : Nat) (s : State) : Host.Outcome State Fault Refusal :=
  .next (footCommand s (mgmt 0x39 seq (cmdOpen s) false (progDropRun slot) s))

/-- CONFIGURE (R373). -/
def execConfigure (seq : BitVec 16) (part : Nat) (win : Windows) (s : State) : Host.Outcome State Fault Refusal :=
  .next (footCommand s (mgmt 0x40 seq (cmdOpen s) false (configureRun part win) s))

/-- UNCONFIGURE (R408). -/
def execUnconfigure (seq : BitVec 16) (part : Nat) (s : State) : Host.Outcome State Fault Refusal :=
  .next (footEnd s (mgmt 0x41 seq (cmdOpen s) false (unconfigureRun part) s))

/-- PRESET by the operator (R417). -/
def execPreset (seq : BitVec 16) (part : Nat) (s : State) : Host.Outcome State Fault Refusal :=
  .next (footEnd s (mgmt 0x42 seq (cmdOpen s) true (presetRun seq part) s))

/-- CORE_ASSIGN (R377). -/
def execCoreAssign (seq : BitVec 16) (core part : Nat) (s : State) : Host.Outcome State Fault Refusal :=
  .next (footCommand s (mgmt 0x43 seq (cmdOpen s) false (coreAssignRun core part) s))

/-- PCMD (R410). -/
def execPcmd (seq : BitVec 16) (part : Nat) (entry : ResCmd) (s : State) : Host.Outcome State Fault Refusal :=
  .next (footCommand s (mgmt 0x44 seq (cmdOpen s) false (pcmdRun part entry) s))

/-- RESET of kind 0x0 (R413): answered, then the cold reset. -/
def execResetCold (seq : BitVec 16) (s : State) : Host.Outcome State Fault Refusal :=
  let t := footQuery s (mgmt 0x50 seq (cmdOpen s) false resetColdRun s)
  let go := cmdOpen s && seq != 0 && seq != s.cc.lastSeq && (resetColdRun s).1 == 0
  .next (if go then coldReset t else t)

/-- RESET of kind 0x1 (R413). -/
def execResetPort (seq : BitVec 16) (port : Nat) (s : State) : Host.Outcome State Fault Refusal :=
  .next (footCommand s (mgmt 0x50 seq (cmdOpen s) false (resetPortRun port) s))

/-- RESET of kind 0x2 (R398). -/
def execResetRestart (seq : BitVec 16) (s : State) : Host.Outcome State Fault Refusal :=
  .next (footCommand s (mgmt 0x50 seq (cmdOpen s) false resetRestartRun s))

/-- SELFTEST (R439). -/
def execSelftest (seq : BitVec 16) (mask : BitVec 64) (s : State) : Host.Outcome State Fault Refusal :=
  .next (footQuery s (mgmt 0x60 seq (cmdOpen s) true (answerPending 0x60 seq [(notService s, 1)] (.selftest mask) id) s))

/-- FUSE_BYPASS (R110). -/
def execFuseBypass (seq : BitVec 16) (core array column : Nat) (s : State) : Host.Outcome State Fault Refusal :=
  let t := mgmt 0x61 seq (cmdOpen s) false (fuseBypassRun core array column) s
  .next { footCommand s t with nv := { s.nv with bypass := t.nv.bypass } }

end Sys2Proof.Machine
end

