-- ==== Sys2Proof/Machine/Dispatch.lean ====
section
/-!
DEFINITION. The dispatch of the commands: one arm for each constructor of `Instr`.
-/

namespace Sys2Proof.Machine

def exec (i : Instr) (s : State) : Host.Outcome State Fault Refusal :=
  match i with
  | .coldReset => Sys2Proof.Machine.execColdReset s
  | .pllLockDone => Sys2Proof.Machine.execPllLockDone s
  | .hbmTrainingDone failed => Sys2Proof.Machine.execHbmTrainingDone failed s
  | .autumnWipeDone => Sys2Proof.Machine.execAutumnWipeDone s
  | .stepSyncEdge widthNs => Sys2Proof.Machine.execStepSyncEdge widthNs s
  | .pwrWarnAssert => Sys2Proof.Machine.execPwrWarnAssert s
  | .pwrWarnRelease => Sys2Proof.Machine.execPwrWarnRelease s
  | .svcDrain => Sys2Proof.Machine.execSvcDrain s
  | .drainComplete => Sys2Proof.Machine.execDrainComplete s
  | .watchdogExpiry => Sys2Proof.Machine.execWatchdogExpiry s
  | .restartComplete => Sys2Proof.Machine.execRestartComplete s
  | .checkpointComplete => Sys2Proof.Machine.execCheckpointComplete s
  | .patrolScrub unit errs => Sys2Proof.Machine.execPatrolScrub unit errs s
  | .tempSample readings => Sys2Proof.Machine.execTempSample readings s
  | .telemetryRefresh sample => Sys2Proof.Machine.execTelemetryRefresh sample s
  | .fatalError src => Sys2Proof.Machine.execFatalError src s
  | .stepReplay fault => Sys2Proof.Machine.execStepReplay fault s
  | .admissionClose => Sys2Proof.Machine.execAdmissionClose s
  | .march => Sys2Proof.Machine.execMarch s
  | .marchDeadline => Sys2Proof.Machine.execMarchDeadline s
  | .boundary => Sys2Proof.Machine.execBoundary s
  | .segmentationDone => Sys2Proof.Machine.execSegmentationDone s
  | .handoverCheckDone => Sys2Proof.Machine.execHandoverCheckDone s
  | .tailCommit => Sys2Proof.Machine.execTailCommit s
  | .resultRelease face => Sys2Proof.Machine.execResultRelease face s
  | .ringWrite ring => Sys2Proof.Machine.execRingWrite ring s
  | .holdExpiry part index => Sys2Proof.Machine.execHoldExpiry part index s
  | .nop queue => Sys2Proof.Machine.execNop queue s
  | .wait queue => Sys2Proof.Machine.execWait queue s
  | .hfill cluster => Sys2Proof.Machine.execHfill cluster s
  | .tfill core => Sys2Proof.Machine.execTfill core s
  | .stream core => Sys2Proof.Machine.execStream core s
  | .conv core => Sys2Proof.Machine.execConv core s
  | .reduceQ cluster => Sys2Proof.Machine.execReduceQ cluster s
  | .reduceRcc cluster => Sys2Proof.Machine.execReduceRcc cluster s
  | .reduceU cluster => Sys2Proof.Machine.execReduceU cluster s
  | .reducePart cluster => Sys2Proof.Machine.execReducePart cluster s
  | .vecAdd core => Sys2Proof.Machine.execVecAdd core s
  | .vecSub core => Sys2Proof.Machine.execVecSub core s
  | .vecMul core => Sys2Proof.Machine.execVecMul core s
  | .vecFma core => Sys2Proof.Machine.execVecFma core s
  | .vecMax core => Sys2Proof.Machine.execVecMax core s
  | .vecMin core => Sys2Proof.Machine.execVecMin core s
  | .vecScale2 core => Sys2Proof.Machine.execVecScale2 core s
  | .vecExpmax core => Sys2Proof.Machine.execVecExpmax core s
  | .vecCmp core => Sys2Proof.Machine.execVecCmp core s
  | .vecSelect core => Sys2Proof.Machine.execVecSelect core s
  | .cvt core => Sys2Proof.Machine.execCvt core s
  | .faceinAct face block => Sys2Proof.Machine.execFaceinAct face block s
  | .faceinGrad face block => Sys2Proof.Machine.execFaceinGrad face block s
  | .faceinQry face block => Sys2Proof.Machine.execFaceinQry face block s
  | .faceinProb face block => Sys2Proof.Machine.execFaceinProb face block s
  | .faceinLogit face block => Sys2Proof.Machine.execFaceinLogit face block s
  | .faceoutBitmap face => Sys2Proof.Machine.execFaceoutBitmap face s
  | .faceoutDelta face => Sys2Proof.Machine.execFaceoutDelta face s
  | .faceoutIgrad face => Sys2Proof.Machine.execFaceoutIgrad face s
  | .faceoutScore face => Sys2Proof.Machine.execFaceoutScore face s
  | .faceoutVdelta face => Sys2Proof.Machine.execFaceoutVdelta face s
  | .faceoutTopk face => Sys2Proof.Machine.execFaceoutTopk face s
  | .xsend port => Sys2Proof.Machine.execXsend port s
  | .xrecv port => Sys2Proof.Machine.execXrecv port s
  | .macc core => Sys2Proof.Machine.execMacc core s
  | .mopt hbm => Sys2Proof.Machine.execMopt hbm s
  | .mregen hbm => Sys2Proof.Machine.execMregen hbm s
  | .rccUwrite => Sys2Proof.Machine.execRccUwrite s
  | .rccKpass => Sys2Proof.Machine.execRccKpass s
  | .rccVpass => Sys2Proof.Machine.execRccVpass s
  | .psumMsg m => Sys2Proof.Machine.execPsumMsg m s
  | .rowreqMsg m => Sys2Proof.Machine.execRowreqMsg m s
  | .rowsMsg m => Sys2Proof.Machine.execRowsMsg m s
  | .gradMsg m => Sys2Proof.Machine.execGradMsg m s
  | .agreeMsg m => Sys2Proof.Machine.execAgreeMsg m s
  | .digestMsg m => Sys2Proof.Machine.execDigestMsg m s
  | .lateMsg m => Sys2Proof.Machine.execLateMsg m s
  | .doneMsg m => Sys2Proof.Machine.execDoneMsg m s
  | .syncMsg m => Sys2Proof.Machine.execSyncMsg m s
  | .noticeMsg m => Sys2Proof.Machine.execNoticeMsg m s
  | .admitMsg m => Sys2Proof.Machine.execAdmitMsg m s
  | .tsyncMsg port rxStamp m => Sys2Proof.Machine.execTsyncMsg port rxStamp m s
  | .tdigMsg m => Sys2Proof.Machine.execTdigMsg m s
  | .linkevMsg m => Sys2Proof.Machine.execLinkevMsg m s
  | .msgForward port det m => Sys2Proof.Machine.execMsgForward port det m s
  | .flitTx port => Sys2Proof.Machine.execFlitTx port s
  | .dataFlitRx port flit => Sys2Proof.Machine.execDataFlitRx port flit s
  | .ctrlFlitRx port flit => Sys2Proof.Machine.execCtrlFlitRx port flit s
  | .nakRx port flit => Sys2Proof.Machine.execNakRx port flit s
  | .nakTimeout port => Sys2Proof.Machine.execNakTimeout port s
  | .pmdTrainingDone port => Sys2Proof.Machine.execPmdTrainingDone port s
  | .helloTx port => Sys2Proof.Machine.execHelloTx port s
  | .helloRx port hello => Sys2Proof.Machine.execHelloRx port hello s
  | .discoveryTimeout port => Sys2Proof.Machine.execDiscoveryTimeout port s
  | .linkDown port reason => Sys2Proof.Machine.execLinkDown port reason s
  | .retrainTimer port => Sys2Proof.Machine.execRetrainTimer port s
  | .syncExchange port txStamp => Sys2Proof.Machine.execSyncExchange port txStamp s
  | .holdoverExpiry => Sys2Proof.Machine.execHoldoverExpiry s
  | .closureTimeout => Sys2Proof.Machine.execClosureTimeout s
  | .new face queue d => Sys2Proof.Machine.execNew face queue d s
  | .cancel face queue d => Sys2Proof.Machine.execCancel face queue d s
  | .pause face queue d => Sys2Proof.Machine.execPause face queue d s
  | .resume face queue d => Sys2Proof.Machine.execResume face queue d s
  | .repin face queue d => Sys2Proof.Machine.execRepin face queue d s
  | .pfxdrop face queue d => Sys2Proof.Machine.execPfxdrop face queue d s
  | .tokenReport face r => Sys2Proof.Machine.execTokenReport face r s
  | .holdComplete part index => Sys2Proof.Machine.execHoldComplete part index s
  | .resumeComplete part index object => Sys2Proof.Machine.execResumeComplete part index object s
  | .load part => Sys2Proof.Machine.execLoad part s
  | .shload part => Sys2Proof.Machine.execShload part s
  | .shrows part => Sys2Proof.Machine.execShrows part s
  | .seal part => Sys2Proof.Machine.execSeal part s
  | .sealRebuildDone part slot => Sys2Proof.Machine.execSealRebuildDone part slot s
  | .publish part => Sys2Proof.Machine.execPublish part s
  | .drop part => Sys2Proof.Machine.execDrop part s
  | .save part => Sys2Proof.Machine.execSave part s
  | .evict part => Sys2Proof.Machine.execEvict part s
  | .mirror part => Sys2Proof.Machine.execMirror part s
  | .setattr part => Sys2Proof.Machine.execSetattr part s
  | .imageCheckDone part image => Sys2Proof.Machine.execImageCheckDone part image s
  | .areaFreed part => Sys2Proof.Machine.execAreaFreed part s
  | .twrite part => Sys2Proof.Machine.execTwrite part s
  | .keep part => Sys2Proof.Machine.execKeep part s
  | .discard part => Sys2Proof.Machine.execDiscard part s
  | .hpset part => Sys2Proof.Machine.execHpset part s
  | .share part => Sys2Proof.Machine.execShare part s
  | .release part => Sys2Proof.Machine.execRelease part s
  | .hold part => Sys2Proof.Machine.execHold part s
  | .restore part => Sys2Proof.Machine.execRestore part s
  | .wipe part => Sys2Proof.Machine.execWipe part s
  | .pageMoveDone part desc object => Sys2Proof.Machine.execPageMoveDone part desc object s
  | .getPinfo session part body => Sys2Proof.Machine.execGetPinfo session part body s
  | .claim session part body => Sys2Proof.Machine.execClaim session part body s
  | .putPkey session part body => Sys2Proof.Machine.execPutPkey session part body s
  | .keyedClearDone part => Sys2Proof.Machine.execKeyedClearDone part s
  | .putKey session part slot body => Sys2Proof.Machine.execPutKey session part slot body s
  | .delKey session part slot body => Sys2Proof.Machine.execDelKey session part slot body s
  | .setPolicy session part body => Sys2Proof.Machine.execSetPolicy session part body s
  | .presetSession session part body => Sys2Proof.Machine.execPresetSession session part body s
  | .putLinkkey session part body => Sys2Proof.Machine.execPutLinkkey session part body s
  | .partitionWipeDone part => Sys2Proof.Machine.execPartitionWipeDone part s
  | .getVersion => Sys2Proof.Machine.execGetVersion s
  | .getCapabilities => Sys2Proof.Machine.execGetCapabilities s
  | .negotiateAlgorithms offersAll => Sys2Proof.Machine.execNegotiateAlgorithms offersAll s
  | .getDigests => Sys2Proof.Machine.execGetDigests s
  | .getCertificate slot => Sys2Proof.Machine.execGetCertificate slot s
  | .challenge slot transcript => Sys2Proof.Machine.execChallenge slot transcript s
  | .getMeasurements index transcript => Sys2Proof.Machine.execGetMeasurements index transcript s
  | .keyExchange peer => Sys2Proof.Machine.execKeyExchange peer s
  | .finish session => Sys2Proof.Machine.execFinish session s
  | .heartbeat session => Sys2Proof.Machine.execHeartbeat session s
  | .sessionExpiry session => Sys2Proof.Machine.execSessionExpiry session s
  | .keyUpdate session => Sys2Proof.Machine.execKeyUpdate session s
  | .endSession session => Sys2Proof.Machine.execEndSession session s
  | .setEndpointId eid => Sys2Proof.Machine.execSetEndpointId eid s
  | .getEndpointId => Sys2Proof.Machine.execGetEndpointId s
  | .getEndpointUuid => Sys2Proof.Machine.execGetEndpointUuid s
  | .getMctpVersionSupport msgType => Sys2Proof.Machine.execGetMctpVersionSupport msgType s
  | .getMessageTypeSupport => Sys2Proof.Machine.execGetMessageTypeSupport s
  | .getVendorDefinedMsgSupport => Sys2Proof.Machine.execGetVendorDefinedMsgSupport s
  | .getIdent seq => Sys2Proof.Machine.execGetIdent seq s
  | .getStatus seq => Sys2Proof.Machine.execGetStatus seq s
  | .regRead seq page offset count channel => Sys2Proof.Machine.execRegRead seq page offset count channel s
  | .rwlWrite seq page offset value => Sys2Proof.Machine.execRwlWrite seq page offset value s
  | .fwBegin seq len digest => Sys2Proof.Machine.execFwBegin seq len digest s
  | .fwData seq offset bytes => Sys2Proof.Machine.execFwData seq offset bytes s
  | .fwEnd seq => Sys2Proof.Machine.execFwEnd seq s
  | .imageVerifyDone => Sys2Proof.Machine.execImageVerifyDone s
  | .fwActivate seq epoch => Sys2Proof.Machine.execFwActivate seq epoch s
  | .provision seq => Sys2Proof.Machine.execProvision seq s
  | .commission seq => Sys2Proof.Machine.execCommission seq s
  | .deprovision seq => Sys2Proof.Machine.execDeprovision seq s
  | .enterService seq => Sys2Proof.Machine.execEnterService seq s
  | .returnCmd seq => Sys2Proof.Machine.execReturnCmd seq s
  | .reprovision seq => Sys2Proof.Machine.execReprovision seq s
  | .retire seq => Sys2Proof.Machine.execRetire seq s
  | .coldGrant seq base gib => Sys2Proof.Machine.execColdGrant seq base gib s
  | .sliceAdmit seq cold len digest => Sys2Proof.Machine.execSliceAdmit seq cold len digest s
  | .sliceAdmitDone plan => Sys2Proof.Machine.execSliceAdmitDone plan s
  | .sliceStart seq n0 t0 => Sys2Proof.Machine.execSliceStart seq n0 t0 s
  | .sliceLeave seq => Sys2Proof.Machine.execSliceLeave seq s
  | .epochPend seq cold len digest step block => Sys2Proof.Machine.execEpochPend seq cold len digest step block s
  | .epochAbort seq => Sys2Proof.Machine.execEpochAbort seq s
  | .progLoad seq slot cold len digest => Sys2Proof.Machine.execProgLoad seq slot cold len digest s
  | .progLoadDone container => Sys2Proof.Machine.execProgLoadDone container s
  | .progDrop seq slot => Sys2Proof.Machine.execProgDrop seq slot s
  | .configure seq part win => Sys2Proof.Machine.execConfigure seq part win s
  | .unconfigure seq part => Sys2Proof.Machine.execUnconfigure seq part s
  | .preset seq part => Sys2Proof.Machine.execPreset seq part s
  | .coreAssign seq core part => Sys2Proof.Machine.execCoreAssign seq core part s
  | .pcmd seq part entry => Sys2Proof.Machine.execPcmd seq part entry s
  | .resetCold seq => Sys2Proof.Machine.execResetCold seq s
  | .resetPort seq port => Sys2Proof.Machine.execResetPort seq port s
  | .resetRestart seq => Sys2Proof.Machine.execResetRestart seq s
  | .selftest seq mask => Sys2Proof.Machine.execSelftest seq mask s
  | .selftestDone bad => Sys2Proof.Machine.execSelftestDone bad s
  | .fuseBypass seq core array column => Sys2Proof.Machine.execFuseBypass seq core array column s
  | .chselWrite req page value => Sys2Proof.Machine.execChselWrite req page value s
  | .pairLoRead req page offset => Sys2Proof.Machine.execPairLoRead req page offset s
  | .intStatusClear req page value => Sys2Proof.Machine.execIntStatusClear req page value s
  | .idAstatClear req value => Sys2Proof.Machine.execIdAstatClear req value s
  | .uuTflagClear req value => Sys2Proof.Machine.execUuTflagClear req value s
  | .kick req value => Sys2Proof.Machine.execKick req value s
  | .rbAck face value => Sys2Proof.Machine.execRbAck face value s
  | .ringIndexWrite req page offset value ents stores => Sys2Proof.Machine.execRingIndexWrite req page offset value ents stores s
  | .ringConfigWrite req page offset value => Sys2Proof.Machine.execRingConfigWrite req page offset value s
  | .coreBypWrite req value => Sys2Proof.Machine.execCoreBypWrite req value s
  | .pwIslReq req value => Sys2Proof.Machine.execPwIslReq req value s
  | .islandStateReached island => Sys2Proof.Machine.execIslandStateReached island s
  | .sgNextWrite req value tags => Sys2Proof.Machine.execSgNextWrite req value tags s
  | .segcapWrite req part value => Sys2Proof.Machine.execSegcapWrite req part value s
  | .lscaleWrite req part run value => Sys2Proof.Machine.execLscaleWrite req part run value s
  | .registerWrite req page offset value => Sys2Proof.Machine.execRegisterWrite req page offset value s
  | .imageWriteDone part => Sys2Proof.Machine.execImageWriteDone part s
  | .controlCoreFault fault => Sys2Proof.Machine.execControlCoreFault fault s
  | .fuseLoadDone straps => Sys2Proof.Machine.execFuseLoadDone straps s
  | .bootRomMeasured digest => Sys2Proof.Machine.execBootRomMeasured digest s
  | .firmwareStartDone => Sys2Proof.Machine.execFirmwareStartDone s
  | .registerRead req page offset => Sys2Proof.Machine.execRegisterRead req page offset s

end Sys2Proof.Machine
end

