-- ==== Sys2Proof/Machine/Ops.lean ====
section
/-!
DEFINITION. The queue of waiting commands, and the March tick that passes when none waits.
-/

namespace Sys2Proof.Machine

/-- The machine with a command put at the front of its queue. -/
def putFront (c : Instr) (s : State) : State := { s with pending := c :: s.pending }

/-- The machine with its queue replaced. -/
def withQueue (l : List Instr) (s : State) : State := { s with pending := l }

/-- One tick of the March counter, 1 ns (R302): what passes while no command waits (log entry 64). -/
def idleTick (s : State) : State := { s with mc := { s.mc with tick := s.mc.tick + 1 } }

end Sys2Proof.Machine
end

