-- ==== Sys2Proof/Machine/Step.lean ====
section
/-!
DEFINITION. One step: the command at the front of the queue is carried out with the rest of the queue; on an empty queue a
tick passes.
-/

namespace Sys2Proof.Machine

/-- One step of the machine. -/
def step (s : State) : Host.Outcome State Fault Refusal :=
  match s.pending with
  | c :: r => exec c (withQueue r s)
  | [] => .next (idleTick s)

/-- The machine with the command that a word spells in front of its queue; as it is where the word spells none. -/
def State.withFetchWord (s : State) (nbits w : Nat) : State :=
  match decodeTableWord nbits w with
  | some c => putFront c s
  | none => s

end Sys2Proof.Machine
end

