-- ==== Sys2Proof/Safety.lean ====
section
/-!
DEFINITION. What counts as a safe run, in the terms the statements use: no step stops, the life cycle moves along its table
only, the one-way store never goes back, and what is in force changes at boundaries.
-/

namespace Sys2Proof.Machine

/-- A step that goes on. -/
def goesOn (o : Host.Outcome State Fault Refusal) : Prop := ∃ t, o = .next t

/-- The moves of Table SEC-10. -/
def lifeEdge (a b : LifeCycle) : Prop :=
  (a = .blank ∧ b = .provisioned) ∨ (a = .provisioned ∧ (b = .operational ∨ b = .blank)) ∨ (a = .operational ∧ b = .service) ∨
    (a = .service ∧ (b = .operational ∨ b = .provisioned ∨ b = .blank)) ∨ (a ≠ .retired ∧ b = .retired)

/-- A transition under way leads along Table SEC-10; a chip in use has its provisioning record; a retired chip has neither
record nor identity key (R387, R388). -/
structure LifeOk (s : State) : Prop where
  /-- The transition that waits for the end of its wipe. -/
  edge : ∀ d, s.sec.pendLc = some d → lifeEdge s.nv.lc d
  /-- The provisioning record. -/
  prov : s.nv.lc = .operational ∨ s.nv.lc = .service → s.nv.prov.isSome = true
  /-- The retired chip. -/
  dead : s.nv.lc = .retired → s.nv.idkey = none ∧ s.nv.prov = none

/-- Nothing of the one-way store goes back: SVN_MIN, the image counter's reservation, the count of provisioning records, the
wipe counter, the fuses, the destroyed key, the retired state. -/
structure OneWay (s t : State) : Prop where
  /-- SVN_MIN (R403). -/
  svn : s.nv.svnMin ≤ t.nv.svnMin
  /-- The reservation of the image counter (R237). -/
  img : s.nv.imgReserved ≤ t.nv.imgReserved
  /-- Provisioning records written (R387). -/
  prov : s.nv.provCount ≤ t.nv.provCount
  /-- Blown fuses stay blown (R110). -/
  fuses : s.nv.bypass <+: t.nv.bypass
  /-- A destroyed IDKEY stays destroyed (R388). -/
  key : s.nv.idkey = none → t.nv.idkey = none

/-- Commands that run a wipe of cores outside a boundary: a cold reset, a life-cycle transition, the end of a membership or a
partition, a partition reset with no step running (Table SEC-12, R375, R417). -/
def wipesCores : Instr → Bool
  | .coldReset | .resetCold _ | .provision _ | .commission _ | .deprovision _ | .enterService _ | .returnCmd _ | .reprovision _
  | .retire _ | .sliceAdmitDone _ | .sliceLeave _ | .unconfigure _ _ | .preset _ _ | .presetSession _ _ _ => true
  | _ => false

/-- The assignment of every core and its bypass in force are the same. -/
def SameAssign (s t : State) : Prop := ∀ n : CoreIx, t.cores[n].part = s.cores[n].part ∧ t.cores[n].byp = s.cores[n].byp

/-- A message passes the receive checks of Table PLANE-9, up to the word that awaits it: its source lies in the box and is
neither cut nor refused, a fenced chip takes maintenance traffic only, the epoch is the one in force, the kind is not
reserved, a message of a step is of the running step, and no such message has been received before. -/
structure MsgChecked (m : Msg) (s : State) : Prop where
  /-- SRC. -/
  src : ∃ pl, s.plane.plan = some pl ∧ inBox pl (mSrc m) = true ∧ isCut s pl (mSrc m) = false
  /-- DST (R348). -/
  here : notHere m s = false
  /-- The fence (R322). -/
  fence : fencedOrCut s = false ∨ mKind m = 8 ∨ mKind m = 9
  /-- A neighbour refused (R321). -/
  refused : refusedSrc s (mSrc m) = false
  /-- EPOCH. -/
  epoch : mEpoch m = epochNum s
  /-- KIND. -/
  kind : mKind m < 0xB
  /-- STEP. -/
  step : mKind m ≤ 7 → mStep m = s.mc.step
  /-- Not received before. -/
  fresh : msgKey m ∉ s.plane.seen

/-- The state after the receive checks of a message that passes them: its flits freed, the message marked. -/
def checked (m : Msg) (s : State) : State :=
  { freeFlits m s with plane := { s.plane with seen := s.plane.seen ++ [msgKey m] } }

/-! ### Words of the step program -/

/-- A word of a queue may issue now: it is the queue's next, its cycle has come, and its cluster is not in RETAIN or OFF. -/
structure WordReady (s : State) (q : Nat) (down : Bool) (i : Nat) (w : IWord) : Prop where
  /-- The queue's next word, due. -/
  next : readyWord s q = some (i, w)
  /-- The island of its cluster. -/
  awake : down = false

/-- The running step once word i of a queue has completed with a status code and nothing else of the step has changed: the
queue one word on, the word's token counted, its status byte written, HW_FAULT where a contained fault has hit the word. -/
def wordOver (q i code : Nat) (w : IWord) (r : Run) : Run :=
  { r with
    ptr := tabMod 0 r.ptr q (· + 1), tokens := if wSet w = 0x3FF then r.tokens else tabMod 0 r.tokens (wSet w) (· + 1),
    status := tabSet 0 r.status i (BitVec.ofNat 8 (if r.hw.any (fun f => faultHits r f.1 i) then 2 else code)) }

/-- No word of a queue has issued without completing. -/
abbrev noFlight (s : State) (q : Nat) : Prop := ∀ x ∈ s.run.flight, x.1 ≠ q

/-- A word changed cores and the running step only, and of the cores only one: bytes b at address a of its store, and its
vector latch. -/
structure StoreDone (s t : State) (n : CoreIx) (a : Nat) (b : List Byte) : Prop where
  /-- Nothing else changed. -/
  rest : t = { s with cores := t.cores, run := t.run }
  /-- The other cores. -/
  others : ∀ m : CoreIx, m ≠ n → t.cores[m] = s.cores[m]
  /-- The core, but for store and latches. -/
  core : t.cores[n] = { s.cores[n] with store := t.cores[n].store, latches := t.cores[n].latches }
  /-- The latches of the array halves. -/
  latches : ∀ j : Fin 9, j.val ≠ 8 → t.cores[n].latches[j] = s.cores[n].latches[j]
  /-- The bytes written. -/
  written : memRead t.cores[n].store a b.length = b
  /-- Every other byte. -/
  outside : ∀ x, x < a ∨ a + b.length ≤ x → memByte t.cores[n].store x = memByte s.cores[n].store x

/-- The rule of a word of a vector unit: its result bytes stand at DST and its status says whether an event occurred, both from
the operands and from the granules that contained faults have poisoned; a word of a cluster in RETAIN or OFF completes
SKIPPED. -/
def VectorRule (core : CoreIx) (c : Instr) (sel : IWord → Prop) (dst : IWord → Nat)
    (bytes : (Nat → Bool) → CoreSt → IWord → List Byte) (event : (Nat → Bool) → CoreSt → IWord → Bool) : Prop :=
  ∀ (s : State) (i : Nat) (w : IWord), sel w →
    (WordReady s (64 + core.val) (clusterDown s (clusterOf core)) i w → Memory.wf s.cores[core].store = true →
      dst w * 128 + (bytes (unitPoison s i) s.cores[core] w).length ≤ Config.coreStoreBytes →
      ∃ t, exec c s = .next t ∧ StoreDone s t core (dst w * 128) (bytes (unitPoison s i) s.cores[core] w) ∧
        t.run = wordOver (64 + core.val) i (if event (unitPoison s i) s.cores[core] w = true then 1 else 0) w s.run) ∧
    (readyWord s (64 + core.val) = some (i, w) → clusterDown s (clusterOf core) = true →
      exec c s = .next { s with run := wordOver (64 + core.val) i 4 w s.run })

/-- FP32 lane results with those of a poisoned granule replaced by the canonical NaN, no event (Table CORE-9). -/
def spoilLanes (p : Nat → Bool) (l : List (F32 × Nat)) : List (F32 × Nat) :=
  l.zipIdx.map (fun x => if p (x.2 / 32) = true then (f32Nan, 0) else x.1)

/-- Results and events of a lane operation on the operands of a VEC word. -/
def laneResults (f : IWord → F32 → F32 → F32 → F32 × Nat) (p : Nat → Bool) (c : CoreSt) (w : IWord) : List (F32 × Nat) :=
  let v := vecWord w
  spoilLanes p (List.zipWith (fun x yz => f w x yz.1 yz.2) (vecLoad c v.sa v.n) ((vecLoad c v.sb v.n).zip (vecLoad c v.sc v.n)))

/-- Results and events of the groups of a VEC EXPMAX word: the group exponent, or the canonical NaN (R113, R69). -/
def groupResults (p : Nat → Bool) (c : CoreSt) (w : IWord) : List (F32 × Nat) :=
  let v := vecWord w
  let g := max 1 (fld w 95 9)
  spoilLanes p (((chunk g (cdiv v.n g) (vecLoad c v.sa v.n)).flatMap expMaxGroup).map (fun x => (x.1, x.2.1)))

/-- Results of a VEC SELECT word: by the mask bit of the lane, a NaN as the canonical NaN (R62, R149). -/
def selectResults (p : Nat → Bool) (c : CoreSt) (w : IWord) : List (F32 × Nat) :=
  let v := vecWord w
  spoilLanes p (((vecLoad c v.sa v.n).zip (vecLoad c v.sb v.n)).zipIdx.map (fun x =>
    let y := if bitAt (memByte c.store (v.sc * 128 + x.2 / 8)) (x.2 % 8) = true then x.1.1 else x.1.2
    (if f32IsNan y = true then f32Nan else y, 0)))

/-- The rule of a VEC operation on independent lanes. -/
def LaneRule (core : CoreIx) (c : Instr) (op : Nat) (f : IWord → F32 → F32 → F32 → F32 × Nat) : Prop :=
  VectorRule core c (fun w => wOp w = 0x50 ∧ fld w 46 4 = op) (fun w => (vecWord w).dst)
    (fun p k w => f32Bytes ((laneResults f p k w).map Prod.fst)) (fun p k w => (laneResults f p k w).any (fun x => x.2 != 0))

/-- Results and events of the elements of a CVT word; of a poisoned granule of the source, the canonical NaN (R69, R70). -/
def cvtCodes (p : Nat → Bool) (c : CoreSt) (w : IWord) : List (Nat × Nat) :=
  let wb := (cvtFmt (fld w 46 4)).width / 8
  let lanes := 128 * fld w 86 12
  (((chunk wb lanes (memRead c.store (fld w 71 15 * 128) (wb * lanes))).map leNat).map
    (cvtElem (fld w 46 4) (fld w 50 4) (fld w 54 2) (sgn 8 (fld w 98 8)))).zipIdx.map (fun x =>
      if p (x.2 * wb / 128) = true then ((cvtFmt (fld w 50 4)).nanc, 0) else x.1)

/-! ### Blocks of the request faces -/

/-- The block that an incoming word takes: the replay log's when the step is replayed and the word was logged, else the one
delivered (Table REL-8). -/
def blockTaken (s : State) (i : Nat) (delivered : List Byte) : List Byte :=
  ((s.run.log.find? (fun x => x.1 == i)).map (·.2)).getD delivered

/-- An incoming word of a KIND on a face may issue. -/
structure FaceReady (s : State) (f : FaceIx) (kind i : Nat) (w : IWord) : Prop where
  /-- The queue's next word, due. -/
  next : readyWord s (200 + f.val) = some (i, w)
  /-- A FACEIN word. -/
  op : wOp w = 0x60
  /-- Its KIND. -/
  kind : fld w 46 4 = kind

/-- An outgoing word of a KIND on a face may issue. -/
structure FaceDue (s : State) (f : FaceIx) (kind i : Nat) (w : IWord) : Prop where
  /-- The queue's next word, due. -/
  next : readyWord s (202 + f.val) = some (i, w)
  /-- A FACEOUT word. -/
  op : wOp w = 0x61
  /-- Its KIND. -/
  kind : fld w 46 4 = kind

/-- A word of a queue is over: the queue stands one word further. -/
def wordPassed (s t : State) (q : Nat) : Prop := t.run.ptr = tabMod 0 s.run.ptr q (· + 1)

/-- A block leaves a face once: a word sent before a replay sends nothing again (Table REL-8). -/
def blockSent (s t : State) (f : FaceIx) (kind i : Nat) (w : IWord) (bytes : List Byte) : Prop :=
  t.out = (if s.run.sentWords.contains i = true then s.out else s.out ++ [.face f kind (fld w 50 4) (fld w 54 10) bytes]) ∧
    i ∈ t.run.sentWords

/-! ### Exchange -/

/-- A message of KIND 0 to 5 that an XRECV of the running program awaits: it passes the receive checks, the program names its
source, KIND and MSG, and the core named there is assigned to the message's PART (Table PLANE-9, R253). -/
structure MsgAwaited (m : Msg) (s : State) : Prop where
  /-- The checks of every message. -/
  good : MsgChecked m s
  /-- The kind. -/
  kind : mKind m ≤ 5
  /-- The word. -/
  word : ∃ w, xrecvWord s (mSrc m) (mKind m) (mMsg m) = some w ∧ s.cores[xCore w].part = (mPart m).val

/-! ### Requests -/

/-- A descriptor of a kind arrives in its partition's queue on a face with a credit, on the admitting chip, for a partition in KEYED
(R257, R374). -/
structure DescTaken (s : State) (f : FaceIx) (d : Desc) (kind : Nat) : Prop where
  /-- Its KIND. -/
  isKind : dKind d = kind
  /-- A credit of its queue. -/
  credit : s.parts[dPart d].dqCred[f] ≠ 0
  /-- The admitting chip. -/
  here : admits s = true
  /-- The partition. -/
  keyed : s.parts[dPart d].st = .keyed
  /-- No PRESET has been accepted (R417). -/
  noPreset : s.parts[dPart d].presetPend = none
  /-- Fields that every kind checks. -/
  fields : kind ≠ 1 → descBounds d = false

/-- One answer stands in the batch of the step for which the descriptor was taken, on the face that took it, and on no other
(R279). -/
def answered (s t : State) (f : FaceIx) (e : ResEntry) : Prop :=
  t.faces[f].answers = (if pastClose s = true then s.faces[f].answers else s.faces[f].answers ++ [e]) ∧
    t.faces[f].answersLater = (if pastClose s = true then s.faces[f].answersLater ++ [e] else s.faces[f].answersLater) ∧
    ∀ g : FaceIx, g ≠ f → t.faces[g] = s.faces[g]

/-- A descriptor taken with a status: answered once, remembered for its step with what it took, and its credit out until then, or
back at once when it is refused (R261, R268, R279, R483). -/
structure Taking (s t : State) (f : FaceIx) (d : Desc) (st : AnsStatus) (req hold : Nat) : Prop where
  /-- What taking a descriptor may change. -/
  rest : t = { s with out := t.out, regs := t.regs, recs := t.recs, parts := t.parts, faces := t.faces, run := t.run, adm := t.adm }
  /-- The answer. -/
  answer : ∃ e : ResEntry, answered s t f e ∧ e.status = st ∧ e.seq = dSeq d ∧ e.part = (dPart d).val ∧ (req ≠ 0 → e.req = req)
  /-- The descriptor kept for its boundary. -/
  kept : t.adm.taken = s.adm.taken ++
    [{ step := takenStep (pastClose s) s, face := f, desc := d, ok := decide (st = .ok), req := req, hold := hold,
       ans := some (answerPlace (pastClose s) f s) }]
  /-- The highest SEQ. -/
  high : t.parts[dPart d].seqHigh = if s.parts[dPart d].seqHigh.toNat < (dSeq d).toNat ∧ (dSeq d).toNat < 2 ^ 64 - 1 then dSeq d else s.parts[dPart d].seqHigh
  /-- The credit. -/
  credit : (st = .ok → t.parts[dPart d].dqCred[f] = s.parts[dPart d].dqCred[f] - 1 ∧ t.out = s.out) ∧
    (st ≠ .ok → st ≠ .dup → t.parts[dPart d].dqCred[f] = s.parts[dPart d].dqCred[f] ∧ .credit f (dPart d) ∈ t.out)
  /-- The other partitions. -/
  others : ∀ p : Part, p ≠ dPart d → t.parts[p] = s.parts[p]

/-! ### Command rings -/

/-- A command stands at the front of a partition's command ring and may be taken: the partition is KEYED, no command of it is
under way, and no reserved code follows (R239, R374, R410). -/
structure CmdFront (s : State) (p : Part) (c : ResCmd) : Prop where
  /-- The partition. -/
  keyed : s.parts[p].st = .keyed
  /-- Nothing under way. -/
  idle : cmdBusy s p = false
  /-- The front, and what follows. -/
  front : ∃ r, s.parts[p].resq.ents = c :: r ∧ ∀ b x, r ≠ .reserved b :: x

/-- The command at the front has been taken from the ring, and no other partition has changed. -/
structure CmdGone (s t : State) (p : Part) : Prop where
  /-- The ring. -/
  taken : t.parts[p].resq = ringTake s.parts[p].resq 1
  /-- The other partitions. -/
  others : ∀ q : Part, q ≠ p → t.parts[q] = s.parts[q]
  /-- The units that no residency command touches. -/
  rest : t.cores = s.cores ∧ t.recs = s.recs ∧ t.faces = s.faces ∧ t.ports = s.ports ∧ t.mc = s.mc ∧ t.progs = s.progs

/-- A DONE entry with a status stands on the partition's completion ring (R240). -/
def doneWith (s t : State) (p : Part) (slot : Nat) (st : CplStatus) : Prop :=
  t.parts[p].resc = ringPut s.parts[p].resc { index := s.parts[p].resq.rd.toNat, slot := slot, status := st }

/-- A command completes with a status and does nothing else. -/
structure CmdRefused (s t : State) (p : Part) (slot : Nat) (st : CplStatus) : Prop where
  /-- Nothing else. -/
  same : t = { s with parts := t.parts, regs := t.regs }
  /-- The ring. -/
  gone : CmdGone s t p
  /-- The entry. -/
  entry : doneWith s t p slot st

/-- A page command with a CMD stands at the front of a partition's RCC command ring and may be taken: no page that it touches is
named by a list of the running step, and no reserved command follows (R182, R473). -/
structure PageFront (s : State) (p : Part) (cmd : Nat) (e : BitVec 256) : Prop where
  /-- The partition. -/
  keyed : s.parts[p].st = .keyed
  /-- Its CMD. -/
  isCmd : pcCmd e = cmd
  /-- The pages of the running step. -/
  free : ∀ d ∈ pcTouches s.parts[p] e, d ∉ stepPages s p
  /-- The front, and what follows. -/
  front : ∃ r, s.parts[p].rccq.ents = e :: r ∧ ∀ x y, r = x :: y → 1 ≤ pcCmd x ∧ pcCmd x ≤ 5

/-- A page command has been taken; only its partition, and what a page's bytes are part of, has changed. -/
structure PageGone (s t : State) (p : Part) : Prop where
  /-- What may change. -/
  rest : t = { s with out := t.out, regs := t.regs, hbm := t.hbm, parts := t.parts, err := t.err }
  /-- The ring. -/
  taken : t.parts[p].rccq = ringTake s.parts[p].rccq 1
  /-- The other partitions. -/
  others : ∀ q : Part, q ≠ p → t.parts[q] = s.parts[q]
  /-- The page lists. -/
  lists : t.parts[p].plists = s.parts[p].plists

/-- A page command's completion entry with a status (R183). -/
def pageEntry (s t : State) (p : Part) (cmd desc : Nat) (st : CplStatus) : Prop :=
  t.parts[p].rccc = ringPut s.parts[p].rccc { index := s.parts[p].rccq.rd.toNat, cmd := cmd, status := st, desc := desc }

/-- A descriptor with a REF changed. -/
def refPlus (d : PageDesc) (n : Nat) : PageDesc := { d with ref := d.ref + n }

/-! ### Management requests -/

/-- A management request that is carried out: the control core answers commands, SEQ is in its range and is not the last
request's (R406, R407). -/
structure MgmtFresh (seq : BitVec 16) (s : State) : Prop where
  /-- The phase. -/
  phase : cmdOpen s = true
  /-- SEQ is 1 or more. -/
  seq0 : seq ≠ 0
  /-- It is no repetition. -/
  new : seq ≠ s.cc.lastSeq

/-- The state after a management response: it is sent, and it is the one that a repetition gets again (R407). -/
def mgmtSaid (cmd : Nat) (seq : BitVec 16) (status : Nat) (body : List Byte) (u : State) : State :=
  let r : MgmtRsp := { cmd, seq, status, body }
  { u with out := u.out ++ [.mgmt r], cc := { u.cc with lastSeq := seq, lastRsp := r } }

/-- The state with the request counted as an input and the interrupt of a management message raised (R396, R462). -/
def mgmtHeard (s : State) : State := raiseInt 1 0 s

/-- A command answered PENDING: it is the one whose result GET_STATUS gives (R407). -/
def pendNoted (cmd : Nat) (seq : BitVec 16) (w : PendWork) (u : State) : State :=
  { u with cc := { u.cc with pendCmd := some (cmd, seq, w), pendLast := (cmd, seq, 0xB) } }

/-! ### Values and memories -/

/-- The magnitude m × 2^e as a rational number. -/
def magRat (m : Nat) (e : Int) : ℚ := (m : ℚ) * (2 : ℚ) ^ e

/-- A finite value as a rational number. -/
def valRat (v : Val) : Option ℚ :=
  match v with
  | .fin n m e => some (if n then -magRat m e else magRat m e)
  | _ => none

/-- Every memory of the chip is in its canonical form: HBM, the image slot and every core store. -/
structure MemOk (s : State) : Prop where
  /-- HBM. -/
  hbm : s.hbm.wf = true
  /-- The image slot. -/
  slot : s.cc.slotBytes.wf = true
  /-- The core stores. -/
  stores : ∀ n : CoreIx, s.cores[n].store.wf = true

end Sys2Proof.Machine
end

