-- ==== Sys2Proof/WellFormed.lean ====
section
/-!
DEFINITION. What the wire admits: the sizes and ranges of the data that a command carries, where its type does not fix
them. A sender can spell no other term; the machine is total on the rest all the same (log entry 62).
-/

namespace Sys2Proof

/-- A SHA-384 digest has 48 bytes. -/
def digestWf (d : List Byte) : Bool := d.length == 48

/-- A message has as many body bytes as its BLEN says, at most 524,032 (Table PLANE-7). -/
def Msg.wf (m : Msg) : Bool :=
  let blen := (m.hdr.toNat >>> 188) % 2 ^ 20
  m.body.length == blen && decide (blen ≤ 524032)

/-- A flit has 256 bytes (Table PLANE-3). -/
def RxFlit.wf (f : RxFlit) : Bool := f.bytes.length == 256

/-- A token report has 16 token fields (Table SERVE-6). -/
def TokenReport.wf (r : TokenReport) : Bool := r.toks.length == 16

/-- A sample has one power for each of the 20 islands (R447). -/
def Telemetry.wf (t : Telemetry) : Bool := t.islands.length == 20

/-- A fault names a source of Table REL-4 and a word of a program (R122). -/
def StepFault.wf (f : StepFault) : Bool := decide (1 ≤ f.src ∧ f.src ≤ 0x0F ∧ f.word < 1048575 ∧ f.row < 65536)

/-- A hello has 448 bytes (R355). -/
def helloWf (h : List Byte) : Bool := h.length == 448

/-- The errors of a codeword lie in different symbols and change them (R424). -/
def scrubWf (l : List (Fin 72 × Byte)) : Bool := decide (l.map Prod.fst).Nodup && l.all (fun e => e.2 != 0)

/-- One reading for each of the twelve sensors (R446). -/
def readingsWf (l : List Nat) : Bool := l.length == 12

/-- The bad columns of an array number, below 256, are listed once (R439). -/
def badColumnsWf (l : List (Nat × List (Fin 32))) : Bool :=
  decide (l.map Prod.fst).Nodup && l.all (fun e => decide (e.1 < 256) && decide e.2.Nodup)

/-- A slot index (R31). -/
def slotWf (n : Nat) : Bool := decide (n < 65536)

/-- The operands of a ring entry lie in the widths of the fields they are written to (Tables RES-6 and CTRL-7). -/
def ResCmd.wf : ResCmd → Bool
  | .load slot version area cold len shset => imageWf slot version area cold len shset
  | .shload slot version area cold len shset => imageWf slot version area cold len shset
  | .shrows slot version area cold len shset => imageWf slot version area cold len shset
  | .seal slot => slotWf slot
  | .publish slot => slotWf slot
  | .drop slot => slotWf slot
  | .save slot version key cold => slotWf slot && decide (version < 65536 ∧ key < 256 ∧ cold < 2 ^ 64)
  | .evict slot _ key cold => slotWf slot && decide (key < 256 ∧ cold < 2 ^ 64)
  | .mirror slot version area _ ownerSlot rank tmask _ _ =>
    slotWf slot && slotWf ownerSlot && decide (version < 65536 ∧ area < 2 ^ 64 ∧ rank < 512 ∧ tmask < 65536)
  | .setattr slot _ _ => slotWf slot
  | .twrite index addr _ => decide (index < 2 ^ 32 ∧ addr < 2 ^ 64)
  | .keep slot => slotWf slot
  | .discard slot => slotWf slot
  | .hpset set _ _ _ _ _ => decide (set < 2 ^ 16)
  | .reserved code => decide (code < 256 ∧ code ∉ [1, 2, 3, 4, 5, 6, 7, 8, 9, 10, 0x10, 0x11, 0x12, 0x13])
where
  /-- The operands of the image commands. -/
  imageWf (slot version area cold len shset : Nat) : Bool :=
    slotWf slot && decide (version < 65536 ∧ area < 2 ^ 64 ∧ cold < 2 ^ 64 ∧ len < 2 ^ 64 ∧ shset < 4096)

/-- A command is well formed. -/
def Instr.wf : Instr → Bool
  | .patrolScrub _ errs => scrubWf errs
  | .tempSample l => readingsWf l
  | .telemetryRefresh t => t.wf
  | .fatalError src => decide (1 ≤ src ∧ src < 256)
  | .stepReplay f => f.wf
  | .psumMsg m | .rowreqMsg m | .rowsMsg m | .gradMsg m | .agreeMsg m | .digestMsg m | .lateMsg m | .doneMsg m | .syncMsg m
  | .noticeMsg m | .admitMsg m | .tsyncMsg _ _ m | .tdigMsg m | .linkevMsg m | .msgForward _ _ m => m.wf
  | .dataFlitRx _ f | .ctrlFlitRx _ f | .nakRx _ f => f.wf
  | .helloRx _ h => helloWf h
  | .tokenReport _ r => r.wf
  | .sealRebuildDone _ slot => slotWf slot
  | .keyExchange p => digestWf p.digest
  | .fwBegin _ _ d => digestWf d
  | .sliceAdmit _ _ _ d => digestWf d
  | .epochPend _ _ _ d _ _ => digestWf d
  | .progLoad _ _ _ _ d => digestWf d
  | .bootRomMeasured d => digestWf d
  | .selftestDone l => badColumnsWf l
  | .pcmd _ _ e => e.wf
  | .ringIndexWrite _ _ _ _ ents _ => match ents with
    | .resq l => l.all ResCmd.wf
    | _ => true
  | .coldReset | .pllLockDone | .hbmTrainingDone _ | .autumnWipeDone | .stepSyncEdge _ | .pwrWarnAssert | .pwrWarnRelease
  | .svcDrain | .drainComplete | .watchdogExpiry | .restartComplete | .checkpointComplete | .admissionClose | .march
  | .marchDeadline | .boundary | .segmentationDone | .handoverCheckDone | .tailCommit | .resultRelease _ | .ringWrite _
  | .holdExpiry _ _ | .nop _ | .wait _ | .hfill _ | .tfill _ | .stream _ | .conv _ | .reduceQ _ | .reduceRcc _ | .reduceU _
  | .reducePart _ | .vecAdd _ | .vecSub _ | .vecMul _ | .vecFma _ | .vecMax _ | .vecMin _ | .vecScale2 _ | .vecExpmax _
  | .vecCmp _ | .vecSelect _ | .cvt _ | .faceinAct _ _ | .faceinGrad _ _ | .faceinQry _ _ | .faceinProb _ _
  | .faceinLogit _ _ | .faceoutBitmap _ | .faceoutDelta _ | .faceoutIgrad _ | .faceoutScore _ | .faceoutVdelta _
  | .faceoutTopk _ | .xsend _ | .xrecv _ | .macc _ | .mopt _ | .mregen _ | .rccUwrite | .rccKpass | .rccVpass | .flitTx _
  | .nakTimeout _ | .pmdTrainingDone _ | .helloTx _ | .discoveryTimeout _ | .linkDown _ _ | .retrainTimer _
  | .syncExchange _ _ | .holdoverExpiry | .closureTimeout | .new _ _ _ | .cancel _ _ _ | .pause _ _ _ | .resume _ _ _ | .repin _ _ _
  | .pfxdrop _ _ _ | .holdComplete _ _ | .resumeComplete _ _ _ | .load _ | .shload _ | .shrows _ | .seal _ | .publish _ | .drop _
  | .save _ | .evict _ | .mirror _ | .setattr _ | .imageCheckDone _ _ | .areaFreed _ | .twrite _ | .keep _ | .discard _
  | .hpset _ | .share _ | .release _ | .hold _ | .restore _ | .wipe _ | .pageMoveDone _ _ _ | .getPinfo _ _ _ | .claim _ _ _
  | .putPkey _ _ _ | .keyedClearDone _ | .putKey _ _ _ _ | .delKey _ _ _ _ | .setPolicy _ _ _ | .presetSession _ _ _
  | .putLinkkey _ _ _ | .partitionWipeDone _ | .getVersion | .getCapabilities | .negotiateAlgorithms _ | .getDigests
  | .getCertificate _ | .challenge _ _ | .getMeasurements _ _ | .finish _ | .heartbeat _ | .sessionExpiry _ | .keyUpdate _
  | .endSession _ | .setEndpointId _ | .getEndpointId | .getEndpointUuid | .getMctpVersionSupport _ | .getMessageTypeSupport
  | .getVendorDefinedMsgSupport | .getIdent _ | .getStatus _ | .regRead _ _ _ _ _ | .rwlWrite _ _ _ _ | .fwData _ _ _
  | .fwEnd _ | .imageVerifyDone | .fwActivate _ _ | .provision _ | .commission _ | .deprovision _ | .enterService _
  | .returnCmd _ | .reprovision _ | .retire _ | .coldGrant _ _ _ | .sliceAdmitDone _ | .sliceStart _ _ _ | .sliceLeave _
  | .epochAbort _ | .progLoadDone _ | .progDrop _ _ | .configure _ _ _ | .unconfigure _ _ | .preset _ _ | .coreAssign _ _ _
  | .resetCold _ | .resetPort _ _ | .resetRestart _ | .selftest _ _ | .fuseBypass _ _ _ _ | .chselWrite _ _ _
  | .pairLoRead _ _ _ | .intStatusClear _ _ _ | .idAstatClear _ _ | .uuTflagClear _ _ | .kick _ _ | .rbAck _ _
  | .ringConfigWrite _ _ _ _ | .coreBypWrite _ _ | .pwIslReq _ _ | .islandStateReached _ | .sgNextWrite _ _ _
  | .segcapWrite _ _ _ | .lscaleWrite _ _ _ _ | .registerWrite _ _ _ _ | .imageWriteDone _ | .controlCoreFault _
  | .fuseLoadDone _ | .firmwareStartDone | .registerRead _ _ _ => true

end Sys2Proof
end

