-- ==== Sys2Proof/Certificates/Slice0/Obligations.lean ====
section
/-!
DEFINITION. The statements for the provers: what reset leaves, what each command of the table does and leaves alone, and the rules of
the whole machine. Where a statement rests on a choice of the model, its words name the log entry.
-/

open Sys2Proof Sys2Proof.Machine

/-! ### The queue and the step -/

/-- The command at the front of the queue is carried out with the rest of the queue.

With no command waiting a tick of the March counter passes and nothing else changes (log entry 64).

No command of the table stops the machine, and none touches the queue. -/
def Obligations.StepTakesFrontCommand : Prop :=
  ((∀ (c : Instr) (s : State), step (putFront c s) = exec c s) ∧
  (∀ (c : Instr) (r : List Instr) (s : State), s.pending = c :: r → step s = exec c { s with pending := r })) ∧
  (∀ s : State, s.pending = [] → step s = .next { s with mc := { s.mc with tick := s.mc.tick + 1 } }) ∧
  (∀ (c : Instr) (s : State), ∃ t, exec c s = .next t ∧ t.pending = s.pending)

/-- The machine right after a cold reset: phase 0x0 of the bring-up, the chip in no slice and with no coordinate, the ports
DISABLED, the partitions IDLE, no core assigned, no program loaded, no key held, no step running, memory reading as zero.

The chip is in order after reset. -/
def Obligations.ResetLeavesMachine : Prop :=
  (State.reset.pending = [] ∧ State.reset.cc.bootph = 0 ∧ State.reset.plane.plan = none ∧ State.reset.plane.coordOk = false ∧
  (∀ i : PortIx, State.reset.ports[i].st = .disabled) ∧ (∀ p : Part, State.reset.parts[p].st = .idle) ∧
  (∀ n : CoreIx, State.reset.cores[n].part = 0x1F) ∧ (∀ k : PSlot, State.reset.progs[k] = none) ∧
  State.reset.sec.lkey = none ∧ State.reset.sec.zkey = none ∧ State.reset.run.isOpen = false ∧
  (∀ a, memByte State.reset.hbm a = 0) ∧ State.reset.hbm.wf = true ∧ State.reset.mc.locked = false) ∧
  (LifeOk State.reset)

/-- Life-cycle rule of the whole machine: whatever command is carried out, the life-cycle state changes at the end of the
Autumn wipe only, and then along Table SEC-10; and the chip stays in order. -/
def Obligations.LifeCycleMovesAlongTable : Prop :=
  ∀ (c : Instr) (s t : State), LifeOk s → exec c s = .next t →
    LifeOk t ∧ (t.nv.lc = s.nv.lc ∨ (c = .autumnWipeDone ∧ s.sec.pendLc = some t.nv.lc ∧ lifeEdge s.nv.lc t.nv.lc))

/-- The one-way store never goes back.

A retired chip stays retired, whatever is sent to it, and its identity key stays destroyed.

The assignment of cores and the bypass in force change at a boundary only, or with a wipe of the cores.

The configuration epoch in force changes at a boundary only, or ends with a membership (also one that a hello
of another slice refuses, R357) or a wipe of the chip. -/
def Obligations.NothingGoesBackOrChangesEarly : Prop :=
  (∀ (c : Instr) (s t : State), exec c s = .next t → OneWay s t) ∧
  (∀ (c : Instr) (s t : State), LifeOk s → s.nv.lc = .retired → exec c s = .next t → t.nv.lc = .retired ∧ t.nv.idkey = none) ∧
  (∀ (c : Instr) (s t : State), c ≠ .boundary → (∀ x, c ≠ .fuseLoadDone x) → wipesCores c = false → exec c s = .next t → SameAssign s t) ∧
  (∀ (c : Instr) (s t : State), c ≠ .boundary → wipesCores c = false → (∀ p h, c = .helloRx p h → s.plane.st ≠ .forming) →
    exec c s = .next t → t.epoch = s.epoch)

/-! ### Bring-up, the control core, power -/

/-- Cold reset and the phases of Table CTRL-9 up to the image: each event, in its phase, ends that phase and has its effect,
and nothing else changes.
Commands that it shows to complete, on the conditions that it states: coldReset, pllLockDone, fuseLoadDone, bootRomMeasured,
hbmTrainingDone, firmwareStartDone.

The end of the Autumn wipe: a fresh ZKEY, the wipe counter, the transition that waited for it, an RWL_WRITE that waited and meets the
new state, and in a cold bring-up the next phase.
Commands that it shows to complete, on the conditions that it states: autumnWipeDone.

The verification of a staged image: format before integrity, the PENDING command ended, a refused image leaves the slot
empty; an accepted one runs at once in the boot ROM, and waits in the slot otherwise.
Commands that it shows to complete, on the conditions that it states: imageVerifyDone. -/
def Obligations.ColdBringUp : Prop :=
  ((∀ s : State, exec .coldReset s = .next { State.reset with
      pending := s.pending, out := s.out, freeIx := s.freeIx, nv := s.nv, sec := { State.reset.sec with imgCtr := s.nv.imgReserved },
      err := { State.reset.err with fatal := s.err.fatal } }) ∧
  (∀ s : State, s.cc.bootph = 0 → exec .pllLockDone s = .next { s with cc := { s.cc with bootph := 1 } }) ∧
  (∀ (straps : Coord) (s : State), s.cc.bootph = 1 → ∃ t, exec (.fuseLoadDone straps) s = .next t ∧
      t = { s with cc := { s.cc with bootph := 2 }, plane := { s.plane with strap := straps }, cores := t.cores } ∧
      ∀ n : CoreIx, t.cores[n].part = s.cores[n].part ∧
        ∀ a : Fin 4, t.cores[n].byp[a] = fuseBypass s.nv.bypass (4 * n.val + a.val) ∧ t.cores[n].bypNext[a] = t.cores[n].byp[a]) ∧
  (∀ (d : List Byte) (s : State), s.cc.bootph = 2 →
      exec (.bootRomMeasured d) s = .next { s with cc := { s.cc with bootph := 3, romDigest := d } }) ∧
  (∀ s : State, s.cc.bootph = 3 → exec (.hbmTrainingDone none) s =
      .next { s with cc := { s.cc with bootph := 4 }, sec := { s.sec with wiping := true, lastWipe := false } }) ∧
  (∀ (k : Fin 4) (s : State), s.cc.bootph = 3 →
      exec (.hbmTrainingDone (some k)) s = .next { s with cc := { s.cc with bootph := 9, booterr := k.val } }) ∧
  (∀ s : State, s.cc.bootph = 7 → ∃ t, exec .firmwareStartDone s = .next t ∧
      t = { s with cc := { s.cc with bootph := 8 }, plane := t.plane, out := t.out } ∧
      t.plane.rwl = (if s.nv.lc = .operational ∨ s.nv.lc = .service then s.nv.prov.getD {} else s.plane.rwl))) ∧
  (∀ s : State, s.sec.wiping = true → 4 ≤ s.cc.bootph → s.cc.bootph ≤ 8 → ∃ t, exec .autumnWipeDone s = .next t ∧
    t = { s with sec := t.sec, nv := t.nv, freeIx := t.freeIx, cc := t.cc, regs := t.regs, plane := t.plane, out := t.out } ∧
    t.sec.wiping = false ∧ t.sec.zkey = some (Config.free 512 s.freeIx) ∧ t.nv.wipes = min 0xFFFE (s.nv.wipes + 1) ∧
    t.cc.bootph = (if s.cc.bootph = 4 then 5 else s.cc.bootph) ∧ t.sec.pendLc = none ∧
    (s.sec.pendLc = none → t.nv.lc = s.nv.lc ∧ t.nv.prov = s.nv.prov ∧ t.nv.idkey = s.nv.idkey) ∧
    ∀ d, s.sec.pendLc = some d → t.nv.lc = d ∧ t.cc.pendCmd = (match s.cc.pendCmd with
        | some (_, _, .transition _) => none
        | w => w) ∧
      (d = .retired → t.nv.idkey = none ∧ t.nv.prov = none) ∧ (d = .blank ∨ (d = .provisioned ∧ s.nv.lc ≠ .blank) → t.nv.prov = none) ∧
      (d = .operational → s.nv.lc = .provisioned → t.nv.prov = some s.plane.rwl) ∧
      t.cc.rwlHeld = [] ∧ ∀ q w, s.cc.rwlHeld = [(q, 4, 0x3C, w)] → q ≠ 0 → q ≠ s.cc.lastSeq → 5 ≤ s.cc.bootph → d = .operational →
        .mgmt { cmd := 4, seq := q, status := 1 } ∈ t.out ∧ t.plane.rwl = s.plane.rwl) ∧
  (∀ (s : State) (c : Nat) (q : BitVec 16), s.cc.pendCmd = some (c, q, .fwEnd) →
    ∃ t, exec .imageVerifyDone s = .next t ∧ t = { s with cc := t.cc, nv := { s.nv with svnMin := t.nv.svnMin } } ∧
      t.cc.pendCmd = none ∧
      let b := slotBytes s
      let st := if imageFormat b = false then 5 else if imageIntegrity s b = false then 4 else 0
      t.cc.pendLast = (c, q, st) ∧
      (if st ≠ 0 then t.cc.slotSt = .empty ∧ t.cc.slotImage = none ∧ t.cc.image = s.cc.image ∧
        t.cc.bootph = (if s.cc.bootph = 6 then 5 else s.cc.bootph) ∧ t.nv = s.nv
      else if s.cc.bootph = 6 then t.cc.bootph = 7 ∧ t.cc.image = some (imageOf b) ∧ t.cc.slotSt = .running ∧
        t.nv.svnMin = max s.nv.svnMin (imageOf b).svn
      else t.cc.slotSt = .pending ∧ t.cc.slotImage = some (imageOf b) ∧ t.cc.image = s.cc.image ∧ t.nv = s.nv))

/-- Restart, checkpoint and repair of the control core: a watchdog that has run out and an uncorrectable error of the data SRAM,
the register file or the pipeline restart it with their cause and change no value of a step; the end of the replay, a
completed checkpoint, and an instruction SRAM line repaired from the image slot.
Commands that it shows to complete, on the conditions that it states: watchdogExpiry, controlCoreFault, restartComplete,
checkpointComplete.

The fifth restart within 1,000 steps halts the control core, whatever its cause, and the halt fences the chip.

A FATAL error of a memory or unit: the fatal record and the last fatal entry, the fence, every port DOWN or FENCED, and no
further word issues.
Commands that it shows to complete, on the conditions that it states: fatalError. -/
def Obligations.ControlCoreFailures : Prop :=
  ((∀ s : State, 5 ≤ s.cc.bootph → s.cc.bootph ≤ 8 → 5 * s.cc.wdogT.toNat ≤ 6 * (s.mc.tick.toNat - s.cc.wdogKick) →
    ((s.cc.restartSteps.filter (fun x => decide (s.mc.step.toNat < x.toNat + 1000))).length < 4) →
    ∃ t, exec .watchdogExpiry s = .next t ∧ t = { s with cc := t.cc, err := t.err, regs := t.regs, run := { s.run with corrected := true } } ∧
      t.cc = { s.cc with restarting := true, restartCause := 1, restarts := min 0xFFFE (s.cc.restarts + 1), wdogKick := s.mc.tick.toNat,
                         restartSteps := t.cc.restartSteps } ∧ s.mc.step ∈ t.cc.restartSteps) ∧
  (∀ (f : CcFault) (k : Nat) (s : State), (f, k) ∈ [(CcFault.dataSram, 2), (CcFault.regFile, 3), (CcFault.pipeline, 4)] →
    5 ≤ s.cc.bootph → s.cc.bootph ≤ 8 →
    ((s.cc.restartSteps.filter (fun x => decide (s.mc.step.toNat < x.toNat + 1000))).length < 4) →
    ∃ t, exec (.controlCoreFault f) s = .next t ∧ t = { s with cc := t.cc, err := t.err, regs := t.regs, run := { s.run with corrected := true } } ∧
      t.cc = { s.cc with restarting := true, restartCause := k, restarts := min 0xFFFE (s.cc.restarts + 1), wdogKick := s.mc.tick.toNat,
                         restartSteps := t.cc.restartSteps } ∧ s.mc.step ∈ t.cc.restartSteps ∧
      (tabGet (0, 0) t.err.cnt 0x0B).1 = min 0xFFFE ((tabGet (0, 0) s.err.cnt 0x0B).1 + 1)) ∧
  (∀ s : State, 5 ≤ s.cc.bootph → s.cc.bootph ≤ 8 → s.cc.image.isSome = true → s.cc.slotSt = .running →
    ∃ t, exec (.controlCoreFault .instrSram) s = .next t ∧ t = { s with err := t.err, run := { s.run with corrected := true } } ∧
      (tabGet (0, 0) t.err.cnt 0x0C).1 = min 0xFFFE ((tabGet (0, 0) s.err.cnt 0x0C).1 + 1)) ∧
  (∀ s : State, exec .restartComplete s = .next { s with cc := { s.cc with restarting := false } }) ∧
  (∀ (s : State) (n : BitVec 64), s.cc.ckptCopy = some n → ∃ t, exec .checkpointComplete s = .next t ∧ t = { s with cc := t.cc } ∧
    t.cc.ckptStep = some n ∧ t.cc.ckptOld = s.cc.ckptStep ∧ t.cc.ckptCopy = none ∧ t.cc.ckptArea = !s.cc.ckptArea)) ∧
  (∀ s : State, 5 ≤ s.cc.bootph → s.cc.bootph ≤ 8 → 5 * s.cc.wdogT.toNat ≤ 6 * (s.mc.tick.toNat - s.cc.wdogKick) →
    4 ≤ (s.cc.restartSteps.filter (fun x => decide (s.mc.step.toNat < x.toNat + 1000))).length →
    ∃ t, exec .watchdogExpiry s = .next t ∧ t.cc.bootph = 10 ∧ t.mc.fenced = true ∧ t.run.held = true ∧ t.err.fatal.isSome = true) ∧
  (∀ (src : Nat) (s : State), 1 ≤ src → src ≤ 0x0F →
    ∃ t, exec (.fatalError src) s = .next t ∧ t = { s with
        freeIx := t.freeIx, out := t.out, nv := { s.nv with lastFatal := t.nv.lastFatal }, regs := t.regs, ports := t.ports
        mc := { s.mc with fenced := true }, run := { s.run with held := true }, err := t.err } ∧
      t.err.fatal = (s.err.fatal.orElse (fun _ => some (src, s.mc.step))) ∧
      t.nv.lastFatal.isSome = true ∧ t.mc.fenced = true ∧ t.run.held = true ∧ issueOpen t = false ∧
      (∀ i : PortIx, t.ports[i].st = .down ∨ t.ports[i].st = .fenced))

/-- Power warning, temperature, telemetry, islands and self-test.
Commands that it shows to complete, on the conditions that it states: pwrWarnAssert, pwrWarnRelease, tempSample, telemetryRefresh,
islandStateReached, selftestDone.

Scrubbing: the counter of units goes on, and the decoder's answer decides: a clean codeword changes nothing else, a
corrected one is counted, an uncorrectable one stands as such; a codeword taken for another leaves the unit with what its
ciphertext, a free value, decrypts to (log entry 1, R382).
Commands that it shows to complete, on the conditions that it states: patrolScrub. -/
def Obligations.PowerAndMemoryErrors : Prop :=
  ((∀ s : State, s.pw.warn = false → ∃ t, exec .pwrWarnAssert s = .next t ∧
    t = { s with pw := { s.pw with warn := true, warns := min 0xFFFE (s.pw.warns + 1) }, run := { s.run with pwr := true },
                 err := t.err, regs := t.regs }) ∧
  (∀ s : State, s.pw.warn = true → ∃ t, exec .pwrWarnRelease s = .next t ∧
    t = { s with pw := { s.pw with warn := false }, err := t.err, regs := t.regs }) ∧
  (∀ (l : List Nat) (s : State), l.length = 12 → (∀ x ∈ l, x < s.plane.rwl.thTrip.toNat) →
    ∃ t, exec (.tempSample l) s = .next t ∧ t.pw.temps.toList = l ∧ t.err.fatal = s.err.fatal ∧
      ((∃ x ∈ l, s.plane.rwl.thThrottle.toNat ≤ x) → t.pw.hot = true) ∧ (s.pw.hot = false → (∀ x ∈ l, x < s.plane.rwl.thThrottle.toNat) → t.pw.hot = false)) ∧
  (∀ (x : Telemetry) (s : State), exec (.telemetryRefresh x) s = .next { s with pw := { s.pw with
      total := x.total, stackPower := x.stackPower, vin := x.vin, energy := s.pw.energy + BitVec.ofNat 64 x.energy,
      islands := Vector.ofFn (fun i => { s.pw.islands[i] with power := x.islands.getD i.val 0 }) } }) ∧
  (∀ (i : Fin 20) (s : State), s.pw.islands[i].going = true → ∃ t, exec (.islandStateReached i) s = .next t ∧
    t.pw.islands[i].st = s.pw.islands[i].req ∧ t.pw.islands[i].going = false ∧
    (∀ j : Fin 20, j ≠ i → t.pw.islands[j] = s.pw.islands[j]) ∧
    (s.pw.islands[i].st = .off → ∀ (h : 2 ≤ i.val ∧ i.val < 10) (n : CoreIx), n.val / 8 = i.val - 2 → t.cores[n].store = [])) ∧
  (∀ (l : List (Nat × List (Fin 32))) (s : State) (c : Nat) (q : BitVec 16) (m : BitVec 64), s.cc.pendCmd = some (c, q, .selftest m) →
    tabWf 0 s.err.stRes = true → ∃ t, exec (.selftestDone l) s = .next t ∧ t.cc.pendCmd = none ∧ t.cc.pendLast = (c, q, 0) ∧
      ∀ n : Fin 64, m.getLsbD n.val = true → tabGet 0 t.err.stRes n.val = selfRes l n.val)) ∧
  (∀ (u : Nat) (errs : List (Fin 72 × Byte)) (s : State), u < hbmUnits → u ∉ s.err.badUnits →
    (rsDecode s.err.ecc errs = .clean →
      exec (.patrolScrub u errs) s = .next { s with err := { s.err with scrubbed := (s.err.scrubbed + 1) % hbmUnits } }) ∧
    (rsDecode s.err.ecc errs = .corrected → ∃ t, exec (.patrolScrub u errs) s = .next t ∧
      t = { s with err := t.err, run := { s.run with corrected := true } } ∧ t.err.badUnits = s.err.badUnits ∧
      (tabGet (0, 0) t.err.cnt 0x0E).1 = min 0xFFFE ((tabGet (0, 0) s.err.cnt 0x0E).1 + 1)) ∧
    (rsDecode s.err.ecc errs = .uncorrectable → ∃ t, exec (.patrolScrub u errs) s = .next t ∧ t.err.badUnits = s.err.badUnits ++ [u]) ∧
    (∀ r : Bool, rsDecode s.err.ecc errs = .wrong r → 2 * Config.hbmUnit ≤ 64 * u → ∃ t, exec (.patrolScrub u errs) s = .next t ∧
      t.err.badUnits = s.err.badUnits ∧ t.hbm = memWrite s.hbm (64 * u) (openUnit s u (leBytes 64 (Config.free 512 s.freeIx).toNat))))

/-! ### Time and the March counter -/

/-- Sync exchanges: an exchange begun, a request answered, an answer taken from the parent, the first answer, and the end of
holdover (R303, R304, R306, R307). The fraction of a tick in the answer's transmit stamp, the trim's law and what
other chips' links add to FLOOD_MEAS are free values (log entries 1 and 42); that two stamps differ modulo 2^54 is the model's reading (log entry 127).
Commands that it shows to complete, on the conditions that it states: syncExchange, tsyncMsg, holdoverExpiry.

The external edge: taken, it becomes the error held for the closing boundary and is flooded as a SYNC; not taken, it is
counted (R314, R316).
Commands that it shows to complete, on the conditions that it states: stepSyncEdge. -/
def Obligations.ClockSynchronised : Prop :=
  ((∀ (i : PortIx) (tx : Nat) (s : State), portCarries s i 3 = true → ∃ t, exec (.syncExchange i tx) s = .next t ∧
    t = { s with ports := t.ports, out := t.out } ∧ t.ports[i].syncT1 = some (tx % 2 ^ 54) ∧
    t.ports[i].syncSeq = s.ports[i].syncSeq + 1 ∧ t.ports[i].tsyncNo = (s.ports[i].tsyncNo + 1) % 65535 ∧
    t.out = s.out ++ [.msg i (mkMsg s 8 s.ports[i].tsyncNo 0 ((neighCoord s.plane.coord i).getD 0)
      (tsyncBody (s.ports[i].syncSeq % 65536) 0 (tx % 2 ^ 54) 0 0))]) ∧
  (∀ (i : PortIx) (rx : Nat) (m : Msg) (s : State), MsgChecked m s → mKind m = 8 → portCarries s i 3 = true →
    nfld (leAt m.body 0 32) 16 1 = 0 → ∃ t, exec (.tsyncMsg i rx m) s = .next t ∧
    t = { s with ports := t.ports, out := t.out, freeIx := s.freeIx + 1, plane := (checked m s).plane } ∧
    t.out = s.out ++ [.msg i (mkMsg s 8 s.ports[i].tsyncNo 0 ((neighCoord s.plane.coord i).getD 0)
      (tsyncBody (nfld (leAt m.body 0 32) 0 16) 1 (nfld (leAt m.body 0 32) 64 64) (rx % 2 ^ 54)
        (tickLow s * 64 + (Config.free 6 s.freeIx).toNat)))]) ∧
  (∀ (i : PortIx) (rx t1 t2 t3 : Nat) (m : Msg) (s : State), MsgChecked m s → mKind m = 8 → s.mc.parent = some i → s.mc.started = true →
    nfld (leAt m.body 0 32) 16 1 = 1 → nfld (leAt m.body 0 32) 64 64 = t1 → t1 < 2 ^ 54 → s.ports[i].syncT1 = some t1 →
    nfld (leAt m.body 0 32) 128 54 = t2 → nfld (leAt m.body 0 32) 192 54 = t3 →
    (nfld (leAt m.body 0 32) 0 16 + 1) % 65536 = s.ports[i].syncSeq % 65536 → ∃ t, exec (.tsyncMsg i rx m) s = .next t ∧
    t = { s with ports := t.ports, out := t.out, freeIx := t.freeIx, plane := (checked m s).plane, mc := t.mc, err := t.err, regs := t.regs } ∧
    (∃ a b : Int, (2 ^ 54 : Int) ∣ a - ((t2 : Int) - t1) ∧ -2 ^ 53 ≤ a ∧ a < 2 ^ 53 ∧ (2 ^ 54 : Int) ∣ b - (((rx % 2 ^ 54 : Nat) : Int) - t3) ∧
      -2 ^ 53 ≤ b ∧ b < 2 ^ 53 ∧ t.ports[i].delay = ((a + b) / 2).toNat ∧ t.mc.offset = (a - b) / 2) ∧
    t.mc.okRun = (if t.mc.offset.natAbs ≤ 64 then s.mc.okRun + 1 else 0) ∧ t.mc.locked = decide (16 ≤ t.mc.okRun) ∧
    min 0xFFFF (ownFlood (s.plane.plan.getD { digest := [] }) { s with ports := t.ports }) ≤ t.mc.floodMeas ∧ -200 ≤ t.mc.trim ∧ t.mc.trim ≤ 200 ∧ t.mc.holdover = none ∧ t.mc.tick = s.mc.tick ∧ t.mc.step = s.mc.step) ∧
  (∀ (s : State) (t0 : Nat), s.mc.holdover = some t0 → t0 + 4000000 < s.mc.tick.toNat → ∃ t, exec .holdoverExpiry s = .next t ∧
    t = { s with mc := { s.mc with okRun := 0, locked := false }, err := t.err, regs := t.regs })) ∧
  (∀ (w : Nat) (s : State),
    (edgeOk s w = false → exec (.stepSyncEdge w) s = .next { s with mc := { s.mc with syncIgn := min 0xFFFE (s.mc.syncIgn + 1) } }) ∧
    (edgeOk s w = true → ∃ t, exec (.stepSyncEdge w) s = .next t ∧
      t = { s with out := t.out, ports := t.ports, regs := t.regs,
                   mc := { s.mc with heldErr := some (edgeError s.mc.tick.toNat (s.mc.eLast.getD 0) s.mc.sNext), lastEdge := some s.mc.tick.toNat } } ∧
      .flood (mkMsg s 6 2 0 floodDst (marchBody s 2 s.mc.step (twos 64 (edgeError s.mc.tick.toNat (s.mc.eLast.getD 0) s.mc.sNext)))) ∈ t.out))

/-- The March control messages: a LATE by the scheduled boundary is collected once a source, a DONE with its arrival tick, a
SYNC's error held; a NOTICE, one that comes late or from a refused neighbour too, noted with its step (the model's choice for
these two, log entry 130); each is marked as received (R309, R314, R321).
Commands that it shows to complete, on the conditions that it states: lateMsg, doneMsg, syncMsg, noticeMsg.

The barrier: MARCH arrives once every other queue is done and the result batches are sealed, and a chip that was late
floods DONE with its arrival; a chip that has not arrived at S less G floods LATE once (R132, R309).
Commands that it shows to complete, on the conditions that it states: march, marchDeadline. -/
def Obligations.MarchAgreed : Prop :=
  ((∀ (m : Msg) (s : State), MsgChecked m s → mKind m = 6 →
    (marchType m = 0 → ∃ t, exec (.lateMsg m) s = .next t ∧
      t = { s with out := t.out, ports := t.ports, plane := (checked m s).plane,
                   mc := if s.mc.tick.toNat ≤ s.mc.sNext ∧ mSrc m ∉ s.mc.lates then { s.mc with lates := s.mc.lates ++ [mSrc m] } else s.mc }) ∧
    (marchType m = 1 → ∃ t, exec (.doneMsg m) s = .next t ∧
      t = { s with out := t.out, ports := t.ports, plane := (checked m s).plane,
                   mc := { s.mc with dones := s.mc.dones ++ [(mSrc m, marchValue m)] } }) ∧
    (marchType m = 2 → ∃ t, exec (.syncMsg m) s = .next t ∧
      t = { s with out := t.out, ports := t.ports, plane := (checked m s).plane,
                   mc := { s.mc with heldErr := some (sgn 64 (marchValue m)) } })) ∧
  (∀ (m : Msg) (s : State) (pl : Plan), s.plane.plan = some pl → inBox pl (mSrc m) = true → isCut s pl (mSrc m) = false → fencedOrCut s = false → notHere m s = false →
    mEpoch m = epochNum s → mKind m = 6 → marchType m = 3 → (mStep m).toNat ≤ s.mc.step.toNat → msgKey m ∉ s.plane.seen →
    ∃ t, exec (.noticeMsg m) s = .next t ∧
      t = { s with out := t.out, ports := t.ports, plane := (checked m s).plane, mc := { s.mc with notice := some (marchStep m, mSrc m) } })) ∧
  ((∀ s : State, marchReady s = true → ∃ t, exec .march s = .next t ∧
    t = { s with out := t.out, ports := t.ports, run := t.run,
                 mc := { s.mc with arrived := some s.mc.tick.toNat,
                                   dones := if s.mc.ownLate = true then s.mc.dones ++ [(s.plane.coord, s.mc.tick.toNat)] else s.mc.dones } } ∧
    t.run.acted = 6 ∧ (s.mc.ownLate = false → t.out = s.out ∧ t.ports = s.ports) ∧
    (s.mc.ownLate = true → .flood (mkMsg s 6 1 0 floodDst (marchBody s 1 s.mc.step s.mc.tick.toNat)) ∈ t.out)) ∧
  (∀ s : State, marchReady s = false → exec .march s = .next s) ∧
  (∀ s : State, s.run.isOpen = true → s.mc.arrived = none → s.mc.ownLate = false → s.mc.sNext ≤ s.mc.tick.toNat + s.mc.guard →
    s.err.fatal = none → ∃ t, exec .marchDeadline s = .next t ∧
    t = { s with out := t.out, ports := t.ports, mc := { s.mc with ownLate := true, lates := s.mc.lates ++ [s.plane.coord] } } ∧
    .flood (mkMsg s 6 0 0 floodDst (marchBody s 0 s.mc.step 0)) ∈ t.out))

/-! ### Ports and the plane -/

/-- Link states: a trained port begins its hellos, at the width written when it has not taken one in this epoch; a port without a valid hello in time, and a live link
with a cause of R337, go DOWN with buffers and keys gone, counted, the loss of the parent link beginning holdover; a DOWN port
tries again (R327, R329, R337, R354, R366, R307).
Commands that it shows to complete, on the conditions that it states: pmdTrainingDone, discoveryTimeout, linkDown, retrainTimer.

Link events and drain: a LINKEV is kept until its boundary, a closure marks the sources that a running step has lost, a
drain begins with the slice DRAINING and is over with the chip DRAINED and its ports DISABLED (R362 to R364, R367).
Commands that it shows to complete, on the conditions that it states: linkevMsg, closureTimeout, svcDrain, drainComplete. -/
def Obligations.PortsMoveAlongTable : Prop :=
  ((∀ (i : PortIx) (s : State), s.ports[i].st = .training → ∃ t, exec (.pmdTrainingDone i) s = .next t ∧
    t = { s with ports := t.ports, regs := t.regs } ∧ (∀ j : PortIx, j ≠ i → t.ports[j] = s.ports[j]) ∧
    t.ports[i] = { s.ports[i] with
      st := .hello, reason := 0, width := if s.ports[i].widthEpoch = some (linkEpoch s) then s.ports[i].width else s.ports[i].widthCfg
      widthEpoch := some (linkEpoch s), nonce := 0, prevNonce := 0, peerNonce := 0, helloSeen := false, attested := false }) ∧
  (∀ (i : PortIx) (s : State), (s.ports[i].st = .training ∨ s.ports[i].st = .hello) → s.ports[i].helloSeen = false →
    (expected s i).isSome = true → ∃ t, exec (.discoveryTimeout i) s = .next t ∧
    t.ports[i].st = .down ∧ t.ports[i].reason = 1 ∧ t.ports[i].downs = min 0xFFFE (s.ports[i].downs + 1)) ∧
  (∀ (i : PortIx) (r : Fin 16) (s : State), giveUpOk s.ports[i] r.val = true → ∃ t, exec (.linkDown i r) s = .next t ∧
    t = { s with ports := t.ports, regs := t.regs, mc := t.mc, out := t.out, plane := t.plane, err := t.err } ∧
    t.ports[i].st = .down ∧ t.ports[i].reason = r.val ∧ t.ports[i].downs = min 0xFFFE (s.ports[i].downs + 1) ∧
    t.ports[i].keys = [] ∧ t.ports[i].replay = [] ∧ (∀ j : PortIx, j ≠ i → t.ports[j].st = s.ports[j].st) ∧
    t.mc = { s.mc with holdover := if s.mc.parent = some i ∧ s.mc.holdover = none then some s.mc.tick.toNat else s.mc.holdover } ∧
    t.plane.events = (if s.plane.plan.isSome = true then
      s.plane.events ++ [{ typ := 0, port := i, reason := r.val, src := s.plane.coord, origin := s.mc.tick.toNat }] else s.plane.events)) ∧
  (∀ (i : PortIx) (s : State), s.ports[i].st = .down → ∃ t, exec (.retrainTimer i) s = .next t ∧
    t = { s with ports := t.ports, regs := t.regs } ∧ (∀ j : PortIx, j ≠ i → t.ports[j] = s.ports[j]) ∧
    t.ports[i].st = .training ∧ t.ports[i].reason = 0 ∧ t.ports[i].keys = [] ∧ t.ports[i].peerNonce = 0)) ∧
  ((∀ (m : Msg) (s : State), MsgChecked m s → mKind m = 0xA → ∃ t, exec (.linkevMsg m) s = .next t ∧
    t = { s with out := t.out, ports := t.ports, regs := t.regs,
                 plane := { (checked m s).plane with events := s.plane.events ++ [linkevOf m.body] } }) ∧
  (∀ s : State, s.run.isOpen = true → lostSources s ≠ [] → ∃ t, exec .closureTimeout s = .next t ∧
    t = { s with run := t.run } ∧ t.run.linkFault = true ∧ ∀ c, c ∈ t.run.noSource ↔ c ∈ s.run.noSource ∨ c ∈ lostSources s) ∧
  (∀ s : State, s.plane.drainReq = false → s.plane.st ≠ .drained → ∃ t, exec .svcDrain s = .next t ∧ t.plane.drainReq = true ∧
    t.plane.st = (if s.plane.plan = none then .drained else .draining) ∧ t.parts = s.parts ∧ t.cores = s.cores ∧ t.nv = s.nv ∧
    (∀ pl, s.plane.plan = some pl → ∀ p : PortIx, s.ports[p].st = .up → (boxNeigh pl s.plane.coord p).isSome = true →
      { typ := 2, port := p, reason := 0, src := s.plane.coord, origin := s.mc.tick.toNat } ∈ t.plane.events)) ∧
  (∀ s : State, s.plane.st = .draining → (s.run.isOpen = false ∨ fencedOrCut s = true) → (∀ i : PortIx, portEmpty s.ports[i] = true) →
    ∃ t, exec .drainComplete s = .next t ∧ t = { s with ports := t.ports, regs := t.regs, plane := { s.plane with st := .drained }, out := t.out } ∧
    (∀ i : PortIx, t.ports[i].st = .disabled) ∧ .notify "DRAINED" ∈ t.out))

/-- Hellos: a port in HELLO, and an UP port once at a new epoch, sends its hello under a fresh nonce; a hello of an unexpected
neighbour, with a fault of orders 3 to 5 of Table PLANE-11, or of another width disables the port with that reason; one of another
slice ends the admission of a chip that forms its slice; one that passes every order attests the neighbour, and the port is
held as soon as LKEY exists; on an UP port a good hello leaves its nonce (R353 to R355, R357; that a zero PEER_NONCE only delays is
the model's choice, log entry 41).
Commands that it shows to complete, on the conditions that it states: helloTx, helloRx. -/
def Obligations.HellosAnswered : Prop :=
  (∀ (i : PortIx) (s : State), s.ports[i].st = .hello → s.ports[i].ctr + 2 ≤ lastCtr → ∃ t, exec (.helloTx i) s = .next t ∧
    t = { s with ports := t.ports, out := t.out, freeIx := s.freeIx + 2 } ∧ (∀ j : PortIx, j ≠ i → t.ports[j] = s.ports[j]) ∧
    t.ports[i] = { s.ports[i] with
      nonce := Config.free 128 s.freeIx, prevNonce := s.ports[i].nonce, helloDue := false, ctr := s.ports[i].ctr + 2 } ∧
    t.out = s.out ++ [.flit i (helloFlits s.ports[i] (linkEpoch s % 4) (helloHead s i (Config.free 128 s.freeIx)
      ++ helloSig s (Config.free 384 (s.freeIx + 1)).toNat (helloHead s i (Config.free 128 s.freeIx))))]) ∧
  (∀ (i : PortIx) (s : State), s.ports[i].st = .up → s.ports[i].helloDue = true → s.ports[i].ctr + 2 ≤ lastCtr →
    ∃ t, exec (.helloTx i) s = .next t ∧ t = { s with ports := t.ports, out := t.out, freeIx := s.freeIx + 2 } ∧
    (∀ j : PortIx, j ≠ i → t.ports[j] = s.ports[j]) ∧ t.ports[i].nonce = Config.free 128 s.freeIx ∧
    t.ports[i].prevNonce = s.ports[i].nonce ∧ t.ports[i].helloDue = false ∧ t.ports[i].ctr = s.ports[i].ctr + 2) ∧
  (∀ (i : PortIx) (h : List Byte) (s : State), s.ports[i].st = .hello → helloValid h = true → s.plane.plan.isSome = true →
    expected s i = none → ∃ t, exec (.helloRx i h) s = .next t ∧ t.ports[i].st = .disabled ∧ t.ports[i].reason = 2) ∧
  (∀ (i : PortIx) (h : List Byte) (s : State) (c : Coord) (e : PlanEnt), s.ports[i].st = .hello → helloValid h = true →
    expected s i = some (c, e) →
    ∃ t, exec (.helloRx i h) s = .next t ∧
      match helloFault s i c e h with
      | some r => t.ports[i].st = .disabled ∧ t.ports[i].reason = r
      | none => ∀ pl : Plan, s.plane.plan = some pl →
          (widthDiffers s i e h = true → t.ports[i].st = .disabled ∧ t.ports[i].reason = 6) ∧
          (widthDiffers s i e h = false → leAt h 0x14 4 ≠ 0 → leAt h 0x14 4 ≠ pl.slice.toNat → s.plane.st = .forming →
            t.plane.plan = none ∧ t.plane.st = .none ∧ t.sec.lkey = none ∧ t.ports[i].st = .disabled ∧ t.ports[i].reason = 7) ∧
          (widthDiffers s i e h = false → (leAt h 0x14 4 = 0 ∨ leAt h 0x14 4 = pl.slice.toNat) →
            helloDiffers s h = false → leAt h 0x60 16 ≠ 0 →
            t.ports[i].attested = true ∧ t.ports[i].neigh = (c, (oppPort i).val, true) ∧
            t.ports[i].peerNonce = BitVec.ofNat 128 (leAt h 0x50 16) ∧
            (s.sec.lkey = none → t = { s with ports := t.ports, regs := t.regs } ∧ t.ports[i].st = .hello ∧ t.ports[i].reason = 0) ∧
            (s.sec.lkey.isSome = true → t.ports[i].st = .held ∧ (t.ports[i].keys.head?.map LinkKey.epoch) = some (linkEpoch s)))) ∧
  (∀ (i : PortIx) (h : List Byte) (s : State) (c : Coord) (e : PlanEnt), s.ports[i].st = .up → helloValid h = true →
    expected s i = some (c, e) → ∃ t, exec (.helloRx i h) s = .next t ∧
      match helloFault s i c e h with
      | some r => t.ports[i].st = .disabled ∧ t.ports[i].reason = r
      | none => t = modPort i (fun q => { q with peerNonce := BitVec.ofNat 128 (leAt h 0x50 16) }) s)

/-- Flits: a live port sends one flit in a slot and its CTR rises; a good, authentic DATA flit of the expected number enters its
receive buffer, one of the 1,024 before is discarded silently, and any other opens a gap; a CTRL flit gives back credits; a NAK
has everything unacknowledged resent; a flit with a wrong CRC or tag is counted; a NAK falls due (R331 to R335, R338, R343).
Commands that it shows to complete, on the conditions that it states: flitTx, dataFlitRx, ctrlFlitRx, nakRx, nakTimeout. -/
def Obligations.FlitsExchanged : Prop :=
  (∀ (i : PortIx) (s : State), linkLive s.ports[i].st = true → s.ports[i].ctr < lastCtr → ∃ t, exec (.flitTx i) s = .next t ∧
    t = { s with ports := t.ports, out := t.out } ∧ t.ports[i].ctr = s.ports[i].ctr + 1 ∧ (∀ j : PortIx, j ≠ i → t.ports[j] = s.ports[j]) ∧
    ∃ r, t.out = s.out ++ .flit i (nextFlit s.ports[i]).1 :: r) ∧
  (∀ (i : PortIx) (f : RxFlit) (s : State) (k : LinkKey), linkLive s.ports[i].st = true → rxGood f = true → rxType f = 0 →
    rxKeyOf s.ports[i] f = some k → rxAuth f k = true →
    ∃ t, exec (.dataFlitRx i f) s = .next t ∧ t = { s with ports := t.ports } ∧ (∀ j : PortIx, j ≠ i → t.ports[j] = s.ports[j]) ∧
      (fld (rxHdr f) 8 12 = s.ports[i].rxSeq → t.ports[i].rxSeq = (s.ports[i].rxSeq + 1) % 4096 ∧ t.ports[i].gap = none ∧ t.ports[i].rxAny = true ∧
        ∃ x, t.ports[i].rxq[Fin.ofNat 8 (2 * fld (rxHdr f) 2 2 + fld (rxHdr f) 4 1)] =
          s.ports[i].rxq[Fin.ofNat 8 (2 * fld (rxHdr f) 2 2 + fld (rxHdr f) 4 1)] ++ [x] ∧ x.plen = fld (rxHdr f) 98 8 ∧
          x.payload = gcmCrypt (leBytes 32 k.rxKey.toNat) (flitIv k.rxSalt (fld (rxHdr f) 48 48)) (slice f.bytes 16 224)) ∧
      (fld (rxHdr f) 8 12 ≠ s.ports[i].rxSeq → t.ports[i].rxq = s.ports[i].rxq ∧ t.ports[i].rxSeq = s.ports[i].rxSeq ∧
        t.ports[i].gap = (if 1 ≤ (s.ports[i].rxSeq + 4096 - fld (rxHdr f) 8 12) % 4096 ∧ (s.ports[i].rxSeq + 4096 - fld (rxHdr f) 8 12) % 4096 ≤ 1024
          then s.ports[i].gap else some (s.ports[i].gap.getD false)))) ∧
  (∀ (i : PortIx) (f : RxFlit) (s : State) (k : LinkKey), linkLive s.ports[i].st = true → rxGood f = true → rxType f = 1 → rxNak f = false →
    rxKeyOf s.ports[i] f = some k → rxAuth f k = true →
    exec (.ctrlFlitRx i f) s = .next (modPort i (fun p => takeAck f (markCtr f p)) s)) ∧
  (∀ (i : PortIx) (f : RxFlit) (s : State) (k : LinkKey), linkLive s.ports[i].st = true → rxGood f = true → rxType f = 1 → rxNak f = true →
    rxKeyOf s.ports[i] f = some k → rxAuth f k = true → s.ports[i].replay.any (fun x => x.seq == fld (rxHdr f) 20 12) = true →
    ∃ t, exec (.nakRx i f) s = .next t ∧ t = { s with ports := t.ports } ∧ (∀ j : PortIx, j ≠ i → t.ports[j] = s.ports[j]) ∧
      t.ports[i].resend = t.ports[i].replay.map TxFlit.seq ∧ t.ports[i].replay <:+ s.ports[i].replay ∧ t.ports[i].tagFail = s.ports[i].tagFail) ∧
  (∀ (i : PortIx) (f : RxFlit) (s : State), linkLive s.ports[i].st = true → rxGood f = false → ∃ t, exec (.dataFlitRx i f) s = .next t ∧
    t = { s with ports := t.ports } ∧ t.ports[i] = openGap { s.ports[i] with
      crcFail := min 0xFFFFFFFE (s.ports[i].crcFail + 1),
      fecUnc := if f.fecOk = true then s.ports[i].fecUnc else min 0xFFFFFFFE (s.ports[i].fecUnc + 1) }) ∧
  (∀ (i : PortIx) (f : RxFlit) (s : State), linkLive s.ports[i].st = true → rxGood f = true → rxType f = 0 →
    (rxKeyOf s.ports[i] f).filter (rxAuth f) = none → ∃ t, exec (.dataFlitRx i f) s = .next t ∧ t = { s with ports := t.ports } ∧
    t.ports[i] = (if isBehind s.ports[i] (fld (rxHdr f) 8 12) = true then { s.ports[i] with tagFail := min 0xFFFE (s.ports[i].tagFail + 1) }
      else openGap { s.ports[i] with tagFail := min 0xFFFE (s.ports[i].tagFail + 1) })) ∧
  (∀ (i : PortIx) (s : State), linkLive s.ports[i].st = true → s.ports[i].gap.isSome = true →
    exec (.nakTimeout i) s = .next (modPort i (fun p => { p with gap := some true, nakDue := true }) s))

/-- Forwarding: a message for another chip leaves on the port of its route with its flits freed, and nothing but ports changes;
without a route it is dropped and counted; one that carries the coordinate of a fenced neighbour is refused and counted (R322,
R348, R358, R360). The command of a kind does the same with such a message. A flood is sent on and remembered, once (R350).
Commands that it shows to complete, on the conditions that it states: msgForward.

The header that the chip gives a message spells STEP, EPOCH, SRC, DST, PART, KIND, MSG and BLEN in the fields of Table
PLANE-7. -/
def Obligations.MessagesForwarded : Prop :=
  ((∀ (i : PortIx) (d : Bool) (m : Msg) (s : State), s.plane.plan.isSome = true → linkLive s.ports[i].st = true → mDst m = floodDst →
    mDst m ≠ s.plane.coord → refusedSrc s (mSrc m) = false → msgKey m ∉ s.plane.seen → msgKey m ∉ s.plane.passed →
    ∃ t, exec (.msgForward i d m) s = .next t ∧
      t = { s with ports := t.ports, out := t.out, plane := { s.plane with passed := s.plane.passed ++ [msgKey m] } } ∧
      ∀ p : PortIx, p ≠ i → s.ports[p].st = .up → patternPort s (mSrc m) ≠ some i → .msg p m ∈ t.out) ∧
  (∀ (m : Msg) (s : State) (p : PortIx), notHere m s = true → mKind m = 0 → standsAt m s = none → refusedSrc s (mSrc m) = false →
    routeEntry s false (mDst m) % 8 = p.val → ∃ t, exec (.psumMsg m) s = .next t ∧
      t = { s with ports := t.ports, out := t.out } ∧ t.out = (if portCarries s p 1 = true then s.out ++ [.msg p m] else s.out)) ∧
  ∀ (i : PortIx) (d : Bool) (m : Msg) (s : State), s.plane.plan.isSome = true → linkLive s.ports[i].st = true → mDst m ≠ floodDst →
    mDst m ≠ s.plane.coord →
    (∀ p : PortIx, refusedSrc s (mSrc m) = false → routeEntry s d (mDst m) % 8 = p.val → ∃ t, exec (.msgForward i d m) s = .next t ∧
      t = { s with ports := t.ports, out := t.out } ∧ t.out = (if portCarries s p (rxVc s i d m) = true then s.out ++ [.msg p m] else s.out)) ∧
    (refusedSrc s (mSrc m) = false → routeEntry s d (mDst m) % 8 = 7 → ∃ t, exec (.msgForward i d m) s = .next t ∧
      t = { s with ports := t.ports, err := t.err, regs := t.regs, plane := { s.plane with routeDrop := min 0xFFFE (s.plane.routeDrop + 1) } } ∧
      t.out = s.out) ∧
    (refusedSrc s (mSrc m) = true → ∃ t, exec (.msgForward i d m) s = .next t ∧
      t = { s with ports := t.ports, plane := { s.plane with srcDrop := min 0xFFFE (s.plane.srcDrop + 1) } })) ∧
  (∀ (s : State) (kind msg part : Nat) (dst : Coord) (b : List Byte), kind < 16 → msg < 65536 → part < 16 → b.length < 2 ^ 20 →
    let m := mkMsg s kind msg part dst b
    mStep m = s.mc.step ∧ mEpoch m = epochNum s ∧ mSrc m = s.plane.coord ∧ mDst m = dst ∧ (mPart m).val = part ∧ mKind m = kind ∧
      mMsg m = msg ∧ fld m.hdr 188 20 = b.length ∧ m.body = b)

/-! ### The step: segmentation, tail, boundary, results -/

/-- Segmentation: the drop code of every row under the caps, segments and row list, the zero-row bitmaps, and the void reason of
Table SERVE-9; every cluster cache holds the segment area; a step that is not void leaves the request records alone (R34 to R45,
R126).
Commands that it shows to complete, on the conditions that it states: segmentationDone.

A row is dropped exactly by R34, R36 and R39: padding never is; a row of a request with disagreeing rows, and a row whose
slot serves no such version, is NOT_AVAILABLE; base-only rows of a request that agrees are kept. -/
def Obligations.StepSegmented : Prop :=
  (∀ s : State, s.run.isOpen = true → s.run.segmented = false → ∃ t, exec .segmentationDone s = .next t ∧
    t = { s with regs := t.regs, clusters := t.clusters, recs := t.recs, parts := t.parts, seg := t.seg, run := t.run } ∧
    (∀ c : ClusterIx, t.clusters[c] = { s.clusters[c] with segArea := segArea t }) ∧ t.run.segmented = true ∧ t.run.drops = dropCodes s (fun p => s.parts[p].force.segCap) s.run.tags ∧
    (t.run.segs, t.run.rowList) = segmentsOf s ((s.run.tags.zip t.run.drops).zipIdx) ∧
    t.run.void = (match s.run.prog with
      | none => 2
      | some p => if p.present ≠ presentField s then 3 else if fitsPlan p t.run.segs = true then 0 else 1) ∧
    (t.run.void = 0 → t.recs = s.recs ∧ t.regs = s.regs ∧ t.run.adms = s.run.adms)) ∧
  (∀ (s : State) (reqs : Tab (Option (Nat × Nat × Bool))) (t : RowTag),
    (tagValid t = false → dropFirst s reqs t = 0) ∧
    (tagValid t = true → reqAgrees reqs (tagReq t) = false → dropFirst s reqs t = 1) ∧
    (tagValid t = true → reqAgrees reqs (tagReq t) = true → tagSlot t = Config.baseOnly → dropFirst s reqs t = 0) ∧
    (tagValid t = true → reqAgrees reqs (tagReq t) = true → tagSlot t ≠ Config.baseOnly →
      (dropFirst s reqs t = 0 ↔ ((slotOf s (tagSlot t)).st = .resident ∧ (slotOf s (tagSlot t)).part = tagPart t ∧
        (servingRec s (tagSlot t) (tagVersion t)).isSome = true))))

/-- The tail of a step: once the queues are done and the reports are in, actions 4 and 5 run, and each face gets one sealed batch
of the running step; before that nothing happens (R180, R277, R279).
Commands that it shows to complete, on the conditions that it states: tailCommit.

An accepted report: LAST_TOKEN is C, NEWDONE counts the confirmed drafts and C, and OUTCRC takes D, the confirmed drafts and C
(R267, R282). -/
def Obligations.StepSealed : Prop :=
  ((∀ s : State, tailReady s = true → ∃ t, exec .tailCommit s = .next t ∧
    t = { s with instStatus := t.instStatus, freeIx := t.freeIx, regs := t.regs, hbm := t.hbm, tensors := t.tensors, slots := t.slots, vrecs := t.vrecs,
                 recs := t.recs, parts := t.parts, faces := t.faces, cores := t.cores, uuOpt := t.uuOpt, rcc := t.rcc, run := t.run, err := t.err } ∧
    t.run.acted = 5 ∧ t.run.sealedUp = true ∧ SameAssign s t ∧
    ∀ f : FaceIx, ∃ b : Batch, t.faces[f].sealed = s.faces[f].sealed ++ [b] ∧ b.step = s.mc.step ∧ b.face = f ∧
      t.faces[f].acks = s.faces[f].acks ∧ t.faces[f].refusals = []) ∧
  (∀ s : State, tailReady s = false → exec .tailCommit s = .next s)) ∧
  (∀ (a : Adm) (r : TokenReport) (q : ReqRec),
    (commitReport a r q).lastTok = tC r ∧ (commitReport a r q).newDone = q.newDone + draftCount q a r + 1 ∧
    (commitReport a r q).outcrc = crc64From q.outcrc (leBytes 1 (draftCount q a r) ++
      ((q.nextToks.drop (b2n (tR0c r))).take (draftCount q a r)).flatMap (fun t => leBytes 4 t.toNat) ++ leBytes 4 (tC r).toNat) ∧
    (commitReport a r q).st = q.st ∧ (commitReport a r q).seq = q.seq ∧ (commitReport a r q).slot = q.slot)

/-- The boundary of a running step crossed at E: with MARCH issued, the admission complete, the faces clear and every neighbour
in agreement, and no link event ripe, the next step opens: its number, E, its program, its period, the scheduled boundary after
it (R25, R26, R308, R309, R314).
Commands that it shows to complete, on the conditions that it states: boundary.

The boundary that does not come: before E, while a DONE is awaited, or before MARCH, nothing changes; a chip that is not
LOCKED at S, or that has a NOTICE when it crosses, fences itself and opens no step (R306, R309, R321).

At a boundary the assignments and bypass fields written take effect, and a core whose partition changes is wiped: of it only
what Table REGS-11 keeps stays (R17, R110). -/
def Obligations.BoundaryOpensStep : Prop :=
  (∀ (s : State) (e : Nat), mayClose s = true → closeTick s = some e → e ≤ s.mc.tick.toNat → s.adm.closed = true → s.adm.complete = true →
    s.seg.valid = true → s.run.waited = false → (∀ f : FaceIx, faceClear s f = true) → s.mc.notice = none →
    (agreePorts s = [] ∨ agreeBad s false (ownWord e (s.mc.step + 1) s) = []) → ripeEvents e s = [] → staysClosed s = false →
    s.plane.leaving = false →
    ∃ t, exec .boundary s = .next t ∧ t.mc.step = s.mc.step + 1 ∧ t.mc.eLast = some e ∧ t.run.isOpen = true ∧ t.run.openTick = e ∧
      t.run.prog = s.progs[s.seg.pslot] ∧ t.run.pslot = s.seg.pslot ∧ t.seg.valid = false ∧ t.mc.arrived = none ∧ t.mc.lates = [] ∧
      t.mc.dones = [] ∧ t.mc.heldErr = none ∧ t.mc.ownLate = false ∧
      (∀ x, s.progs[s.seg.pslot] = some x → t.mc.period = cdiv ((x.stepCycles + 32) * 4) 7 ∧
        t.mc.sNext = ((e : Int) + t.mc.period + (slewNext s t.mc.period).2).toNat) ∧
      t.pending = s.pending ∧ t.nv.lc = s.nv.lc) ∧
  ((∀ s : State, s.run.isOpen = true → s.mc.locked = true → (mayClose s = false ∨ closeTick s = none ∨ ∃ e, closeTick s = some e ∧ s.mc.tick.toNat < e) →
    exec .boundary s = .next s) ∧
  (∀ s : State, s.run.isOpen = true → s.mc.locked = false → s.mc.fenced = false → s.mc.sNext ≤ s.mc.tick.toNat →
    ∃ t, exec .boundary s = .next t ∧ t.mc.fenced = true ∧ t.run.isOpen = false ∧ t.mc.step = s.mc.step ∧ t.parts = s.parts ∧ t.hbm = s.hbm) ∧
  (∀ (s : State) (e : Nat), mayClose s = true → closeTick s = some e → e ≤ s.mc.tick.toNat → s.adm.closed = true → s.adm.complete = true →
    (∀ f : FaceIx, faceClear s f = true) → s.mc.notice.isSome = true →
    ∃ t, exec .boundary s = .next t ∧ t.mc.fenced = true ∧ t.run.isOpen = false ∧ t.mc.step = s.mc.step) ∧
  (∀ s : State, s.run.isOpen = false → s.mc.start = none → exec .boundary s = .next s)) ∧
  (∀ (s : State) (n : CoreIx),
    (assignCores s).cores[n].part = s.cores[n].partNext ∧ (assignCores s).cores[n].byp = s.cores[n].bypNext ∧
    (assignCores s).cores[n].partLast = s.cores[n].part ∧
    (s.cores[n].partNext ≠ s.cores[n].part → (assignCores s).cores[n].store = [] ∧ (assignCores s).cores[n].wiped = true ∧
      ∀ i : Fin 9, (assignCores s).cores[n].latches[i] = {}) ∧
    (s.cores[n].partNext = s.cores[n].part → (assignCores s).cores[n].store = s.cores[n].store))

/-- Results leave: a face that waits releases its oldest batch once that fits a free buffer, which is then to be acknowledged; a
ring entry is written once its ring has room, the P-face's first (R280, R283, R465).
Commands that it shows to complete, on the conditions that it states: resultRelease, ringWrite. -/
def Obligations.ResultsLeaveInOrder : Prop :=
  (∀ (f : FaceIx) (s : State) (b : Batch) (r : List Batch), s.faces[f].waiting = true → s.faces[f].ringOut = [] →
    s.faces[f].sealed = b :: r → batchFits s.faces[f] b = true → ∃ t, exec (.resultRelease f) s = .next t ∧
    t = { s with out := s.out ++ [.batch f (b.step.toNat % 2) (batchData b)], faces := t.faces } ∧
    t.faces[f].sealed = r ∧ t.faces[f].waiting = false ∧ t.faces[f].ringOut = b.ringEnts ∧
    t.faces[f].acks.toList.getD (b.step.toNat % 2) true = false) ∧
  (∀ (n : Fin 16384) (s : State) (e : ResEntry), s.faces[(0 : FaceIx)].ringOut.find? (fun x => x.1 == n.val) = some (n.val, e) →
    0 < ringRoom (tabGet {} s.rings n.val) → ∃ t, exec (.ringWrite n) s = .next t ∧
    t = { s with out := s.out ++ [.ring n.val (entBytes e)], faces := t.faces, rings := t.rings } ∧
    (tabGet {} t.rings n.val).ents = (tabGet {} s.rings n.val).ents ++ [e] ∧
    (tabGet {} t.rings n.val).wr = (tabGet {} s.rings n.val).wr + 1 ∧
    t.faces[(0 : FaceIx)].ringOut = s.faces[(0 : FaceIx)].ringOut.erase (n.val, e) ∧ t.faces[(1 : FaceIx)] = s.faces[(1 : FaceIx)])

/-- A fault of the running step is replayed when R433 allows it: the step is set up again, counted CORRECTED and logged, and what
was written for good stays; otherwise it is contained: counted, logged, and the word's status says HW_FAULT (R433 to R435).
Commands that it shows to complete, on the conditions that it states: stepReplay. -/
def Obligations.ContainedFaultReplayed : Prop :=
  (∀ (f : StepFault) (s : State), f.src ≠ 7 → s.err.fatal = none → replayOk s f = true → ∃ t, exec (.stepReplay f) s = .next t ∧
    t = { s with regs := t.regs, hbm := t.hbm, tensors := t.tensors, cores := t.cores, clusters := t.clusters, parts := t.parts, uuNow := t.uuNow, run := t.run, err := t.err } ∧
    t.run.replayed = true ∧ t.run.segmented = false ∧ t.run.ptr = [] ∧ t.run.flight = [] ∧ t.run.tokens = [] ∧ t.run.status = [] ∧ t.run.held = false ∧
    t.run.prog = s.run.prog ∧ t.run.tags = s.run.tags ∧ t.run.isOpen = true ∧ t.err.replays = min 0xFFFE (s.err.replays + 1) ∧ SameAssign s t ∧
    ∀ n : CoreIx, ∀ i : Fin 9, t.cores[n].latches[i] = {}) ∧
  (∀ (f : StepFault) (s : State), f.src ≠ 7 → s.run.isOpen = true → s.err.fatal = none → replayOk s f = false → s.run.acted < 5 →
    ∃ t, exec (.stepReplay f) s = .next t ∧ t.hbm = s.hbm ∧ t.tensors = s.tensors ∧ t.cores = s.cores ∧
    t.err.notElig = min 0xFFFE (s.err.notElig + 1) ∧ t.run.replayed = s.run.replayed ∧ t.run.ptr = s.run.ptr ∧
    tabGet 0 t.run.status f.word = (if f.half = true then 0x20 else 2) ∧
    (tabGet (0, 0) t.err.cnt f.src).2 = min 0xFFFE ((tabGet (0, 0) s.err.cnt f.src).2 + 1))

/-! ### Words of the step program -/

/-- A queue whose next word is not due, or that has none, lets no word issue: the command changes nothing (R118, R119).

NOP completes when it is due; WAIT once its token's count has reached NEED, and waits before (R120, R132).
Commands that it shows to complete, on the conditions that it states: nop, wait.

A reduction that has issued completes once its block sums have come, ahead of the queue's next word: its token counts then
(R119, R120). -/
def Obligations.WordsIssueInTurn : Prop :=
  (∀ (s : State) (core : CoreIx) (cl : ClusterIx) (f : FaceIx) (q : QueueIx) (b : List Byte),
    (readyWord s (64 + core.val) = none → ∀ c ∈ [Instr.vecAdd core, .vecSub core, .vecMul core, .vecFma core, .vecMax core, .vecMin core,
      .vecScale2 core, .vecExpmax core, .vecCmp core, .vecSelect core, .cvt core], exec c s = .next s) ∧
    (readyWord s core.val = none → exec (.stream core) s = .next s ∧ exec (.conv core) s = .next s) ∧
    (readyWord s (128 + core.val) = none → exec (.tfill core) s = .next s) ∧
    (readyWord s (192 + cl.val) = none → exec (.hfill cl) s = .next s ∧
      (noFlight s (192 + cl.val) → ∀ c ∈ [Instr.reduceQ cl, .reduceRcc cl, .reduceU cl, .reducePart cl], exec c s = .next s)) ∧
    (readyWord s (200 + f.val) = none → ∀ c ∈ [Instr.faceinAct f b, .faceinGrad f b, .faceinLogit f b, .faceinQry f b, .faceinProb f b],
      exec c s = .next s) ∧
    (readyWord s q.val = none → exec (.nop q) s = .next s ∧ exec (.wait q) s = .next s)) ∧
  (∀ (q : QueueIx) (s : State) (i : Nat) (w : IWord), readyWord s q.val = some (i, w) →
    (wOp w = 0 → exec (.nop q) s = .next { s with run := wordOver q.val i 0 w s.run }) ∧
    (wOp w = 1 → fld w 56 10 ≤ tabGet 0 s.run.tokens (fld w 46 10) → exec (.wait q) s = .next { s with run := wordOver q.val i 0 w s.run }) ∧
    (wOp w = 1 → tabGet 0 s.run.tokens (fld w 46 10) < fld w 56 10 → exec (.wait q) s = .next s)) ∧
  (∀ (cl : ClusterIx) (s : State) (i : Nat) (p : Program) (l : List (Nat × Nat × Nat × List F32 × List (Nat × Nat))),
    issueOpen s = true → s.run.prog = some p → s.run.flight = [(192 + cl.val, i)] → tabWf [] s.clusters[cl].reds = true →
    let w := p.words.getD i 0
    let r := reduceWord w
    let sg := s.run.segs.getD r.seg {}
    wOp w = 0x40 → r.seg < s.run.segs.length → bitAt (slotOf s sg.slot).tmask r.target = true → redAll s cl i r sg = some l →
    ∀ c ∈ [(0, Instr.reduceQ cl), (1, .reduceRcc cl), (2, .reduceU cl), (3, .reducePart cl)], r.dest = c.1 →
      ∃ t, exec c.2 s = .next t ∧ t.run.flight = [] ∧ t.run.ptr = tabMod 0 s.run.ptr (192 + cl.val) (· + 0) ∧
        t.run.tokens = (if wSet w = 0x3FF then s.run.tokens else tabMod 0 s.run.tokens (wSet w) (· + 1)) ∧
        tabGet [] t.clusters[cl].reds r.rid = [])

/-- The lane operations of the vector units on the core store: each lane's FP32 result at DST, the canonical NaN where
a contained fault has poisoned the granule, every other byte and every other core as before (R113, R149, Tables CORE-7, CORE-9).
Commands that it shows to complete, on the conditions that it states: vecAdd, vecSub, vecMul, vecFma, vecMax, vecMin, vecScale2.

The other operations of the vector units: the group exponent, comparison masks, selection by a mask and conversion (R113,
R149, Table ISA-13, R69, R70).
Commands that it shows to complete, on the conditions that it states: vecExpmax, vecCmp, vecSelect, cvt. -/
def Obligations.VectorWordsCompute : Prop :=
  (∀ core : CoreIx,
    LaneRule core (.vecAdd core) 0 (fun _ a b _ => f32Add a b) ∧ LaneRule core (.vecSub core) 1 (fun _ a b _ => f32Sub a b) ∧
    LaneRule core (.vecMul core) 2 (fun _ a b _ => f32Mul a b) ∧ LaneRule core (.vecFma core) 3 (fun _ a b c => f32Fma a b c) ∧
    LaneRule core (.vecMax core) 4 (fun _ a b _ => f32Pick true a b) ∧ LaneRule core (.vecMin core) 5 (fun _ a b _ => f32Pick false a b) ∧
    LaneRule core (.vecScale2 core) 6 (fun w a _ _ => f32Scale a (sgn 8 (fld w 80 8)))) ∧
  (∀ core : CoreIx,
    VectorRule core (.vecExpmax core) (fun w => wOp w = 0x50 ∧ fld w 46 4 = 7) (fun w => (vecWord w).dst)
      (fun p k w => f32Bytes ((groupResults p k w).map Prod.fst)) (fun p k w => (groupResults p k w).any (fun x => x.2 != 0)) ∧
    VectorRule core (.vecCmp core) (fun w => wOp w = 0x50 ∧ fld w 46 4 = 8) (fun w => (vecWord w).dst)
      (fun _ k w => packBits (List.zipWith (f32Cmp (fld w 95 3)) (vecLoad k (vecWord w).sa (vecWord w).n) (vecLoad k (vecWord w).sb (vecWord w).n)))
      (fun _ _ _ => false) ∧
    VectorRule core (.vecSelect core) (fun w => wOp w = 0x50 ∧ fld w 46 4 = 9) (fun w => (vecWord w).dst)
      (fun p k w => f32Bytes ((selectResults p k w).map Prod.fst)) (fun _ _ _ => false) ∧
    VectorRule core (.cvt core) (fun w => wOp w = 0x51) (fun w => fld w 56 15)
      (fun p k w => (cvtCodes p k w).flatMap (fun x => leBytes ((cvtFmt (fld w 50 4)).width / 8) x.1))
      (fun p k w => (cvtCodes p k w).any (fun x => x.2 != 0)))

/-- The group headers: a group that lists no row, or whose tiles are staged and whose rows are there, issues with its array words, and only the core,
its cluster's block sums and the step change; one that waits for a tile or a row changes nothing (R94, R133 to R139).
Commands that it shows to complete, on the conditions that it states: stream, conv.

One row of a multiply that keeps its sums in the accumulator: the lanes of the word, each its column's result scaled and
added, stand at ACC_ADDR, and every other byte of the store stays (R66, R103, R141, R142). -/
def Obligations.ArrayWordsCompute : Prop :=
  (∀ (core : CoreIx) (s : State) (i : Nat) (w : IWord), WordReady s core.val (clusterDown s (clusterOf core)) i w →
    (∀ rs, wOp w = 0x20 → streamRows s core w = some rs → (rs.listed = 0 ∨ groupLoaded s core (groupWords s core.val 8 1) = true) →
      ∃ t, exec (.stream core) s = .next t ∧ t = { s with cores := t.cores, clusters := t.clusters, run := t.run } ∧
        tabGet 0 t.run.ptr core.val = tabGet 0 s.run.ptr core.val + (groupWords s core.val 8 1).length + 1 ∧ SameAssign s t ∧
        (∀ m : CoreIx, m ≠ core → t.cores[m] = s.cores[m]) ∧ (∀ k : ClusterIx, k ≠ clusterOf core → t.clusters[k] = s.clusters[k])) ∧
    (wOp w = 0x20 → (streamRows s core w = none ∨ ∃ rs, streamRows s core w = some rs ∧ 0 < rs.listed ∧
      groupLoaded s core (groupWords s core.val 8 1) = false) → exec (.stream core) s = .next s) ∧
    (wOp w = 0x21 → ((convRows s core w).listed = 0 ∨ groupLoaded s core (groupWords s core.val 8 1) = true) →
      ∃ t, exec (.conv core) s = .next t ∧ t = { s with cores := t.cores, clusters := t.clusters, run := t.run } ∧
        tabGet 0 t.run.ptr core.val = tabGet 0 s.run.ptr core.val + (groupWords s core.val 8 1).length + 1 ∧ SameAssign s t ∧
        (∀ m : CoreIx, m ≠ core → t.cores[m] = s.cores[m]) ∧ (∀ k : ClusterIx, k ≠ clusterOf core → t.clusters[k] = s.clusters[k])) ∧
    (wOp w = 0x21 → 0 < (convRows s core w).listed → groupLoaded s core (groupWords s core.val 8 1) = false → exec (.conv core) s = .next s)) ∧
  (∀ (n : CoreIx) (i : Nat) (a : ArrayWord) (t : Tile) (cols : List (List Byte)) (p : Nat → Bool) (f : Bool) (seg : Option Nat) (r : StreamRow) (s : State),
    a.acc < 2 → a.final = false → Memory.wf s.cores[n].store = true →
    let l := fullLanes a.shape (a.op == 0x31)
    let b := s.cores[n].byp.getD a.array {}
    let lanes := wordLanes b a
    let depth := if a.op = 0x31 then presented b a.shape else (shapeDims a.shape).1
    let base := a.accAddr * 128 + r.k * l * 4
    let shift := if a.half = 2 then l / 2 else 0
    base + 4 * l ≤ Config.coreStoreBytes →
    (∀ j, j < lanes.length → storeF32 (mulRow n i a t cols p f seg r s).cores[n] (base + 4 * lanes.getD j 0) =
      (mulLane a t (p (lanes.getD j 0)) (codesVal f (r.fetch a.slice depth))
        (cols.getD (lanes.getD j 0 - shift) []) (storeF32 s.cores[n] (base + 4 * lanes.getD j 0))).1) ∧
    (∀ x, x < base + 4 * lanes.headD 0 ∨ base + 4 * lanes.headD 0 + 4 * lanes.length ≤ x →
      memByte (mulRow n i a t cols p f seg r s).cores[n].store x = memByte s.cores[n].store x))

/-- A fill of a cluster cache: a variant's tiles stand in their lines with the region's tag, unless the same region is valid there
already, which counts a hit; a segment that the batch lacks, or whose adapter lacks the target, is SKIPPED (R91, R145, R146).
Commands that it shows to complete, on the conditions that it states: hfill.

A staging entry filled from lines of the core's own partition takes their codes; a line of another partition poisons it and no
byte enters; the word waits while a load of the tile that the entry holds is still to come (R93, R147, log entry 126).
Commands that it shows to complete, on the conditions that it states: tfill. -/
def Obligations.FillsPlaceTiles : Prop :=
  (∀ (cl : ClusterIx) (s : State) (i : Nat) (w : IWord), WordReady s (192 + cl.val) (clusterDown s cl) i w → wOp w = 0x11 →
    let sg := s.run.segs.getD (fld w 73 12) {}
    ((s.run.segs.length ≤ fld w 73 12 ∨ bitAt (slotOf s sg.slot).tmask (fld w 85 4) = false) →
      exec (.hfill cl) s = .next { s with run := wordOver (192 + cl.val) i 4 w s.run }) ∧
    (∀ k, fld w 73 12 < s.run.segs.length → bitAt (slotOf s sg.slot).tmask (fld w 85 4) = true → servingRec s sg.slot sg.version = some k →
      (∀ c : ClusterIx, tabWf {} s.clusters[c].regions = true) → ∃ t, exec (.hfill cl) s = .next t ∧ t = { s with clusters := t.clusters, run := t.run, err := t.err } ∧
        t.run.ptr = tabMod 0 s.run.ptr (192 + cl.val) (· + 1) ∧
        (∀ c : ClusterIx, (fld w 46 8).testBit c.val = false → t.clusters[c] = s.clusters[c]) ∧
        (∀ c : ClusterIx, (fld w 46 8).testBit c.val = true → t.clusters[c].hits = s.clusters[c].hits + 1 ∧ t.clusters[c].lines = s.clusters[c].lines ∨
          t.clusters[c].hits = s.clusters[c].hits ∧
          (tabGet {} t.clusters[c].regions (fld w 54 19)).slot = sg.slot ∧ (tabGet {} t.clusters[c].regions (fld w 54 19)).version = sg.version ∧
          (tabGet {} t.clusters[c].regions (fld w 54 19)).target = fld w 85 4))) ∧
  (∀ (n : CoreIx) (s : State) (i : Nat) (w : IWord), WordReady s (128 + n.val) (clusterDown s (clusterOf n)) i w → wOp w = 0x10 →
    (loadAwaited s n (8 * fld w 46 2 + fld w 48 3) = true → exec (.tfill n) s = .next s) ∧
    (loadAwaited s n (8 * fld w 46 2 + fld w 48 3) = false →
    bitAt w 54 = false → fld w 74 12 < s.run.segs.length → bitAt (slotOf s (s.run.segs.getD (fld w 74 12) {}).slot).tmask (fld w 86 4) = true →
    let ls := (List.range 16).map (fun j => tabGet {} s.clusters[clusterOf n].lines (fld w 55 19 + j))
    ∃ t, exec (.tfill n) s = .next t ∧ t = { s with cores := t.cores, run := wordOver (128 + n.val) i 0 w s.run } ∧
      (∀ m : CoreIx, m ≠ n → t.cores[m] = s.cores[m]) ∧ t.cores[n].store = s.cores[n].store ∧
      ∃ x : Tile, t.cores[n].staging[8 * fld w 46 2 + fld w 48 3]? = some (some x) ∧ x.f8g = bitAt w 51 ∧
        ((∀ l ∈ ls, l.valid = true ∧ l.part.val = s.cores[n].part) → x.poisoned = false ∧ x.codes = ls.flatMap (fun l => slice l.bytes 0 64)) ∧
        ((∃ l ∈ ls, l.valid = false ∨ l.part.val ≠ s.cores[n].part) → x.poisoned = true ∧ x.codes = [])))

/-- The reductions: with every block sum there, the rank vectors of the positions go where DEST says and the block sums are spent;
with one missing the word has issued and waits, and its queue goes on; one whose segment or target is absent is SKIPPED (R48, R49,
R114, R119, R136, R148, R170, R206, R247).
Commands that it shows to complete, on the conditions that it states: reduceQ, reduceRcc, reduceU, reducePart. -/
def Obligations.ReductionsCompute : Prop :=
  ∀ (cl : ClusterIx) (s : State) (i : Nat) (w : IWord), WordReady s (192 + cl.val) (clusterDown s cl) i w → wOp w = 0x40 →
    let r := reduceWord w
    let sg := s.run.segs.getD r.seg {}
    noFlight s (192 + cl.val) →
    ((s.run.segs.length ≤ r.seg ∨ bitAt (slotOf s sg.slot).tmask r.target = false) →
      ∀ p ∈ [(1, Instr.reduceRcc cl), (2, .reduceU cl), (3, .reducePart cl)], r.dest = p.1 →
      exec p.2 s = .next { s with run := wordOver (192 + cl.val) i 4 w s.run }) ∧
    ((s.run.segs.length ≤ r.seg ∨ bitAt (slotOf s sg.slot).tmask r.target = false) → r.dest = 0 →
      ∃ t, exec (.reduceQ cl) s = .next t ∧ t = { s with cores := t.cores, run := wordOver (192 + cl.val) i 4 w s.run } ∧
        ∀ j : Fin 8, t.cores[coreOf cl j.val].feed = s.cores[coreOf cl j.val].feed) ∧
    (r.seg < s.run.segs.length → bitAt (slotOf s sg.slot).tmask r.target = true → redAll s cl i r sg = none →
      ∀ p ∈ [(0, Instr.reduceQ cl), (1, .reduceRcc cl), (2, .reduceU cl), (3, .reducePart cl)], r.dest = p.1 →
      exec p.2 s = .next (departWord (192 + cl.val) i s)) ∧
    (∀ l, r.seg < s.run.segs.length → bitAt (slotOf s sg.slot).tmask r.target = true → redAll s cl i r sg = some l → ∃ code, code ≤ 1 ∧
      (r.dest = 0 → tabWf [] s.clusters[cl].reds = true → (∀ j : Fin 8, tabWf {} s.cores[coreOf cl j.val].feed = true) → ∃ t, exec (.reduceQ cl) s = .next t ∧
        t = { s with cores := t.cores, clusters := t.clusters, run := wordOver (192 + cl.val) i code w s.run } ∧
        tabGet [] t.clusters[cl].reds r.rid = [] ∧
        ∀ j : Fin 8, r.cores.testBit j.val = true → ∀ x ∈ l, tabGet {} t.cores[coreOf cl j.val].feed (r.rid * 65536 + x.2.1) =
          (quantRow r.seg (slotOf s sg.slot).scale x.2.2.2.1).1) ∧
      (r.dest = 1 → tabWf [] s.clusters[cl].uvals = true → ∃ t, exec (.reduceRcc cl) s = .next t ∧
        t = { s with cores := t.cores, clusters := t.clusters, run := wordOver (192 + cl.val) i code w s.run } ∧
        (∀ x ∈ l, (∀ y ∈ l, y.2.2.1 = x.2.2.1 → y = x) → tabGet [] t.clusters[cl].uvals (r.rid * 65536 + x.2.2.1) = x.2.2.2.1) ∧
        (∀ m : CoreIx, t.cores[m].store = s.cores[m].store)) ∧
      (r.dest = 2 → ∃ t, exec (.reduceU cl) s = .next t ∧
        t = { s with cores := t.cores, clusters := t.clusters, run := wordOver (192 + cl.val) i code w s.run } ∧
        (∀ m : CoreIx, m ≠ coreOf cl r.vc → t.cores[m] = s.cores[m]) ∧
        (Memory.wf s.cores[coreOf cl r.vc].store = true →
          r.addr * 128 + 8 * (128 * cdiv r.count 128) * (if (planRow s r.seg).rmax ≤ 128 then 128 else 256) ≤ Config.coreStoreBytes →
          ∀ p k, p < r.count → k < (if (planRow s r.seg).rmax ≤ 128 then 128 else 256) →
            storeF32 t.cores[coreOf cl r.vc] (r.addr * 128 + 4 * (p * (if (planRow s r.seg).rmax ≤ 128 then 128 else 256) + k)) =
              (match l.find? (fun x => x.1 == p) with
                | some x => if tagGrad (tagOf s x.2.2.1) = true ∧ k < sg.rank then x.2.2.2.1.getD k 0 else 0
                | none => 0))) ∧
      (r.dest = 3 → ∃ t, exec (.reducePart cl) s = .next t ∧
        t = { s with cores := t.cores, clusters := t.clusters, run := wordOver (192 + cl.val) i code w s.run } ∧
        (∀ m : CoreIx, m ≠ coreOf cl r.vc → t.cores[m] = s.cores[m]) ∧
        (∀ x, x < r.addr * 128 → memByte t.cores[coreOf cl r.vc].store x = memByte s.cores[coreOf cl r.vc].store x)))

/-! ### The request faces and the context cache -/

/-- FACEIN ACT and GRAD: a block of another length is refused, its rows poisoned or its gradients refused; a block of the right
length is placed: the last row stands in the cores it reaches, whole or a piece each, when all are assigned to its partition,
and a row that reaches another partition's core is poisoned (R151, R153, R198, R199, R482).
Commands that it shows to complete, on the conditions that it states: faceinAct, faceinGrad.

FACEIN LOGIT, QRY and PROB: a block of the expected length is kept for the word that uses it, one of another length is
refused and kept as refused, the rows of a LOGIT block poisoned; only LOGIT writes core stores, and a row of it that reaches another partition's core is poisoned
(R151, R153, R187, R294, R482).
Commands that it shows to complete, on the conditions that it states: faceinLogit, faceinQry, faceinProb. -/
def Obligations.FaceBlocksTaken : Prop :=
  (∀ (f : FaceIx) (b : List Byte) (s : State) (i : Nat) (w : IWord),
    (FaceReady s f 0 i w → ∃ t, exec (.faceinAct f b) s = .next t ∧
      t = { s with cores := t.cores, clusters := t.clusters, faces := t.faces, run := t.run } ∧ wordPassed s t (200 + f.val) ∧ SameAssign s t ∧
      let wd := (targetOf s (fld w 50 4)).din
      ((blockTaken s i b).length ≠ (faceRows s f).length * wd → t.cores = s.cores ∧ t.clusters = s.clusters ∧
        ∀ r ∈ faceRows s f, bitAt w 107 = true ∨ rowPlace s r ≠ none → (f, r) ∈ t.run.poison) ∧
      ((blockTaken s i b).length = (faceRows s f).length * wd → ∀ r seg p l, faceRows s f = l ++ [r] → r ∉ l → rowPlace s r = some (seg, p) →
        bitAt w 107 = false →
        let pl := placeOf (planRow s seg) p
        let cs := rowCores (faceWord w) pl.1
        let a := (planRow s seg).abase * 128 + pl.2 * (planRow s seg).astr * 128
        let bytes := ((blockTaken s i b).drop (l.length * wd)).take wd
        (coresOwned s cs (tagPart (tagOf s r)) = false → (f, r) ∈ t.run.poison) ∧
        (coresOwned s cs (tagPart (tagOf s r)) = true → a + wd ≤ Config.coreStoreBytes →
          (∀ n ∈ cs, Memory.wf s.cores[n].store = true) → ∀ (k : Nat) (n : CoreIx), cs[k]? = some n →
          (bitAt w 106 = false → memRead t.cores[n].store a wd = bytes) ∧
          (bitAt w 106 = true → cs.Nodup →
            memRead t.cores[n].store a (wd / cs.length) = slice bytes (k * (wd / cs.length)) (wd / cs.length))))) ∧
    (FaceReady s f 1 i w → ∃ t, exec (.faceinGrad f b) s = .next t ∧
      t = { s with cores := t.cores, clusters := t.clusters, faces := t.faces, run := t.run } ∧ wordPassed s t (200 + f.val) ∧ SameAssign s t ∧
      let wd := (targetOf s (fld w 50 4)).dout
      let rows := (faceRows s f).filter (fun r => tagGrad (tagOf s r))
      ((blockTaken s i b).length ≠ rows.length * wd * 2 → t.cores = s.cores ∧ t.clusters = s.clusters ∧
        (f, fld w 50 4, fld w 54 10) ∈ t.run.gradRefused ∧ (∀ r ∈ rows, bitAt w 107 = true ∨ rowPlace s r ≠ none → (f, r) ∈ t.run.poison) ∧
        ∀ r < s.run.tags.length, tagValid (tagOf s r) = true → tagGrad (tagOf s r) = true →
          t.run.summary.getLsbD (tagPart (tagOf s r)).val = true ∧ t.run.summary.getLsbD (16 + (tagPart (tagOf s r)).val) = true) ∧
      ((blockTaken s i b).length = rows.length * wd * 2 → t.run.gradRefused = s.run.gradRefused ∧
        (∀ r ∈ rows, t.run.summary.getLsbD (tagPart (tagOf s r)).val = true) ∧
        ∀ r l, rows = l ++ [r] → r ∉ l → bitAt w 107 = true →
        let cs := rowCores (faceWord w) 0
        let a := fld w 80 15 * 128 + (faceRows s f).idxOf r * fld w 95 11 * 128
        (coresOwned s cs (tagPart (tagOf s r)) = false → (f, r) ∈ t.run.poison) ∧
        (coresOwned s cs (tagPart (tagOf s r)) = true → a + wd ≤ Config.coreStoreBytes →
          ∀ n ∈ cs, Memory.wf s.cores[n].store = true → memRead t.cores[n].store a wd =
            gradCodes s.parts[tagPart (tagOf s r)].loss.ls wd (((blockTaken s i b).drop (l.length * (2 * wd))).take (2 * wd)))))) ∧
  (∀ (f : FaceIx) (b : List Byte) (s : State) (i : Nat) (w : IWord) (kind size : Nat) (c : Instr),
    FaceReady s f kind i w →
    ((kind = 4 ∧ c = .faceinLogit f b ∧ size = (((faceRows s f).filter (fun r => decide (0 < rowTopk s r))).map
        (fun r => (targetOf s (fld w 50 4)).dout * deltaWidth s (tagPart (tagOf s r)) f)).sum) ∨
      (kind = 2 ∧ c = .faceinQry f b ∧ s.run.checked = true ∧
        size = ((faceContext s f).map (qrySize s (attWith s true (fld w 50 4)))).sum) ∨
      (kind = 3 ∧ c = .faceinProb f b ∧ s.run.checked = true ∧
        size = ((faceContext s f).map (probSize s (attWith s false (fld w 50 4)))).sum)) →
    ∃ t, exec c s = .next t ∧ t = { s with cores := t.cores, faces := t.faces, run := t.run } ∧ wordPassed s t (200 + f.val) ∧ SameAssign s t ∧
      (kind ≠ 4 ∨ (blockTaken s i b).length ≠ size → t.cores = s.cores) ∧
      (kind = 4 → (blockTaken s i b).length ≠ size → ∀ r ∈ faceRows s f, 0 < rowTopk s r → bitAt w 107 = true ∨ rowPlace s r ≠ none →
        (f, r) ∈ t.run.poison) ∧
      (kind = 4 → (blockTaken s i b).length = size → bitAt w 107 = true →
        ∀ r ∈ faceRows s f, 0 < rowTopk s r → coresOwned s (rowCores (faceWord w) 0) (tagPart (tagOf s r)) = false → (f, r) ∈ t.run.poison) ∧
      t.run.blocks = s.run.blocks ++ [InBlock.mk kind f (fld w 50 4) (fld w 54 10) (fld w 80 15) (bitAt w 107)
        (if (blockTaken s i b).length = size then some (blockTaken s i b) else none)] ∧
      ((blockTaken s i b).length = size → t.run.otherErrs = s.run.otherErrs))

/-- FACEOUT BITMAP, DELTA and IGRAD: one block leaves, row by row in ascending row order: NaNs for a poisoned row or one that
reaches another partition's core, zeros for a zero row, else the cores' bytes joined; and nothing else of the machine changes
but the step; the BITMAP of a program with passes waits for the hand-over check (R52 to R55, R185, R152, R153, R201, R482).
Commands that it shows to complete, on the conditions that it states: faceoutBitmap, faceoutDelta, faceoutIgrad. -/
def Obligations.FaceBlocksSent : Prop :=
  ∀ (f : FaceIx) (s : State) (i : Nat) (w : IWord),
    (FaceDue s f 8 i w → s.run.checked = false → progWords s (fun w => wOp w == 0x90 && fld w 46 4 != 0) ≠ [] →
      exec (.faceoutBitmap f) s = .next s) ∧
    (FaceDue s f 8 i w → (s.run.checked = true ∨ progWords s (fun w => wOp w == 0x90 && fld w 46 4 != 0) = []) → ∃ t, exec (.faceoutBitmap f) s = .next t ∧ t = { s with out := t.out, run := t.run } ∧ wordPassed s t (202 + f.val) ∧
      t.out = (if s.run.sentWords.contains i = true then s.out else s.out ++ [.face f 8 0 0 (bitmapBytes s f)])) ∧
    (FaceDue s f 9 i w → ∃ t, exec (.faceoutDelta f) s = .next t ∧ t = { s with out := t.out, run := t.run } ∧ wordPassed s t (202 + f.val) ∧
      blockSent s t f 9 i w ((faceRows s f).flatMap (fun row =>
        let g := targetOf s (fld w 50 4)
        let wd := deltaWidth s (tagPart (tagOf s row)) f
        if isPoisoned s f row = true then nanRow wd g.dout
        else if zeroRow s (fld w 50 4) row = true ∨ (g.typ = 3 ∧ 0 < rowTopk s row) then List.replicate (g.dout * wd) 0
        else (gatherRow s (faceWord w) false (g.dout * wd) row).getD (nanRow wd g.dout)))) ∧
    (FaceDue s f 0xA i w → ∃ t, exec (.faceoutIgrad f) s = .next t ∧ t = { s with out := t.out, run := t.run } ∧ wordPassed s t (202 + f.val) ∧
      blockSent s t f 0xA i w (((faceRows s f).filter (fun r => tagGrad (tagOf s r))).flatMap (fun row =>
        let g := targetOf s (fld w 50 4)
        if s.run.gradRefused.contains (f, fld w 50 4, fld w 54 10) = true ∨ isPoisoned s f row = true then nanRow 2 g.din
        else if zeroRow s (fld w 50 4) row = true then List.replicate (2 * g.din) 0
        else ((gatherRow s (faceWord w) true (g.din * 4) row).map (fun b => (chunk 4 g.din b).flatMap (fun x => leBytes 2
          (fpConvert fmtB16 false (f32Val (f32Scale (BitVec.ofNat 32 (leNat x)) (-s.parts[tagPart (tagOf s row)].loss.ls)).1)).1))).getD
            (nanRow 2 g.din))))

/-- FACEOUT TOPK waits for the LOGIT block of its target and ADDR; a refused block, a poisoned row and a row that reaches another
partition's core give canonical NaNs, and any other row its K best finished logits in the order of R295 (R293 to R296).
Commands that it shows to complete, on the conditions that it states: faceoutTopk.

The order of R295: the best logits of a list come first, no logit left out stands before one chosen, and each chosen one
comes from the list. -/
def Obligations.CandidatesSelected : Prop :=
  (∀ (f : FaceIx) (s : State) (i : Nat) (w : IWord), FaceDue s f 0xD i w →
    let has := fun (x : InBlock) => x.kind == 4 && decide (x.face = f) && x.target == fld w 50 4 && x.addr == fld w 80 15 && x.route
    let rows := (faceRows s f).filter (fun r => decide (0 < rowTopk s r))
    (s.run.blocks.find? has = none → exec (.faceoutTopk f) s = .next s) ∧
    (∀ x : InBlock, s.run.blocks.find? has = some x → ∃ (t : State) (groups : List (Nat × List Byte)), exec (.faceoutTopk f) s = .next t ∧
      t = { s with out := t.out, cores := t.cores, run := t.run } ∧ wordPassed s t (202 + f.val) ∧ SameAssign s t ∧
      (∀ n : CoreIx, t.cores[n].store = s.cores[n].store) ∧ blockSent s t f 0xD i w (groups.flatMap (·.2)) ∧ groups.map (·.1) = rows ∧
      let mine := fun r => coresOwned s (rowCores { faceWord w with route := true } 0) (tagPart (tagOf s r))
      ∀ g ∈ groups, (x.bytes = none ∨ isPoisoned s f g.1 = true ∨ mine g.1 = false → g.2 = nanGroup (targetOf s (fld w 50 4)).vbase (rowTopk s g.1)) ∧
        (∀ bytes l, x.bytes = some bytes → isPoisoned s f g.1 = false → mine g.1 = true → l <+: rows → (l ++ [g.1]) <+: rows → g.1 ∉ l →
          let wd := fun r => (targetOf s (fld w 50 4)).dout * deltaWidth s (tagPart (tagOf s r)) f
          g.2 = topkBytes (topN (rowTopk s g.1) (finishRow s f (faceWord w) g.1 (slice bytes (l.map wd).sum (wd g.1))))))) ∧
  (∀ (n : Nat) (l : List (F32 × Nat)), (l.map Prod.snd).Nodup →
    (topN n l).length = min n l.length ∧ (topN n l).Pairwise (fun a b => topkBefore a b = true) ∧
    (∀ x ∈ topN n l, x ∈ l) ∧ ∀ x ∈ topN n l, ∀ y ∈ l, y ∉ topN n l → topkBefore x y = true)

/-- The words of the context cache: UWRITE writes the entries of the running step's positions once the hand-over check
has run and every rank vector is there; the passes await their blocks and leave their product for the word that sends it, and
a word that must wait has issued and lets the queue go on; SCORE and VDELTA wait for that product and send each listed request's
values, canonical NaNs for a poisoned row (R119, R167, R168, R179, R186, R187, R482).
Commands that it shows to complete, on the conditions that it states: rccUwrite, rccKpass, rccVpass, faceoutScore, faceoutVdelta. -/
def Obligations.ContextWordsRead : Prop :=
  ∀ (s : State) (i : Nat) (w : IWord),
    (readyWord s 204 = some (i, w) → noFlight s 204 → wOp w = 0x90 → fld w 46 4 = 0 →
      let reqs := (contextList s).filter (fun r => bitAt (slotOf s r.slot).tmask (fld w 60 4))
      (s.run.checked = false ∨ (∃ r ∈ reqs, ∃ row ∈ r.rows, deliveredU s (fld w 64 8) (fld w 72 6) row = none) →
        exec .rccUwrite s = .next (departWord 204 i s)) ∧
      (s.run.checked = true → (∀ r ∈ reqs, ∀ row ∈ r.rows, (deliveredU s (fld w 64 8) (fld w 72 6) row).isSome = true) →
        ∃ t, exec .rccUwrite s = .next t ∧ t = { s with hbm := t.hbm, cores := t.cores, run := t.run } ∧ wordPassed s t 204 ∧
          SameAssign s t ∧ (∀ n : CoreIx, t.cores[n].store = s.cores[n].store) ∧ (reqs = [] → t.hbm = s.hbm) ∧
          ∀ r row u a o, reqs = [r] → r.rows = [row] → deliveredU s (fld w 64 8) (fld w 72 6) row = some u →
            pageAt s r (r.clen / 256) = some (a, false, true) → sectionOff s r false (fld w 50 10) (fld w 60 4) = some o →
            isPoisoned s (recOf s r.req).face row = false → (∀ x ∈ u, f32Finite x = true) → Memory.wf s.hbm = true →
            let at0 := a + o + r.clen % 256 * (slotOf s r.slot).rank * 2
            memRead t.hbm at0 (2 * u.length) = u.flatMap (fun x => leBytes 2 (fpConvert fmtB16 false (f32Val x)).1) ∧
            ∀ x, x < at0 ∨ at0 + 2 * u.length ≤ x → memByte t.hbm x = memByte s.hbm x)) ∧
    (∀ (key : Bool) (c : Instr), (key = true ∧ c = .rccKpass ∧ fld w 46 4 = 1) ∨ (key = false ∧ c = .rccVpass ∧ fld w 46 4 = 2) →
      readyWord s 204 = some (i, w) → noFlight s 204 → wOp w = 0x90 →
      let d := attOf s (fld w 72 3)
      let g := if key = true then d.ktgt else d.vtgt
      let have1 := fun r => passBlock s r (if key = true then 2 else 3) g (fld w 50 10)
      (s.run.checked = false ∨ (∃ r ∈ contextList s, have1 r = none) → exec c s = .next (departWord 204 i s)) ∧
      (s.run.checked = true → (∀ r ∈ contextList s, (have1 r).isSome = true) →
        ∃ t m, exec c s = .next t ∧ t = { s with cores := t.cores, run := t.run } ∧ wordPassed s t 204 ∧ SameAssign s t ∧
          (∀ n : CoreIx, t.cores[n].store = s.cores[n].store) ∧ t.run.made = s.run.made ++ [m] ∧
          m.kind = (if key = true then 0xB else 0xC) ∧ m.desc = g ∧ m.layer = fld w 50 10 ∧ m.vals.length = (contextList s).length ∧
          ∀ k r, (contextList s)[k]? = some r →
            ((have1 r).bind (·.bytes) = none → ∀ v ∈ m.vals.getD k [], v = deltaNan (deltaWidth s r.part (recOf s r.req).face)) ∧
            ((have1 r).bind (·.bytes) ≠ none → bitAt (slotOf s r.slot).tmask g = false → ∀ v ∈ m.vals.getD k [], v = 0) ∧
            (∀ b, (have1 r).bind (·.bytes) = some b → bitAt (slotOf s r.slot).tmask g = true →
              let wd := deltaWidth s r.part (recOf s r.req).face
              m.vals.getD k [] = (if key = true
                then scoreCalc s r d (fld w 50 10) wd (contextTiles s r (fld w 50 10) g) (slice b (blockOffset s r (qrySize s d)) (qrySize s d r))
                else valueCalc s r d (fld w 50 10) wd (contextTiles s r (fld w 50 10) g) (slice b (blockOffset s r (probSize s d)) (probSize s d r))).flatMap Prod.fst))) ∧
    (∀ (f : FaceIx) (kind : Nat) (c : Instr), (kind = 0xB ∧ c = .faceoutScore f) ∨ (kind = 0xC ∧ c = .faceoutVdelta f) → FaceDue s f kind i w →
      let has := fun (m : MadeBlock) => m.kind == kind && m.desc == fld w 50 4 && m.layer == fld w 54 10
      (s.run.made.find? has = none → exec c s = .next s) ∧
      (∀ m, s.run.made.find? has = some m → ∃ t, exec c s = .next t ∧ t = { s with out := t.out, run := t.run } ∧
        wordPassed s t (202 + f.val) ∧ blockSent s t f kind i w
          (((contextList s).zip m.vals).flatMap (fun x => if (recOf s x.1.req).face = f
            then x.2.zipIdx.flatMap (fun v => leBytes (deltaWidth s x.1.part f)
              (if isPoisoned s f (x.1.rows.getD (v.2 / max 1 (x.2.length / max 1 x.1.rows.length)) 0) = true then deltaNan (deltaWidth s x.1.part f)
                else v.1).toNat) else [])))) ∧
    (readyWord s 204 = none → noFlight s 204 → exec .rccUwrite s = .next s ∧ exec .rccKpass s = .next s ∧ exec .rccVpass s = .next s)

/-! ### Training words -/

/-- MACC: nothing to do for an absent segment or target (SKIPPED) and for a segment that does not train; one tile of a training
segment adds each of its contributions, canonical NaNs for a poisoned tile, to its element's exact sum, modulo the accumulator's 128 bits, marks the tensor touched
and changes no other byte of memory; with no ACTIVE tensor it is discarded and counted (R155, R208, R211, R212).
Commands that it shows to complete, on the conditions that it states: macc. -/
def Obligations.GradientsContributed : Prop :=
  ∀ (core : CoreIx) (s : State) (i : Nat) (w : IWord), WordReady s (64 + core.val) (clusterDown s (clusterOf core)) i w → wOp w = 0x80 →
    let sg := s.run.segs.getD (fld w 48 12) {}
    let tgt := fld w 60 4
    let matB := bitAt w 64
    let e := slotOf s sg.slot
    (s.run.segs.length ≤ fld w 48 12 ∨ bitAt e.tmask tgt = false →
      exec (.macc core) s = .next { s with run := wordOver (64 + core.val) i 4 w s.run }) ∧
    (fld w 48 12 < s.run.segs.length → bitAt e.tmask tgt = true → segTrains s sg = false →
      exec (.macc core) s = .next { s with run := wordOver (64 + core.val) i 0 w s.run }) ∧
    (fld w 48 12 < s.run.segs.length → bitAt e.tmask tgt = true → segTrains s sg = true → fld w 95 16 = 1 →
      let wd := contribBytes (fld w 46 2)
      let els := tileBytes matB e.rank
      let raw := if unitPoison s i 0 = true then (List.replicate els (leBytes wd (contribFmt (fld w 46 2)).nanc)).flatten
        else memRead s.cores[core].store (fld w 65 15 * 128) (els * wd)
      let vals := (chunk wd els raw).map (fun b =>
        fpDecode (contribFmt (fld w 46 2)) (leNat b))
      let parts := ((tileElems (targetOf s tgt) matB e.rank (fld w 80 15)).zip vals).filterMap (fun x => x.1.1.map (fun k => (k, x.2)))
      (findTensor s sg.part sg.slot sg.version tgt matB = none → ∃ t, exec (.macc core) s = .next t ∧
        t = { s with parts := t.parts, run := t.run } ∧ wordPassed s t (64 + core.val) ∧
        t.parts[sg.part].counted.trainDiscard = s.parts[sg.part].counted.trainDiscard + parts.length) ∧
      (∀ ix, findTensor s sg.part sg.slot sg.version tgt matB = some ix →
        let T := tabGet {} s.tensors ix
        let n := tensorElems s T
        T.repset = 0xFFF → Memory.wf s.hbm = true → tabWf {} s.tensors = true →
        badRead s T.master (4 * n) = false → badRead s T.moments (8 * n) = false → badRead s T.acc (16 * n) = false →
        ∃ t, exec (.macc core) s = .next t ∧ wordPassed s t (64 + core.val) ∧
          t = { s with hbm := t.hbm, tensors := t.tensors, parts := t.parts, uuNow := t.uuNow, uuAdd := t.uuAdd, run := t.run } ∧
          (∀ k, k < n → accSum t.hbm T k =
            sgn 128 (twos 128 (accSum s.hbm T k + ((parts.filter (fun x => x.1 == k)).map (fun x => (xaQuant x.2 T.wForce).1)).sum))) ∧
          (∀ x, x < T.acc ∨ T.acc + 16 * n ≤ x → memByte t.hbm x = memByte s.hbm x) ∧
          (∀ jx, jx ≠ ix → tabGet {} t.tensors jx = tabGet {} s.tensors jx) ∧
          ((∃ x ∈ parts, x.1 < n) → (tabGet {} t.tensors ix).touched = true ∧ t.run.summary.getLsbD sg.part.val = true) ∧
          (tabGet {} t.tensors ix).stepNan = (T.stepNan || parts.any (fun x => decide (x.1 < n) && (xaQuant x.2 T.wForce).2.2)) ∧
          (tabGet {} t.tensors ix).steps = T.steps ∧ (tabGet {} t.tensors ix).st = T.st))

/-- MOPT: the first completes the training summary, counts a skip for every partition whose OVF stands or one of whose ACTIVE
tensors names a parameter set that is not VALID, and clears the accumulators of the skipped tensors; a named tensor takes one
optimizer step element by element, its accumulator cleared and its step count raised; one without a VALID set takes none (R215
to R219, Table TRAIN-9).
Commands that it shows to complete, on the conditions that it states: mopt.

MREGEN: the working tiles of each named tensor that is not EMPTY are quantized anew from its masters, and no cluster keeps a
region of its slot (R73, R156, R220).
Commands that it shows to complete, on the conditions that it states: mregen. -/
def Obligations.OptimizerStepped : Prop :=
  (∀ (h : HbmIx) (s : State) (i : Nat) (w : IWord), readyWord s (211 + h.val) = some (i, w) → wOp w = 0x81 →
    (∃ t, exec (.mopt h) s = .next t ∧ wordPassed s t (211 + h.val) ∧
      t = { s with hbm := t.hbm, tensors := t.tensors, parts := t.parts, clusters := t.clusters, uuNow := t.uuNow, uuOpt := t.uuOpt,
                   run := t.run, err := t.err, regs := t.regs } ∧
      (s.run.acted < 2 → t.run.acted = 2 ∧ t.run.summary = summaryNow s ∧
        ∀ p : Part, ((summaryNow s).getLsbD (16 + p.val) = true ∨ ∃ x ∈ s.tensors, x.2.part = p ∧ lacksSet s x.2 = true) →
          s.run.skipParts.getLsbD p.val = false → t.parts[p].counted.trainSkip = s.parts[p].counted.trainSkip + 1)) ∧
    (∀ ix T, s.run.acted < 2 → bitAt w 82 = false → s.tensors = [(ix, T)] → lacksSet s T = true → Memory.wf s.hbm = true →
      ∃ t, exec (.mopt h) s = .next t ∧ (∀ k, k < tensorElems s T → accSum t.hbm T k = 0) ∧ (tabGet {} t.tensors ix).steps = T.steps ∧
        (∀ x, x < T.acc ∨ T.acc + 16 * tensorElems s T ≤ x → memByte t.hbm x = memByte s.hbm x)) ∧
    (∀ ix, 2 ≤ s.run.acted → wordTensors s w = [ix] → bitAt w 82 = false →
      let T := tabGet {} s.tensors ix
      let n := tensorElems s T
      let H := tabGet {} s.parts[T.part].hps T.hset
      T.st = .active → T.touched = true → T.stepped = false → s.parts[T.part].presetPend = none → (slotOf s T.slot).frozen = false →
      s.run.summary.getLsbD (16 + T.part.val) = false → Memory.wf s.hbm = true → tabWf {} s.tensors = true →
      badRead s T.master (4 * n) = false → badRead s T.moments (8 * n) = false → badRead s T.acc (16 * n) = false →
      (T.master + 4 * n ≤ T.moments ∨ T.moments + 8 * n ≤ T.master) → (T.master + 4 * n ≤ T.acc ∨ T.acc + 16 * n ≤ T.master) →
      (T.moments + 8 * n ≤ T.acc ∨ T.acc + 16 * n ≤ T.moments) →
      ∃ t, exec (.mopt h) s = .next t ∧
        (∀ x, (x < T.acc ∨ T.acc + 16 * n ≤ x) → (x < T.master ∨ T.master + 4 * n ≤ x) → (x < T.moments ∨ T.moments + 8 * n ≤ x) →
          memByte t.hbm x = memByte s.hbm x) ∧
        (H.valid = true → (∀ k, k < n → accSum t.hbm T k = 0) ∧
          (tabGet {} t.tensors ix).steps = min 0xFFFFFFFE (T.steps + 1) ∧ (tabGet {} t.tensors ix).bc1 = (f32Mul T.bc1 H.beta1).1 ∧
          (tabGet {} t.tensors ix).stepped = true ∧
          ∀ k, k < n →
            let g := (f32Scale (xaRead (accSum s.hbm T k) T.wForce).1 (-s.parts[T.part].loss.ls)).1
            let r := optElem (optConst T H) H g (hbmF32 s.hbm (T.moments + 4 * k)) (hbmF32 s.hbm (T.moments + 4 * n + 4 * k))
              (hbmF32 s.hbm (T.master + 4 * k))
            let fin := f32Finite r.1 && f32Finite r.2.1 && f32Finite r.2.2
            hbmF32 t.hbm (T.moments + 4 * k) = (if fin = true then r.1 else hbmF32 s.hbm (T.moments + 4 * k)) ∧
            hbmF32 t.hbm (T.moments + 4 * n + 4 * k) = (if fin = true then r.2.1 else hbmF32 s.hbm (T.moments + 4 * n + 4 * k)) ∧
            hbmF32 t.hbm (T.master + 4 * k) = (if fin = true then r.2.2 else hbmF32 s.hbm (T.master + 4 * k))) ∧
        (H.valid = false → t.hbm = s.hbm ∧ t.tensors = s.tensors ∧ t.parts = s.parts))) ∧
  (∀ (h : HbmIx) (s : State) (i : Nat) (w : IWord), readyWord s (211 + h.val) = some (i, w) → wOp w = 0x82 →
    (∃ t, exec (.mregen h) s = .next t ∧ wordPassed s t (211 + h.val) ∧
      t = { s with hbm := t.hbm, clusters := t.clusters, uuNow := t.uuNow, run := t.run } ∧
      ∀ ix ∈ wordTensors s w, (tabGet {} s.tensors ix).st ≠ .empty → s.parts[(tabGet {} s.tensors ix).part].presetPend = none →
        ∀ c : ClusterIx, ∀ r ∈ t.clusters[c].regions, r.2.slot ≠ (tabGet {} s.tensors ix).slot) ∧
    (∀ ix, wordTensors s w = [ix] →
      let T := tabGet {} s.tensors ix
      let d := workDir s T
      let els := tileElems (targetOf s T.target) T.matB (tensorRank s T) 0
      let q := quantTile (els.map (fun x => match x.1 with
        | some k => hbmF32 s.hbm (T.master + 4 * k)
        | none => 0))
      T.st ≠ .empty → s.parts[T.part].presetPend = none → T.nlayers * tensorTpl s T = 1 → Memory.wf s.hbm = true →
      (∀ x ∈ els, x.2 < d.tbytes) → d.codes + d.tbytes ≤ d.scales → ∃ t, exec (.mregen h) s = .next t ∧
      memByte t.hbm (T.work + d.scales) = BitVec.ofNat 8 (twos 8 q.1) ∧
      (∀ (j : Nat) (e : Option Nat × Nat), els[j]? = some e → memByte t.hbm (T.work + d.codes + e.2) = q.2.getD j 0) ∧
      ∀ x, x ≠ T.work + d.scales → (x < T.work + d.codes ∨ T.work + d.codes + d.tbytes ≤ x) → memByte t.hbm x = memByte s.hbm x))

/-! ### Exchange -/

/-- The exchange messages: one that an XRECV of the step awaits is kept for it and changes nothing else; one that no XRECV names
is discarded and counted; before the first step an AGREE word is taken at once; tile digests are kept (R211, R213, R226, R248,
R251, R253, R348, R412).
Commands that it shows to complete, on the conditions that it states: psumMsg, rowreqMsg, rowsMsg, gradMsg, agreeMsg, digestMsg,
tdigMsg.

XSEND: its message, with the payload of its KIND, leaves toward PEER on the route, once; nothing leaves toward an
UNREACHABLE peer or after a replay; a PEER outside the box is a ROUTE_DROP (R154, R208, R224, R247, R251, R321, R360).
Commands that it shows to complete, on the conditions that it states: xsend. -/
def Obligations.ExchangeMessagesSent : Prop :=
  (∀ (m : Msg) (s : State),
    (∀ p ∈ [(0, Instr.psumMsg m), (1, .rowreqMsg m), (2, .rowsMsg m), (3, .gradMsg m), (4, .agreeMsg m), (5, .digestMsg m)],
      mKind m = p.1 → s.run.isOpen = true →
      (MsgAwaited m s → exec p.2 s = .next { s with ports := (checked m s).ports, plane := (checked m s).plane, run := { s.run with
        inbox := s.run.inbox ++ [InMsg.mk (mSrc m) (mPart m).val (mKind m) (mMsg m) m.body] } }) ∧
      (MsgChecked m s → xrecvWord s (mSrc m) (mKind m) (mMsg m) = none → ∃ t, exec p.2 s = .next t ∧
        t = { s with ports := t.ports, plane := t.plane, parts := t.parts } ∧
        ((mKind m = 0 ∨ mKind m = 2) → t.plane = s.plane ∧
          t.parts[mPart m].counted.resDiscard = s.parts[mPart m].counted.resDiscard + 1) ∧
        (¬ (mKind m = 0 ∨ mKind m = 2) → t.parts = s.parts ∧
          t.plane = { s.plane with stray := min 0xFFFE (s.plane.stray + 1) }))) ∧
    (MsgChecked m s → mKind m = 4 → s.run.isOpen = false → ∃ t, exec (.agreeMsg m) s = .next t ∧
      t = { s with ports := t.ports, plane := t.plane, run := t.run, mc := t.mc } ∧
      t.run.summary = s.run.summary ||| BitVec.ofNat 32 (nfld (leAt m.body 0 64) 160 32) ∧
      ∀ q, portOf s (mSrc m) = some q → t.mc.agrees[q] = some (BitVec.ofNat 512 (leAt m.body 0 64))) ∧
    (MsgChecked m s → mKind m = 9 → ∃ t, exec (.tdigMsg m) s = .next t ∧
      t = { s with ports := t.ports, plane := t.plane, run := t.run, parts := t.parts, regs := t.regs, tdigs := t.tdigs } ∧
      ((∀ x ∈ s.slots, x.2.frozen = false) → t.parts = s.parts ∧ ∃ d, t.tdigs = s.tdigs ++ [d] ∧ d.src = mSrc m ∧ d.part = mPart m ∧
        d.tag = BitVec.ofNat 32 (nfld (leAt m.body 0 32) 32 32) ∧ d.version = nfld (leAt m.body 0 32) 16 16 ∧
        d.first = nfld (leAt m.body 0 32) 69 15 ∧ ∀ j, j < d.digs.length → d.digs.getD j 0 = BitVec.ofNat 64 (leAt m.body (32 + 8 * j) 8)))) ∧
  (∀ (port : PortIx) (s : State) (i : Nat) (w : IWord), readyWord s (205 + port.val) = some (i, w) → wOp w = 0x70 →
    let x := xWord w
    let p := corePart s (xCore w)
    let m := mkMsg s x.kind x.msg ((p.map Fin.val).getD 0) x.peer (sendBody s p x)
    ∃ t, exec (.xsend port) s = .next t ∧
      t = { s with out := t.out, ports := t.ports, plane := t.plane, err := t.err, regs := t.regs, run := t.run, mc := t.mc } ∧
      t.mc = { s.mc with agreeSent := t.mc.agreeSent } ∧ wordPassed s t (205 + port.val) ∧
      t.run.gradOut = (takeGradOut p x s).run.gradOut ∧
      (s.run.sentWords.contains i = true ∨ peerLost s x = true → t.out = s.out ∧ t.ports = s.ports ∧ t.mc = s.mc) ∧
      (s.run.sentWords.contains i = false → ∀ pl, s.plane.plan = some pl → inBox pl x.peer = false →
        t.out = s.out ∧ t.ports = s.ports ∧ t.plane.routeDrop = min 0xFFFE (s.plane.routeDrop + 1)) ∧
      (s.run.sentWords.contains i = false → ∀ q : PortIx, routeEntry s false x.peer = q.val → portCarries s q x.vc = true →
        t.out = s.out ++ [.msg q m] ∧ i ∈ t.run.sentWords ∧ (∀ j : PortIx, j ≠ q → t.ports[j] = s.ports[j]) ∧
        t.ports[q] = { s.ports[q] with txq := t.ports[q].txq } ∧
        t.ports[q].txq[Fin.ofNat 8 (2 * x.vc.val)] = s.ports[q].txq[Fin.ofNat 8 (2 * x.vc.val)] ++ msgFlits 6 x.vc false m ∧
        (x.kind = 4 → ∀ n : PortIx, portOf s x.peer = some n → t.mc.agreeSent[n] = some (ownWord s.mc.sNext (s.mc.step + 1) s))))

/-- XRECV: one whose message may still come has issued and waits, and its queue goes on; a lost source, or a payload longer than
the word's window, gives NO_SOURCE with its entry, NaN rows for a PSUM and the summary bits of Table REL-9; a message's payload is
placed at its fixed address and takes the effect of its KIND (R11, R119, R154, R211, R213, R225, R248, R251, R253, R436; the
payload that is too long is the model's choice, log entry 143).
Commands that it shows to complete, on the conditions that it states: xrecv.

A PSUM for no reduction, or for a segment that the batch lacks, is passed over; one whose headers name the node of its source's
shard and the segment's version enters the reduction; one that does not is discarded: canonical NaN enters in every lane in its
place, the segment's partition gets an entry, and the word completes NO_SOURCE (R10, R248). -/
def Obligations.ExchangeMessagesTaken : Prop :=
  (∀ (port : PortIx) (s : State) (i : Nat) (w : IWord), readyWord s (205 + port.val) = some (i, w) → noFlight s (205 + port.val) → wOp w = 0x71 →
    let x := xWord w
    let has := fun (m : InMsg) => m.src == x.peer && m.kind == x.kind && m.msg == x.msg
    (s.run.inbox.find? has = none → lostSource s x.peer = false → exec (.xrecv port) s = .next (departWord (205 + port.val) i s)) ∧
    ((s.run.inbox.find? has = none ∧ lostSource s x.peer = true ∨
        ∃ m, s.run.inbox.find? has = some m ∧ x.kind ≤ 3 ∧ x.len < (blockTaken s i m.body).length) →
      ∃ t, exec (.xrecv port) s = .next t ∧ wordPassed s t (205 + port.val) ∧
      (s.run.hw.any (fun f => faultHits s.run f.1 i) = false → tabGet 0 t.run.status i = 6) ∧
      (∀ p, corePart s x.core = some p → ∃ e, (i, p, e) ∈ t.run.wordErrs ∧ e.code = 6 ∧ e.info1 = x.peer.toNat ∧ e.aux = x.kind) ∧
      (x.kind = 0 → ∀ r node, psumReduce s x = some r → shardNode s (s.run.segs.getD r.seg {}) x.peer = some node →
        tabGet [] s.clusters[clusterOf x.core].reds x.rid = [] → tabWf [] s.clusters[clusterOf x.core].reds = true →
        ∀ y ∈ tabGet [] t.clusters[clusterOf x.core].reds x.rid, y.level = node.1 ∧ y.node = node.2 ∧ ∀ v ∈ y.lanes, v = f32Nan) ∧
      (x.kind = 1 ∨ x.kind = 2 → t = { s with run := t.run }) ∧
      (x.kind = 3 → t = { s with run := t.run } ∧ ∀ p, corePart s x.core = some p → t.run.summary.getLsbD (16 + p.val) = true) ∧
      (x.kind = 4 → t = { s with run := t.run } ∧ ∀ q : Part, t.run.summary.getLsbD (16 + q.val) = true)) ∧
    (∀ m, s.run.inbox.find? has = some m →
      let b := blockTaken s i m.body
      (x.kind = 1 → b.length ≤ x.len → ∃ t, exec (.xrecv port) s = .next t ∧ wordPassed s t (205 + port.val) ∧
        t = { s with cores := t.cores, run := t.run } ∧
        t.run.rowreqIn = s.run.rowreqIn ++ [(x.peer, x.msg, b)] ∧ (∀ n : CoreIx, n ≠ x.core → t.cores[n] = s.cores[n]) ∧
        (Memory.wf s.cores[x.core].store = true → x.addr + b.length ≤ Config.coreStoreBytes →
          memRead t.cores[x.core].store x.addr b.length = b ∧
          ∀ a, a < x.addr ∨ x.addr + b.length ≤ a → memByte t.cores[x.core].store a = memByte s.cores[x.core].store a)) ∧
      (x.kind = 4 → ∃ t, exec (.xrecv port) s = .next t ∧ wordPassed s t (205 + port.val) ∧ t = { s with mc := t.mc, run := t.run } ∧
        t.run.summary = s.run.summary ||| BitVec.ofNat 32 (nfld (leAt b 0 64) 160 32) ∧
        ∀ q, portOf s x.peer = some q → t.mc = { s.mc with agrees := t.mc.agrees } ∧ t.mc.agrees[q] = some (BitVec.ofNat 512 (leAt b 0 64))) ∧
      (x.kind = 2 ∨ x.kind = 3 → b.length ≤ x.len → corePart s x.core = none → ∃ t, exec (.xrecv port) s = .next t ∧
        wordPassed s t (205 + port.val) ∧ t = { s with cores := t.cores, run := t.run }) ∧
      (x.kind = 5 → corePart s x.core = none → ∃ t, exec (.xrecv port) s = .next t ∧ wordPassed s t (205 + port.val) ∧
        t = { s with run := t.run }) ∧
      ∀ p, corePart s x.core = some p →
      (x.kind = 3 → b.length ≤ x.len → ∃ t, exec (.xrecv port) s = .next t ∧ wordPassed s t (205 + port.val) ∧
        (b.length < 8 → t = { s with cores := t.cores, run := t.run }) ∧
        (8 ≤ b.length → (slotOf s (leAt b 0 2)).rank = 0 → t = { s with cores := t.cores, parts := t.parts, run := t.run } ∧
          t.parts[p].counted.trainDiscard = s.parts[p].counted.trainDiscard + 1)) ∧
      (x.kind = 2 → b.length < 16 → b.length ≤ x.len → ∃ t, exec (.xrecv port) s = .next t ∧ wordPassed s t (205 + port.val) ∧
        t = { s with cores := t.cores, run := t.run }) ∧
      (x.kind = 2 → b.length ≤ x.len → Memory.wf s.hbm = true → leAt b 0 8 / 2 ^ 52 % 4 = 0 →
        let a : RowAsk := { rowAsk b with tile := leAt b 0 8 / 2 ^ 37 % 2 ^ 15 }
        let k := 2 * a.target + b2n a.matB
        ∀ y r, askingMirrors s x.peer p a = y :: r → (k, a.tile) ∉ y.2.arrived → (y.2.mirNo, k, a.tile) ∉ s.run.rowsGot →
          let e := dirEnt s.hbm y.2.area a.target a.matB
          a.tile < recLayers s y.2 * e.tpl → askedTileLen s x.peer a b.length = b.length → rowsTileLen e.tbytes = b.length →
          e.codes + (a.tile + 1) * e.tbytes ≤ e.scales → ∃ t, exec (.xrecv port) s = .next t ∧
            t = { s with cores := t.cores, hbm := t.hbm, run := t.run } ∧ (y.2.mirNo, k, a.tile) ∈ t.run.rowsGot ∧
            memRead t.hbm (y.2.area + e.codes + a.tile * e.tbytes) e.tbytes = slice b 16 e.tbytes ∧
            memByte t.hbm (y.2.area + e.scales + a.tile) = b.getD (16 + e.tbytes) 0) ∧
      (x.kind = 5 → (∀ d ∈ sharedDigests s p x.peer, (d.2.1, (slotOf s d.1).tag.toNat, d.2.2.toNat) ∈
          (chunk 16 (b.length / 16) b).map (fun e => (leAt e 2 2, leAt e 4 4, leAt e 8 8))) →
        ∃ t, exec (.xrecv port) s = .next t ∧ wordPassed s t (205 + port.val) ∧ t = { s with run := t.run }) ∧
      (x.kind = 5 → ∀ d, sharedDigests s p x.peer = [d] → (d.2.1, (slotOf s d.1).tag.toNat, d.2.2.toNat) ∉
          (chunk 16 (b.length / 16) b).map (fun e => (leAt e 2 2, leAt e 4 4, leAt e 8 8)) → tabWf {} s.slots = true →
        ∃ t, exec (.xrecv port) s = .next t ∧ wordPassed s t (205 + port.val) ∧ (slotOf t d.1).frozen = true ∧
          (slotOf t d.1).st = (slotOf s d.1).st))) ∧
  (∀ (port : PortIx) (s : State) (i : Nat) (w : IWord) (m : InMsg),
    readyWord s (205 + port.val) = some (i, w) → noFlight s (205 + port.val) → wOp w = 0x71 →
    let x := xWord w
    let b := blockTaken s i m.body
    x.kind = 0 → s.run.inbox.find? (fun m => m.src == x.peer && m.kind == x.kind && m.msg == x.msg) = some m → b.length ≤ x.len →
    s.run.hw.any (fun f => faultHits s.run f.1 i) = false → tabWf 0 s.run.status = true →
    ((psumReduce s x = none ∨ ∃ r, psumReduce s x = some r ∧ s.run.segs.length ≤ r.seg) → ∃ t, exec (.xrecv port) s = .next t ∧
      wordPassed s t (205 + port.val) ∧ t = { s with run := t.run } ∧ tabGet 0 t.run.status i = 4) ∧
    ∀ r, psumReduce s x = some r → r.seg < s.run.segs.length →
    let sg := s.run.segs.getD r.seg {}
    let parts := psumParts sg.rank (rankGroups sg.rank) b
    let reds := tabGet [] s.clusters[clusterOf x.core].reds x.rid
    ∃ t, exec (.xrecv port) s = .next t ∧ wordPassed s t (205 + port.val) ∧ t = { s with cores := t.cores, clusters := t.clusters, run := t.run } ∧
      ∀ node, shardNode s sg x.peer = some node → tabWf [] s.clusters[clusterOf x.core].reds = true →
      (psumAgrees node sg.version parts = true → tabGet 0 t.run.status i = 0 ∧
        (∀ y ∈ reds, y ∈ tabGet [] t.clusters[clusterOf x.core].reds x.rid) ∧
        ∀ y ∈ parts.flatMap (psumNodes sg.rank (clusterFirst (planRow s r.seg) (clusterOf x.core).val)),
          ∃ z ∈ tabGet [] t.clusters[clusterOf x.core].reds x.rid, z.level = y.level ∧ z.node = y.node ∧ z.rgrp = y.rgrp ∧ z.pos = y.pos) ∧
      (psumAgrees node sg.version parts = false →
        tabGet 0 t.run.status i = 6 ∧ t.cores = s.cores ∧ (∃ e, (i, sg.part, e) ∈ t.run.wordErrs ∧ e.code = 0x0B ∧ e.info0 = x.peer.toNat) ∧
        (reds = [] → ∀ y ∈ tabGet [] t.clusters[clusterOf x.core].reds x.rid, y.level = node.1 ∧ y.node = node.2 ∧ ∀ v ∈ y.lanes, v = f32Nan)))

/-! ### Admission and requests -/

/-- ADMISSION_CLOSE: at the close cycle of a segmented step the admitting chip fixes and admits its candidates; on another chip
admission closes, and uses the step's input where that is complete already; before that cycle nothing happens (R22, R268, R270,
R272).
Commands that it shows to complete, on the conditions that it states: admissionClose.

What the admission procedure admits: candidates of their own partitions with at least one row, their rows numbered from 0
without a gap, within 65,536 rows, each partition's TOKSTEP and its window in force, and each face's RB_CAP as admission closes
(R24, R271 to R273).

ADMIT messages on a chip that is not the admitting one: kept until its admission has closed and every one from MSG 0 to the
last is there; then the admission input is complete (R268, R347).
Commands that it shows to complete, on the conditions that it states: admitMsg. -/
def Obligations.AdmissionDecided : Prop :=
  (∀ s : State,
    (s.run.isOpen = true → s.run.segmented = true → s.adm.closed = false → nbReached s (closeCycle s) = true →
      ∃ t, exec .admissionClose s = .next t ∧ t.adm.closed = true ∧ (∀ f : FaceIx, t.faces[f] = { s.faces[f] with rbCapNext := s.faces[f].rbCap }) ∧
        (admits s = true → t = { s with out := t.out, ports := t.ports, faces := t.faces, adm := t.adm } ∧ t.adm.taken = s.adm.taken ∧
          t.adm.complete = true ∧
          t.adm.next = admitAll { s with faces := t.faces } (Vector.ofFn (fun p => (candidates s p).map Prod.fst))) ∧
        (admits s = false → (s.adm.complete = true ∨ manyChips s = false ∨ admitComplete s.adm.input = false) →
          t = { s with faces := t.faces, adm := { s.adm with closed := true, complete := s.adm.complete || !manyChips s } }) ∧
        (admits s = false → s.adm.complete = false → manyChips s = true → admitComplete s.adm.input = true →
          t.adm.complete = true ∧ t.adm.taken.length = s.adm.taken.length + (admitInput s.adm.input).1.length ∧ t.hbm = s.hbm ∧
          t.cores = s.cores ∧ t.slots = s.slots) ∧
        (manyChips s = false → t.out = s.out ∧ t.ports = s.ports)) ∧
    (s.run.isOpen = false ∨ s.run.segmented = false ∨ s.adm.closed = true ∨ nbReached s (closeCycle s) = false →
      exec .admissionClose s = .next s)) ∧
  (∀ (s : State) (lists : Vector (List Nat) 16),
    let l := admitAll s lists
    (l.map Adm.rows).sum ≤ 65536 ∧
    (∀ p : Part, ((l.filter (fun a => decide (a.part = p))).map Adm.rows).sum ≤ min s.parts[p].force.tokStep
      (s.parts[p].force.tokWin - (s.parts[p].admHist.take (s.parts[p].force.winSteps - 1)).sum)) ∧
    (∀ a ∈ l, 0 < a.rows ∧ a.req ∈ lists[a.part]) ∧
    (∀ k, k < l.length → (l.getD k {}).first = ((l.take k).map Adm.rows).sum) ∧
    (∀ f : FaceIx, (l.filter (fun a => decide (a.face = f) && !a.ringEn)) ≠ [] →
      (l.filter (fun a => decide (a.face = f) && !a.ringEn)).length ≤ s.faces[f].rbCapNext)) ∧
  (∀ (m : Msg) (s : State), MsgChecked m s → mKind m = 7 → admits s = false → s.adm.complete = false →
    leAt m.body 0 8 = (nextStep s).toNat →
    let l := s.adm.input ++ [(mMsg m, nfld (leAt m.body 0 32) 93 1 == 1, m.body)]
    (s.adm.closed = false ∨ admitComplete l = false → ∃ t, exec (.admitMsg m) s = .next t ∧
      t = { s with out := t.out, ports := t.ports, plane := t.plane, adm := { s.adm with input := l } }) ∧
    (s.adm.closed = true → admitComplete l = true → ∃ t, exec (.admitMsg m) s = .next t ∧ t.adm.complete = true ∧ t.adm.closed = true ∧
      t.adm.input = l ∧ t.hbm = s.hbm ∧ t.cores = s.cores ∧ t.slots = s.slots ∧ t.mc = s.mc ∧
      t.adm.taken.length = s.adm.taken.length + (admitInput l).1.length))

/-- A descriptor in another partition's queue is answered PART; on another chip than the admitting one, for a partition that is not
KEYED or whose PRESET has been accepted, STATE; without a credit, BOUNDS. Each is counted for the queue, gives back the credit it
came with and has no other effect (R257, R374, R417, R483).

NEW: a stale SEQ, a duplicate, a field outside its bounds, and the new request: a QUEUED record with the descriptor's fields, on
the P-face (the model's choice, log entry 72), and a LIVE completion record (R260, R277, R278).
Commands that it shows to complete, on the conditions that it states: new.

CANCEL, PAUSE, RESUME, REPIN and PFXDROP taken: each with its own effect at once and its answer; one whose state is not the
required one is answered STATE or UNKNOWN (R278, R285 to R290, Table SERVE-2).
Commands that it shows to complete, on the conditions that it states: cancel, pause, resume, repin, pfxdrop.

A descriptor of a kind other than NEW with an all-ones length, count or size, or a SEQ outside its range, is answered BOUNDS and
has no other effect (R10; the SEQ is the model's choice, log entry 134). -/
def Obligations.DescriptorsTaken : Prop :=
  (∀ (k : Nat) (c : Instr) (f : FaceIx) (p : Part) (d : Desc) (s : State),
    (k, c) ∈ [(1, Instr.new f p d), (2, .cancel f p d), (3, .pause f p d), (4, .resume f p d), (5, .repin f p d), (6, .pfxdrop f p d)] → dKind d = k →
    let q := s.parts[p]
    let st : Option AnsStatus := if dPart d ≠ p then some .part
      else if admits s = false ∨ q.st ≠ .keyed ∨ q.presetPend ≠ none then some .state
      else if q.dqCred[f] = 0 then some .bounds else none
    ∀ r, st = some r → ∃ t, exec c s = .next t ∧
      t = { s with parts := t.parts, faces := t.faces, out := s.out ++ (if q.dqCred[f] = 0 then [] else [.credit f p]) } ∧
      answered s t f (answerOf d r) ∧ t.parts[p].dqRefused[f] = min 0xFFFE (q.dqRefused[f] + 1) ∧ t.parts[p].dqCred = q.dqCred ∧
      ∀ o : Part, o ≠ p → t.parts[o] = s.parts[o]) ∧
  (∀ (f : FaceIx) (d : Desc) (s : State), DescTaken s f d 1 →
    let p := dPart d
    let q := s.parts[p]
    ((dSeq d).toNat + 2 ^ 20 ≤ q.seqHigh.toNat → ∃ t, exec (.new f (dPart d) d) s = .next t ∧ Taking s t f d .staleSeq 0 0 ∧ t.recs = s.recs) ∧
    (q.seqHigh.toNat < (dSeq d).toNat + 2 ^ 20 →
      (∀ c, complOf q (dSeq d) = some c → ∃ t, exec (.new f (dPart d) d) s = .next t ∧ Taking s t f d .dup 0 0 ∧ t.recs = s.recs ∧
        t.parts[p].counted.dup = q.counted.dup + 1 ∧ t.parts[p].compl = q.compl ∧
        answered s t f { answerOf d .dup with cstate := c.st, newDone := c.newDone, outcrc := c.outcrc, req := c.req,
                                              aux := if c.st = .held then c.when_ else 0 }) ∧
      (complOf q (dSeq d) = none →
        (newBounds s d = true → ∃ t, exec (.new f (dPart d) d) s = .next t ∧ Taking s t f d .bounds 0 0 ∧ t.recs = s.recs ∧
          t.parts[p].compl = q.compl) ∧
        (∀ req, newBounds s d = false → dFork d = false → dPfx d = 0 → freeReq s q = some req → ∃ t, exec (.new f (dPart d) d) s = .next t ∧
          Taking s t f d .ok req 0 ∧ (∀ r, r ≠ req → recOf t r = recOf s r) ∧
          (let r := recOf t req; r.st = .queued ∧ r.part = p ∧ r.seq = dSeq d ∧ r.slot = dSlot d ∧ r.face = 0 ∧ r.pleft = dNtok d ∧
            r.maxNew = dMaxnew d ∧ r.win = dWin d ∧ r.topk = dTopk d ∧ r.spec = dSpec d ∧ r.grad = dGrad d ∧ r.newDone = 0) ∧
          complOf t.parts[p] (dSeq d) = some { seq := dSeq d, req := req, st := .live, when_ := s.mc.step } ∧
          t.run = s.run ∧ t.slots = s.slots)))) ∧
  (∀ (f : FaceIx) (d : Desc) (s : State),
    let p := dPart d
    let q := s.parts[p]
    (DescTaken s f d 2 →
      (complOf q (dRef d) = none → ∃ t, exec (.cancel f (dPart d) d) s = .next t ∧ Taking s t f d .unknown 0 0 ∧ t.recs = s.recs ∧ t.run = s.run) ∧
      (∀ req, liveReq s p (dRef d) = some req → ((recOf s req).st = .queued ∨ (recOf s req).st = .running) → pendingEnd s req = false →
        ∃ t, exec (.cancel f (dPart d) d) s = .next t ∧ Taking s t f d .ok req 0 ∧ t.recs = s.recs ∧
          (pastClose s = false → s.run.acted < 4 → ∀ a ∈ t.run.adms, a.req = req → a.akind ≠ 4 → a.cancelled = true)) ∧
      (∀ c, complOf q (dRef d) = some c → c.st = .held → (holdOf q (fld c.when_ 0 16)).st = .held →
        (holdOf q (fld c.when_ 0 16)).cancelled = false → holdBusy s p (dRef d) = false →
        ∃ t, exec (.cancel f (dPart d) d) s = .next t ∧ Taking s t f d .ok 0 (fld c.when_ 0 16) ∧ t.recs = s.recs ∧ t.run = s.run) ∧
      (∀ c, complOf q (dRef d) = some c → c.st = .cancelled ∨ (c.st = .expired ∧ c.byCancel = true) →
        ∃ t, exec (.cancel f (dPart d) d) s = .next t ∧ Taking s t f d .state 0 0 ∧ t.recs = s.recs ∧ t.run = s.run)) ∧
    (DescTaken s f d 3 →
      (liveReq s p (dRef d) = none → dTtl d ≤ q.force.ttlMax → ∃ t, exec (.pause f (dPart d) d) s = .next t ∧ Taking s t f d .state 0 0 ∧ t.recs = s.recs) ∧
      (q.force.ttlMax < dTtl d → ∃ t, exec (.pause f (dPart d) d) s = .next t ∧ Taking s t f d .bounds 0 0 ∧ t.recs = s.recs) ∧
      (∀ req h, dTtl d ≤ q.force.ttlMax → liveReq s p (dRef d) = some req → (recOf s req).st = .running → (recOf s req).pleft = 0 →
        (∀ a, admOf s req = some a → a.decode = true) → pendingEnd s req = false → freeHold q = some h →
        ∃ t, exec (.pause f (dPart d) d) s = .next t ∧ Taking s t f d .ok req h ∧ t.recs = s.recs ∧ t.run = s.run ∧
          (holdOf t.parts[p] h).st = .reserved ∧ (holdOf t.parts[p] h).ttl = (if dTtl d = 0 then q.force.ttlDef else dTtl d))) ∧
    (DescTaken s f d 4 →
      let h := fld (dRef d) 0 16
      let x := holdOf q h
      (x.st ≠ .held → complOf q (dSeq d) = none → ∃ t, exec (.resume f (dPart d) d) s = .next t ∧ Taking s t f d .state 0 0 ∧ t.recs = s.recs) ∧
      (∀ req, x.st = .held → handleOf h x = dRef d → x.seq = dSeq d → holdBusy s p (dSeq d) = false → freeReq s q = some req →
        ∃ t, exec (.resume f (dPart d) d) s = .next t ∧ Taking s t f d .ok req h ∧ (∀ r, r ≠ req → recOf t r = recOf s r) ∧
          (recOf t req).st = .resuming ∧ (recOf t req).seq = dSeq d ∧ (recOf t req).slot = x.slot ∧ (recOf t req).version = x.version ∧
          holdOf t.parts[p] h = x)) ∧
    (DescTaken s f d 5 →
      (liveReq s p (dRef d) = none → ∃ t, exec (.repin f (dPart d) d) s = .next t ∧ Taking s t f d .state 0 0 ∧ t.recs = s.recs) ∧
      (∀ req, liveReq s p (dRef d) = some req → (recOf s req).st = .running →
        (∀ y ∈ s.adm.taken, ¬ (y.ok = true ∧ y.req = req ∧ dKind y.desc = 5 ∧ y.step = takenStep (pastClose s) s)) →
        ∃ t, exec (.repin f (dPart d) d) s = .next t ∧ Taking s t f d .ok req 0 ∧ t.recs = s.recs ∧ t.run = s.run)) ∧
    (DescTaken s f d 6 →
      (tabGet 0 q.handles (dPfx d) = 0 → ∃ t, exec (.pfxdrop f (dPart d) d) s = .next t ∧ Taking s t f d .state 0 0) ∧
      (dPfx d ≠ 0 → tabGet 0 q.handles (dPfx d) ≠ 0 →
        (∀ y ∈ s.adm.taken, ¬ (y.ok = true ∧ dPart y.desc = p ∧ dKind y.desc = 6 ∧ dPfx y.desc = dPfx d)) →
        ∃ t, exec (.pfxdrop f (dPart d) d) s = .next t ∧ Taking s t f d .ok 0 0 ∧ t.recs = s.recs ∧ t.parts[p].handles = q.handles))) ∧
  (∀ (k : Nat) (c : Instr) (f : FaceIx) (d : Desc) (s : State),
    (k, c) ∈ [(2, Instr.cancel f (dPart d) d), (3, .pause f (dPart d) d), (4, .resume f (dPart d) d), (5, .repin f (dPart d) d),
      (6, .pfxdrop f (dPart d) d)] → dKind d = k → descBounds d = true →
    s.parts[dPart d].dqCred[f] ≠ 0 → admits s = true → s.parts[dPart d].st = .keyed → s.parts[dPart d].presetPend = none →
    ∃ t, exec c s = .next t ∧ Taking s t f d .bounds 0 0 ∧ t.recs = s.recs ∧ t.run = s.run)

/-- TOKEN_REPORT: a repeat and a report of a void step change nothing; one that passes R267 is kept for action 4; any other is
refused with an answer BOUNDS in the batch of the running step (R267, R279).
Commands that it shows to complete, on the conditions that it states: tokenReport. -/
def Obligations.TokenReportsTaken : Prop :=
  ∀ (f : FaceIx) (r : TokenReport) (s : State),
    let again := (s.adm.reps.contains (tReq r) && tStep r == s.mc.step.setWidth 32) ||
      (s.adm.prevReps.contains (tReq r) && tStep r == s.mc.step.setWidth 32 - 1)
    (again = true ∨ s.run.void ≠ 0 → exec (.tokenReport f r) s = .next s) ∧
    (∀ a, again = false → s.run.void = 0 → s.run.isOpen = true → admOf s (tReq r) = some a → reportOk s a r = true → s.run.acted < 4 →
      ∃ t, exec (.tokenReport f r) s = .next t ∧ t = { s with regs := t.regs, run := { s.run with adms := t.run.adms }, adm := { s.adm with reps := s.adm.reps ++ [tReq r] } } ∧
        (∀ x ∈ t.run.adms, x.req = tReq r → x.akind ≠ 4 → x.report = some r) ∧ t.run.adms.map Adm.req = s.run.adms.map Adm.req) ∧
    (again = false → s.run.void = 0 → (s.run.isOpen = false ∨ admOf s (tReq r) = none ∨ 4 ≤ s.run.acted ∨
        ∀ a, admOf s (tReq r) = some a → reportOk s a r = false) → ∃ t, exec (.tokenReport f r) s = .next t ∧
      t = { s with faces := t.faces } ∧ ∃ e : ResEntry, t.faces[f].refusals = s.faces[f].refusals ++ [e] ∧ e.req = tReq r ∧
        e.part = tPart r ∧ e.status = .bounds ∧ e.seq = (recOf s (tReq r)).seq ∧ e.rows = 0)

/-- Holds: complete once every page has moved, the record and count table sealed out to the cold tier and the record freed; back
from the cold tier the record runs and the entry is released, or stays HELD when the sealed record fails its trailer; and an
expired hold gives up its pages and its sealed record (R288 to R290, R384).
Commands that it shows to complete, on the conditions that it states: holdComplete, resumeComplete, holdExpiry. -/
def Obligations.RequestsHeldAndResumed : Prop :=
  ∀ (p : Part) (i : Fin 65536) (s : State),
    let q := s.parts[p]
    let h := holdOf q i.val
    (h.st = .moving → (∀ e ∈ namedPages (reqList s h.req), (pdesc q e.1).st = 2 ∨ ((pdesc q e.1).st = 1 ∧ 1 < (pdesc q e.1).ref)) →
      tabWf {} s.recs = true → ∃ t cold obj, exec (.holdComplete p i) s = .next t ∧
        t = { s with out := s.out ++ [.cold p cold obj], freeIx := s.freeIx + 1, parts := t.parts, recs := t.recs } ∧ recOf t h.req = {} ∧
        (∀ r, r ≠ h.req → recOf t r = recOf s r) ∧ (∀ o : Part, o ≠ p → t.parts[o] = s.parts[o]) ∧
        (holdOf t.parts[p] i.val).st = .held ∧ (holdOf t.parts[p] i.val).cold = cold ∧
        (holdOf t.parts[p] i.val).pages = reqList s h.req ∧ t.parts[p].compl = q.compl) ∧
    (h.st ≠ .moving → exec (.holdComplete p i) s = .next s) ∧
    (∀ obj, h.st = .restoring → (∀ e ∈ namedPages h.pages, (pdesc q e.1).st ≠ 3) →
      (∀ plain, openObject q p 2 i.val h.gen h.cold obj = some plain → ∃ t, exec (.resumeComplete p i obj) s = .next t ∧
        t = { s with parts := t.parts, recs := t.recs } ∧ (recOf t h.req).st = .running ∧ (recOf t h.req).seq = (recOf s h.req).seq ∧
        (tabWf {} q.holds = true → (holdOf t.parts[p] i.val).st = .free ∧ (holdOf t.parts[p] i.val).gen = (h.gen + 1) % 65536)) ∧
      (openObject q p 2 i.val h.gen h.cold obj = none → tabWf {} s.recs = true → ∃ t, exec (.resumeComplete p i obj) s = .next t ∧
        t = { s with parts := t.parts, recs := t.recs, out := t.out } ∧ recOf t h.req = {} ∧ (holdOf t.parts[p] i.val).st = .held ∧
        .notify "INTEGRITY" ∈ t.out)) ∧
    (h.st = .held → s.run.isOpen = true → h.expiry < s.run.openTick → ∃ t, exec (.holdExpiry p i) s = .next t ∧
      (holdOf t.parts[p] i.val).st = .ended ∧ (holdOf t.parts[p] i.val).pages = {} ∧ .coldWipe p h.cold h.len ∈ t.out ∧
      t = { s with out := t.out, regs := t.regs, hbm := t.hbm, parts := t.parts }) ∧
    ((h.st ≠ .held ∨ s.run.isOpen = false ∨ s.run.openTick ≤ h.expiry) → exec (.holdExpiry p i) s = .next s)

/-! ### Residency -/

/-- A command of a partition's command ring is carried out only when it is the one at the front, the partition is KEYED and no
command of it is under way; one that names a slot outside the partition's window completes with BOUNDS and nothing else
(R230, R239, R240).

At a boundary a SEALED record whose PUBLISH is pending becomes PUBLISHED and the one before it RETAINED, at once and together
(R244). -/
def Obligations.ResidencyCommandsInOrder : Prop :=
  (∀ (p : Part) (s : State) (c : ResCmd) (i : Instr) (slot : Nat),
    ((∃ v a k n h, c = .load slot v a k n h ∧ i = .load p) ∨ (∃ v a k n h, c = .shload slot v a k n h ∧ i = .shload p) ∨
      (∃ v a k n h, c = .shrows slot v a k n h ∧ i = .shrows p) ∨ (c = .seal slot ∧ i = .seal p) ∨ (c = .publish slot ∧ i = .publish p) ∨
      (c = .drop slot ∧ i = .drop p) ∨ (∃ v k a, c = .save slot v k a ∧ i = .save p) ∨ (∃ b k a, c = .evict slot b k a ∧ i = .evict p) ∨
      (∃ v a o n r m f g, c = .mirror slot v a o n r m f g ∧ i = .mirror p) ∨ (∃ b g, c = .setattr slot b g ∧ i = .setattr p) ∨
      (c = .keep slot ∧ i = .keep p) ∨ (c = .discard slot ∧ i = .discard p)) →
    ((∀ d, s.parts[p].resq.ents.head? = some d → d.ctorIdx ≠ c.ctorIdx) → exec i s = .next s) ∧
    ((s.parts[p].st ≠ .keyed ∨ cmdBusy s p = true) → exec i s = .next s) ∧
    (CmdFront s p c → slotIn s.parts[p] slot = false → ∃ t, exec i s = .next t ∧ CmdRefused s t p slot .bounds)) ∧
  (∀ (s : State) (slot j k : Nat), tabWf {} s.vrecs = true → slot < 65536 → j < 4 → k < 4 → s.residentNext = [] →
    pubRec s slot = some j → (vrecOf s slot k).st = .sealed → (vrecOf s slot k).pubPend = true →
    (∀ i, i < 4 → i ≠ k → (vrecOf s slot i).pubPend = false) →
    (vrecOf (publishBoundary s) slot k).st = .published ∧ (vrecOf (publishBoundary s) slot k).pubPend = false ∧
      (vrecOf (publishBoundary s) slot j).st = .retained ∧
      (∀ i, i < 4 → i ≠ j → i ≠ k → vrecOf (publishBoundary s) slot i = vrecOf s slot i) ∧
      (publishBoundary s).slots = s.slots ∧ (publishBoundary s).hbm = s.hbm)

/-- LOAD, SHLOAD and SHROWS: accepted, the slot is LOADING or a record BUILDING and the read of the image begins, SHROWS first
copying the area of the PUBLISHED variant; in another state they complete with STATE (R232, R239, Table RES-6).
Commands that it shows to complete, on the conditions that it states: load, shload, shrows.

SEAL, PUBLISH, DROP, SAVE, EVICT, MIRROR and SETATTR accepted in the state that Table RES-6 asks for: each with its effect, and
those that complete at once with DONE (R232, R237, R239, R241, R244, R250).
Commands that it shows to complete, on the conditions that it states: seal, publish, drop, save, evict, mirror, setattr. -/
def Obligations.SlotCommandsTaken : Prop :=
  (∀ (p : Part) (s : State) (slot v a k n h : Nat), readOperandsOk s p slot v a k n h = true →
    let ix := s.parts[p].resq.rd.toNat
    (CmdFront s p (.load slot v a k n h) →
      ((slotOf s slot).st = .free → ∃ t, exec (.load p) s = .next t ∧ CmdGone s t p ∧ t = { s with parts := t.parts, slots := t.slots } ∧
        slotOf t slot = { st := .loading, part := p } ∧ (∀ m, m ≠ slot → slotOf t m = slotOf s m) ∧
        t.parts[p].cold = s.parts[p].cold ++ [.read 0 ix slot v a k n h]) ∧
      ((slotOf s slot).st ≠ .free → ∃ t, exec (.load p) s = .next t ∧ CmdRefused s t p slot .state)) ∧
    (CmdFront s p (.shload slot v a k n h) →
      ((slotOf s slot).st = .resident → shadowRec s slot = none → anyRec s slot v = none → ∃ t, exec (.shload p) s = .next t ∧ CmdGone s t p ∧
        t = { s with parts := t.parts, vrecs := t.vrecs } ∧ t.parts[p].cold = s.parts[p].cold ++ [.read 1 ix slot v a k n h] ∧
        (vrecOf t slot (freeRec s slot)).st = .building ∧ (vrecOf t slot (freeRec s slot)).version = v ∧ (vrecOf t slot (freeRec s slot)).area = a) ∧
      (((slotOf s slot).st ≠ .resident ∨ shadowRec s slot ≠ none ∨ anyRec s slot v ≠ none) →
        ∃ t, exec (.shload p) s = .next t ∧ CmdRefused s t p slot .state)) ∧
    (CmdFront s p (.shrows slot v a k n h) →
      (∀ j, (slotOf s slot).st = .resident → shadowRec s slot = none → anyRec s slot v = none → pubRec s slot = some j →
        (hbmIn s.parts[p] a (vrecOf s slot j).alen = true → ∃ t, exec (.shrows p) s = .next t ∧ CmdGone s t p ∧
          t = { s with parts := t.parts, vrecs := t.vrecs, hbm := t.hbm, err := { s.err with badUnits := t.err.badUnits } } ∧
          t.parts[p].cold = s.parts[p].cold ++ [.read 3 ix slot v a k n h] ∧
          vrecOf t slot (freeRec s slot) =
            { st := .building, version := v, area := a, alen := (vrecOf s slot j).alen, shset := h, byRows := true, cmdIx := ix }) ∧
        (hbmIn s.parts[p] a (vrecOf s slot j).alen = false → ∃ t, exec (.shrows p) s = .next t ∧ CmdRefused s t p slot .bounds)) ∧
      ((slotOf s slot).st ≠ .resident → ∃ t, exec (.shrows p) s = .next t ∧ CmdRefused s t p slot .state))) ∧
  (∀ (p : Part) (s : State) (slot : Nat), slotIn s.parts[p] slot = true →
    let ix := s.parts[p].resq.rd.toNat
    (∀ k, CmdFront s p (.seal slot) → recIn s slot (· == .building) = some k → (vrecOf s slot k).byRows = true → ∃ t, exec (.seal p) s = .next t ∧
      CmdGone s t p ∧ t = { s with parts := t.parts, vrecs := t.vrecs } ∧ vrecOf t slot k = { vrecOf s slot k with sealing := true, cmdIx := ix } ∧
      t.parts[p].resc = s.parts[p].resc) ∧
    (∀ k, CmdFront s p (.publish slot) → recIn s slot (· == .sealed) = some k → (slotOf s slot).st = .resident →
      ((List.range 4).filter (fun j => (vrecOf s slot j).st == .retained)).length < 2 → (vrecOf s slot k).pubPend = false →
      ∃ t, exec (.publish p) s = .next t ∧ CmdGone s t p ∧ doneWith s t p slot .ok ∧ t = { s with parts := t.parts, vrecs := t.vrecs, regs := t.regs } ∧
        vrecOf t slot k = { vrecOf s slot k with pubPend := true }) ∧
    (∀ k, CmdFront s p (.drop slot) → shadowRec s slot = some k → (slotOf s slot).st = .resident → (slotOf s slot).part = p →
      (vrecOf s slot k).pubPend = false → tabWf {} s.vrecs = true → ∃ t, exec (.drop p) s = .next t ∧ CmdGone s t p ∧ doneWith s t p slot .ok ∧
        t = { s with parts := t.parts, vrecs := t.vrecs, regs := t.regs, clusters := t.clusters } ∧ vrecOf t slot k = {} ∧
        t.parts[p].freeing = s.parts[p].freeing ++ [{ index := ix, slot := slot, area := (vrecOf s slot k).area, len := (vrecOf s slot k).alen }] ∧
        ∀ c : ClusterIx, ∀ r ∈ t.clusters[c].regions, ¬ (r.2.slot = slot ∧ r.2.version = (vrecOf s slot k).version)) ∧
    (∀ v key cold k, CmdFront s p (.save slot v key cold) → 1 ≤ v → v ≤ 65535 → key < 64 → (s.parts[p].akeys.getD key none).isSome = true →
      coldIn s.parts[p] cold (imageLen s slot (vrecOf s slot k)) = true → servingRec s slot v = some k → (slotOf s slot).st ≠ .free →
      activeTensor s slot (· == v) = false → ∃ t img, exec (.save p) s = .next t ∧ CmdGone s t p ∧
        t = { s with parts := t.parts, sec := { s.sec with imgCtr := s.sec.imgCtr + 1 }, nv := { s.nv with imgReserved := t.nv.imgReserved } } ∧
        t.parts[p].cold = s.parts[p].cold ++ [.write ix slot v key cold true false img] ∧
        (s.sec.imgCtr < s.nv.imgReserved → s.sec.imgCtr + 1 < t.nv.imgReserved)) ∧
    (∀ sv key cold, CmdFront s p (.evict slot sv key cold) →
      (sv = true → key < 64 ∧ (s.parts[p].akeys.getD key none).isSome = true ∧ coldIn s.parts[p] cold 0 = true) →
      (slotOf s slot).st = .resident → (∀ k, k < 4 → (vrecOf s slot k).pins = 0) → shadowRec s slot = none →
      activeTensor s slot (fun _ => true) = false → ∃ t, exec (.evict p) s = .next t ∧ CmdGone s t p ∧
        t = { s with parts := t.parts, regs := t.regs, evictNext := t.evictNext } ∧
        t.evictNext = s.evictNext ++ [{ part := p, index := ix, slot := slot, save := sv, key := key, cold := cold }] ∧
        (sv = false → doneWith s t p slot .ok) ∧ (sv = true → t.parts[p].resc = s.parts[p].resc)) ∧
    (∀ v a o os r m f g, CmdFront s p (.mirror slot v a o os r m f g) → 1 ≤ v → v ≤ 65535 → m < 2 ^ 16 → os < Config.baseOnly →
      slotFieldsOk s r (BitVec.ofNat 16 m) f = true → a % 256 = 0 →
      hbmIn s.parts[p] a (canonDir s r (BitVec.ofNat 16 m) (mirrorLayers slot s).1).2 = true → (slotOf s slot).st = .free →
      ∃ t, exec (.mirror p) s = .next t ∧ CmdGone s t p ∧
        t = { s with parts := t.parts, vrecs := t.vrecs, slots := t.slots, hbm := t.hbm, freeIx := (mirrorLayers slot s).2.freeIx, err := t.err } ∧
        (slotOf t slot).st = .loading ∧ (slotOf t slot).part = p ∧ (slotOf t slot).rank = r ∧ (slotOf t slot).tag = g ∧
        (let x := vrecOf t slot (freeRec s slot)
         x.st = .building ∧ x.mirror = true ∧ x.version = v ∧ x.area = a ∧ x.oslot = os ∧ x.owner = o ∧ x.arrived = []) ∧
        t.parts[p].resc = s.parts[p].resc) ∧
    (∀ b g, CmdFront s p (.setattr slot b g) → (slotOf s slot).st = .resident →
      ((b = false ∨ ((slotOf s slot).pub = false ∧ ∀ k, k < 4 → (vrecOf s slot k).mirror = false)) → ∃ t, exec (.setattr p) s = .next t ∧
        CmdGone s t p ∧ doneWith s t p slot .ok ∧ t = { s with parts := t.parts, regs := t.regs, attrNext := s.attrNext ++ [(slot, b, g)] }) ∧
      (b = true → (slotOf s slot).pub = true → ∃ t, exec (.setattr p) s = .next t ∧ CmdRefused s t p slot .state)))

/-- Work behind the commands: a good image of a LOAD makes its record and sets the slot to become RESIDENT, a bad one frees the slot
and completes with the status of the first check that fails; an image written leaves for the cold tier and completes its SAVE; the
oldest area being freed is zeroed and returned by a FREED entry; a SEAL's rebuild leaves the record SEALED (R236, R237, R239 to
R241, R484).
Commands that it shows to complete, on the conditions that it states: imageCheckDone, imageWriteDone, areaFreed, sealRebuildDone. -/
def Obligations.ResidencyWorkCompletes : Prop :=
  (∀ (p : Part) (img : List Byte) (s : State) (ix slot v a cold len sh : Nat) (r : List ColdWork),
    s.parts[p].cold = .read 0 ix slot v a cold len sh :: r → (∀ b x, s.parts[p].resq.ents ≠ .reserved b :: x) → tabWf {} s.slots = true →
    let o := openImage s.parts[p] len (img.take len)
    (∀ st, o = .error st → ∃ t, exec (.imageCheckDone p img) s = .next t ∧ t = { s with parts := t.parts, slots := t.slots, regs := t.regs } ∧
      slotOf t slot = {} ∧ t.parts[p].cold = r ∧ t.parts[p].resc = ringPut s.parts[p].resc { index := ix, slot := slot, status := st }) ∧
    (∀ h plain, o = .ok (h, plain) → h.version = v → h.kind = 0 → variantOk s p slot a h plain = true →
      (h.shard = false ∨ shardCovers s p sh h.tmask = true) → ∃ t, exec (.imageCheckDone p img) s = .next t ∧
      t.parts[p].cold = r ∧ t.parts[p].resc = ringPut s.parts[p].resc { index := ix, slot := slot, status := .ok } ∧
      t.residentNext = s.residentNext ++ [slot] ∧ (slotOf t slot).rank = h.rank ∧ (slotOf t slot).tmask = h.tmask ∧ (slotOf t slot).tag = h.tag ∧
      (slotOf t slot).st = (slotOf s slot).st ∧ (vrecOf t slot 0).st = .building ∧ (vrecOf t slot 0).version = v ∧ (vrecOf t slot 0).area = a ∧
      (h.tstate = false → t.tensors = s.tensors) ∧ t.recs = s.recs ∧ t.cores = s.cores)) ∧
  (∀ (p : Part) (s : State) (ix slot v key cold : Nat) (img : List Byte) (r : List ColdWork),
    s.parts[p].cold = .write ix slot v key cold true false img :: r → (∀ b x, s.parts[p].resq.ents ≠ .reserved b :: x) →
    ∃ t, exec (.imageWriteDone p) s = .next t ∧ t = { s with parts := t.parts, regs := t.regs, out := s.out ++ [.cold p cold img] } ∧
      t.parts[p].cold = r ∧ t.parts[p].resc = ringPut s.parts[p].resc { index := ix, slot := slot, status := .ok }) ∧
  (∀ (p : Part) (s : State) (f : FreeReq) (r : List FreeReq), s.parts[p].freeing = f :: r → ∃ t, exec (.areaFreed p) s = .next t ∧
    t = { s with parts := t.parts, regs := t.regs, hbm := t.hbm, slots := t.slots, err := t.err } ∧ t.parts[p].freeing = r ∧
    t.parts[p].resc = ringPut s.parts[p].resc { index := f.index, slot := f.slot, freed := true, area := f.area } ∧
    (∀ x, memByte t.hbm x = if f.area ≤ x ∧ x < f.area + f.len then 0 else memByte s.hbm x) ∧
    ((slotOf s f.slot).st ≠ .evicting → t.slots = s.slots)) ∧
  (∀ (p : Part) (s : State) (slot k : Nat), (slotOf s slot).part = p → recIn s slot (· == .building) = some k → (vrecOf s slot k).sealing = true →
    (∀ b x, s.parts[p].resq.ents ≠ .reserved b :: x) → ∃ t, exec (.sealRebuildDone p slot) s = .next t ∧
    t = { s with parts := t.parts, regs := t.regs, hbm := t.hbm, vrecs := t.vrecs, freeIx := t.freeIx } ∧
    vrecOf t slot k = { vrecOf s slot k with st := .sealed, sealing := false, patch := [] } ∧
    t.parts[p].resc = ringPut s.parts[p].resc { index := (vrecOf s slot k).cmdIx, slot := slot, status := .ok } ∧
    (touchedTiles s slot (vrecOf s slot k) = [] → t.hbm = s.hbm))

/-! ### Tensors and pages -/

/-- The tensor commands: TWRITE, KEEP, DISCARD and HPSET accepted wait for the boundary and complete with OK; refused ones complete
with their status and leave nothing waiting (R195, R216, R227, R411).
Commands that it shows to complete, on the conditions that it states: twrite, keep, discard, hpset. -/
def Obligations.TensorCommandsTaken : Prop :=
  ∀ (p : Part) (s : State),
    (∀ ix a b, CmdFront s p (.twrite ix a b) → ∃ t, exec (.twrite p) s = .next t ∧ CmdGone s t p ∧
      t = { s with parts := t.parts, regs := t.regs, tensorNext := t.tensorNext } ∧
      doneWith s t p (fld b 16 16) (twriteCheck s p ix a b).1 ∧
      ((twriteCheck s p ix a b).1 = .ok → t.tensorNext = s.tensorNext ++ [(ix, (twriteCheck s p ix a b).2)] ∧ slotIn s.parts[p] (fld b 16 16) = true ∧
        (fld b 0 2 = 1 → (anyRec s (fld b 16 16) (fld b 32 16)).isSome = true ∧ hsetValid s p (fld b 56 8) = true)) ∧
      ((twriteCheck s p ix a b).1 ≠ .ok → t.tensorNext = s.tensorNext)) ∧
    (∀ slot, slotIn s.parts[p] slot = true →
      (CmdFront s p (.keep slot) → ((slotOf s slot).frozen = true → ∃ t, exec (.keep p) s = .next t ∧ CmdGone s t p ∧ doneWith s t p slot .ok ∧
          t = { s with parts := t.parts, regs := t.regs, freezeNext := s.freezeNext ++ [(slot, false)] }) ∧
        ((slotOf s slot).frozen = false → ∃ t, exec (.keep p) s = .next t ∧ CmdRefused s t p slot .state)) ∧
      (CmdFront s p (.discard slot) → ((slotOf s slot).frozen = true → ∃ t, exec (.discard p) s = .next t ∧ CmdGone s t p ∧ doneWith s t p slot .ok ∧
          t = { s with parts := t.parts, regs := t.regs, freezeNext := s.freezeNext ++ [(slot, true)] }) ∧
        ((slotOf s slot).frozen = false → ∃ t, exec (.discard p) s = .next t ∧ CmdRefused s t p slot .state))) ∧
    (∀ n lr b1 b2 eps wd, CmdFront s p (.hpset n lr b1 b2 eps wd) →
      (hpsetOk n lr b1 b2 eps wd = true → ∃ t, exec (.hpset p) s = .next t ∧ CmdGone s t p ∧ doneWith s t p 0 .ok ∧
        t = { s with parts := t.parts, regs := t.regs } ∧ t.parts[p].hps = s.parts[p].hps ∧
        t.parts[p].hpsNext = s.parts[p].hpsNext ++ [(n, { valid := true, lr := lr, beta1 := b1, beta2 := b2, eps := eps, wd := wd })]) ∧
      (hpsetOk n lr b1 b2 eps wd = false → ∃ t, exec (.hpset p) s = .next t ∧ CmdRefused s t p 0 .bounds))

/-- The page commands: SHARE raises and RELEASE lowers the reference count of each page once for each time it is named, HOLD and
RESTORE begin their move, WIPE gives the frame back; a command whose operands are out of range, or whose pages are not in the
state it needs, completes with BOUNDS or STATE and changes no page; and one not at the front, or with a page of the running step,
waits (R182, R183, R473).
Commands that it shows to complete, on the conditions that it states: share, release, hold, restore, wipe.

The end of a page's move: a held page leaves as a sealed object and its frame is zeroed; a restored page comes back when its
object opens, and stays held with INTEGRITY when it does not (R183, R384, Table RCC-8).
Commands that it shows to complete, on the conditions that it states: pageMoveDone. -/
def Obligations.PageCommandsTaken : Prop :=
  (∀ (p : Part) (s : State) (e : BitVec 256),
    let q := s.parts[p]
    let l := pcTouches q e
    let x := pdesc q (pcDesc e)
    (∀ k ∈ [(1, Instr.share p), (2, .release p), (3, .hold p), (4, .restore p), (5, .wipe p)],
      (q.rccq.ents.head? = some e → (pcCmd e ≠ k.1 ∨ q.st ≠ .keyed ∨ ∃ d ∈ l, d ∈ stepPages s p) → exec k.2 s = .next s) ∧
      (q.rccq.ents = [] → exec k.2 s = .next s) ∧
      (PageFront s p k.1 e → pcBounds q e = false → ∃ t, exec k.2 s = .next t ∧ PageGone s t p ∧ t.parts[p].pdescs = q.pdescs ∧ t.hbm = s.hbm ∧
        pageEntry s t p k.1 (if k.1 < 3 then 0 else pcDesc e) .bounds)) ∧
    (PageFront s p 1 e → pcBounds q e = true →
      ((∀ d ∈ l, ((pdesc q d).st = 1 ∨ (pdesc q d).st = 2) ∧ (pdesc q d).ref + l.count d ≤ 65534) → ∃ t, exec (.share p) s = .next t ∧
        PageGone s t p ∧ t.hbm = s.hbm ∧ t.out = s.out ∧ pageEntry s t p 1 0 .ok ∧ ∀ d, pdesc t.parts[p] d = refPlus (pdesc q d) (l.count d)) ∧
      ((∃ d ∈ l, ((pdesc q d).st ≠ 1 ∧ (pdesc q d).st ≠ 2) ∨ 65534 < (pdesc q d).ref + l.count d) → ∃ t, exec (.share p) s = .next t ∧
        PageGone s t p ∧ t.parts[p].pdescs = q.pdescs ∧ pageEntry s t p 1 0 .state)) ∧
    (PageFront s p 2 e → pcBounds q e = true →
      ((∀ d ∈ l, l.count d < (pdesc q d).ref) → ∃ t, exec (.release p) s = .next t ∧ PageGone s t p ∧ t.hbm = s.hbm ∧ t.out = s.out ∧
        pageEntry s t p 2 0 .ok ∧ ∀ d, (pdesc t.parts[p] d).ref + l.count d = (pdesc q d).ref ∧ (pdesc t.parts[p] d).st = (pdesc q d).st) ∧
      (∀ d, l = [d] → (pdesc q d).ref = 1 → (pdesc q d).st = 1 → tabWf {} q.pdescs = true → ∃ t, exec (.release p) s = .next t ∧ PageGone s t p ∧
        pageEntry s t p 2 0 .ok ∧ (pdesc t.parts[p] d).st = 0 ∧ (pdesc t.parts[p] d).ref = 0 ∧
        (pdesc t.parts[p] d).gen = ((pdesc q d).gen + 1) % 256 ∧
        ∀ y, memByte t.hbm y = if (pdesc q d).addr ≤ y ∧ y < (pdesc q d).addr + frameBytes q then 0 else memByte s.hbm y)) ∧
    (PageFront s p 3 e → pcBounds q e = true →
      (x.st = 1 → x.ref = 1 → ∃ t, exec (.hold p) s = .next t ∧ PageGone s t p ∧ t.hbm = s.hbm ∧ t.parts[p].rccc = q.rccc ∧
        pdesc t.parts[p] (pcDesc e) = { x with st := 3 } ∧
        t.parts[p].moves = q.moves ++ [{ desc := pcDesc e, index := q.rccq.rd.toNat, hold := true, dest := pcCold e }]) ∧
      ((x.st ≠ 1 ∨ x.ref ≠ 1) → ∃ t, exec (.hold p) s = .next t ∧ PageGone s t p ∧ t.parts[p].pdescs = q.pdescs ∧ pageEntry s t p 3 (pcDesc e) .state)) ∧
    (PageFront s p 4 e → pcBounds q e = true →
      (x.st = 2 → ∃ t, exec (.restore p) s = .next t ∧ PageGone s t p ∧ t.hbm = s.hbm ∧ t.parts[p].rccc = q.rccc ∧
        pdesc t.parts[p] (pcDesc e) = { x with st := 3 } ∧
        t.parts[p].moves = q.moves ++ [{ desc := pcDesc e, index := q.rccq.rd.toNat, hold := false, dest := pcAddr e }]) ∧
      (x.st ≠ 2 → ∃ t, exec (.restore p) s = .next t ∧ PageGone s t p ∧ t.parts[p].pdescs = q.pdescs ∧ pageEntry s t p 4 (pcDesc e) .state)) ∧
    (PageFront s p 5 e → pcBounds q e = true →
      (x.ref ≤ 1 → x.st ≠ 3 → x.st ≠ 2 → tabWf {} q.pdescs = true → ∃ t, exec (.wipe p) s = .next t ∧ PageGone s t p ∧
        pageEntry s t p 5 (pcDesc e) .ok ∧ (pdesc t.parts[p] (pcDesc e)).st = 0 ∧ (pdesc t.parts[p] (pcDesc e)).gen = (x.gen + 1) % 256 ∧
        ∀ y, memByte t.hbm y = if x.addr ≤ y ∧ y < x.addr + frameBytes q then 0 else memByte s.hbm y) ∧
      ((1 < x.ref ∨ x.st = 3) → ∃ t, exec (.wipe p) s = .next t ∧ PageGone s t p ∧ t.parts[p].pdescs = q.pdescs ∧
        pageEntry s t p 5 (pcDesc e) .state))) ∧
  (∀ (p : Part) (desc : Nat) (obj : List Byte) (s : State) (m : PageMove),
    let q := s.parts[p]
    let x := pdesc q desc
    let n := frameBytes q
    q.moves.find? (fun m => m.desc == desc) = some m → x.ref ≠ 0 →
    (m.hold = true → ∃ t, exec (.pageMoveDone p desc obj) s = .next t ∧
      t = { s with out := s.out ++ [.cold p m.dest (sealObject q p 1 desc x.gen m.dest (memRead s.hbm x.addr n))], hbm := t.hbm, parts := t.parts,
                   regs := t.regs, err := t.err } ∧
      pdesc t.parts[p] desc = { x with st := 2, addr := m.dest } ∧
      (∀ y, memByte t.hbm y = if x.addr ≤ y ∧ y < x.addr + n then 0 else memByte s.hbm y)) ∧
    (∀ plain, m.hold = false → openObject q p 1 desc x.gen x.addr obj = some plain → Memory.wf s.hbm = true →
      ∃ t, exec (.pageMoveDone p desc obj) s = .next t ∧
      t = { s with out := s.out ++ [.coldWipe p x.addr obj.length], hbm := t.hbm, parts := t.parts, regs := t.regs, err := t.err } ∧
      pdesc t.parts[p] desc = { x with st := 1, addr := m.dest } ∧ memRead t.hbm m.dest (slice plain 0 n).length = slice plain 0 n) ∧
    (m.hold = false → openObject q p 1 desc x.gen x.addr obj = none → ∃ t, exec (.pageMoveDone p desc obj) s = .next t ∧
      t = { s with parts := t.parts, regs := t.regs } ∧ pdesc t.parts[p] desc = { x with st := 2 } ∧
      t.parts[p].rccc = ringPut q.rccc { index := m.index, cmd := 4, status := .integrity, desc := fld (BitVec.ofNat 256 (4 + put 64 desc)) 64 24 }))

/-- The hand-over check of a segmented step runs once: every request with rows of a context adapter is checked, in the order of
their first rows, and gets its code, its copies and its fresh pages; a void step has none (R174 to R178).
Commands that it shows to complete, on the conditions that it states: handoverCheckDone. -/
def Obligations.PagesHandedOver : Prop :=
  ∀ s : State,
    (s.run.isOpen = true → s.run.segmented = true → s.run.checked = false → ∃ t, exec .handoverCheckDone s = .next t ∧
      t = { s with hbm := t.hbm, parts := t.parts, run := t.run, err := t.err } ∧ t.run.checked = true ∧
      (s.run.void ≠ 0 → t = { s with run := { s.run with checked := true } }) ∧
      (s.run.void = 0 → s.run.rcc = [] → t.run.rcc.map (fun r => (r.req, r.rows)) = checkList s ∧
        (∀ p d, (p, d) ∈ t.run.rccTaken → (p, d) ∉ s.run.rccTaken → d ∈ s.parts[p].rccf.ents) ∧
        ∀ q : Part, t.parts[q].plists = s.parts[q].plists ∧ t.parts[q].pdescs = s.parts[q].pdescs)) ∧
    (s.run.isOpen = false ∨ s.run.segmented = false ∨ s.run.checked = true → exec .handoverCheckDone s = .next s)

/-! ### Sessions, SPDM and MCTP -/

/-- Session commands are answered in an open session only, and are checked in the order of R381: format and length, the requester's
authority, bounds, state; one that fails is answered with the status of its first failing check and does nothing else (R371,
R380, R381).

Session commands that pass every check: what GET_PINFO shows to the owner and to others, CLAIM, the keys that PUT_PKEY draws
with the keyed clear of the window, PUT_KEY by unwrapping, DEL_KEY, SET_POLICY for the next boundary, PRESET, and PUT_LINKKEY by
the slice owner in FORMING (R374, R376, R380, R383).
Commands that it shows to complete, on the conditions that it states: getPinfo, claim, putPkey, putKey, delKey, setPolicy,
presetSession, putLinkkey. -/
def Obligations.SessionCommandsAnswered : Prop :=
  (∀ (n : Fin 8) (part slot : Byte) (body : List Byte) (s : State),
    let p : Part := Fin.ofNat 16 part.toNat
    let q := s.parts[p]
    ∀ k ∈ ([(Instr.getPinfo n part body, 1, 0, true, true, true), (.claim n part body, 2, 0, true, true, q.st == .configured),
        (.putPkey n part body, 3, 32, false, true, q.st == .claimed && notPreset q),
        (.putKey n part slot body, 4, 40, false, decide (slot.toNat < 64), q.st == .keyed && notPreset q &&
          (q.akeys.getD slot.toNat none).isNone && !keyNamed q s p slot.toNat),
        (.delKey n part slot body, 5, 0, false, decide (slot.toNat < 64), q.st == .keyed && notPreset q &&
          (q.akeys.getD slot.toNat none).isSome && !keyNamed q s p slot.toNat),
        (.setPolicy n part body, 6, 4, false, true, q.st == .keyed && notPreset q),
        (.presetSession n part body, 7, 0, false, true, (q.st == .claimed || q.st == .keyed) && notPreset q)] :
        List (Instr × Nat × Nat × Bool × Bool × Bool)),
      (sessionOf s n = none → exec k.1 s = .next s) ∧
      (∀ x, sessionOf s n = some x →
        let fmt := decide (part.toNat < 16) && body.length == k.2.2.1
        let own := k.2.2.2.1 || q.owner == some x.digest
        let refused := fun (st : Nat) => ∃ t, exec k.1 s = .next t ∧ t = { s with out := s.out ++ [.session n.val k.2.1 st []], regs := t.regs }
        (fmt = false → refused 2) ∧
        (fmt = true → (x.mutualOk = false ∨ own = false) → refused 3) ∧
        (fmt = true → x.mutualOk = true → own = true → k.2.2.2.2.1 = false → refused 2) ∧
        (fmt = true → x.mutualOk = true → own = true → k.2.2.2.2.1 = true → (s.nv.lc ≠ .operational ∨ k.2.2.2.2.2 = false) → refused 1))) ∧
  (∀ (n : Fin 8) (p : Part) (body : List Byte) (s : State) (x : Session), sessionOf s n = some x → x.mutualOk = true → s.nv.lc = .operational →
    let part : Byte := BitVec.ofNat 8 p.val
    let q := s.parts[p]
    (body = [] → ∃ t b, exec (.getPinfo n part body) s = .next t ∧ t = { s with out := s.out ++ [.session n.val 1 0 b], regs := t.regs } ∧
      b.headD 0 = BitVec.ofNat 8 (pCode q.st) ∧ (q.owner ≠ some x.digest → b.length = 1) ∧
      (q.owner = some x.digest → b = leBytes 1 (pCode q.st) ++ x.digest ++ leBytes 4 q.policy.toNat ++ leBytes 8 (keyMap q))) ∧
    (body = [] → q.st = .configured → ∃ t, exec (.claim n part body) s = .next t ∧
      t = { s with out := s.out ++ [.session n.val 2 0 []], regs := t.regs, parts := t.parts } ∧
      t.parts[p] = { q with owner := some x.digest, st := .claimed } ∧ ∀ o : Part, o ≠ p → t.parts[o] = s.parts[o]) ∧
    (body.length = 32 → q.owner = some x.digest → q.st = .claimed → q.presetPend = none → ∃ t, exec (.putPkey n part body) s = .next t ∧
      t = { s with out := s.out ++ [.session n.val 3 0 []], regs := t.regs, parts := t.parts, hbm := t.hbm, err := t.err, freeIx := s.freeIx + 3 } ∧
      t.parts[p] = { q with pkey := some (BitVec.ofNat 256 (leNat body)), mkey := some (Config.free 512 s.freeIx),
                            ckey := some (Config.free 512 (s.freeIx + 1)), ikey := some (Config.free 256 (s.freeIx + 2)), st := .keying, ready := false } ∧
      (∀ o : Part, o ≠ p → t.parts[o] = s.parts[o]) ∧
      ∀ a, memByte t.hbm a = if (hbmWindow q).1 ≤ a ∧ a < (hbmWindow q).1 + (hbmWindow q).2 then 0 else memByte s.hbm a) ∧
    (∀ (slot : Byte) (k : BitVec 256), body.length = 40 → q.owner = some x.digest → slot.toNat < 64 → q.st = .keyed → q.presetPend = none →
      q.akeys.getD slot.toNat none = none → keyNamed q s p slot.toNat = false → q.pkey = some k → ∃ t st, exec (.putKey n part slot body) s = .next t ∧
      t = { s with out := s.out ++ [.session n.val 4 st []], regs := t.regs, parts := t.parts } ∧ (∀ o : Part, o ≠ p → t.parts[o] = s.parts[o]) ∧
      match keyUnwrap (keyBytes k) body with
      | none => st = 4 ∧ t.parts[p] = q
      | some a => st = 0 ∧ t.parts[p] = { q with akeys := t.parts[p].akeys } ∧
          t.parts[p].akeys.getD slot.toNat none = some (BitVec.ofNat 256 (leNat a))) ∧
    (∀ slot : Byte, body = [] → q.owner = some x.digest → slot.toNat < 64 → q.st = .keyed → q.presetPend = none →
      (q.akeys.getD slot.toNat none).isSome = true → keyNamed q s p slot.toNat = false → ∃ t, exec (.delKey n part slot body) s = .next t ∧
      t = { s with out := s.out ++ [.session n.val 5 0 []], regs := t.regs, parts := t.parts } ∧ (∀ o : Part, o ≠ p → t.parts[o] = s.parts[o]) ∧
      t.parts[p] = { q with akeys := t.parts[p].akeys } ∧ t.parts[p].akeys.getD slot.toNat none = none) ∧
    (body.length = 4 → q.owner = some x.digest → q.st = .keyed → q.presetPend = none → ∃ t, exec (.setPolicy n part body) s = .next t ∧
      t = { s with out := s.out ++ [.session n.val 6 0 []], regs := t.regs, parts := t.parts } ∧
      t.parts[p] = { q with policyNext := some (BitVec.ofNat 2 (leNat body)) }) ∧
    (body = [] → q.owner = some x.digest → (q.st = .claimed ∨ q.st = .keyed) → q.presetPend = none → ∃ t, exec (.presetSession n part body) s = .next t ∧
      .session n.val 7 0 [] ∈ t.out ∧ (∀ o : Part, o ≠ p → t.parts[o] = s.parts[o]) ∧
      (s.run.isOpen = true → t.parts[p] = { q with presetPend := some false } ∧ t.cores = s.cores ∧ t.hbm = s.hbm ∧ t.slots = s.slots ∧
        ∀ a ∈ t.adm.next, a.part = p → a.akind = 4) ∧
      (s.run.isOpen = false → t.parts[p].st = .resetting ∧ t.parts[p].pkey = none ∧ t.parts[p].mkey = none ∧
        (∀ k, t.parts[p].akeys.getD k none = none) ∧ (∀ m : CoreIx, s.cores[m].part = p.val → t.cores[m].part = 0x1F ∧ t.cores[m].store = []))) ∧
    (∀ pl, s.plane.plan = some pl → pl.slowner = x.digest → body.length = 32 → s.plane.st = .forming → ∃ t, exec (.putLinkkey n 0xFF body) s = .next t ∧
      t.sec = { s.sec with lkey := some (BitVec.ofNat 256 (leNat body)) } ∧ .session n.val 0x10 0 [] ∈ t.out ∧ t.parts = s.parts ∧
      t.hbm = s.hbm ∧ t.cores = s.cores) ∧
    (s.plane.st ≠ .forming → body.length = 32 → (∃ pl, s.plane.plan = some pl ∧ pl.slowner = x.digest) →
      ∃ t, exec (.putLinkkey n 0xFF body) s = .next t ∧ t = { s with out := s.out ++ [.session n.val 0x10 1 []], regs := t.regs }))

/-- The SPDM responder answers in phases 5 to 8 outside a wipe, and GET_VERSION from phase 4 on: the version, capabilities and
algorithms, digests and certificates of slot 0, signed challenges and measurements once algorithms are agreed, a session under the
lowest free number (a ninth is answered BUSY), its messages, and its expiry (R379, R386, R390).
Commands that it shows to complete, on the conditions that it states: getVersion, getCapabilities, negotiateAlgorithms,
getDigests, getCertificate, challenge, getMeasurements, keyExchange, finish, heartbeat, keyUpdate, endSession, sessionExpiry.

The MCTP control commands where the phase lets the chip answer: the endpoint ID set and read, the UUID, the versions and
message types supported, and the enterprise number (R405, R415).
Commands that it shows to complete, on the conditions that it states: setEndpointId, getEndpointId, getEndpointUuid,
getMctpVersionSupport, getMessageTypeSupport, getVendorDefinedMsgSupport. -/
def Obligations.AttestationAnswered : Prop :=
  (∀ s : State,
    (4 ≤ s.cc.bootph → s.cc.bootph ≤ 8 → ∃ t, exec .getVersion s = .next t ∧
      t = { s with out := s.out ++ [.spdm "VERSION" [0x00, 0x13]], regs := t.regs, sec := { s.sec with negotiated := false } }) ∧
    (spdmOpen s = false → ∀ (slot ix : Byte) (tr : List Byte) (n : Fin 8) (pr : SpdmPeer) (b : Bool),
      ∀ c ∈ [Instr.getCapabilities, .negotiateAlgorithms b, .getDigests, .getCertificate slot, .challenge slot tr, .getMeasurements ix tr,
        .keyExchange pr, .finish n, .heartbeat n, .endSession n], exec c s = .next s) ∧
    (spdmOpen s = true →
      (∃ t, exec .getCapabilities s = .next t ∧ t = { s with out := s.out ++ [.spdm "CAPABILITIES" []], regs := t.regs }) ∧
      (∀ b, ∃ t, exec (.negotiateAlgorithms b) s = .next t ∧ t = { s with out := s.out ++ [.spdm (if b = true then "ALGORITHMS" else "ERROR") []], regs := t.regs, sec := { s.sec with negotiated := b } }) ∧
      (s.sec.negotiated = true →
        (∃ t, exec .getDigests s = .next t ∧ t = { s with out := s.out ++ [.spdm "DIGESTS" (sha384 s.nv.chain)], regs := t.regs }) ∧
        (∀ slot : Byte, ∃ t, exec (.getCertificate slot) s = .next t ∧
          t = { s with out := s.out ++ [if slot = 0 then .spdm "CERTIFICATE" s.nv.chain else .spdm "ERROR" []], regs := t.regs }) ∧
        (∀ k tr, s.nv.idkey = some k → ∃ t, exec (.challenge 0 tr) s = .next t ∧ 
          t = { s with regs := t.regs, freeIx := s.freeIx + 1, out := s.out ++ [.spdm "CHALLENGE_AUTH" (sha384 s.nv.chain ++
            ecdsaSign k.toNat (Config.free 384 s.freeIx).toNat (tr ++ sha384 s.nv.chain))] }) ∧
        (∀ k tr (ix : Byte) b, s.nv.idkey = some k → ix.toNat ≠ 255 → measurement s ix.toNat = some b → ∃ t, exec (.getMeasurements ix tr) s = .next t ∧
          let body := leBytes 1 ix.toNat ++ leBytes 2 b.length ++ b
          t = { s with regs := t.regs, freeIx := s.freeIx + 1, out := s.out ++ [.spdm "MEASUREMENTS" (body ++
            ecdsaSign k.toNat (Config.free 384 s.freeIx).toNat (tr ++ body))] }) ∧
        (∀ pr, (∀ n : Fin 8, s.sec.sessions[n].isSome = true) → ∃ t, exec (.keyExchange pr) s = .next t ∧
          t = { s with out := s.out ++ [.spdm "BUSY" []], regs := t.regs }) ∧
        (∀ pr (n : Fin 8), s.sec.sessions[n] = none → (∀ m : Fin 8, m < n → s.sec.sessions[m].isSome = true) → ∃ t,
          exec (.keyExchange pr) s = .next t ∧
          t = { s with out := s.out ++ [.spdm "KEY_EXCHANGE_RSP" (leBytes 1 n.val)], regs := t.regs, freeIx := s.freeIx + 1, sec := { s.sec with sessions := t.sec.sessions } } ∧
          (∀ m : Fin 8, m ≠ n → t.sec.sessions[m] = s.sec.sessions[m]) ∧ ∃ x, t.sec.sessions[n] = some x ∧ x.digest = pr.digest ∧
            x.mutualOk = pr.mutualOk ∧ x.established = false)) ∧
      (∀ (n : Fin 8) (x : Session), s.sec.sessions[n] = some x →
        (∃ t, exec (.finish n) s = .next t ∧ t.sec.sessions[n] = some { x with established := true, alive := s.mc.tick.toNat } ∧
          t = { s with out := s.out ++ [.spdm "FINISH_RSP" []], regs := t.regs, sec := { s.sec with sessions := t.sec.sessions } }) ∧
        (∃ t, exec (.heartbeat n) s = .next t ∧ t.sec.sessions[n] = some { x with alive := s.mc.tick.toNat } ∧
          t = { s with out := s.out ++ [.spdm "HEARTBEAT_ACK" []], regs := t.regs, sec := { s.sec with sessions := t.sec.sessions } }) ∧
        (∃ t, exec (.keyUpdate n) s = .next t ∧ t.sec.sessions[n] = some { x with key := Config.free 256 s.freeIx, alive := s.mc.tick.toNat } ∧
          t = { s with out := s.out ++ [.spdm "KEY_UPDATE_ACK" []], regs := t.regs, freeIx := s.freeIx + 1, sec := { s.sec with sessions := t.sec.sessions } }) ∧
        (∃ t, exec (.endSession n) s = .next t ∧ t.sec.sessions[n] = none ∧
          t = { s with out := s.out ++ [.spdm "END_SESSION_ACK" []], regs := t.regs, sec := { s.sec with sessions := t.sec.sessions } }))) ∧
    (∀ n : Fin 8, ∃ t, exec (.sessionExpiry n) s = .next t ∧ t = { s with sec := { s.sec with sessions := t.sec.sessions } } ∧
      t.sec.sessions[n] = none ∧ ∀ m : Fin 8, m ≠ n → t.sec.sessions[m] = s.sec.sessions[m])) ∧
  (∀ s : State,
    (mctpOpen s = true →
      (∀ e : Byte, ∃ t, exec (.setEndpointId e) s = .next t ∧
        t = { s with out := s.out ++ [.mctp "SET_ENDPOINT_ID" [if e = 0 ∨ e = 0xFF then 2 else 0]], regs := t.regs, cc := { s.cc with eid := if e = 0 ∨ e = 0xFF then s.cc.eid else e } }) ∧
      (∃ t, exec .getEndpointId s = .next t ∧ t = { s with out := s.out ++ [.mctp "GET_ENDPOINT_ID" [s.cc.eid]], regs := t.regs }) ∧
      (∃ t, exec .getEndpointUuid s = .next t ∧ t = { s with out := s.out ++ [.mctp "GET_ENDPOINT_UUID" (leBytes 16 s.nv.uuid.toNat)], regs := t.regs }) ∧
      (∀ m : Byte, ∃ t, exec (.getMctpVersionSupport m) s = .next t ∧ t = { s with regs := t.regs, out := s.out ++
        [.mctp "GET_MCTP_VERSION_SUPPORT" [if m ∈ ([0xFF, 0x00, 0x05, 0x06, 0x7F] : List Byte) then 0 else 0x80]] }) ∧
      (∃ t, exec .getMessageTypeSupport s = .next t ∧
        t = { s with out := s.out ++ [.mctp "GET_MESSAGE_TYPE_SUPPORT" [0x00, 0x05, 0x06, 0x7F]], regs := t.regs }) ∧
      (∃ t, exec .getVendorDefinedMsgSupport s = .next t ∧
        t = { s with out := s.out ++ [.mctp "GET_VENDOR_DEFINED_MSG_SUPPORT" (leBytes 4 s.nv.pen.toNat)], regs := t.regs })) ∧
    (mctpOpen s = false → ∀ (e : Byte), ∀ c ∈ [Instr.setEndpointId e, .getEndpointId, .getEndpointUuid, .getMctpVersionSupport e,
      .getMessageTypeSupport, .getVendorDefinedMsgSupport], exec c s = .next s))

/-! ### Management commands -/

/-- A management request outside its phases is not answered; SEQ 0 lies out of range; a SEQ equal to the last request's is answered
again with that request's response and is not carried out; an RWL_WRITE that meets the wipe of a transition waits for its end; while
a command answered PENDING is incomplete a further one is refused with BUSY (R406, R407, R415, Table REGS-16).

Management requests that are refused: with BOUNDS for a field out of range, and otherwise with STATE or SLOT, and with no effect;
an epoch block that is refused for its contents leaves no epoch pending (R110, R388, R403, R408, R411). -/
def Obligations.ManagementAnswered : Prop :=
  (∀ (s : State) (page b : Byte) (w : Word) (o : BitVec 16) (n m k : Nat) (x y z : BitVec 64) (l l' : List Byte) (win : Windows) (e : ResCmd),
    let plain : BitVec 16 → List (Instr × Nat) := fun q =>
      [(.fwBegin q n l, 0x10), (.fwData q n l, 0x11), (.fwActivate q x, 0x13), (.coldGrant q x n, 0x30),
       (.sliceStart q x y, 0x32), (.sliceLeave q, 0x33), (.epochPend q x y l z l', 0x34), (.epochAbort q, 0x35), (.progDrop q n, 0x39),
       (.configure q n win, 0x40), (.unconfigure q n, 0x41), (.coreAssign q n m, 0x43), (.pcmd q n e, 0x44), (.resetCold q, 0x50),
       (.resetPort q n, 0x50), (.resetRestart q, 0x50), (.fuseBypass q n m k, 0x61)]
    let long : BitVec 16 → List (Instr × Nat) := fun q =>
      [(.fwEnd q, 0x12), (.provision q, 0x20), (.commission q, 0x21), (.deprovision q, 0x22), (.enterService q, 0x23), (.returnCmd q, 0x24),
       (.reprovision q, 0x25), (.retire q, 0x26), (.sliceAdmit q x y l, 0x31), (.progLoad q n x y l, 0x38), (.preset q n, 0x42),
       (.selftest q x, 0x60)]
    (cmdOpen s = false → ∀ q, ∀ c ∈ plain q ++ long q, exec c.1 s = .next s) ∧
    (∀ q, exec (.rwlWrite q page o w) s = .next (if s.sec.wiping = true ∧ 4 ≤ s.cc.bootph ∧ s.cc.bootph ≤ 8 ∧ s.sec.pendLc ≠ none
        then { s with cc := { s.cc with rwlHeld := s.cc.rwlHeld ++ [(q, page, o, w)] } }
      else if cmdOpen s = false then s else if q = 0 then { mgmtHeard s with out := s.out ++ [.mgmt { cmd := 4, seq := 0, status := 2 }] }
      else if q = s.cc.lastSeq then { mgmtHeard s with out := s.out ++ [.mgmt s.cc.lastRsp] }
      else let r := rwlWriteRun page.toNat o.toNat w (mgmtHeard s)
        mgmtSaid 4 q r.1 r.2.1 r.2.2)) ∧
    (cmdOpen s = true → ∀ c ∈ plain 0 ++ long 0, exec c.1 s = .next { mgmtHeard s with out := s.out ++ [.mgmt { cmd := c.2, seq := 0, status := 2 }] }) ∧
    (cmdOpen s = true → s.cc.lastSeq ≠ 0 → ∀ c ∈ plain s.cc.lastSeq ++ long s.cc.lastSeq ++ [(.regRead s.cc.lastSeq page o b o, 3)],
      exec c.1 s = .next { mgmtHeard s with out := s.out ++ [.mgmt s.cc.lastRsp] }) ∧
    (∀ q, MgmtFresh q s → s.cc.pendCmd.isSome = true → ∀ c ∈ long q, exec c.1 s = .next (mgmtSaid c.2 q 9 [] (mgmtHeard s)))) ∧
  (∀ (s : State) (q : BitVec 16), MgmtFresh q s →
    (∀ (n m k : Nat) (x y : BitVec 64) (l : List Byte) (win : Windows) (e : ResCmd),
      ∀ c ∈ ([(.fwBegin q n l, 0x10, 2, decide (l.length ≠ 48 ∨ n = 0)),
        (.fwBegin q n l, 0x10, 1, decide (l.length = 48 ∧ 0 < n ∧ n ≤ 2097408) && s.nv.lc == .retired),
        (.fwData q n l, 0x11, 2, decide (l.length < 1 ∨ 1024 < l.length)),
        (.fwData q n l, 0x11, 2, s.cc.slotSt == .staging && decide (s.cc.slotLen < n + l.length)),
        (.fwActivate q x, 0x13, 1, s.nv.lc == .retired || s.cc.slotImage.isNone || decide (s.cc.bootph ≠ 8)),
        (.fwActivate q 0, 0x13, 1, !(s.plane.plan.isNone || s.plane.st == .drained || s.mc.fenced)),
        (.coldGrant q x n, 0x30, 2, decide (n < 1 ∨ 16384 < n)),
        (.coldGrant q x n, 0x30, 1, decide (1 ≤ n ∧ n ≤ 16384) && !(s.parts.toList.all (fun p => p.st == .idle))),
        (.sliceStart q x y, 0x32, 1, notOperational s || !mayStart s x y),
        (.sliceLeave q, 0x33, 1, notOperational s || s.plane.plan.isNone || s.plane.leaving),
        (.epochAbort q, 0x35, 1, notOperational s || s.plane.plan.isNone || s.epochPend.isNone),
        (.progDrop q n, 0x39, 2, decide (7 < n)), (.progDrop q n, 0x39, 1, decide (n ≤ 7) && notOperational s),
        (.progDrop q n, 0x39, 7, decide (n ≤ 7) && !notOperational s && slotSelected s n),
        (.configure q n win, 0x40, 2, decide (15 < n)), (.configure q n win, 0x40, 2, decide (0 < win.coldCount ∧ win.coldBase = 0)),
        (.configure q n win, 0x40, 2, decide (win.slotCount = 0xFFFF)),
        (.configure q n win, 0x40, 2, (List.finRange 16).any (fun p => decide (p ≠ Fin.ofNat 16 n) &&
          (windowsMeet win s.parts[p].win || windowsMeet win s.parts[p].winNext))),
        (.unconfigure q n, 0x41, 2, decide (15 < n)),
        (.unconfigure q n, 0x41, 1, decide (n ≤ 15) && (notOperational s || (s.parts.getD n {}).st != .configured)),
        (.coreAssign q n m, 0x43, 2, decide (63 < n ∨ (0x0F < m ∧ m ≠ 0x1F))),
        (.coreAssign q n m, 0x43, 1, decide (n ≤ 63 ∧ (m ≤ 0x0F ∨ m = 0x1F)) && notOperational s),
        (.pcmd q n e, 0x44, 2, decide (15 < n)),
        (.pcmd q n e, 0x44, 1, decide (n ≤ 15) && (notOperational s || (s.parts.getD n {}).st != .keyed ||
          (s.parts.getD n {}).presetPend.isSome || decide (ringRoom (s.parts.getD n {}).resq = 0))),
        (.resetCold q, 0x50, 1, sliceActive s && !mayWipe s), (.resetPort q n, 0x50, 2, decide (5 < n)),
        (.fuseBypass q n m k, 0x61, 2, decide (63 < n ∨ 3 < m ∨ 31 < k)),
        (.fuseBypass q n m k, 0x61, 1, decide (n ≤ 63 ∧ m ≤ 3 ∧ k ≤ 31) && s.nv.lc != .service)] : List (Instr × Nat × Nat × Bool)),
      c.2.2.2 = true → exec c.1 s = .next (mgmtSaid c.2.1 q c.2.2.1 [] (mgmtHeard s))) ∧
    (s.cc.pendCmd = none → ∀ (n : Nat) (x y : BitVec 64) (l : List Byte),
      ∀ c ∈ ([(.fwEnd q, 0x12, 1, s.nv.lc == .retired || s.cc.slotSt != .staging),
        (.provision q, 0x20, 1, s.nv.lc != .blank), (.commission q, 0x21, 1, s.nv.lc != .provisioned),
        (.deprovision q, 0x22, 1, s.nv.lc != .provisioned && s.nv.lc != .service),
        (.enterService q, 0x23, 1, s.nv.lc != .operational || !mayWipe s), (.returnCmd q, 0x24, 1, s.nv.lc != .service),
        (.reprovision q, 0x25, 1, s.nv.lc != .service),
        (.retire q, 0x26, 1, s.nv.lc == .retired || (s.nv.lc == .operational && !mayWipe s)),
        (.sliceAdmit q x y l, 0x31, 2, decide (y = BitVec.allOnes 64 ∨ Config.coldUnit < x.toNat + y.toNat)),
        (.progLoad q n x y l, 0x38, 2, decide (7 < n ∨ y = BitVec.allOnes 64 ∨ Config.coldUnit < x.toNat + y.toNat)),
        (.preset q n, 0x42, 2, decide (15 < n)),
        (.selftest q x, 0x60, 1, s.nv.lc != .service)] : List (Instr × Nat × Nat × Bool)),
      c.2.2.2 = true → exec c.1 s = .next (mgmtSaid c.2.1 q c.2.2.1 [] (mgmtHeard s))) ∧
    (∀ (x y z : BitVec 64) (l b : List Byte), notOperational s = false → s.plane.plan.isSome = true →
      (y.toNat ≠ 448 ∨ Config.coldUnit < x.toNat + y.toNat) →
      exec (.epochPend q x y l z b) s = .next (mgmtSaid 0x34 q 2 [] (dropEpoch (mgmtHeard s)))))

/-- Identity and status words, register words of the management path, RWL fields, and the image slot: what each request is answered
with and what it leaves (R12, R390, R402 to R404, R415, R454).
Commands that it shows to complete, on the conditions that it states: getIdent, getStatus, regRead, rwlWrite, fwBegin, fwData,
fwEnd, fwActivate. -/
def Obligations.QueriesAndImageCommands : Prop :=
  ∀ (s : State) (q : BitVec 16), q ≠ 0 → q ≠ s.cc.lastSeq →
    let u := mgmtHeard s
    (2 ≤ s.cc.bootph → exec (.getIdent q) s = .next (mgmtSaid 1 q 0 (identBody u) u)) ∧
    (cmdOpen s = true ∨ 9 ≤ s.cc.bootph → exec (.getStatus q) s = .next (mgmtSaid 2 q 0 (statusBody u) u)) ∧
    (∀ (page n : Byte) (o ch : BitVec 16), cmdOpen s = true ∨ (wipeRuns s = true ∧ page = 0) →
      let offs := (List.range n.toNat).map (fun k => o.toNat + 4 * k)
      let bad := 0x1F < page.toNat ∨ o.toNat % 4 ≠ 0 ∨ n.toNat < 1 ∨ 64 < n.toNat ∨ 0x1000 < o.toNat + 4 * n.toNat ∨ channels page.toNat ≤ ch.toNat
      (bad → exec (.regRead q page o n ch) s = .next (mgmtSaid 3 q 2 [] u)) ∧
      (¬ bad → (∃ a ∈ offs, mgmtReads u page.toNat a ch.toNat = false) → exec (.regRead q page o n ch) s = .next (mgmtSaid 3 q 3 [] u)) ∧
      (¬ bad → (∀ a ∈ offs, mgmtReads u page.toNat a ch.toNat = true) → exec (.regRead q page o n ch) s =
        .next (mgmtSaid 3 q 0 (offs.flatMap (fun a => wordBytes (regVal u {} page.toNat ch.toNat a).toNat)) u))) ∧
    (cmdOpen s = true →
      (∀ w : Word, rwlOpen s = true → s.plane.st = .none → ∀ page ∈ ([4, 6] : List Byte), ∃ t,
        exec (.rwlWrite q page (if page = 4 then 0x3C else 0x20) w) s = .next t ∧
        t = { mgmtSaid 4 q 0 [] u with plane := t.plane, out := t.out } ∧ .mgmt { cmd := 4, seq := q } ∈ t.out ∧
        t.plane.rwl = if page = 4 then { s.plane.rwl with thThrottle := BitVec.ofNat 11 (fld w 0 11), thTrip := BitVec.ofNat 11 (fld w 11 11) }
                      else { s.plane.rwl with coordSrc := bitAt w 0 }) ∧
      (∀ (n : Nat) (d : List Byte), d.length = 48 → 0 < n → n ≤ 2097408 → s.nv.lc ≠ .retired → s.cc.pendCmd = none →
        exec (.fwBegin q n d) s = .next (mgmtSaid 0x10 q 0 []
          { u with cc := { s.cc with slotSt := .staging, slotLen := n, slotDigest := d, slotBytes := [], slotImage := none, activateAt := none } })) ∧
      (∀ (o : Nat) (b : List Byte), 1 ≤ b.length → b.length ≤ 1024 → s.nv.lc ≠ .retired → s.cc.slotSt = .staging → o + b.length ≤ s.cc.slotLen →
        s.cc.pendCmd = none → Memory.wf s.cc.slotBytes = true → ∃ t, exec (.fwData q o b) s = .next t ∧
        t = mgmtSaid 0x11 q 0 [] { u with cc := { s.cc with slotBytes := t.cc.slotBytes } } ∧
        ∀ a, memByte t.cc.slotBytes a = if o ≤ a ∧ a < o + b.length then b.getD (a - o) 0 else memByte s.cc.slotBytes a) ∧
      (s.nv.lc ≠ .retired → s.cc.slotSt = .staging → s.cc.pendCmd = none → exec (.fwEnd q) s = .next (mgmtSaid 0x12 q 0xB []
        (pendNoted 0x12 q .fwEnd { u with cc := { s.cc with bootph := if s.cc.bootph = 5 then 6 else s.cc.bootph } }))) ∧
      (∀ f, s.cc.slotImage = some f → s.nv.lc ≠ .retired → s.cc.bootph = 8 →
        (outOfSlice s = true → ∃ t, exec (.fwActivate q 0) s = .next t ∧ t = mgmtSaid 0x13 q 0 [] { u with cc := t.cc, nv := t.nv } ∧
          t.nv = { s.nv with svnMin := max s.nv.svnMin f.svn } ∧ t.cc.image = some f ∧ t.cc.slotSt = .running ∧ t.cc.ckptStep = none) ∧
        (∀ n z e g, n ≠ 0 → s.plane.plan.isSome = true → s.epochPend = some (e, z) → e.num = n → s.cc.image = some g → g.abi = f.abi →
          exec (.fwActivate q n) s = .next (mgmtSaid 0x13 q 0 [] { u with cc := { s.cc with activateAt := some n } }))))

/-- Life-cycle commands in the states of Table SEC-10: answered PENDING, the Autumn wipe begins at once and the new state waits for
its end; out of OPERATIONAL only where the chip may wipe (R388, R390).
Commands that it shows to complete, on the conditions that it states: provision, commission, deprovision, enterService, returnCmd,
reprovision, retire.

The RESET kinds, the self-test and the bypass fuses: a cold reset after its answer, one port, a restart of the control core that
changes no value of a step, a self-test of the cores of the mask, and a column fuse that wins from the next boundary (R110,
R398, R413, R439, R475).
Commands that it shows to complete, on the conditions that it states: resetCold, resetPort, resetRestart, selftest, fuseBypass. -/
def Obligations.TransitionsAndResets : Prop :=
  (∀ (s : State) (q : BitVec 16), MgmtFresh q s → s.cc.pendCmd = none → (s.nv.lc = .operational → mayWipe s = true) →
    ∀ c ∈ ([(.provision q, 0x20, [.blank], .provisioned), (.commission q, 0x21, [.provisioned], .operational),
      (.deprovision q, 0x22, [.provisioned, .service], .blank), (.enterService q, 0x23, [.operational], .service),
      (.returnCmd q, 0x24, [.service], .operational), (.reprovision q, 0x25, [.service], .provisioned),
      (.retire q, 0x26, [.blank, .provisioned, .operational, .service], .retired)] : List (Instr × Nat × List LifeCycle × LifeCycle)),
      s.nv.lc ∈ c.2.2.1 → ∃ t, exec c.1 s = .next t ∧
        t.out = s.out ++ [.mgmt { cmd := c.2.1, seq := q, status := 0xB }] ∧ t.nv = s.nv ∧ t.pending = s.pending ∧
        t.sec.pendLc = some c.2.2.2 ∧ t.sec.wiping = true ∧ t.sec.imgCtr = s.sec.imgCtr ∧ t.sec.lkey = none ∧ t.sec.zkey = none ∧
        (∀ n : Fin 8, t.sec.sessions[n] = none) ∧
        t.cc.pendCmd = some (c.2.1, q, .transition c.2.2.2) ∧ t.cc.pendLast = (c.2.1, q, 0xB) ∧ t.cc.bootph = s.cc.bootph ∧
        t.cc.slotSt = .empty ∧ t.cc.slotImage = none ∧ t.cc.image = s.cc.image ∧
        t.hbm = [] ∧ t.slots = [] ∧ t.recs = [] ∧ t.mc.step = 0 ∧ t.mc.tick = 0 ∧ t.plane.plan = none ∧
        (∀ p : Part, t.parts[p] = {}) ∧ (∀ n : CoreIx, t.cores[n].part = 0x1F ∧ t.cores[n].store = []) ∧
        (∀ i : PortIx, t.ports[i].st = .disabled ∧ t.ports[i].keys = [])) ∧
  (∀ (s : State) (q : BitVec 16), MgmtFresh q s → s.cc.bootph = 8 →
    let u := mgmtHeard s
    (sliceActive s = false ∨ mayWipe s = true → exec (.resetCold q) s = .next { State.reset with
        pending := s.pending, out := s.out ++ [.mgmt { cmd := 0x50, seq := q }], freeIx := s.freeIx, nv := s.nv,
        sec := { State.reset.sec with imgCtr := s.nv.imgReserved }, err := { State.reset.err with fatal := s.err.fatal } }) ∧
    (∀ i : PortIx, s.ports[i].st ≠ .up → ∃ t, exec (.resetPort q i.val) s = .next t ∧
      .mgmt { cmd := 0x50, seq := q } ∈ t.out ∧ t.ports[i].keys = [] ∧ t.ports[i].replay = [] ∧ (∀ v : Fin 8, t.ports[i].rxq[v] = []) ∧
      (s.ports[i].en = true → s.ports[i].st ≠ .border → s.plane.plan.isSome = true → t.ports[i].st = .training) ∧
      (∀ j : PortIx, j ≠ i → t.ports[j].st = s.ports[j].st ∧ t.ports[j].keys = s.ports[j].keys ∧ t.ports[j].replay = s.ports[j].replay ∧ t.ports[j].rxq = s.ports[j].rxq) ∧
      t.parts = s.parts ∧ t.cores = s.cores ∧ t.hbm = s.hbm ∧ t.sec = s.sec ∧ t.mc.step = s.mc.step) ∧
    ((s.cc.restartSteps.filter (fun x => decide (s.mc.step.toNat < x.toNat + 1000))).length < 4 → ∃ t, exec (.resetRestart q) s = .next t ∧
      .mgmt { cmd := 0x50, seq := q } ∈ t.out ∧ t.cc.restarting = true ∧ t.cc.restartCause = 6 ∧ t.cc.bootph = 8 ∧
      t.mc = s.mc ∧ t.nv = s.nv ∧ t.hbm = s.hbm ∧ t.cores = s.cores ∧ t.parts = s.parts) ∧
    (∀ m : BitVec 64, s.nv.lc = .service → s.cc.pendCmd = none →
      exec (.selftest q m) s = .next (mgmtSaid 0x60 q 0xB [] (pendNoted 0x60 q (.selftest m) u))) ∧
    (∀ (n : CoreIx) (a : Fin 4) (k : Fin 32), s.nv.lc = .service → ∃ t, exec (.fuseBypass q n.val a.val k.val) s = .next t ∧
      t.nv = { s.nv with bypass := t.nv.bypass } ∧ (Fin.ofNat 256 (4 * n.val + a.val), k) ∈ t.nv.bypass ∧ s.nv.bypass <+: t.nv.bypass ∧
      t.cores[n].byp = s.cores[n].byp ∧ t.cores[n].bypNext[a] = fuseBypass t.nv.bypass (4 * n.val + a.val) ∧
      (∀ b : Fin 4, b ≠ a → t.cores[n].bypNext[b] = s.cores[n].bypNext[b]) ∧ (∀ m : CoreIx, m ≠ n → t.cores[m] = s.cores[m]) ∧
      t = mgmtSaid 0x61 q 0 [] { u with nv := t.nv, cores := t.cores }))

/-- Slices: the grant of the cold tier, a plan that is read and checked, the start of the slice with its agreement words, and its
end (R303, R356, R357, R375, R408, R409, R412).
Commands that it shows to complete, on the conditions that it states: coldGrant, sliceAdmit, sliceStart, sliceLeave.

The plan of a SLICE_ADMIT has been read: a plan that fails a check is refused with that check's status and nothing else
changes; a plan that passes makes the chip FORMING at its coordinate, its roles, guard and routes set, the root LOCKED at the
plan's step and tick, and each port with an expected neighbour begins discovery (R303, R306, R357, R409).
Commands that it shows to complete, on the conditions that it states: sliceAdmitDone. -/
def Obligations.SliceAdmittedAndStarted : Prop :=
  (∀ (s : State) (q : BitVec 16), MgmtFresh q s → notOperational s = false →
    let u := mgmtHeard s
    (∀ (b : BitVec 64) (n : Nat), 1 ≤ n → n ≤ 16384 → (∀ p : Part, s.parts[p].st = .idle) →
      exec (.coldGrant q b n) s = .next (mgmtSaid 0x30 q 0 [] { u with plane := { s.plane with grant := some (b, n) } })) ∧
    (∀ (c l : BitVec 64) (d : List Byte), s.cc.pendCmd = none → stagingBad c l = false → mayWipe s = true → s.plane.grant.isSome = true →
      exec (.sliceAdmit q c l d) s = .next (mgmtSaid 0x31 q 0xB [] (pendNoted 0x31 q (.sliceAdmit l.toNat d) u))) ∧
    (∀ n t0 : BitVec 64, mayStart s n t0 = true → ∃ t, exec (.sliceStart q n t0) s = .next t ∧ t.mc = { s.mc with start := some (n, t0.toNat), agreeSent := t.mc.agreeSent } ∧
      (∀ i : PortIx, t.ports[i].st = if s.ports[i].st = .held ∧ s.ports[i].flap = false then .up else s.ports[i].st) ∧
      t.parts = s.parts ∧ t.cores = s.cores ∧ t.hbm = s.hbm ∧ t.run = s.run ∧ t.adm = s.adm) ∧
    (s.plane.plan.isSome = true → s.plane.leaving = false →
      (s.run.isOpen = true → s.mc.fenced = false →
        exec (.sliceLeave q) s = .next (mgmtSaid 0x33 q 0 [] { u with plane := { s.plane with leaving := true } })) ∧
      (s.run.isOpen = false ∨ s.mc.fenced = true → ∃ t, exec (.sliceLeave q) s = .next t ∧ t.plane.plan = none ∧ t.plane.st = .none ∧ t.sec.lkey = none ∧
        t.epoch = none ∧ t.epochPend = none ∧ (∀ k : PSlot, t.progs[k] = none) ∧ (∀ i : PortIx, t.ports[i].st = .disabled ∧ t.ports[i].keys = []) ∧
        t.nv = s.nv ∧ ∀ p : Part, t.parts[p].st = .idle ∨ (t.parts[p].st = .resetting ∧ t.parts[p].toIdle = true ∧ (s.parts[p].st = .resetting ∨ t.parts[p].pkey = none))))) ∧
  (∀ (s : State) (c len : Nat) (q : BitVec 16) (d b : List Byte), s.cc.pendCmd = some (c, q, .sliceAdmit len d) →
    let pl := planOf b
    let own := planCoord s pl
    let st := planStatus s d b
    (st ≠ 0 → exec (.sliceAdmitDone b) s = .next { s with cc := { s.cc with pendCmd := none, pendLast := (c, q, st) } }) ∧
    (st = 0 → s.plane.plan = none → ∃ t, exec (.sliceAdmitDone b) s = .next t ∧
      t.cc = { s.cc with pendCmd := none, pendLast := (c, q, 0) } ∧ t.plane.st = .forming ∧ t.plane.plan = some pl ∧ t.plane.coord = own ∧
      t.mc.guard = pl.guard ∧ t.mc.root = decide (rootOf pl = own) ∧ t.mc.admitter = decide (pl.admitter = own) ∧
      t.mc.syncm = (pl.syncNamed && decide (pl.syncm = own)) ∧
      (rootOf pl = own → t.mc.step = pl.startStep ∧ t.mc.tick = pl.startTick ∧ t.mc.locked = true) ∧
      (rootOf pl ≠ own → t.mc.step = s.mc.step ∧ t.mc.tick = s.mc.tick) ∧
      (∀ i : PortIx, boxNeigh pl own i = none → t.ports[i].st = .border) ∧
      (∀ (i : PortIx) (n : Coord), boxNeigh pl own i = some n → (planAt pl n).isSome = true → (planAt pl own).isSome = true →
        t.ports[i].st = .training ∧ t.ports[i].en = true) ∧
      t.parts = s.parts ∧ t.cores = s.cores ∧ t.hbm = s.hbm ∧ t.nv = s.nv))

/-- Configuration epochs and step programs: an epoch block that passes its checks is pending for its step with its guard, an abort
drops it; a load is answered PENDING, a container that passes stands in its slot, a load refused for its container, its length or its
slot leaves the slot empty, and a slot that is not selected is emptied (R29, R128, R160, R310, R408).
Commands that it shows to complete, on the conditions that it states: epochPend, epochAbort, progLoad, progLoadDone, progDrop. -/
def Obligations.EpochsAndProgramsLoaded : Prop :=
  ∀ (s : State) (q : BitVec 16), MgmtFresh q s → notOperational s = false →
    let u := mgmtHeard s
    (∀ (c l n : BitVec 64) (d b : List Byte), s.plane.plan.isSome = true → s.plane.grant.isSome = true → stagingBad c l = false → l.toNat = 448 →
      b.length = 448 → leAt b 0 4 = 0x31504550 → leAt b 4 2 = 1 → sha384 b = d → epochFits u (epochOf b) = true →
      (s.mc.eLast.isSome = false ∨ s.mc.step.toNat < n.toNat) → ∃ t, exec (.epochPend q c l d n b) s = .next t ∧
        t.epochPend = some (epochOf b, n) ∧ t.epoch = s.epoch ∧ t.mc = { s.mc with guardNext := (epochOf b).guard } ∧
        t = mgmtSaid 0x34 q 0 [] { u with epochPend := t.epochPend, mc := t.mc, ports := t.ports, cc := { s.cc with activateAt := none } } ∧
        ∀ i : PortIx, t.ports[i] = { s.ports[i] with keys := t.ports[i].keys } ∧
          t.ports[i].keys.take 1 = s.ports[i].keys.take 1 ∧
          (∀ k, s.sec.lkey = some k → s.ports[i].keys ≠ [] → (∀ x ∈ s.ports[i].keys.take 1, x.epoch ≠ (epochOf b).num.toNat) →
            t.ports[i].keys.length = 2)) ∧
    (s.plane.plan.isSome = true → s.epochPend.isSome = true → exec (.epochAbort q) s = .next (mgmtSaid 0x35 q 0 []
      { u with epochPend := none, cc := { s.cc with activateAt := none }, mc := { s.mc with guardNext := s.mc.guard },
               ports := s.ports.map (fun x => { x with keys := x.keys.take 1 }) })) ∧
    (∀ (k : PSlot) (c l : BitVec 64) (d : List Byte), s.cc.pendCmd = none → stagingBad c l = false → l.toNat ≤ 25165824 → s.plane.grant.isSome = true →
      slotSelected s k.val = false →
      exec (.progLoad q k.val c l d) s = .next (mgmtSaid 0x38 q 0xB [] (pendNoted 0x38 q (.progLoad k l.toNat d) u))) ∧
    (∀ (k : PSlot), slotSelected s k.val = false →
      exec (.progDrop q k.val) s = .next (mgmtSaid 0x39 q 0 [] { u with progs := vmod s.progs k (fun _ => none) })) ∧
    (∀ (k : PSlot) (c len : Nat) (m : BitVec 16) (d b : List Byte), s.cc.pendCmd = some (c, m, .progLoad k len d) →
      let st := if slotSelected s k.val = true then 7 else loadStatus s d b
      ∃ t, exec (.progLoadDone b) s = .next t ∧ t = { s with cc := { s.cc with pendCmd := none, pendLast := (c, m, st) }, progs := t.progs } ∧
        (∀ j : PSlot, j ≠ k → t.progs[j] = s.progs[j]) ∧
        (st = 0 → t.progs[k] = some (containerOf b)) ∧ (st ≠ 0 → t.progs[k] = none)) ∧
    (∀ (k : PSlot) (c l : BitVec 64) (d : List Byte), s.cc.pendCmd = none → stagingBad c l = false → 25165824 < l.toNat ∨
        (s.plane.grant.isSome = true ∧ slotSelected s k.val = true) →
      exec (.progLoad q k.val c l d) s = .next (mgmtSaid 0x38 q (if 25165824 < l.toNat then 2 else 7) []
        { u with progs := vmod s.progs k (fun _ => none) }))

/-- Partition commands of the operator: windows given and taken back, a core assigned for the next boundary, an entry placed on the
partition's command ring, and PRESET by the operator (R373, R374, R377, R408, R410, R411, R417).
Commands that it shows to complete, on the conditions that it states: configure, unconfigure, coreAssign, pcmd, preset.

The end of a keyed clear makes a KEYING partition ready for its boundary; the end of a partition wipe resets its registers and
counters, keeps its windows, and with no step running leaves it CONFIGURED, or IDLE after the end of membership (R374, R375, R383,
R417).
Commands that it shows to complete, on the conditions that it states: keyedClearDone, partitionWipeDone. -/
def Obligations.PartitionsConfigured : Prop :=
  (∀ (s : State) (q : BitVec 16) (p : Part), MgmtFresh q s → notOperational s = false →
    let u := mgmtHeard s
    (∀ w : Windows, s.plane.plan.isSome = true → s.parts[p].st = .idle → windowsIn ((s.plane.grant.map Prod.snd).getD 0) w = true →
      (∀ o : Part, o ≠ p → windowsMeet w s.parts[o].win = false ∧ windowsMeet w s.parts[o].winNext = false) →
      exec (.configure q p.val w) s = .next (mgmtSaid 0x40 q 0 []
        { u with parts := vmod s.parts p (fun x => { x with win := w, winNext := w, st := .configured }) })) ∧
    (s.parts[p].st = .configured →
      exec (.unconfigure q p.val) s = .next (mgmtSaid 0x41 q 0 [] { u with parts := vmod s.parts p (fun x => { x with win := {}, winNext := {}, st := .idle }) })) ∧
    (∀ (n : CoreIx) (v : Nat), (v = 0x1F ∨ (v < 16 ∧ (s.parts.getD v {}).st = .keyed ∧ (s.parts.getD v {}).presetPend = none)) →
      exec (.coreAssign q n.val v) s = .next (mgmtSaid 0x43 q 0 [] { u with cores := vmod s.cores n (fun x => { x with partNext := v }) })) ∧
    (∀ e : ResCmd, s.parts[p].st = .keyed → s.parts[p].presetPend = none → s.parts[p].resq.log2n ≠ 0 →
      s.parts[p].resq.ents.length < 2 ^ s.parts[p].resq.log2n → (∀ x ∈ s.parts[p].resq.ents ++ [e], ∀ b, x ≠ .reserved b) →
      exec (.pcmd q p.val e) s = .next (mgmtSaid 0x44 q 0 [] { u with parts := vmod s.parts p (fun x => { x with resq := ringPush x.resq e }) })) ∧
    ((s.parts[p].st = .claimed ∨ s.parts[p].st = .keyed) → s.parts[p].presetPend = none → s.cc.pendCmd = none → ∃ t, exec (.preset q p.val) s = .next t ∧
      t.out = s.out ++ [.mgmt { cmd := 0x42, seq := q, status := 0xB }] ∧ t.cc.pendCmd = some (0x42, q, .preset p) ∧
      (∀ o : Part, o ≠ p → t.parts[o] = s.parts[o]) ∧
      (s.run.isOpen = true → t.parts[p] = { s.parts[p] with presetPend := some true } ∧ t.cores = s.cores ∧ t.hbm = s.hbm) ∧
      (s.run.isOpen = false → t.parts[p].st = .resetting ∧ t.parts[p].pkey = none ∧ t.parts[p].mkey = none))) ∧
  (∀ (p : Part) (s : State),
    let q := s.parts[p]
    (q.st = .keying → ∃ t, exec (.keyedClearDone p) s = .next t ∧ t = { s with parts := t.parts } ∧ t.parts[p] = { q with ready := true } ∧
      ∀ o : Part, o ≠ p → t.parts[o] = s.parts[o]) ∧
    (q.st ≠ .keying → exec (.keyedClearDone p) s = .next s) ∧
    (q.st = .resetting → q.ready = false → q.presetPend = none → ∃ t, exec (.partitionWipeDone p) s = .next t ∧
      t = { s with cc := t.cc, regs := t.regs, parts := t.parts, err := t.err } ∧ (∀ o : Part, o ≠ p → t.parts[o] = s.parts[o]) ∧
      (s.run.isOpen = true → t.parts[p] = { st := .resetting, ready := true, toIdle := q.toIdle, win := q.win, winNext := q.winNext } ∧ t.cc = s.cc) ∧
      (s.run.isOpen = false → q.toIdle = true → t.parts[p] = {}) ∧
      (s.run.isOpen = false → q.toIdle = false → t.parts[p] = { st := .configured, win := q.win, winNext := q.winNext } ∧
        ∀ c m, s.cc.pendCmd = some (c, m, .preset p) → t.cc.pendCmd = none ∧ t.cc.pendLast = (c, m, 0))) ∧
    ((q.st ≠ .resetting ∨ q.ready = true ∨ q.presetPend.isSome = true) → exec (.partitionWipeDone p) s = .next s))

/-! ### The register space -/

/-- Reads of the register space: a misaligned read, and a read through a partition alias of another partition's page, return zero
and record their cause; every other read returns the latch of its _HI half or the live value; a read of _LO latches _HI, which the
next read of _HI by that requester returns whatever the register then holds (R455, R458, R461, R463).
Commands that it shows to complete, on the conditions that it states: registerRead, pairLoRead. -/
def Obligations.RegistersRead : Prop :=
  ∀ (r : Requester) (page : Fin 32) (off : BitVec 12) (s : State),
    let own := s.regs.reqs[r]
    let ch := chanOf own page.val
    let o := off.toNat
    (readRefused s r page.val o = if o % 4 ≠ 0 then some .access
      else if ∃ p : Part, r.val = p.val + 1 ∧ ownReg page.val o = false ∧ foreign s p own page.val ch o = true then some .partition else none) ∧
    (∀ p : Part, r.val = p.val + 1 → 16 ≤ page.val → page.val ≠ 16 + p.val → o ≠ 0x18 → foreign s p own page.val ch o = true) ∧
    (∀ c, readRefused s r page.val o = some c → ∃ t, exec (.registerRead r page off) s = .next t ∧
      t = { s with out := s.out ++ [.reg r page.val o 0], regs := t.regs } ∧ t.regs.reqs[r] = { own with astat := some (page.val, o, causeCode c) } ∧
      ∀ q : Requester, q ≠ r → t.regs.reqs[q] = s.regs.reqs[q]) ∧
    (readRefused s r page.val o = none → ∃ t, exec (.registerRead r page off) s = .next t ∧
      t = { s with out := s.out ++ [.reg r page.val o
          (match tabGet none own.hiLatch (hiKey page.val o ch) with | some w => w | none => regVal s own page.val ch o)], regs := t.regs } ∧
      t.regs.reqs[r] = { own with hiLatch := t.regs.reqs[r].hiLatch } ∧ ∀ q : Requester, q ≠ r → t.regs.reqs[q] = s.regs.reqs[q]) ∧
    (pairHi page.val o = none → exec (.pairLoRead r page off) s = .next s) ∧
    (∀ hi, pairHi page.val o = some hi → readRefused s r page.val o = none → ∃ t, exec (.pairLoRead r page off) s = .next t ∧
      t = { s with out := s.out ++ [.reg r page.val o (readValue s r page.val o)], regs := t.regs } ∧
      ∀ u : State, u.regs.reqs[r] = t.regs.reqs[r] → readRefused u r page.val hi = none → ∃ v, exec (.registerRead r page (BitVec.ofNat 12 hi)) u = .next v ∧
        v.out = u.out ++ [.reg r page.val hi (regVal s own page.val ch hi)])

/-- A register write that is refused has no effect but its record: ID_ASTAT of the requester with page, offset and cause, and the count
of ID_AREF. Misaligned addresses are refused with ACCESS, another partition's or the control core's registers with PARTITION, and
writes of a partition that is not KEYED, or to a page that is BUSY, with STATE (R16, R455, R458, R464). -/
def Obligations.RegisterWritesChecked : Prop :=
  ∀ (r : Requester) (page : Fin 32) (off : BitVec 12) (v : Word) (e : RingEnts) (l : List FwStore) (s : State),
    (writeCause s r page.val off.toNat = if off.toNat % 4 ≠ 0 then some .access
      else match reqPart r with
        | none => if pageBusy s page.val = true then some .state else none
        | some p => if ownReg page.val off.toNat = false ∧ (foreign s p s.regs.reqs[r] page.val (chanOf s.regs.reqs[r] page.val) off.toNat = true ∨
              rootOnly page.val off.toNat = true) then some .partition
          else if s.parts[p].st ≠ .keyed ∨ s.parts[p].presetPend ≠ none ∨ pageBusy s page.val = true then some .state else none) ∧
    (∀ c, writeCause s r page.val off.toNat = some c →
      ∀ x ∈ ([(.registerWrite r page off v, page, off.toNat)] ++
        (if off = 0x18 then [(.chselWrite r page v, page, 0x18)] else []) ++ (if off = 0x10 then [(.intStatusClear r page v, page, 0x10)] else []) ++
        (if page = 1 ∧ off = 0x30 then [(.kick r v, page, 0x30)] else []) ++ (if page = 8 ∧ off = 0x28 then [(.sgNextWrite r v [], page, 0x28)] else []) ++
        (if page = 4 ∧ off = 0x80 then [(.pwIslReq r v, page, 0x80)] else []) ++ (if page = 0xD ∧ off = 0x84 then [(.coreBypWrite r v, page, 0x84)] else []) ++
        (if configReg page.val off.toNat = true then [(.ringConfigWrite r page off v, page, off.toNat)] else []) ++
        (if indexReg page.val off.toNat = true then [(.ringIndexWrite r page off v e l, page, off.toNat)] else []) : List (Instr × Fin 32 × Nat)),
      ∃ t, exec x.1 s = .next t ∧ t = { s with regs := t.regs } ∧ t.regs.pages = s.regs.pages ∧ t.regs.aref = min 0xFFFE (s.regs.aref + 1) ∧
        t.regs.reqs[r] = { s.regs.reqs[r] with astat := some (x.2.1.val, x.2.2, causeCode c) } ∧
        ∀ q : Requester, q ≠ r → t.regs.reqs[q] = s.regs.reqs[q])

/-- Writes of the control core's pages and of a requester's own copies, each with its effect and nothing else: CHSEL within the
page's channels, INT_STATUS by ones, ID_ASTAT, the flags of a tensor, WDOG_T with KICK, the next batch, a power island's request,
the bypass of a core's arrays for the next boundary, SEG_CAP within the sum, loss scaling, and the host's RB_ACK; an offset of a page
without writable registers has no effect (R38, R85, R110, R202, R280, R400, R442, R455, R461, R462, R474, R475).
Commands that it shows to complete, on the conditions that it states: chselWrite, intStatusClear, idAstatClear, uuTflagClear,
kick, sgNextWrite, pwIslReq, coreBypWrite, segcapWrite, lscaleWrite, rbAck, registerWrite. -/
def Obligations.RegistersWritten : Prop :=
  ∀ (r : Requester) (v : Word) (s : State),
    let own := s.regs.reqs[r]
    (∀ page : Fin 32, writeCause s r page.val 0x18 = none → fld v 0 16 < channels page.val →
      exec (.chselWrite r page v) s = .next { s with regs := { s.regs with reqs := vmod s.regs.reqs r (fun x => { x with chsel := tabSet 0 x.chsel page.val (fld v 0 16) }) } }) ∧
    (∀ page : Fin 32, writeCause s r page.val 0x18 = none → channels page.val ≤ fld v 0 16 → ∃ t, exec (.chselWrite r page v) s = .next t ∧
      t = { s with regs := t.regs } ∧ t.regs.reqs[r] = { own with astat := some (page.val, 0x18, 1) }) ∧
    (∀ page : Fin 32, writeCause s r page.val 0x10 = none →
      exec (.intStatusClear r page v) s = .next { s with regs := { s.regs with pages := vmod s.regs.pages page (fun h => { h with intStatus := h.intStatus &&& ~~~ BitVec.ofNat 8 v.toNat }) } }) ∧
    (writeCause s r 0 0xA4 = none → exec (.idAstatClear r v) s =
      .next (if bitAt v 31 = true then { s with regs := { s.regs with reqs := vmod s.regs.reqs r (fun x => { x with astat := none }) } } else s)) ∧
    (writeCause s r 0xF 0x24 = none → exec (.uuTflagClear r v) s =
      .next { s with tensors := tabMod {} s.tensors own.uuTidx.toNat (fun t => { t with
        win := t.win && (!bitAt v 0 || t.stepSet.getLsbD 0), nan := t.nan && (!bitAt v 1 || t.stepSet.getLsbD 1),
        ovf := t.ovf && (!bitAt v 2 || t.stepSet.getLsbD 2) }) }) ∧
    (writeCause s r 1 0x30 = none → exec (.kick r v) s = .next { s with cc := { s.cc with
      wdogT := BitVec.ofNat 31 v.toNat, wdogKick := if bitAt v 31 = true then s.mc.tick.toNat else s.cc.wdogKick } }) ∧
    (∀ tags, writeCause s r 8 0x28 = none → fld v 0 17 ≤ 65536 → s.seg.tagsAddr.toNat + 8 * fld v 0 17 ≤ 2 ^ 29 → exec (.sgNextWrite r v tags) s =
      .next { s with seg := { s.seg with rows := fld v 0 17, pslot := Fin.ofNat 8 (fld v 17 3), valid := bitAt v 20, tagArray := tags } }) ∧
    (∀ i : Fin 20, writeCause s r 4 0x80 = none → chanOf own 4 = i.val → 
      (fld v 0 2 = 1 ∨ (fld v 0 2 ≠ 0 ∧ ¬ (2 ≤ i.val ∧ i.val < 10)) → ∃ t, exec (.pwIslReq r v) s = .next t ∧ t = { s with regs := t.regs } ∧
        t.regs.reqs[r] = { own with astat := some (4, 0x80, 1) }) ∧
      (2 ≤ fld v 0 2 → 2 ≤ i.val → i.val < 10 → (∀ n : CoreIx, n.val / 8 = i.val - 2 → s.cores[n].part = 0x1F ∧ s.cores[n].partNext = 0x1F) →
        ∃ t, exec (.pwIslReq r v) s = .next t ∧ t = { s with pw := { s.pw with islands := t.pw.islands } } ∧
          t.pw.islands[i] = { s.pw.islands[i] with req := if fld v 0 2 = 2 then .retain else .off } ∧
          ∀ j : Fin 20, j ≠ i → t.pw.islands[j] = s.pw.islands[j])) ∧
    (∀ n : CoreIx, writeCause s r 0xD 0x84 = none → chanOf own 0xD = n.val →
      ((∀ a : Fin 4, bypCause (fusedCols s (4 * n.val + a.val)) (bypField v a.val) = none) → ∃ t, exec (.coreBypWrite r v) s = .next t ∧
        t = { s with cores := t.cores } ∧ t.cores[n] = { s.cores[n] with bypNext := Vector.ofFn (fun a => bypField v a.val) } ∧
        ∀ m : CoreIx, m ≠ n → t.cores[m] = s.cores[m])) ∧
    (∀ p : Part, writeCause s r (16 + p.val) 0x3C = none → (fld v 0 13 ≤ 4096 ∧ otherCaps s p + fld v 0 13 ≤ 4096) → exec (.segcapWrite r p v) s =
      .next { s with parts := vmod s.parts p (fun q => { q with regs := { q.regs with segCap := fld v 0 13 } }) }) ∧
    (∀ p : Part, writeCause s r (16 + p.val) 0x3C = none → 4096 < otherCaps s p + fld v 0 13 → ∃ t, exec (.segcapWrite r p v) s = .next t ∧
      t = { s with regs := t.regs } ∧ t.regs.reqs[r] = { own with astat := some (16 + p.val, 0x3C, 1) }) ∧
    (∀ p : Part, writeCause s r (16 + p.val) 0x5C = none → fld v 8 8 ≤ fld v 0 8 → fld v 0 8 ≤ fld v 16 8 → fld v 16 8 ≤ 64 → exec (.lscaleWrite r p false v) s =
      .next { s with parts := vmod s.parts p (fun q => { q with loss := { q.loss with lsNext := some (fld v 0 8) }, regs := { q.regs with lsMin := fld v 8 8, lsMax := fld v 16 8 } }) }) ∧
    (∀ p : Part, writeCause s r (16 + p.val) 0x60 = none → 1 ≤ fld v 0 16 → fld v 0 16 ≤ 65534 → exec (.lscaleWrite r p true v) s =
      .next { s with parts := vmod s.parts p (fun q => { q with regs := { q.regs with lsRun := fld v 0 16 } }) }) ∧
    (∀ f : FaceIx, pageBusy s (facePage f).val = false → ∃ t, exec (.rbAck f v) s = .next t ∧ t = { s with regs := t.regs, faces := t.faces } ∧
      t.faces[f].acks[(Fin.ofNat 2 (fld v 0 1) : Fin 2)] = true ∧ t.faces[f] = { s.faces[f] with acks := t.faces[f].acks } ∧
      ∀ g : FaceIx, g ≠ f → t.faces[g] = s.faces[g]) ∧
    (∀ off : BitVec 12, writeCause s r 0xE off.toNat = none → 0x20 ≤ off.toNat → exec (.registerWrite r 0xE off v) s = .next s)

/-- Rings: entries that firmware has placed become visible with an index write that the ring has room for, and one that it has no
room for is refused with BOUNDS; the reader's index frees entries; the base and size of a ring whose indices differ are refused with
STATE, and an accepted size of 4 to 16 sets both indices to 0 (R465, R471, R481).
Commands that it shows to complete, on the conditions that it states: ringIndexWrite, ringConfigWrite. -/
def Obligations.RingsWritten : Prop :=
  ∀ (r : Requester) (p : Part) (v : Word) (s : State) (l : List ResCmd),
    let own := s.regs.reqs[r]
    let q := s.parts[p]
    let page : Fin 32 := pmPage p
    (writeCause s r page.val 0x10C = none → (∀ x ∈ q.resq.ents ++ l, ∀ b, x ≠ .reserved b) →
      let n := (fld v 0 16 + 65536 - q.resq.rd.toNat) % 65536
      (q.resq.log2n ≠ 0 → n ≤ 2 ^ q.resq.log2n → n = q.resq.ents.length + l.length → exec (.ringIndexWrite r page 0x10C v (.resq l) []) s =
        .next { s with parts := vmod s.parts p (fun x => { x with resq := { x.resq with wr := BitVec.ofNat 16 v.toNat, ents := x.resq.ents ++ l } }) }) ∧
      ((q.resq.log2n = 0 ∧ 0 < n) ∨ 2 ^ q.resq.log2n < n → ∃ t, exec (.ringIndexWrite r page 0x10C v (.resq l) []) s = .next t ∧
        t = { s with regs := t.regs } ∧ t.regs.reqs[r] = { own with astat := some (page.val, 0x10C, 1) })) ∧
    (writeCause s r page.val 0x1D0 = none →
      let n := (fld v 0 16 + 65536 - q.er.rd.toNat) % 65536
      (n ≤ q.er.ents.length → q.er.wait = [] → exec (.ringIndexWrite r page 0x1D0 v .none []) s =
        .next { s with parts := vmod s.parts p (fun x => { x with er := { x.er with rd := BitVec.ofNat 16 v.toNat, ents := x.er.ents.drop n } }) })) ∧
    (writeCause s r page.val 0x108 = none →
      (q.resq.wr ≠ q.resq.rd → ∃ t, exec (.ringConfigWrite r page 0x108 v) s = .next t ∧ t = { s with regs := t.regs } ∧
        t.regs.reqs[r] = { own with astat := some (page.val, 0x108, 2) }) ∧
      (q.resq.wr = q.resq.rd → (fld v 0 5 < 4 ∨ 16 < fld v 0 5) → ∃ t, exec (.ringConfigWrite r page 0x108 v) s = .next t ∧
        t = { s with regs := t.regs } ∧ t.regs.reqs[r] = { own with astat := some (page.val, 0x108, 1) }) ∧
      (q.resq.wr = q.resq.rd → 4 ≤ fld v 0 5 → fld v 0 5 ≤ 16 → q.resq.wait = [] → exec (.ringConfigWrite r page 0x108 v) s =
        .next { s with parts := vmod s.parts p (fun x => { x with resq := { x.resq with log2n := fld v 0 5, wr := 0, rd := 0, ents := [] } }) })) ∧
    (∀ off : BitVec 12, configReg page.val off.toNat = false → exec (.ringConfigWrite r page off v) s = .next s) ∧
    (∀ off : BitVec 12, indexReg page.val off.toNat = false → exec (.ringIndexWrite r page off v (.resq l) []) s = .next s)

/-! ### Number formats, sums, memories -/

/-- The value of every F8v code: S is the sign bit, E the four bits below it, M the low three (R58). -/
def Obligations.F8vValues : Prop :=
  ∀ c : BitVec 8,
    let neg := c.getLsbD 7
    let E := fld c 3 4
    let M := fld c 0 3
    (E = 15 ∧ M = 7 → fpDecode fmtF8v c.toNat = .nan) ∧
    (¬ (E = 15 ∧ M = 7) → ∃ m e, fpDecode fmtF8v c.toNat = .fin neg m e ∧
      magRat m e = if E = 0 then (2 : ℚ) ^ (-6 : Int) * M / 8 else (2 : ℚ) ^ ((E : Int) - 7) * (1 + (M : ℚ) / 8))

/-- The value of every F8g code: S is the sign bit, E the five bits below it, M the low two (R59). -/
def Obligations.F8gValues : Prop :=
  ∀ c : BitVec 8,
    let neg := c.getLsbD 7
    let E := fld c 2 5
    let M := fld c 0 2
    (E = 31 → fpDecode fmtF8g c.toNat = if M = 0 then .inf neg else .nan) ∧
    (E ≠ 31 → ∃ m e, fpDecode fmtF8g c.toNat = .fin neg m e ∧
      magRat m e = if E = 0 then (2 : ℚ) ^ (-14 : Int) * M / 4 else (2 : ℚ) ^ ((E : Int) - 15) * (1 + (M : ℚ) / 4))

/-- Rounding to each format: of all finite codes the one nearest to the exact magnitude, of two equally near ones the one whose lowest
bit is 0; and a magnitude overflows exactly when it lies above the midpoint of the largest finite value and the next one that one more
binade would hold, or on that midpoint where the largest code is odd (R58 to R61, R68, R70). -/
def Obligations.RoundsToNearestEven : Prop :=
  ∀ x ∈ ([(fmtF8v, 464), (fmtF8g, 61440), (fmtB16, 2 ^ 128 - 2 ^ 119), (fmtF32, 2 ^ 128 - 2 ^ 103)] : List (Fmt × ℚ)),
    ∀ (m : Nat) (e : Int),
      let c := fpRound x.1 m e
      (x.1.maxc < c ↔ x.2 < magRat m e ∨ (magRat m e = x.2 ∧ x.1.maxc % 2 = 1)) ∧
      (c ≤ x.1.maxc → ∃ k j, fpDecode x.1 c = .fin false k j ∧ ∀ d k' j', d ≤ x.1.maxc → fpDecode x.1 d = .fin false k' j' →
        |magRat k j - magRat m e| ≤ |magRat k' j' - magRat m e| ∧
        (d ≠ c → |magRat k j - magRat m e| = |magRat k' j' - magRat m e| → c % 2 = 0))

/-- Sums: the order of the terms is invisible; a sum whose exact value is zero is +0 whatever the signs of its terms; and a product of
a zero and a finite operand counts as +0 in every sum (R63, R65). -/
def Obligations.SumsExactAndOrderFree : Prop :=
  (∀ l k : List Val, l.Perm k → f32Sum l = f32Sum k) ∧
  (∀ l : List Val, (∀ v ∈ l, (valRat v).isSome = true) → ((l.filterMap valRat).sum = 0) → f32Sum l = (0, 0)) ∧
  (∀ (n k : Bool) (m m' : Nat) (e e' : Int) (l : List Val), m = 0 ∨ m' = 0 →
    (valMul (.fin n m e) (.fin k m' e')).2 = 0 ∧ f32Sum ((valMul (.fin n m e) (.fin k m' e')).1 :: l) = f32Sum l) ∧
  (∀ l : List Val, (∀ v ∈ l, (valRat v).isSome = true) →
    let x := (l.filterMap valRat).sum
    ∀ m e, x = magRat m e ∨ x = -magRat m e → f32Sum l = f32Round (decide (x < 0)) m e) ∧
  (∀ ps qs : List (Val × Val), ps.Perm qs →
    (columnResult (ps.map Prod.fst) (ps.map Prod.snd)).1 = (columnResult (qs.map Prod.fst) (qs.map Prod.snd)).1)

/-- A contribution is rounded onto the tensor's grid, half-way cases to the even integer; beyond the range, or infinite, it is limited
and WIN rises; a NaN gives 0 and NAN; and the update unit adds it to S (R75). -/
def Obligations.ContributionRoundedAndAdded : Prop :=
  (∀ (n : Bool) (m : Nat) (e w : Int),
    let x : ℚ := (if n = true then -1 else 1) * magRat m (e - w)
    let q := roundInt n m (e - w)
    |x - q| ≤ 1 / 2 ∧ (|x - q| = 1 / 2 → q % 2 = 0) ∧
    xaQuant (.fin n m e) w = (if xaMax < q then (xaMax, true, false) else if q < -xaMax then (-xaMax, true, false) else (q, false, false))) ∧
  (∀ (n : Bool) (w : Int), xaQuant (.inf n) w = ((if n = true then -xaMax else xaMax), true, false)) ∧
  (∀ w, xaQuant .nan w = (0, false, true)) ∧
  (∀ (s : State) (ix e : Nat) (v : Val), Memory.wf s.hbm = true →
    let t := tabGet {} s.tensors ix
    let q := xaQuant v t.wForce
    let u := addElem ix e v s
    let t' := tabGet {} u.tensors ix
    (-(2 ^ 127 : Int) ≤ accSum s.hbm t e + q.1) → accSum s.hbm t e + q.1 < 2 ^ 127 →
    accSum u.hbm t' e = accSum s.hbm t e + q.1 ∧ t'.win = (t.win || q.2.1) ∧ t'.nan = (t.nan || q.2.2) ∧ t'.ovf = t.ovf ∧
    ∀ a, (a < t.acc + 16 * e ∨ t.acc + 16 * e + 16 ≤ a) → memByte u.hbm a = memByte s.hbm a)

/-- From a cleared accumulator, S is the exact integer sum of the q of every contribution received, whatever their order; up to 2^32 of
them never wrap; and the other elements stay (R76, R77). -/
def Obligations.AccumulatorSumExact : Prop :=
  ∀ (s : State) (ix e : Nat) (l : List Val), Memory.wf s.hbm = true → l.length ≤ 2 ^ 32 →
    let t := tabGet {} s.tensors ix
    let u := l.foldl (fun s v => addElem ix e v s) s
    accSum s.hbm t e = 0 →
    accSum u.hbm (tabGet {} u.tensors ix) e = (l.map (fun v => (xaQuant v t.wForce).1)).sum ∧
    (∀ k : List Val, l.Perm k → (k.foldl (fun s v => addElem ix e v s) s).hbm = u.hbm) ∧
    ∀ d, d ≠ e → accSum u.hbm (tabGet {} u.tensors ix) d = accSum s.hbm t d

/-- Every memory of the chip keeps its canonical form in every step, and reset has it. -/
def Obligations.MemoriesKeepCanonicalForm : Prop :=
  MemOk State.reset ∧ ∀ s t : State, MemOk s → step s = .next t → MemOk t
end

