-- ==== Sys2Proof/Laws/Foot.lean ====
section
/-!
SUPPORT. What each family of commands may change and what it leaves as it is: one lemma for each field of each footprint.
-/

namespace Sys2Proof.Machine

@[simp] theorem footWord_pending (s t : State) : (footWord s t).pending = s.pending := rfl
@[simp] theorem footWord_out (s t : State) : (footWord s t).out = t.out := rfl
@[simp] theorem footWord_freeIx (s t : State) : (footWord s t).freeIx = t.freeIx := rfl
@[simp] theorem footWord_nv (s t : State) : (footWord s t).nv = s.nv := rfl
@[simp] theorem footWord_cc (s t : State) : (footWord s t).cc = s.cc := rfl
@[simp] theorem footWord_sec (s t : State) : (footWord s t).sec = s.sec := rfl
@[simp] theorem footWord_regs (s t : State) : (footWord s t).regs = t.regs := rfl
@[simp] theorem footWord_mc (s t : State) : (footWord s t).mc = s.mc := rfl
@[simp] theorem footWord_plane (s t : State) : (footWord s t).plane = t.plane := rfl
@[simp] theorem footWord_ports (s t : State) : (footWord s t).ports = t.ports := rfl
@[simp] theorem footWord_epoch (s t : State) : (footWord s t).epoch = s.epoch := rfl
@[simp] theorem footWord_epochPend (s t : State) : (footWord s t).epochPend = s.epochPend := rfl
@[simp] theorem footWord_progs (s t : State) : (footWord s t).progs = s.progs := rfl
@[simp] theorem footWord_instStatus (s t : State) : (footWord s t).instStatus = s.instStatus := rfl
@[simp] theorem footWord_cores (s t : State) : (footWord s t).cores = keepAssign s t := rfl
@[simp] theorem footWord_clusters (s t : State) : (footWord s t).clusters = t.clusters := rfl
@[simp] theorem footWord_hbm (s t : State) : (footWord s t).hbm = t.hbm := rfl
@[simp] theorem footWord_slots (s t : State) : (footWord s t).slots = t.slots := rfl
@[simp] theorem footWord_vrecs (s t : State) : (footWord s t).vrecs = t.vrecs := rfl
@[simp] theorem footWord_attrNext (s t : State) : (footWord s t).attrNext = s.attrNext := rfl
@[simp] theorem footWord_evictNext (s t : State) : (footWord s t).evictNext = s.evictNext := rfl
@[simp] theorem footWord_residentNext (s t : State) : (footWord s t).residentNext = t.residentNext := rfl
@[simp] theorem footWord_tensors (s t : State) : (footWord s t).tensors = t.tensors := rfl
@[simp] theorem footWord_tensorNext (s t : State) : (footWord s t).tensorNext = s.tensorNext := rfl
@[simp] theorem footWord_tdigs (s t : State) : (footWord s t).tdigs = s.tdigs := rfl
@[simp] theorem footWord_freezeNext (s t : State) : (footWord s t).freezeNext = s.freezeNext := rfl
@[simp] theorem footWord_uuAdd (s t : State) : (footWord s t).uuAdd = t.uuAdd := rfl
@[simp] theorem footWord_uuOpt (s t : State) : (footWord s t).uuOpt = t.uuOpt := rfl
@[simp] theorem footWord_uuBusy (s t : State) : (footWord s t).uuBusy = t.uuBusy := rfl
@[simp] theorem footWord_uuNow (s t : State) : (footWord s t).uuNow = t.uuNow := rfl
@[simp] theorem footWord_recs (s t : State) : (footWord s t).recs = t.recs := rfl
@[simp] theorem footWord_parts (s t : State) : (footWord s t).parts = t.parts := rfl
@[simp] theorem footWord_rings (s t : State) : (footWord s t).rings = t.rings := rfl
@[simp] theorem footWord_faces (s t : State) : (footWord s t).faces = t.faces := rfl
@[simp] theorem footWord_seg (s t : State) : (footWord s t).seg = s.seg := rfl
@[simp] theorem footWord_rcc (s t : State) : (footWord s t).rcc = t.rcc := rfl
@[simp] theorem footWord_run (s t : State) : (footWord s t).run = t.run := rfl
@[simp] theorem footWord_adm (s t : State) : (footWord s t).adm = s.adm := rfl
@[simp] theorem footWord_err (s t : State) : (footWord s t).err = t.err := rfl
@[simp] theorem footWord_pw (s t : State) : (footWord s t).pw = s.pw := rfl

@[simp] theorem footNet_pending (s t : State) : (footNet s t).pending = s.pending := rfl
@[simp] theorem footNet_out (s t : State) : (footNet s t).out = t.out := rfl
@[simp] theorem footNet_freeIx (s t : State) : (footNet s t).freeIx = s.freeIx := rfl
@[simp] theorem footNet_nv (s t : State) : (footNet s t).nv = s.nv := rfl
@[simp] theorem footNet_cc (s t : State) : (footNet s t).cc = s.cc := rfl
@[simp] theorem footNet_sec (s t : State) : (footNet s t).sec = s.sec := rfl
@[simp] theorem footNet_regs (s t : State) : (footNet s t).regs = t.regs := rfl
@[simp] theorem footNet_mc (s t : State) : (footNet s t).mc = t.mc := rfl
@[simp] theorem footNet_plane (s t : State) : (footNet s t).plane = t.plane := rfl
@[simp] theorem footNet_ports (s t : State) : (footNet s t).ports = t.ports := rfl
@[simp] theorem footNet_epoch (s t : State) : (footNet s t).epoch = s.epoch := rfl
@[simp] theorem footNet_epochPend (s t : State) : (footNet s t).epochPend = s.epochPend := rfl
@[simp] theorem footNet_progs (s t : State) : (footNet s t).progs = s.progs := rfl
@[simp] theorem footNet_instStatus (s t : State) : (footNet s t).instStatus = s.instStatus := rfl
@[simp] theorem footNet_cores (s t : State) : (footNet s t).cores = s.cores := rfl
@[simp] theorem footNet_clusters (s t : State) : (footNet s t).clusters = s.clusters := rfl
@[simp] theorem footNet_hbm (s t : State) : (footNet s t).hbm = s.hbm := rfl
@[simp] theorem footNet_slots (s t : State) : (footNet s t).slots = s.slots := rfl
@[simp] theorem footNet_vrecs (s t : State) : (footNet s t).vrecs = s.vrecs := rfl
@[simp] theorem footNet_attrNext (s t : State) : (footNet s t).attrNext = s.attrNext := rfl
@[simp] theorem footNet_evictNext (s t : State) : (footNet s t).evictNext = s.evictNext := rfl
@[simp] theorem footNet_residentNext (s t : State) : (footNet s t).residentNext = s.residentNext := rfl
@[simp] theorem footNet_tensors (s t : State) : (footNet s t).tensors = s.tensors := rfl
@[simp] theorem footNet_tensorNext (s t : State) : (footNet s t).tensorNext = s.tensorNext := rfl
@[simp] theorem footNet_tdigs (s t : State) : (footNet s t).tdigs = s.tdigs := rfl
@[simp] theorem footNet_freezeNext (s t : State) : (footNet s t).freezeNext = s.freezeNext := rfl
@[simp] theorem footNet_uuAdd (s t : State) : (footNet s t).uuAdd = s.uuAdd := rfl
@[simp] theorem footNet_uuOpt (s t : State) : (footNet s t).uuOpt = s.uuOpt := rfl
@[simp] theorem footNet_uuBusy (s t : State) : (footNet s t).uuBusy = s.uuBusy := rfl
@[simp] theorem footNet_uuNow (s t : State) : (footNet s t).uuNow = s.uuNow := rfl
@[simp] theorem footNet_recs (s t : State) : (footNet s t).recs = s.recs := rfl
@[simp] theorem footNet_parts (s t : State) : (footNet s t).parts = t.parts := rfl
@[simp] theorem footNet_rings (s t : State) : (footNet s t).rings = s.rings := rfl
@[simp] theorem footNet_faces (s t : State) : (footNet s t).faces = s.faces := rfl
@[simp] theorem footNet_seg (s t : State) : (footNet s t).seg = s.seg := rfl
@[simp] theorem footNet_rcc (s t : State) : (footNet s t).rcc = s.rcc := rfl
@[simp] theorem footNet_run (s t : State) : (footNet s t).run = t.run := rfl
@[simp] theorem footNet_adm (s t : State) : (footNet s t).adm = s.adm := rfl
@[simp] theorem footNet_err (s t : State) : (footNet s t).err = t.err := rfl
@[simp] theorem footNet_pw (s t : State) : (footNet s t).pw = s.pw := rfl

@[simp] theorem footPort_pending (s t : State) : (footPort s t).pending = s.pending := rfl
@[simp] theorem footPort_out (s t : State) : (footPort s t).out = t.out := rfl
@[simp] theorem footPort_freeIx (s t : State) : (footPort s t).freeIx = t.freeIx := rfl
@[simp] theorem footPort_nv (s t : State) : (footPort s t).nv = { s.nv with lastFatal := t.nv.lastFatal } := rfl
@[simp] theorem footPort_cc (s t : State) : (footPort s t).cc = s.cc := rfl
@[simp] theorem footPort_sec (s t : State) : (footPort s t).sec = keepLc s t := rfl
@[simp] theorem footPort_regs (s t : State) : (footPort s t).regs = t.regs := rfl
@[simp] theorem footPort_mc (s t : State) : (footPort s t).mc = t.mc := rfl
@[simp] theorem footPort_plane (s t : State) : (footPort s t).plane = t.plane := rfl
@[simp] theorem footPort_ports (s t : State) : (footPort s t).ports = t.ports := rfl
@[simp] theorem footPort_epoch (s t : State) : (footPort s t).epoch = s.epoch := rfl
@[simp] theorem footPort_epochPend (s t : State) : (footPort s t).epochPend = s.epochPend := rfl
@[simp] theorem footPort_progs (s t : State) : (footPort s t).progs = s.progs := rfl
@[simp] theorem footPort_instStatus (s t : State) : (footPort s t).instStatus = s.instStatus := rfl
@[simp] theorem footPort_cores (s t : State) : (footPort s t).cores = s.cores := rfl
@[simp] theorem footPort_clusters (s t : State) : (footPort s t).clusters = s.clusters := rfl
@[simp] theorem footPort_hbm (s t : State) : (footPort s t).hbm = s.hbm := rfl
@[simp] theorem footPort_slots (s t : State) : (footPort s t).slots = s.slots := rfl
@[simp] theorem footPort_vrecs (s t : State) : (footPort s t).vrecs = s.vrecs := rfl
@[simp] theorem footPort_attrNext (s t : State) : (footPort s t).attrNext = s.attrNext := rfl
@[simp] theorem footPort_evictNext (s t : State) : (footPort s t).evictNext = s.evictNext := rfl
@[simp] theorem footPort_residentNext (s t : State) : (footPort s t).residentNext = s.residentNext := rfl
@[simp] theorem footPort_tensors (s t : State) : (footPort s t).tensors = s.tensors := rfl
@[simp] theorem footPort_tensorNext (s t : State) : (footPort s t).tensorNext = s.tensorNext := rfl
@[simp] theorem footPort_tdigs (s t : State) : (footPort s t).tdigs = s.tdigs := rfl
@[simp] theorem footPort_freezeNext (s t : State) : (footPort s t).freezeNext = s.freezeNext := rfl
@[simp] theorem footPort_uuAdd (s t : State) : (footPort s t).uuAdd = s.uuAdd := rfl
@[simp] theorem footPort_uuOpt (s t : State) : (footPort s t).uuOpt = s.uuOpt := rfl
@[simp] theorem footPort_uuBusy (s t : State) : (footPort s t).uuBusy = s.uuBusy := rfl
@[simp] theorem footPort_uuNow (s t : State) : (footPort s t).uuNow = s.uuNow := rfl
@[simp] theorem footPort_recs (s t : State) : (footPort s t).recs = s.recs := rfl
@[simp] theorem footPort_parts (s t : State) : (footPort s t).parts = s.parts := rfl
@[simp] theorem footPort_rings (s t : State) : (footPort s t).rings = s.rings := rfl
@[simp] theorem footPort_faces (s t : State) : (footPort s t).faces = s.faces := rfl
@[simp] theorem footPort_seg (s t : State) : (footPort s t).seg = s.seg := rfl
@[simp] theorem footPort_rcc (s t : State) : (footPort s t).rcc = s.rcc := rfl
@[simp] theorem footPort_run (s t : State) : (footPort s t).run = t.run := rfl
@[simp] theorem footPort_adm (s t : State) : (footPort s t).adm = s.adm := rfl
@[simp] theorem footPort_err (s t : State) : (footPort s t).err = t.err := rfl
@[simp] theorem footPort_pw (s t : State) : (footPort s t).pw = s.pw := rfl

@[simp] theorem footSync_pending (s t : State) : (footSync s t).pending = s.pending := rfl
@[simp] theorem footSync_out (s t : State) : (footSync s t).out = t.out := rfl
@[simp] theorem footSync_freeIx (s t : State) : (footSync s t).freeIx = t.freeIx := rfl
@[simp] theorem footSync_nv (s t : State) : (footSync s t).nv = s.nv := rfl
@[simp] theorem footSync_cc (s t : State) : (footSync s t).cc = s.cc := rfl
@[simp] theorem footSync_sec (s t : State) : (footSync s t).sec = s.sec := rfl
@[simp] theorem footSync_regs (s t : State) : (footSync s t).regs = t.regs := rfl
@[simp] theorem footSync_mc (s t : State) : (footSync s t).mc = t.mc := rfl
@[simp] theorem footSync_plane (s t : State) : (footSync s t).plane = t.plane := rfl
@[simp] theorem footSync_ports (s t : State) : (footSync s t).ports = t.ports := rfl
@[simp] theorem footSync_epoch (s t : State) : (footSync s t).epoch = s.epoch := rfl
@[simp] theorem footSync_epochPend (s t : State) : (footSync s t).epochPend = s.epochPend := rfl
@[simp] theorem footSync_progs (s t : State) : (footSync s t).progs = s.progs := rfl
@[simp] theorem footSync_instStatus (s t : State) : (footSync s t).instStatus = s.instStatus := rfl
@[simp] theorem footSync_cores (s t : State) : (footSync s t).cores = s.cores := rfl
@[simp] theorem footSync_clusters (s t : State) : (footSync s t).clusters = s.clusters := rfl
@[simp] theorem footSync_hbm (s t : State) : (footSync s t).hbm = s.hbm := rfl
@[simp] theorem footSync_slots (s t : State) : (footSync s t).slots = s.slots := rfl
@[simp] theorem footSync_vrecs (s t : State) : (footSync s t).vrecs = s.vrecs := rfl
@[simp] theorem footSync_attrNext (s t : State) : (footSync s t).attrNext = s.attrNext := rfl
@[simp] theorem footSync_evictNext (s t : State) : (footSync s t).evictNext = s.evictNext := rfl
@[simp] theorem footSync_residentNext (s t : State) : (footSync s t).residentNext = s.residentNext := rfl
@[simp] theorem footSync_tensors (s t : State) : (footSync s t).tensors = s.tensors := rfl
@[simp] theorem footSync_tensorNext (s t : State) : (footSync s t).tensorNext = s.tensorNext := rfl
@[simp] theorem footSync_tdigs (s t : State) : (footSync s t).tdigs = s.tdigs := rfl
@[simp] theorem footSync_freezeNext (s t : State) : (footSync s t).freezeNext = s.freezeNext := rfl
@[simp] theorem footSync_uuAdd (s t : State) : (footSync s t).uuAdd = s.uuAdd := rfl
@[simp] theorem footSync_uuOpt (s t : State) : (footSync s t).uuOpt = s.uuOpt := rfl
@[simp] theorem footSync_uuBusy (s t : State) : (footSync s t).uuBusy = s.uuBusy := rfl
@[simp] theorem footSync_uuNow (s t : State) : (footSync s t).uuNow = s.uuNow := rfl
@[simp] theorem footSync_recs (s t : State) : (footSync s t).recs = s.recs := rfl
@[simp] theorem footSync_parts (s t : State) : (footSync s t).parts = t.parts := rfl
@[simp] theorem footSync_rings (s t : State) : (footSync s t).rings = s.rings := rfl
@[simp] theorem footSync_faces (s t : State) : (footSync s t).faces = s.faces := rfl
@[simp] theorem footSync_seg (s t : State) : (footSync s t).seg = s.seg := rfl
@[simp] theorem footSync_rcc (s t : State) : (footSync s t).rcc = s.rcc := rfl
@[simp] theorem footSync_run (s t : State) : (footSync s t).run = t.run := rfl
@[simp] theorem footSync_adm (s t : State) : (footSync s t).adm = s.adm := rfl
@[simp] theorem footSync_err (s t : State) : (footSync s t).err = t.err := rfl
@[simp] theorem footSync_pw (s t : State) : (footSync s t).pw = s.pw := rfl

@[simp] theorem footRes_pending (s t : State) : (footRes s t).pending = s.pending := rfl
@[simp] theorem footRes_out (s t : State) : (footRes s t).out = t.out := rfl
@[simp] theorem footRes_freeIx (s t : State) : (footRes s t).freeIx = t.freeIx := rfl
@[simp] theorem footRes_nv (s t : State) : (footRes s t).nv = { s.nv with imgReserved := max s.nv.imgReserved t.nv.imgReserved } := rfl
@[simp] theorem footRes_cc (s t : State) : (footRes s t).cc = s.cc := rfl
@[simp] theorem footRes_sec (s t : State) : (footRes s t).sec = keepLc s t := rfl
@[simp] theorem footRes_regs (s t : State) : (footRes s t).regs = t.regs := rfl
@[simp] theorem footRes_mc (s t : State) : (footRes s t).mc = s.mc := rfl
@[simp] theorem footRes_plane (s t : State) : (footRes s t).plane = s.plane := rfl
@[simp] theorem footRes_ports (s t : State) : (footRes s t).ports = s.ports := rfl
@[simp] theorem footRes_epoch (s t : State) : (footRes s t).epoch = s.epoch := rfl
@[simp] theorem footRes_epochPend (s t : State) : (footRes s t).epochPend = s.epochPend := rfl
@[simp] theorem footRes_progs (s t : State) : (footRes s t).progs = s.progs := rfl
@[simp] theorem footRes_instStatus (s t : State) : (footRes s t).instStatus = s.instStatus := rfl
@[simp] theorem footRes_cores (s t : State) : (footRes s t).cores = s.cores := rfl
@[simp] theorem footRes_clusters (s t : State) : (footRes s t).clusters = t.clusters := rfl
@[simp] theorem footRes_hbm (s t : State) : (footRes s t).hbm = t.hbm := rfl
@[simp] theorem footRes_slots (s t : State) : (footRes s t).slots = t.slots := rfl
@[simp] theorem footRes_vrecs (s t : State) : (footRes s t).vrecs = t.vrecs := rfl
@[simp] theorem footRes_attrNext (s t : State) : (footRes s t).attrNext = t.attrNext := rfl
@[simp] theorem footRes_evictNext (s t : State) : (footRes s t).evictNext = t.evictNext := rfl
@[simp] theorem footRes_residentNext (s t : State) : (footRes s t).residentNext = t.residentNext := rfl
@[simp] theorem footRes_tensors (s t : State) : (footRes s t).tensors = t.tensors := rfl
@[simp] theorem footRes_tensorNext (s t : State) : (footRes s t).tensorNext = t.tensorNext := rfl
@[simp] theorem footRes_tdigs (s t : State) : (footRes s t).tdigs = s.tdigs := rfl
@[simp] theorem footRes_freezeNext (s t : State) : (footRes s t).freezeNext = t.freezeNext := rfl
@[simp] theorem footRes_uuAdd (s t : State) : (footRes s t).uuAdd = s.uuAdd := rfl
@[simp] theorem footRes_uuOpt (s t : State) : (footRes s t).uuOpt = s.uuOpt := rfl
@[simp] theorem footRes_uuBusy (s t : State) : (footRes s t).uuBusy = s.uuBusy := rfl
@[simp] theorem footRes_uuNow (s t : State) : (footRes s t).uuNow = t.uuNow := rfl
@[simp] theorem footRes_recs (s t : State) : (footRes s t).recs = s.recs := rfl
@[simp] theorem footRes_parts (s t : State) : (footRes s t).parts = t.parts := rfl
@[simp] theorem footRes_rings (s t : State) : (footRes s t).rings = s.rings := rfl
@[simp] theorem footRes_faces (s t : State) : (footRes s t).faces = s.faces := rfl
@[simp] theorem footRes_seg (s t : State) : (footRes s t).seg = s.seg := rfl
@[simp] theorem footRes_rcc (s t : State) : (footRes s t).rcc = s.rcc := rfl
@[simp] theorem footRes_run (s t : State) : (footRes s t).run = t.run := rfl
@[simp] theorem footRes_adm (s t : State) : (footRes s t).adm = s.adm := rfl
@[simp] theorem footRes_err (s t : State) : (footRes s t).err = t.err := rfl
@[simp] theorem footRes_pw (s t : State) : (footRes s t).pw = s.pw := rfl

@[simp] theorem footPage_pending (s t : State) : (footPage s t).pending = s.pending := rfl
@[simp] theorem footPage_out (s t : State) : (footPage s t).out = t.out := rfl
@[simp] theorem footPage_freeIx (s t : State) : (footPage s t).freeIx = s.freeIx := rfl
@[simp] theorem footPage_nv (s t : State) : (footPage s t).nv = s.nv := rfl
@[simp] theorem footPage_cc (s t : State) : (footPage s t).cc = s.cc := rfl
@[simp] theorem footPage_sec (s t : State) : (footPage s t).sec = s.sec := rfl
@[simp] theorem footPage_regs (s t : State) : (footPage s t).regs = t.regs := rfl
@[simp] theorem footPage_mc (s t : State) : (footPage s t).mc = s.mc := rfl
@[simp] theorem footPage_plane (s t : State) : (footPage s t).plane = s.plane := rfl
@[simp] theorem footPage_ports (s t : State) : (footPage s t).ports = s.ports := rfl
@[simp] theorem footPage_epoch (s t : State) : (footPage s t).epoch = s.epoch := rfl
@[simp] theorem footPage_epochPend (s t : State) : (footPage s t).epochPend = s.epochPend := rfl
@[simp] theorem footPage_progs (s t : State) : (footPage s t).progs = s.progs := rfl
@[simp] theorem footPage_instStatus (s t : State) : (footPage s t).instStatus = s.instStatus := rfl
@[simp] theorem footPage_cores (s t : State) : (footPage s t).cores = s.cores := rfl
@[simp] theorem footPage_clusters (s t : State) : (footPage s t).clusters = s.clusters := rfl
@[simp] theorem footPage_hbm (s t : State) : (footPage s t).hbm = t.hbm := rfl
@[simp] theorem footPage_slots (s t : State) : (footPage s t).slots = s.slots := rfl
@[simp] theorem footPage_vrecs (s t : State) : (footPage s t).vrecs = s.vrecs := rfl
@[simp] theorem footPage_attrNext (s t : State) : (footPage s t).attrNext = s.attrNext := rfl
@[simp] theorem footPage_evictNext (s t : State) : (footPage s t).evictNext = s.evictNext := rfl
@[simp] theorem footPage_residentNext (s t : State) : (footPage s t).residentNext = s.residentNext := rfl
@[simp] theorem footPage_tensors (s t : State) : (footPage s t).tensors = s.tensors := rfl
@[simp] theorem footPage_tensorNext (s t : State) : (footPage s t).tensorNext = s.tensorNext := rfl
@[simp] theorem footPage_tdigs (s t : State) : (footPage s t).tdigs = s.tdigs := rfl
@[simp] theorem footPage_freezeNext (s t : State) : (footPage s t).freezeNext = s.freezeNext := rfl
@[simp] theorem footPage_uuAdd (s t : State) : (footPage s t).uuAdd = s.uuAdd := rfl
@[simp] theorem footPage_uuOpt (s t : State) : (footPage s t).uuOpt = s.uuOpt := rfl
@[simp] theorem footPage_uuBusy (s t : State) : (footPage s t).uuBusy = s.uuBusy := rfl
@[simp] theorem footPage_uuNow (s t : State) : (footPage s t).uuNow = s.uuNow := rfl
@[simp] theorem footPage_recs (s t : State) : (footPage s t).recs = s.recs := rfl
@[simp] theorem footPage_parts (s t : State) : (footPage s t).parts = t.parts := rfl
@[simp] theorem footPage_rings (s t : State) : (footPage s t).rings = s.rings := rfl
@[simp] theorem footPage_faces (s t : State) : (footPage s t).faces = s.faces := rfl
@[simp] theorem footPage_seg (s t : State) : (footPage s t).seg = s.seg := rfl
@[simp] theorem footPage_rcc (s t : State) : (footPage s t).rcc = t.rcc := rfl
@[simp] theorem footPage_run (s t : State) : (footPage s t).run = t.run := rfl
@[simp] theorem footPage_adm (s t : State) : (footPage s t).adm = s.adm := rfl
@[simp] theorem footPage_err (s t : State) : (footPage s t).err = t.err := rfl
@[simp] theorem footPage_pw (s t : State) : (footPage s t).pw = s.pw := rfl

@[simp] theorem footSeg_pending (s t : State) : (footSeg s t).pending = s.pending := rfl
@[simp] theorem footSeg_out (s t : State) : (footSeg s t).out = s.out := rfl
@[simp] theorem footSeg_freeIx (s t : State) : (footSeg s t).freeIx = s.freeIx := rfl
@[simp] theorem footSeg_nv (s t : State) : (footSeg s t).nv = s.nv := rfl
@[simp] theorem footSeg_cc (s t : State) : (footSeg s t).cc = s.cc := rfl
@[simp] theorem footSeg_sec (s t : State) : (footSeg s t).sec = s.sec := rfl
@[simp] theorem footSeg_regs (s t : State) : (footSeg s t).regs = t.regs := rfl
@[simp] theorem footSeg_mc (s t : State) : (footSeg s t).mc = s.mc := rfl
@[simp] theorem footSeg_plane (s t : State) : (footSeg s t).plane = s.plane := rfl
@[simp] theorem footSeg_ports (s t : State) : (footSeg s t).ports = s.ports := rfl
@[simp] theorem footSeg_epoch (s t : State) : (footSeg s t).epoch = s.epoch := rfl
@[simp] theorem footSeg_epochPend (s t : State) : (footSeg s t).epochPend = s.epochPend := rfl
@[simp] theorem footSeg_progs (s t : State) : (footSeg s t).progs = s.progs := rfl
@[simp] theorem footSeg_instStatus (s t : State) : (footSeg s t).instStatus = s.instStatus := rfl
@[simp] theorem footSeg_cores (s t : State) : (footSeg s t).cores = s.cores := rfl
@[simp] theorem footSeg_clusters (s t : State) : (footSeg s t).clusters = t.clusters := rfl
@[simp] theorem footSeg_hbm (s t : State) : (footSeg s t).hbm = s.hbm := rfl
@[simp] theorem footSeg_slots (s t : State) : (footSeg s t).slots = s.slots := rfl
@[simp] theorem footSeg_vrecs (s t : State) : (footSeg s t).vrecs = s.vrecs := rfl
@[simp] theorem footSeg_attrNext (s t : State) : (footSeg s t).attrNext = s.attrNext := rfl
@[simp] theorem footSeg_evictNext (s t : State) : (footSeg s t).evictNext = s.evictNext := rfl
@[simp] theorem footSeg_residentNext (s t : State) : (footSeg s t).residentNext = s.residentNext := rfl
@[simp] theorem footSeg_tensors (s t : State) : (footSeg s t).tensors = s.tensors := rfl
@[simp] theorem footSeg_tensorNext (s t : State) : (footSeg s t).tensorNext = s.tensorNext := rfl
@[simp] theorem footSeg_tdigs (s t : State) : (footSeg s t).tdigs = s.tdigs := rfl
@[simp] theorem footSeg_freezeNext (s t : State) : (footSeg s t).freezeNext = s.freezeNext := rfl
@[simp] theorem footSeg_uuAdd (s t : State) : (footSeg s t).uuAdd = s.uuAdd := rfl
@[simp] theorem footSeg_uuOpt (s t : State) : (footSeg s t).uuOpt = s.uuOpt := rfl
@[simp] theorem footSeg_uuBusy (s t : State) : (footSeg s t).uuBusy = s.uuBusy := rfl
@[simp] theorem footSeg_uuNow (s t : State) : (footSeg s t).uuNow = s.uuNow := rfl
@[simp] theorem footSeg_recs (s t : State) : (footSeg s t).recs = t.recs := rfl
@[simp] theorem footSeg_parts (s t : State) : (footSeg s t).parts = t.parts := rfl
@[simp] theorem footSeg_rings (s t : State) : (footSeg s t).rings = s.rings := rfl
@[simp] theorem footSeg_faces (s t : State) : (footSeg s t).faces = s.faces := rfl
@[simp] theorem footSeg_seg (s t : State) : (footSeg s t).seg = t.seg := rfl
@[simp] theorem footSeg_rcc (s t : State) : (footSeg s t).rcc = s.rcc := rfl
@[simp] theorem footSeg_run (s t : State) : (footSeg s t).run = t.run := rfl
@[simp] theorem footSeg_adm (s t : State) : (footSeg s t).adm = s.adm := rfl
@[simp] theorem footSeg_err (s t : State) : (footSeg s t).err = s.err := rfl
@[simp] theorem footSeg_pw (s t : State) : (footSeg s t).pw = s.pw := rfl

@[simp] theorem footServe_pending (s t : State) : (footServe s t).pending = s.pending := rfl
@[simp] theorem footServe_out (s t : State) : (footServe s t).out = t.out := rfl
@[simp] theorem footServe_freeIx (s t : State) : (footServe s t).freeIx = t.freeIx := rfl
@[simp] theorem footServe_nv (s t : State) : (footServe s t).nv = s.nv := rfl
@[simp] theorem footServe_cc (s t : State) : (footServe s t).cc = s.cc := rfl
@[simp] theorem footServe_sec (s t : State) : (footServe s t).sec = s.sec := rfl
@[simp] theorem footServe_regs (s t : State) : (footServe s t).regs = t.regs := rfl
@[simp] theorem footServe_mc (s t : State) : (footServe s t).mc = s.mc := rfl
@[simp] theorem footServe_plane (s t : State) : (footServe s t).plane = s.plane := rfl
@[simp] theorem footServe_ports (s t : State) : (footServe s t).ports = s.ports := rfl
@[simp] theorem footServe_epoch (s t : State) : (footServe s t).epoch = s.epoch := rfl
@[simp] theorem footServe_epochPend (s t : State) : (footServe s t).epochPend = s.epochPend := rfl
@[simp] theorem footServe_progs (s t : State) : (footServe s t).progs = s.progs := rfl
@[simp] theorem footServe_instStatus (s t : State) : (footServe s t).instStatus = s.instStatus := rfl
@[simp] theorem footServe_cores (s t : State) : (footServe s t).cores = s.cores := rfl
@[simp] theorem footServe_clusters (s t : State) : (footServe s t).clusters = s.clusters := rfl
@[simp] theorem footServe_hbm (s t : State) : (footServe s t).hbm = t.hbm := rfl
@[simp] theorem footServe_slots (s t : State) : (footServe s t).slots = s.slots := rfl
@[simp] theorem footServe_vrecs (s t : State) : (footServe s t).vrecs = s.vrecs := rfl
@[simp] theorem footServe_attrNext (s t : State) : (footServe s t).attrNext = s.attrNext := rfl
@[simp] theorem footServe_evictNext (s t : State) : (footServe s t).evictNext = s.evictNext := rfl
@[simp] theorem footServe_residentNext (s t : State) : (footServe s t).residentNext = s.residentNext := rfl
@[simp] theorem footServe_tensors (s t : State) : (footServe s t).tensors = s.tensors := rfl
@[simp] theorem footServe_tensorNext (s t : State) : (footServe s t).tensorNext = s.tensorNext := rfl
@[simp] theorem footServe_tdigs (s t : State) : (footServe s t).tdigs = s.tdigs := rfl
@[simp] theorem footServe_freezeNext (s t : State) : (footServe s t).freezeNext = s.freezeNext := rfl
@[simp] theorem footServe_uuAdd (s t : State) : (footServe s t).uuAdd = s.uuAdd := rfl
@[simp] theorem footServe_uuOpt (s t : State) : (footServe s t).uuOpt = s.uuOpt := rfl
@[simp] theorem footServe_uuBusy (s t : State) : (footServe s t).uuBusy = s.uuBusy := rfl
@[simp] theorem footServe_uuNow (s t : State) : (footServe s t).uuNow = s.uuNow := rfl
@[simp] theorem footServe_recs (s t : State) : (footServe s t).recs = t.recs := rfl
@[simp] theorem footServe_parts (s t : State) : (footServe s t).parts = t.parts := rfl
@[simp] theorem footServe_rings (s t : State) : (footServe s t).rings = s.rings := rfl
@[simp] theorem footServe_faces (s t : State) : (footServe s t).faces = t.faces := rfl
@[simp] theorem footServe_seg (s t : State) : (footServe s t).seg = s.seg := rfl
@[simp] theorem footServe_rcc (s t : State) : (footServe s t).rcc = s.rcc := rfl
@[simp] theorem footServe_run (s t : State) : (footServe s t).run = t.run := rfl
@[simp] theorem footServe_adm (s t : State) : (footServe s t).adm = t.adm := rfl
@[simp] theorem footServe_err (s t : State) : (footServe s t).err = t.err := rfl
@[simp] theorem footServe_pw (s t : State) : (footServe s t).pw = s.pw := rfl

@[simp] theorem footHello_pending (s t : State) : (footHello s t).pending = s.pending := rfl
@[simp] theorem footHello_out (s t : State) : (footHello s t).out = t.out := rfl
@[simp] theorem footHello_freeIx (s t : State) : (footHello s t).freeIx = t.freeIx := rfl
@[simp] theorem footHello_nv (s t : State) : (footHello s t).nv = { s.nv with lastFatal := t.nv.lastFatal } := rfl
@[simp] theorem footHello_cc (s t : State) : (footHello s t).cc = t.cc := rfl
@[simp] theorem footHello_sec (s t : State) : (footHello s t).sec = keepLc s t := rfl
@[simp] theorem footHello_regs (s t : State) : (footHello s t).regs = t.regs := rfl
@[simp] theorem footHello_mc (s t : State) : (footHello s t).mc = t.mc := rfl
@[simp] theorem footHello_plane (s t : State) : (footHello s t).plane = t.plane := rfl
@[simp] theorem footHello_ports (s t : State) : (footHello s t).ports = t.ports := rfl
@[simp] theorem footHello_epoch (s t : State) : (footHello s t).epoch = t.epoch := rfl
@[simp] theorem footHello_epochPend (s t : State) : (footHello s t).epochPend = t.epochPend := rfl
@[simp] theorem footHello_progs (s t : State) : (footHello s t).progs = t.progs := rfl
@[simp] theorem footHello_instStatus (s t : State) : (footHello s t).instStatus = t.instStatus := rfl
@[simp] theorem footHello_cores (s t : State) : (footHello s t).cores = s.cores := rfl
@[simp] theorem footHello_clusters (s t : State) : (footHello s t).clusters = t.clusters := rfl
@[simp] theorem footHello_hbm (s t : State) : (footHello s t).hbm = t.hbm := rfl
@[simp] theorem footHello_slots (s t : State) : (footHello s t).slots = t.slots := rfl
@[simp] theorem footHello_vrecs (s t : State) : (footHello s t).vrecs = t.vrecs := rfl
@[simp] theorem footHello_attrNext (s t : State) : (footHello s t).attrNext = t.attrNext := rfl
@[simp] theorem footHello_evictNext (s t : State) : (footHello s t).evictNext = t.evictNext := rfl
@[simp] theorem footHello_residentNext (s t : State) : (footHello s t).residentNext = t.residentNext := rfl
@[simp] theorem footHello_tensors (s t : State) : (footHello s t).tensors = t.tensors := rfl
@[simp] theorem footHello_tensorNext (s t : State) : (footHello s t).tensorNext = t.tensorNext := rfl
@[simp] theorem footHello_tdigs (s t : State) : (footHello s t).tdigs = t.tdigs := rfl
@[simp] theorem footHello_freezeNext (s t : State) : (footHello s t).freezeNext = t.freezeNext := rfl
@[simp] theorem footHello_uuAdd (s t : State) : (footHello s t).uuAdd = t.uuAdd := rfl
@[simp] theorem footHello_uuOpt (s t : State) : (footHello s t).uuOpt = t.uuOpt := rfl
@[simp] theorem footHello_uuBusy (s t : State) : (footHello s t).uuBusy = t.uuBusy := rfl
@[simp] theorem footHello_uuNow (s t : State) : (footHello s t).uuNow = t.uuNow := rfl
@[simp] theorem footHello_recs (s t : State) : (footHello s t).recs = t.recs := rfl
@[simp] theorem footHello_parts (s t : State) : (footHello s t).parts = t.parts := rfl
@[simp] theorem footHello_rings (s t : State) : (footHello s t).rings = t.rings := rfl
@[simp] theorem footHello_faces (s t : State) : (footHello s t).faces = t.faces := rfl
@[simp] theorem footHello_seg (s t : State) : (footHello s t).seg = t.seg := rfl
@[simp] theorem footHello_rcc (s t : State) : (footHello s t).rcc = t.rcc := rfl
@[simp] theorem footHello_run (s t : State) : (footHello s t).run = t.run := rfl
@[simp] theorem footHello_adm (s t : State) : (footHello s t).adm = t.adm := rfl
@[simp] theorem footHello_err (s t : State) : (footHello s t).err = t.err := rfl
@[simp] theorem footHello_pw (s t : State) : (footHello s t).pw = t.pw := rfl

@[simp] theorem footWipe_pending (s t : State) : (footWipe s t).pending = s.pending := rfl
@[simp] theorem footWipe_out (s t : State) : (footWipe s t).out = s.out := rfl
@[simp] theorem footWipe_freeIx (s t : State) : (footWipe s t).freeIx = s.freeIx := rfl
@[simp] theorem footWipe_nv (s t : State) : (footWipe s t).nv = s.nv := rfl
@[simp] theorem footWipe_cc (s t : State) : (footWipe s t).cc = t.cc := rfl
@[simp] theorem footWipe_sec (s t : State) : (footWipe s t).sec = s.sec := rfl
@[simp] theorem footWipe_regs (s t : State) : (footWipe s t).regs = t.regs := rfl
@[simp] theorem footWipe_mc (s t : State) : (footWipe s t).mc = s.mc := rfl
@[simp] theorem footWipe_plane (s t : State) : (footWipe s t).plane = s.plane := rfl
@[simp] theorem footWipe_ports (s t : State) : (footWipe s t).ports = s.ports := rfl
@[simp] theorem footWipe_epoch (s t : State) : (footWipe s t).epoch = s.epoch := rfl
@[simp] theorem footWipe_epochPend (s t : State) : (footWipe s t).epochPend = s.epochPend := rfl
@[simp] theorem footWipe_progs (s t : State) : (footWipe s t).progs = s.progs := rfl
@[simp] theorem footWipe_instStatus (s t : State) : (footWipe s t).instStatus = s.instStatus := rfl
@[simp] theorem footWipe_cores (s t : State) : (footWipe s t).cores = s.cores := rfl
@[simp] theorem footWipe_clusters (s t : State) : (footWipe s t).clusters = s.clusters := rfl
@[simp] theorem footWipe_hbm (s t : State) : (footWipe s t).hbm = s.hbm := rfl
@[simp] theorem footWipe_slots (s t : State) : (footWipe s t).slots = s.slots := rfl
@[simp] theorem footWipe_vrecs (s t : State) : (footWipe s t).vrecs = s.vrecs := rfl
@[simp] theorem footWipe_attrNext (s t : State) : (footWipe s t).attrNext = s.attrNext := rfl
@[simp] theorem footWipe_evictNext (s t : State) : (footWipe s t).evictNext = s.evictNext := rfl
@[simp] theorem footWipe_residentNext (s t : State) : (footWipe s t).residentNext = s.residentNext := rfl
@[simp] theorem footWipe_tensors (s t : State) : (footWipe s t).tensors = s.tensors := rfl
@[simp] theorem footWipe_tensorNext (s t : State) : (footWipe s t).tensorNext = s.tensorNext := rfl
@[simp] theorem footWipe_tdigs (s t : State) : (footWipe s t).tdigs = s.tdigs := rfl
@[simp] theorem footWipe_freezeNext (s t : State) : (footWipe s t).freezeNext = s.freezeNext := rfl
@[simp] theorem footWipe_uuAdd (s t : State) : (footWipe s t).uuAdd = s.uuAdd := rfl
@[simp] theorem footWipe_uuOpt (s t : State) : (footWipe s t).uuOpt = s.uuOpt := rfl
@[simp] theorem footWipe_uuBusy (s t : State) : (footWipe s t).uuBusy = s.uuBusy := rfl
@[simp] theorem footWipe_uuNow (s t : State) : (footWipe s t).uuNow = s.uuNow := rfl
@[simp] theorem footWipe_recs (s t : State) : (footWipe s t).recs = s.recs := rfl
@[simp] theorem footWipe_parts (s t : State) : (footWipe s t).parts = t.parts := rfl
@[simp] theorem footWipe_rings (s t : State) : (footWipe s t).rings = s.rings := rfl
@[simp] theorem footWipe_faces (s t : State) : (footWipe s t).faces = s.faces := rfl
@[simp] theorem footWipe_seg (s t : State) : (footWipe s t).seg = s.seg := rfl
@[simp] theorem footWipe_rcc (s t : State) : (footWipe s t).rcc = s.rcc := rfl
@[simp] theorem footWipe_run (s t : State) : (footWipe s t).run = s.run := rfl
@[simp] theorem footWipe_adm (s t : State) : (footWipe s t).adm = s.adm := rfl
@[simp] theorem footWipe_err (s t : State) : (footWipe s t).err = t.err := rfl
@[simp] theorem footWipe_pw (s t : State) : (footWipe s t).pw = s.pw := rfl

@[simp] theorem footSession_pending (s t : State) : (footSession s t).pending = s.pending := rfl
@[simp] theorem footSession_out (s t : State) : (footSession s t).out = t.out := rfl
@[simp] theorem footSession_freeIx (s t : State) : (footSession s t).freeIx = t.freeIx := rfl
@[simp] theorem footSession_nv (s t : State) : (footSession s t).nv = s.nv := rfl
@[simp] theorem footSession_cc (s t : State) : (footSession s t).cc = s.cc := rfl
@[simp] theorem footSession_sec (s t : State) : (footSession s t).sec = keepLc s t := rfl
@[simp] theorem footSession_regs (s t : State) : (footSession s t).regs = t.regs := rfl
@[simp] theorem footSession_mc (s t : State) : (footSession s t).mc = s.mc := rfl
@[simp] theorem footSession_plane (s t : State) : (footSession s t).plane = t.plane := rfl
@[simp] theorem footSession_ports (s t : State) : (footSession s t).ports = t.ports := rfl
@[simp] theorem footSession_epoch (s t : State) : (footSession s t).epoch = s.epoch := rfl
@[simp] theorem footSession_epochPend (s t : State) : (footSession s t).epochPend = s.epochPend := rfl
@[simp] theorem footSession_progs (s t : State) : (footSession s t).progs = s.progs := rfl
@[simp] theorem footSession_instStatus (s t : State) : (footSession s t).instStatus = s.instStatus := rfl
@[simp] theorem footSession_cores (s t : State) : (footSession s t).cores = keepAssign s t := rfl
@[simp] theorem footSession_clusters (s t : State) : (footSession s t).clusters = t.clusters := rfl
@[simp] theorem footSession_hbm (s t : State) : (footSession s t).hbm = t.hbm := rfl
@[simp] theorem footSession_slots (s t : State) : (footSession s t).slots = t.slots := rfl
@[simp] theorem footSession_vrecs (s t : State) : (footSession s t).vrecs = t.vrecs := rfl
@[simp] theorem footSession_attrNext (s t : State) : (footSession s t).attrNext = t.attrNext := rfl
@[simp] theorem footSession_evictNext (s t : State) : (footSession s t).evictNext = t.evictNext := rfl
@[simp] theorem footSession_residentNext (s t : State) : (footSession s t).residentNext = t.residentNext := rfl
@[simp] theorem footSession_tensors (s t : State) : (footSession s t).tensors = t.tensors := rfl
@[simp] theorem footSession_tensorNext (s t : State) : (footSession s t).tensorNext = t.tensorNext := rfl
@[simp] theorem footSession_tdigs (s t : State) : (footSession s t).tdigs = t.tdigs := rfl
@[simp] theorem footSession_freezeNext (s t : State) : (footSession s t).freezeNext = t.freezeNext := rfl
@[simp] theorem footSession_uuAdd (s t : State) : (footSession s t).uuAdd = s.uuAdd := rfl
@[simp] theorem footSession_uuOpt (s t : State) : (footSession s t).uuOpt = s.uuOpt := rfl
@[simp] theorem footSession_uuBusy (s t : State) : (footSession s t).uuBusy = s.uuBusy := rfl
@[simp] theorem footSession_uuNow (s t : State) : (footSession s t).uuNow = s.uuNow := rfl
@[simp] theorem footSession_recs (s t : State) : (footSession s t).recs = t.recs := rfl
@[simp] theorem footSession_parts (s t : State) : (footSession s t).parts = t.parts := rfl
@[simp] theorem footSession_rings (s t : State) : (footSession s t).rings = t.rings := rfl
@[simp] theorem footSession_faces (s t : State) : (footSession s t).faces = s.faces := rfl
@[simp] theorem footSession_seg (s t : State) : (footSession s t).seg = s.seg := rfl
@[simp] theorem footSession_rcc (s t : State) : (footSession s t).rcc = s.rcc := rfl
@[simp] theorem footSession_run (s t : State) : (footSession s t).run = s.run := rfl
@[simp] theorem footSession_adm (s t : State) : (footSession s t).adm = t.adm := rfl
@[simp] theorem footSession_err (s t : State) : (footSession s t).err = t.err := rfl
@[simp] theorem footSession_pw (s t : State) : (footSession s t).pw = s.pw := rfl

@[simp] theorem footSpdm_pending (s t : State) : (footSpdm s t).pending = s.pending := rfl
@[simp] theorem footSpdm_out (s t : State) : (footSpdm s t).out = t.out := rfl
@[simp] theorem footSpdm_freeIx (s t : State) : (footSpdm s t).freeIx = t.freeIx := rfl
@[simp] theorem footSpdm_nv (s t : State) : (footSpdm s t).nv = s.nv := rfl
@[simp] theorem footSpdm_cc (s t : State) : (footSpdm s t).cc = t.cc := rfl
@[simp] theorem footSpdm_sec (s t : State) : (footSpdm s t).sec = keepLc s t := rfl
@[simp] theorem footSpdm_regs (s t : State) : (footSpdm s t).regs = t.regs := rfl
@[simp] theorem footSpdm_mc (s t : State) : (footSpdm s t).mc = s.mc := rfl
@[simp] theorem footSpdm_plane (s t : State) : (footSpdm s t).plane = s.plane := rfl
@[simp] theorem footSpdm_ports (s t : State) : (footSpdm s t).ports = s.ports := rfl
@[simp] theorem footSpdm_epoch (s t : State) : (footSpdm s t).epoch = s.epoch := rfl
@[simp] theorem footSpdm_epochPend (s t : State) : (footSpdm s t).epochPend = s.epochPend := rfl
@[simp] theorem footSpdm_progs (s t : State) : (footSpdm s t).progs = s.progs := rfl
@[simp] theorem footSpdm_instStatus (s t : State) : (footSpdm s t).instStatus = s.instStatus := rfl
@[simp] theorem footSpdm_cores (s t : State) : (footSpdm s t).cores = s.cores := rfl
@[simp] theorem footSpdm_clusters (s t : State) : (footSpdm s t).clusters = s.clusters := rfl
@[simp] theorem footSpdm_hbm (s t : State) : (footSpdm s t).hbm = s.hbm := rfl
@[simp] theorem footSpdm_slots (s t : State) : (footSpdm s t).slots = s.slots := rfl
@[simp] theorem footSpdm_vrecs (s t : State) : (footSpdm s t).vrecs = s.vrecs := rfl
@[simp] theorem footSpdm_attrNext (s t : State) : (footSpdm s t).attrNext = s.attrNext := rfl
@[simp] theorem footSpdm_evictNext (s t : State) : (footSpdm s t).evictNext = s.evictNext := rfl
@[simp] theorem footSpdm_residentNext (s t : State) : (footSpdm s t).residentNext = s.residentNext := rfl
@[simp] theorem footSpdm_tensors (s t : State) : (footSpdm s t).tensors = s.tensors := rfl
@[simp] theorem footSpdm_tensorNext (s t : State) : (footSpdm s t).tensorNext = s.tensorNext := rfl
@[simp] theorem footSpdm_tdigs (s t : State) : (footSpdm s t).tdigs = s.tdigs := rfl
@[simp] theorem footSpdm_freezeNext (s t : State) : (footSpdm s t).freezeNext = s.freezeNext := rfl
@[simp] theorem footSpdm_uuAdd (s t : State) : (footSpdm s t).uuAdd = s.uuAdd := rfl
@[simp] theorem footSpdm_uuOpt (s t : State) : (footSpdm s t).uuOpt = s.uuOpt := rfl
@[simp] theorem footSpdm_uuBusy (s t : State) : (footSpdm s t).uuBusy = s.uuBusy := rfl
@[simp] theorem footSpdm_uuNow (s t : State) : (footSpdm s t).uuNow = s.uuNow := rfl
@[simp] theorem footSpdm_recs (s t : State) : (footSpdm s t).recs = s.recs := rfl
@[simp] theorem footSpdm_parts (s t : State) : (footSpdm s t).parts = s.parts := rfl
@[simp] theorem footSpdm_rings (s t : State) : (footSpdm s t).rings = s.rings := rfl
@[simp] theorem footSpdm_faces (s t : State) : (footSpdm s t).faces = s.faces := rfl
@[simp] theorem footSpdm_seg (s t : State) : (footSpdm s t).seg = s.seg := rfl
@[simp] theorem footSpdm_rcc (s t : State) : (footSpdm s t).rcc = s.rcc := rfl
@[simp] theorem footSpdm_run (s t : State) : (footSpdm s t).run = s.run := rfl
@[simp] theorem footSpdm_adm (s t : State) : (footSpdm s t).adm = s.adm := rfl
@[simp] theorem footSpdm_err (s t : State) : (footSpdm s t).err = s.err := rfl
@[simp] theorem footSpdm_pw (s t : State) : (footSpdm s t).pw = s.pw := rfl

@[simp] theorem footTail_pending (s t : State) : (footTail s t).pending = s.pending := rfl
@[simp] theorem footTail_out (s t : State) : (footTail s t).out = t.out := rfl
@[simp] theorem footTail_freeIx (s t : State) : (footTail s t).freeIx = t.freeIx := rfl
@[simp] theorem footTail_nv (s t : State) : (footTail s t).nv = s.nv := rfl
@[simp] theorem footTail_cc (s t : State) : (footTail s t).cc = s.cc := rfl
@[simp] theorem footTail_sec (s t : State) : (footTail s t).sec = s.sec := rfl
@[simp] theorem footTail_regs (s t : State) : (footTail s t).regs = t.regs := rfl
@[simp] theorem footTail_mc (s t : State) : (footTail s t).mc = s.mc := rfl
@[simp] theorem footTail_plane (s t : State) : (footTail s t).plane = s.plane := rfl
@[simp] theorem footTail_ports (s t : State) : (footTail s t).ports = s.ports := rfl
@[simp] theorem footTail_epoch (s t : State) : (footTail s t).epoch = s.epoch := rfl
@[simp] theorem footTail_epochPend (s t : State) : (footTail s t).epochPend = s.epochPend := rfl
@[simp] theorem footTail_progs (s t : State) : (footTail s t).progs = s.progs := rfl
@[simp] theorem footTail_instStatus (s t : State) : (footTail s t).instStatus = t.instStatus := rfl
@[simp] theorem footTail_cores (s t : State) : (footTail s t).cores = keepAssign s t := rfl
@[simp] theorem footTail_clusters (s t : State) : (footTail s t).clusters = s.clusters := rfl
@[simp] theorem footTail_hbm (s t : State) : (footTail s t).hbm = t.hbm := rfl
@[simp] theorem footTail_slots (s t : State) : (footTail s t).slots = t.slots := rfl
@[simp] theorem footTail_vrecs (s t : State) : (footTail s t).vrecs = t.vrecs := rfl
@[simp] theorem footTail_attrNext (s t : State) : (footTail s t).attrNext = s.attrNext := rfl
@[simp] theorem footTail_evictNext (s t : State) : (footTail s t).evictNext = s.evictNext := rfl
@[simp] theorem footTail_residentNext (s t : State) : (footTail s t).residentNext = s.residentNext := rfl
@[simp] theorem footTail_tensors (s t : State) : (footTail s t).tensors = t.tensors := rfl
@[simp] theorem footTail_tensorNext (s t : State) : (footTail s t).tensorNext = s.tensorNext := rfl
@[simp] theorem footTail_tdigs (s t : State) : (footTail s t).tdigs = s.tdigs := rfl
@[simp] theorem footTail_freezeNext (s t : State) : (footTail s t).freezeNext = s.freezeNext := rfl
@[simp] theorem footTail_uuAdd (s t : State) : (footTail s t).uuAdd = s.uuAdd := rfl
@[simp] theorem footTail_uuOpt (s t : State) : (footTail s t).uuOpt = t.uuOpt := rfl
@[simp] theorem footTail_uuBusy (s t : State) : (footTail s t).uuBusy = s.uuBusy := rfl
@[simp] theorem footTail_uuNow (s t : State) : (footTail s t).uuNow = s.uuNow := rfl
@[simp] theorem footTail_recs (s t : State) : (footTail s t).recs = t.recs := rfl
@[simp] theorem footTail_parts (s t : State) : (footTail s t).parts = t.parts := rfl
@[simp] theorem footTail_rings (s t : State) : (footTail s t).rings = s.rings := rfl
@[simp] theorem footTail_faces (s t : State) : (footTail s t).faces = t.faces := rfl
@[simp] theorem footTail_seg (s t : State) : (footTail s t).seg = s.seg := rfl
@[simp] theorem footTail_rcc (s t : State) : (footTail s t).rcc = t.rcc := rfl
@[simp] theorem footTail_run (s t : State) : (footTail s t).run = t.run := rfl
@[simp] theorem footTail_adm (s t : State) : (footTail s t).adm = s.adm := rfl
@[simp] theorem footTail_err (s t : State) : (footTail s t).err = t.err := rfl
@[simp] theorem footTail_pw (s t : State) : (footTail s t).pw = s.pw := rfl

@[simp] theorem footEnds_pending (s t : State) : (footEnds s t).pending = s.pending := rfl
@[simp] theorem footEnds_out (s t : State) : (footEnds s t).out = s.out := rfl
@[simp] theorem footEnds_freeIx (s t : State) : (footEnds s t).freeIx = t.freeIx := rfl
@[simp] theorem footEnds_nv (s t : State) : (footEnds s t).nv = s.nv := rfl
@[simp] theorem footEnds_cc (s t : State) : (footEnds s t).cc = s.cc := rfl
@[simp] theorem footEnds_sec (s t : State) : (footEnds s t).sec = s.sec := rfl
@[simp] theorem footEnds_regs (s t : State) : (footEnds s t).regs = t.regs := rfl
@[simp] theorem footEnds_mc (s t : State) : (footEnds s t).mc = s.mc := rfl
@[simp] theorem footEnds_plane (s t : State) : (footEnds s t).plane = s.plane := rfl
@[simp] theorem footEnds_ports (s t : State) : (footEnds s t).ports = s.ports := rfl
@[simp] theorem footEnds_epoch (s t : State) : (footEnds s t).epoch = s.epoch := rfl
@[simp] theorem footEnds_epochPend (s t : State) : (footEnds s t).epochPend = s.epochPend := rfl
@[simp] theorem footEnds_progs (s t : State) : (footEnds s t).progs = s.progs := rfl
@[simp] theorem footEnds_instStatus (s t : State) : (footEnds s t).instStatus = t.instStatus := rfl
@[simp] theorem footEnds_cores (s t : State) : (footEnds s t).cores = keepAssign s t := rfl
@[simp] theorem footEnds_clusters (s t : State) : (footEnds s t).clusters = s.clusters := rfl
@[simp] theorem footEnds_hbm (s t : State) : (footEnds s t).hbm = t.hbm := rfl
@[simp] theorem footEnds_slots (s t : State) : (footEnds s t).slots = t.slots := rfl
@[simp] theorem footEnds_vrecs (s t : State) : (footEnds s t).vrecs = t.vrecs := rfl
@[simp] theorem footEnds_attrNext (s t : State) : (footEnds s t).attrNext = s.attrNext := rfl
@[simp] theorem footEnds_evictNext (s t : State) : (footEnds s t).evictNext = s.evictNext := rfl
@[simp] theorem footEnds_residentNext (s t : State) : (footEnds s t).residentNext = s.residentNext := rfl
@[simp] theorem footEnds_tensors (s t : State) : (footEnds s t).tensors = t.tensors := rfl
@[simp] theorem footEnds_tensorNext (s t : State) : (footEnds s t).tensorNext = s.tensorNext := rfl
@[simp] theorem footEnds_tdigs (s t : State) : (footEnds s t).tdigs = s.tdigs := rfl
@[simp] theorem footEnds_freezeNext (s t : State) : (footEnds s t).freezeNext = s.freezeNext := rfl
@[simp] theorem footEnds_uuAdd (s t : State) : (footEnds s t).uuAdd = s.uuAdd := rfl
@[simp] theorem footEnds_uuOpt (s t : State) : (footEnds s t).uuOpt = t.uuOpt := rfl
@[simp] theorem footEnds_uuBusy (s t : State) : (footEnds s t).uuBusy = s.uuBusy := rfl
@[simp] theorem footEnds_uuNow (s t : State) : (footEnds s t).uuNow = s.uuNow := rfl
@[simp] theorem footEnds_recs (s t : State) : (footEnds s t).recs = t.recs := rfl
@[simp] theorem footEnds_parts (s t : State) : (footEnds s t).parts = t.parts := rfl
@[simp] theorem footEnds_rings (s t : State) : (footEnds s t).rings = s.rings := rfl
@[simp] theorem footEnds_faces (s t : State) : (footEnds s t).faces = s.faces := rfl
@[simp] theorem footEnds_seg (s t : State) : (footEnds s t).seg = s.seg := rfl
@[simp] theorem footEnds_rcc (s t : State) : (footEnds s t).rcc = t.rcc := rfl
@[simp] theorem footEnds_run (s t : State) : (footEnds s t).run = t.run := rfl
@[simp] theorem footEnds_adm (s t : State) : (footEnds s t).adm = s.adm := rfl
@[simp] theorem footEnds_err (s t : State) : (footEnds s t).err = t.err := rfl
@[simp] theorem footEnds_pw (s t : State) : (footEnds s t).pw = s.pw := rfl

@[simp] theorem footNine_pending (s t : State) : (footNine s t).pending = s.pending := rfl
@[simp] theorem footNine_out (s t : State) : (footNine s t).out = t.out := rfl
@[simp] theorem footNine_freeIx (s t : State) : (footNine s t).freeIx = t.freeIx := rfl
@[simp] theorem footNine_nv (s t : State) : (footNine s t).nv = t.nv := rfl
@[simp] theorem footNine_cc (s t : State) : (footNine s t).cc = s.cc := rfl
@[simp] theorem footNine_sec (s t : State) : (footNine s t).sec = t.sec := rfl
@[simp] theorem footNine_regs (s t : State) : (footNine s t).regs = t.regs := rfl
@[simp] theorem footNine_mc (s t : State) : (footNine s t).mc = s.mc := rfl
@[simp] theorem footNine_plane (s t : State) : (footNine s t).plane = s.plane := rfl
@[simp] theorem footNine_ports (s t : State) : (footNine s t).ports = s.ports := rfl
@[simp] theorem footNine_epoch (s t : State) : (footNine s t).epoch = s.epoch := rfl
@[simp] theorem footNine_epochPend (s t : State) : (footNine s t).epochPend = s.epochPend := rfl
@[simp] theorem footNine_progs (s t : State) : (footNine s t).progs = s.progs := rfl
@[simp] theorem footNine_instStatus (s t : State) : (footNine s t).instStatus = t.instStatus := rfl
@[simp] theorem footNine_cores (s t : State) : (footNine s t).cores = t.cores := rfl
@[simp] theorem footNine_clusters (s t : State) : (footNine s t).clusters = t.clusters := rfl
@[simp] theorem footNine_hbm (s t : State) : (footNine s t).hbm = t.hbm := rfl
@[simp] theorem footNine_slots (s t : State) : (footNine s t).slots = t.slots := rfl
@[simp] theorem footNine_vrecs (s t : State) : (footNine s t).vrecs = t.vrecs := rfl
@[simp] theorem footNine_attrNext (s t : State) : (footNine s t).attrNext = t.attrNext := rfl
@[simp] theorem footNine_evictNext (s t : State) : (footNine s t).evictNext = t.evictNext := rfl
@[simp] theorem footNine_residentNext (s t : State) : (footNine s t).residentNext = t.residentNext := rfl
@[simp] theorem footNine_tensors (s t : State) : (footNine s t).tensors = t.tensors := rfl
@[simp] theorem footNine_tensorNext (s t : State) : (footNine s t).tensorNext = t.tensorNext := rfl
@[simp] theorem footNine_tdigs (s t : State) : (footNine s t).tdigs = t.tdigs := rfl
@[simp] theorem footNine_freezeNext (s t : State) : (footNine s t).freezeNext = t.freezeNext := rfl
@[simp] theorem footNine_uuAdd (s t : State) : (footNine s t).uuAdd = t.uuAdd := rfl
@[simp] theorem footNine_uuOpt (s t : State) : (footNine s t).uuOpt = t.uuOpt := rfl
@[simp] theorem footNine_uuBusy (s t : State) : (footNine s t).uuBusy = t.uuBusy := rfl
@[simp] theorem footNine_uuNow (s t : State) : (footNine s t).uuNow = t.uuNow := rfl
@[simp] theorem footNine_recs (s t : State) : (footNine s t).recs = t.recs := rfl
@[simp] theorem footNine_parts (s t : State) : (footNine s t).parts = t.parts := rfl
@[simp] theorem footNine_rings (s t : State) : (footNine s t).rings = t.rings := rfl
@[simp] theorem footNine_faces (s t : State) : (footNine s t).faces = t.faces := rfl
@[simp] theorem footNine_seg (s t : State) : (footNine s t).seg = s.seg := rfl
@[simp] theorem footNine_rcc (s t : State) : (footNine s t).rcc = t.rcc := rfl
@[simp] theorem footNine_run (s t : State) : (footNine s t).run = s.run := rfl
@[simp] theorem footNine_adm (s t : State) : (footNine s t).adm = t.adm := rfl
@[simp] theorem footNine_err (s t : State) : (footNine s t).err = t.err := rfl
@[simp] theorem footNine_pw (s t : State) : (footNine s t).pw = s.pw := rfl

@[simp] theorem footBoundary_pending (s t : State) : (footBoundary s t).pending = s.pending := rfl
@[simp] theorem footBoundary_out (s t : State) : (footBoundary s t).out = t.out := rfl
@[simp] theorem footBoundary_freeIx (s t : State) : (footBoundary s t).freeIx = t.freeIx := rfl
@[simp] theorem footBoundary_nv (s t : State) : (footBoundary s t).nv = { s.nv with svnMin := max s.nv.svnMin t.nv.svnMin, imgReserved := max s.nv.imgReserved t.nv.imgReserved } := rfl
@[simp] theorem footBoundary_cc (s t : State) : (footBoundary s t).cc = t.cc := rfl
@[simp] theorem footBoundary_sec (s t : State) : (footBoundary s t).sec = keepLc s t := rfl
@[simp] theorem footBoundary_regs (s t : State) : (footBoundary s t).regs = t.regs := rfl
@[simp] theorem footBoundary_mc (s t : State) : (footBoundary s t).mc = t.mc := rfl
@[simp] theorem footBoundary_plane (s t : State) : (footBoundary s t).plane = t.plane := rfl
@[simp] theorem footBoundary_ports (s t : State) : (footBoundary s t).ports = t.ports := rfl
@[simp] theorem footBoundary_epoch (s t : State) : (footBoundary s t).epoch = t.epoch := rfl
@[simp] theorem footBoundary_epochPend (s t : State) : (footBoundary s t).epochPend = t.epochPend := rfl
@[simp] theorem footBoundary_progs (s t : State) : (footBoundary s t).progs = t.progs := rfl
@[simp] theorem footBoundary_instStatus (s t : State) : (footBoundary s t).instStatus = t.instStatus := rfl
@[simp] theorem footBoundary_cores (s t : State) : (footBoundary s t).cores = t.cores := rfl
@[simp] theorem footBoundary_clusters (s t : State) : (footBoundary s t).clusters = t.clusters := rfl
@[simp] theorem footBoundary_hbm (s t : State) : (footBoundary s t).hbm = t.hbm := rfl
@[simp] theorem footBoundary_slots (s t : State) : (footBoundary s t).slots = t.slots := rfl
@[simp] theorem footBoundary_vrecs (s t : State) : (footBoundary s t).vrecs = t.vrecs := rfl
@[simp] theorem footBoundary_attrNext (s t : State) : (footBoundary s t).attrNext = t.attrNext := rfl
@[simp] theorem footBoundary_evictNext (s t : State) : (footBoundary s t).evictNext = t.evictNext := rfl
@[simp] theorem footBoundary_residentNext (s t : State) : (footBoundary s t).residentNext = t.residentNext := rfl
@[simp] theorem footBoundary_tensors (s t : State) : (footBoundary s t).tensors = t.tensors := rfl
@[simp] theorem footBoundary_tensorNext (s t : State) : (footBoundary s t).tensorNext = t.tensorNext := rfl
@[simp] theorem footBoundary_tdigs (s t : State) : (footBoundary s t).tdigs = t.tdigs := rfl
@[simp] theorem footBoundary_freezeNext (s t : State) : (footBoundary s t).freezeNext = t.freezeNext := rfl
@[simp] theorem footBoundary_uuAdd (s t : State) : (footBoundary s t).uuAdd = t.uuAdd := rfl
@[simp] theorem footBoundary_uuOpt (s t : State) : (footBoundary s t).uuOpt = t.uuOpt := rfl
@[simp] theorem footBoundary_uuBusy (s t : State) : (footBoundary s t).uuBusy = t.uuBusy := rfl
@[simp] theorem footBoundary_uuNow (s t : State) : (footBoundary s t).uuNow = t.uuNow := rfl
@[simp] theorem footBoundary_recs (s t : State) : (footBoundary s t).recs = t.recs := rfl
@[simp] theorem footBoundary_parts (s t : State) : (footBoundary s t).parts = t.parts := rfl
@[simp] theorem footBoundary_rings (s t : State) : (footBoundary s t).rings = t.rings := rfl
@[simp] theorem footBoundary_faces (s t : State) : (footBoundary s t).faces = t.faces := rfl
@[simp] theorem footBoundary_seg (s t : State) : (footBoundary s t).seg = t.seg := rfl
@[simp] theorem footBoundary_rcc (s t : State) : (footBoundary s t).rcc = t.rcc := rfl
@[simp] theorem footBoundary_run (s t : State) : (footBoundary s t).run = t.run := rfl
@[simp] theorem footBoundary_adm (s t : State) : (footBoundary s t).adm = t.adm := rfl
@[simp] theorem footBoundary_err (s t : State) : (footBoundary s t).err = t.err := rfl
@[simp] theorem footBoundary_pw (s t : State) : (footBoundary s t).pw = t.pw := rfl

@[simp] theorem footXchg_pending (s t : State) : (footXchg s t).pending = s.pending := rfl
@[simp] theorem footXchg_out (s t : State) : (footXchg s t).out = t.out := rfl
@[simp] theorem footXchg_freeIx (s t : State) : (footXchg s t).freeIx = t.freeIx := rfl
@[simp] theorem footXchg_nv (s t : State) : (footXchg s t).nv = s.nv := rfl
@[simp] theorem footXchg_cc (s t : State) : (footXchg s t).cc = s.cc := rfl
@[simp] theorem footXchg_sec (s t : State) : (footXchg s t).sec = s.sec := rfl
@[simp] theorem footXchg_regs (s t : State) : (footXchg s t).regs = t.regs := rfl
@[simp] theorem footXchg_mc (s t : State) : (footXchg s t).mc = { s.mc with agrees := t.mc.agrees, agreeSent := t.mc.agreeSent, missNext := t.mc.missNext } := rfl
@[simp] theorem footXchg_plane (s t : State) : (footXchg s t).plane = t.plane := rfl
@[simp] theorem footXchg_ports (s t : State) : (footXchg s t).ports = t.ports := rfl
@[simp] theorem footXchg_epoch (s t : State) : (footXchg s t).epoch = s.epoch := rfl
@[simp] theorem footXchg_epochPend (s t : State) : (footXchg s t).epochPend = s.epochPend := rfl
@[simp] theorem footXchg_progs (s t : State) : (footXchg s t).progs = s.progs := rfl
@[simp] theorem footXchg_instStatus (s t : State) : (footXchg s t).instStatus = s.instStatus := rfl
@[simp] theorem footXchg_cores (s t : State) : (footXchg s t).cores = keepAssign s t := rfl
@[simp] theorem footXchg_clusters (s t : State) : (footXchg s t).clusters = t.clusters := rfl
@[simp] theorem footXchg_hbm (s t : State) : (footXchg s t).hbm = t.hbm := rfl
@[simp] theorem footXchg_slots (s t : State) : (footXchg s t).slots = t.slots := rfl
@[simp] theorem footXchg_vrecs (s t : State) : (footXchg s t).vrecs = t.vrecs := rfl
@[simp] theorem footXchg_attrNext (s t : State) : (footXchg s t).attrNext = s.attrNext := rfl
@[simp] theorem footXchg_evictNext (s t : State) : (footXchg s t).evictNext = s.evictNext := rfl
@[simp] theorem footXchg_residentNext (s t : State) : (footXchg s t).residentNext = t.residentNext := rfl
@[simp] theorem footXchg_tensors (s t : State) : (footXchg s t).tensors = t.tensors := rfl
@[simp] theorem footXchg_tensorNext (s t : State) : (footXchg s t).tensorNext = s.tensorNext := rfl
@[simp] theorem footXchg_tdigs (s t : State) : (footXchg s t).tdigs = t.tdigs := rfl
@[simp] theorem footXchg_freezeNext (s t : State) : (footXchg s t).freezeNext = s.freezeNext := rfl
@[simp] theorem footXchg_uuAdd (s t : State) : (footXchg s t).uuAdd = t.uuAdd := rfl
@[simp] theorem footXchg_uuOpt (s t : State) : (footXchg s t).uuOpt = t.uuOpt := rfl
@[simp] theorem footXchg_uuBusy (s t : State) : (footXchg s t).uuBusy = t.uuBusy := rfl
@[simp] theorem footXchg_uuNow (s t : State) : (footXchg s t).uuNow = t.uuNow := rfl
@[simp] theorem footXchg_recs (s t : State) : (footXchg s t).recs = t.recs := rfl
@[simp] theorem footXchg_parts (s t : State) : (footXchg s t).parts = t.parts := rfl
@[simp] theorem footXchg_rings (s t : State) : (footXchg s t).rings = t.rings := rfl
@[simp] theorem footXchg_faces (s t : State) : (footXchg s t).faces = t.faces := rfl
@[simp] theorem footXchg_seg (s t : State) : (footXchg s t).seg = s.seg := rfl
@[simp] theorem footXchg_rcc (s t : State) : (footXchg s t).rcc = t.rcc := rfl
@[simp] theorem footXchg_run (s t : State) : (footXchg s t).run = t.run := rfl
@[simp] theorem footXchg_adm (s t : State) : (footXchg s t).adm = s.adm := rfl
@[simp] theorem footXchg_err (s t : State) : (footXchg s t).err = t.err := rfl
@[simp] theorem footXchg_pw (s t : State) : (footXchg s t).pw = s.pw := rfl

@[simp] theorem footBoot_pending (s t : State) : (footBoot s t).pending = s.pending := rfl
@[simp] theorem footBoot_out (s t : State) : (footBoot s t).out = t.out := rfl
@[simp] theorem footBoot_freeIx (s t : State) : (footBoot s t).freeIx = t.freeIx := rfl
@[simp] theorem footBoot_nv (s t : State) : (footBoot s t).nv = { s.nv with svnMin := max s.nv.svnMin t.nv.svnMin, lastFatal := t.nv.lastFatal } := rfl
@[simp] theorem footBoot_cc (s t : State) : (footBoot s t).cc = t.cc := rfl
@[simp] theorem footBoot_sec (s t : State) : (footBoot s t).sec = keepLc s t := rfl
@[simp] theorem footBoot_regs (s t : State) : (footBoot s t).regs = t.regs := rfl
@[simp] theorem footBoot_mc (s t : State) : (footBoot s t).mc = t.mc := rfl
@[simp] theorem footBoot_plane (s t : State) : (footBoot s t).plane = t.plane := rfl
@[simp] theorem footBoot_ports (s t : State) : (footBoot s t).ports = t.ports := rfl
@[simp] theorem footBoot_epoch (s t : State) : (footBoot s t).epoch = s.epoch := rfl
@[simp] theorem footBoot_epochPend (s t : State) : (footBoot s t).epochPend = s.epochPend := rfl
@[simp] theorem footBoot_progs (s t : State) : (footBoot s t).progs = s.progs := rfl
@[simp] theorem footBoot_instStatus (s t : State) : (footBoot s t).instStatus = s.instStatus := rfl
@[simp] theorem footBoot_cores (s t : State) : (footBoot s t).cores = keepAssign s t := rfl
@[simp] theorem footBoot_clusters (s t : State) : (footBoot s t).clusters = s.clusters := rfl
@[simp] theorem footBoot_hbm (s t : State) : (footBoot s t).hbm = s.hbm := rfl
@[simp] theorem footBoot_slots (s t : State) : (footBoot s t).slots = s.slots := rfl
@[simp] theorem footBoot_vrecs (s t : State) : (footBoot s t).vrecs = s.vrecs := rfl
@[simp] theorem footBoot_attrNext (s t : State) : (footBoot s t).attrNext = s.attrNext := rfl
@[simp] theorem footBoot_evictNext (s t : State) : (footBoot s t).evictNext = s.evictNext := rfl
@[simp] theorem footBoot_residentNext (s t : State) : (footBoot s t).residentNext = s.residentNext := rfl
@[simp] theorem footBoot_tensors (s t : State) : (footBoot s t).tensors = s.tensors := rfl
@[simp] theorem footBoot_tensorNext (s t : State) : (footBoot s t).tensorNext = s.tensorNext := rfl
@[simp] theorem footBoot_tdigs (s t : State) : (footBoot s t).tdigs = s.tdigs := rfl
@[simp] theorem footBoot_freezeNext (s t : State) : (footBoot s t).freezeNext = s.freezeNext := rfl
@[simp] theorem footBoot_uuAdd (s t : State) : (footBoot s t).uuAdd = s.uuAdd := rfl
@[simp] theorem footBoot_uuOpt (s t : State) : (footBoot s t).uuOpt = s.uuOpt := rfl
@[simp] theorem footBoot_uuBusy (s t : State) : (footBoot s t).uuBusy = s.uuBusy := rfl
@[simp] theorem footBoot_uuNow (s t : State) : (footBoot s t).uuNow = s.uuNow := rfl
@[simp] theorem footBoot_recs (s t : State) : (footBoot s t).recs = s.recs := rfl
@[simp] theorem footBoot_parts (s t : State) : (footBoot s t).parts = s.parts := rfl
@[simp] theorem footBoot_rings (s t : State) : (footBoot s t).rings = s.rings := rfl
@[simp] theorem footBoot_faces (s t : State) : (footBoot s t).faces = s.faces := rfl
@[simp] theorem footBoot_seg (s t : State) : (footBoot s t).seg = s.seg := rfl
@[simp] theorem footBoot_rcc (s t : State) : (footBoot s t).rcc = s.rcc := rfl
@[simp] theorem footBoot_run (s t : State) : (footBoot s t).run = t.run := rfl
@[simp] theorem footBoot_adm (s t : State) : (footBoot s t).adm = s.adm := rfl
@[simp] theorem footBoot_err (s t : State) : (footBoot s t).err = t.err := rfl
@[simp] theorem footBoot_pw (s t : State) : (footBoot s t).pw = s.pw := rfl

@[simp] theorem footPower_pending (s t : State) : (footPower s t).pending = s.pending := rfl
@[simp] theorem footPower_out (s t : State) : (footPower s t).out = t.out := rfl
@[simp] theorem footPower_freeIx (s t : State) : (footPower s t).freeIx = t.freeIx := rfl
@[simp] theorem footPower_nv (s t : State) : (footPower s t).nv = { s.nv with lastFatal := t.nv.lastFatal } := rfl
@[simp] theorem footPower_cc (s t : State) : (footPower s t).cc = t.cc := rfl
@[simp] theorem footPower_sec (s t : State) : (footPower s t).sec = s.sec := rfl
@[simp] theorem footPower_regs (s t : State) : (footPower s t).regs = t.regs := rfl
@[simp] theorem footPower_mc (s t : State) : (footPower s t).mc = t.mc := rfl
@[simp] theorem footPower_plane (s t : State) : (footPower s t).plane = s.plane := rfl
@[simp] theorem footPower_ports (s t : State) : (footPower s t).ports = t.ports := rfl
@[simp] theorem footPower_epoch (s t : State) : (footPower s t).epoch = s.epoch := rfl
@[simp] theorem footPower_epochPend (s t : State) : (footPower s t).epochPend = s.epochPend := rfl
@[simp] theorem footPower_progs (s t : State) : (footPower s t).progs = t.progs := rfl
@[simp] theorem footPower_instStatus (s t : State) : (footPower s t).instStatus = s.instStatus := rfl
@[simp] theorem footPower_cores (s t : State) : (footPower s t).cores = keepAssign s t := rfl
@[simp] theorem footPower_clusters (s t : State) : (footPower s t).clusters = t.clusters := rfl
@[simp] theorem footPower_hbm (s t : State) : (footPower s t).hbm = t.hbm := rfl
@[simp] theorem footPower_slots (s t : State) : (footPower s t).slots = s.slots := rfl
@[simp] theorem footPower_vrecs (s t : State) : (footPower s t).vrecs = s.vrecs := rfl
@[simp] theorem footPower_attrNext (s t : State) : (footPower s t).attrNext = s.attrNext := rfl
@[simp] theorem footPower_evictNext (s t : State) : (footPower s t).evictNext = s.evictNext := rfl
@[simp] theorem footPower_residentNext (s t : State) : (footPower s t).residentNext = s.residentNext := rfl
@[simp] theorem footPower_tensors (s t : State) : (footPower s t).tensors = t.tensors := rfl
@[simp] theorem footPower_tensorNext (s t : State) : (footPower s t).tensorNext = s.tensorNext := rfl
@[simp] theorem footPower_tdigs (s t : State) : (footPower s t).tdigs = s.tdigs := rfl
@[simp] theorem footPower_freezeNext (s t : State) : (footPower s t).freezeNext = s.freezeNext := rfl
@[simp] theorem footPower_uuAdd (s t : State) : (footPower s t).uuAdd = s.uuAdd := rfl
@[simp] theorem footPower_uuOpt (s t : State) : (footPower s t).uuOpt = s.uuOpt := rfl
@[simp] theorem footPower_uuBusy (s t : State) : (footPower s t).uuBusy = s.uuBusy := rfl
@[simp] theorem footPower_uuNow (s t : State) : (footPower s t).uuNow = s.uuNow := rfl
@[simp] theorem footPower_recs (s t : State) : (footPower s t).recs = s.recs := rfl
@[simp] theorem footPower_parts (s t : State) : (footPower s t).parts = t.parts := rfl
@[simp] theorem footPower_rings (s t : State) : (footPower s t).rings = s.rings := rfl
@[simp] theorem footPower_faces (s t : State) : (footPower s t).faces = s.faces := rfl
@[simp] theorem footPower_seg (s t : State) : (footPower s t).seg = s.seg := rfl
@[simp] theorem footPower_rcc (s t : State) : (footPower s t).rcc = s.rcc := rfl
@[simp] theorem footPower_run (s t : State) : (footPower s t).run = t.run := rfl
@[simp] theorem footPower_adm (s t : State) : (footPower s t).adm = s.adm := rfl
@[simp] theorem footPower_err (s t : State) : (footPower s t).err = t.err := rfl
@[simp] theorem footPower_pw (s t : State) : (footPower s t).pw = t.pw := rfl

@[simp] theorem footRead_pending (s t : State) : (footRead s t).pending = s.pending := rfl
@[simp] theorem footRead_out (s t : State) : (footRead s t).out = t.out := rfl
@[simp] theorem footRead_freeIx (s t : State) : (footRead s t).freeIx = s.freeIx := rfl
@[simp] theorem footRead_nv (s t : State) : (footRead s t).nv = s.nv := rfl
@[simp] theorem footRead_cc (s t : State) : (footRead s t).cc = s.cc := rfl
@[simp] theorem footRead_sec (s t : State) : (footRead s t).sec = s.sec := rfl
@[simp] theorem footRead_regs (s t : State) : (footRead s t).regs = t.regs := rfl
@[simp] theorem footRead_mc (s t : State) : (footRead s t).mc = s.mc := rfl
@[simp] theorem footRead_plane (s t : State) : (footRead s t).plane = s.plane := rfl
@[simp] theorem footRead_ports (s t : State) : (footRead s t).ports = s.ports := rfl
@[simp] theorem footRead_epoch (s t : State) : (footRead s t).epoch = s.epoch := rfl
@[simp] theorem footRead_epochPend (s t : State) : (footRead s t).epochPend = s.epochPend := rfl
@[simp] theorem footRead_progs (s t : State) : (footRead s t).progs = s.progs := rfl
@[simp] theorem footRead_instStatus (s t : State) : (footRead s t).instStatus = s.instStatus := rfl
@[simp] theorem footRead_cores (s t : State) : (footRead s t).cores = s.cores := rfl
@[simp] theorem footRead_clusters (s t : State) : (footRead s t).clusters = s.clusters := rfl
@[simp] theorem footRead_hbm (s t : State) : (footRead s t).hbm = s.hbm := rfl
@[simp] theorem footRead_slots (s t : State) : (footRead s t).slots = s.slots := rfl
@[simp] theorem footRead_vrecs (s t : State) : (footRead s t).vrecs = s.vrecs := rfl
@[simp] theorem footRead_attrNext (s t : State) : (footRead s t).attrNext = s.attrNext := rfl
@[simp] theorem footRead_evictNext (s t : State) : (footRead s t).evictNext = s.evictNext := rfl
@[simp] theorem footRead_residentNext (s t : State) : (footRead s t).residentNext = s.residentNext := rfl
@[simp] theorem footRead_tensors (s t : State) : (footRead s t).tensors = s.tensors := rfl
@[simp] theorem footRead_tensorNext (s t : State) : (footRead s t).tensorNext = s.tensorNext := rfl
@[simp] theorem footRead_tdigs (s t : State) : (footRead s t).tdigs = s.tdigs := rfl
@[simp] theorem footRead_freezeNext (s t : State) : (footRead s t).freezeNext = s.freezeNext := rfl
@[simp] theorem footRead_uuAdd (s t : State) : (footRead s t).uuAdd = s.uuAdd := rfl
@[simp] theorem footRead_uuOpt (s t : State) : (footRead s t).uuOpt = s.uuOpt := rfl
@[simp] theorem footRead_uuBusy (s t : State) : (footRead s t).uuBusy = s.uuBusy := rfl
@[simp] theorem footRead_uuNow (s t : State) : (footRead s t).uuNow = s.uuNow := rfl
@[simp] theorem footRead_recs (s t : State) : (footRead s t).recs = s.recs := rfl
@[simp] theorem footRead_parts (s t : State) : (footRead s t).parts = s.parts := rfl
@[simp] theorem footRead_rings (s t : State) : (footRead s t).rings = s.rings := rfl
@[simp] theorem footRead_faces (s t : State) : (footRead s t).faces = s.faces := rfl
@[simp] theorem footRead_seg (s t : State) : (footRead s t).seg = s.seg := rfl
@[simp] theorem footRead_rcc (s t : State) : (footRead s t).rcc = s.rcc := rfl
@[simp] theorem footRead_run (s t : State) : (footRead s t).run = s.run := rfl
@[simp] theorem footRead_adm (s t : State) : (footRead s t).adm = s.adm := rfl
@[simp] theorem footRead_err (s t : State) : (footRead s t).err = s.err := rfl
@[simp] theorem footRead_pw (s t : State) : (footRead s t).pw = s.pw := rfl

@[simp] theorem footReg_pending (s t : State) : (footReg s t).pending = s.pending := rfl
@[simp] theorem footReg_out (s t : State) : (footReg s t).out = t.out := rfl
@[simp] theorem footReg_freeIx (s t : State) : (footReg s t).freeIx = s.freeIx := rfl
@[simp] theorem footReg_nv (s t : State) : (footReg s t).nv = s.nv := rfl
@[simp] theorem footReg_cc (s t : State) : (footReg s t).cc = t.cc := rfl
@[simp] theorem footReg_sec (s t : State) : (footReg s t).sec = s.sec := rfl
@[simp] theorem footReg_regs (s t : State) : (footReg s t).regs = t.regs := rfl
@[simp] theorem footReg_mc (s t : State) : (footReg s t).mc = t.mc := rfl
@[simp] theorem footReg_plane (s t : State) : (footReg s t).plane = t.plane := rfl
@[simp] theorem footReg_ports (s t : State) : (footReg s t).ports = t.ports := rfl
@[simp] theorem footReg_epoch (s t : State) : (footReg s t).epoch = s.epoch := rfl
@[simp] theorem footReg_epochPend (s t : State) : (footReg s t).epochPend = s.epochPend := rfl
@[simp] theorem footReg_progs (s t : State) : (footReg s t).progs = s.progs := rfl
@[simp] theorem footReg_instStatus (s t : State) : (footReg s t).instStatus = s.instStatus := rfl
@[simp] theorem footReg_cores (s t : State) : (footReg s t).cores = keepAssign s t := rfl
@[simp] theorem footReg_clusters (s t : State) : (footReg s t).clusters = s.clusters := rfl
@[simp] theorem footReg_hbm (s t : State) : (footReg s t).hbm = s.hbm := rfl
@[simp] theorem footReg_slots (s t : State) : (footReg s t).slots = s.slots := rfl
@[simp] theorem footReg_vrecs (s t : State) : (footReg s t).vrecs = s.vrecs := rfl
@[simp] theorem footReg_attrNext (s t : State) : (footReg s t).attrNext = s.attrNext := rfl
@[simp] theorem footReg_evictNext (s t : State) : (footReg s t).evictNext = s.evictNext := rfl
@[simp] theorem footReg_residentNext (s t : State) : (footReg s t).residentNext = s.residentNext := rfl
@[simp] theorem footReg_tensors (s t : State) : (footReg s t).tensors = t.tensors := rfl
@[simp] theorem footReg_tensorNext (s t : State) : (footReg s t).tensorNext = s.tensorNext := rfl
@[simp] theorem footReg_tdigs (s t : State) : (footReg s t).tdigs = s.tdigs := rfl
@[simp] theorem footReg_freezeNext (s t : State) : (footReg s t).freezeNext = s.freezeNext := rfl
@[simp] theorem footReg_uuAdd (s t : State) : (footReg s t).uuAdd = s.uuAdd := rfl
@[simp] theorem footReg_uuOpt (s t : State) : (footReg s t).uuOpt = s.uuOpt := rfl
@[simp] theorem footReg_uuBusy (s t : State) : (footReg s t).uuBusy = s.uuBusy := rfl
@[simp] theorem footReg_uuNow (s t : State) : (footReg s t).uuNow = s.uuNow := rfl
@[simp] theorem footReg_recs (s t : State) : (footReg s t).recs = s.recs := rfl
@[simp] theorem footReg_parts (s t : State) : (footReg s t).parts = t.parts := rfl
@[simp] theorem footReg_rings (s t : State) : (footReg s t).rings = t.rings := rfl
@[simp] theorem footReg_faces (s t : State) : (footReg s t).faces = t.faces := rfl
@[simp] theorem footReg_seg (s t : State) : (footReg s t).seg = t.seg := rfl
@[simp] theorem footReg_rcc (s t : State) : (footReg s t).rcc = s.rcc := rfl
@[simp] theorem footReg_run (s t : State) : (footReg s t).run = s.run := rfl
@[simp] theorem footReg_adm (s t : State) : (footReg s t).adm = s.adm := rfl
@[simp] theorem footReg_err (s t : State) : (footReg s t).err = t.err := rfl
@[simp] theorem footReg_pw (s t : State) : (footReg s t).pw = t.pw := rfl

@[simp] theorem footQuery_pending (s t : State) : (footQuery s t).pending = s.pending := rfl
@[simp] theorem footQuery_out (s t : State) : (footQuery s t).out = t.out := rfl
@[simp] theorem footQuery_freeIx (s t : State) : (footQuery s t).freeIx = s.freeIx := rfl
@[simp] theorem footQuery_nv (s t : State) : (footQuery s t).nv = s.nv := rfl
@[simp] theorem footQuery_cc (s t : State) : (footQuery s t).cc = t.cc := rfl
@[simp] theorem footQuery_sec (s t : State) : (footQuery s t).sec = s.sec := rfl
@[simp] theorem footQuery_regs (s t : State) : (footQuery s t).regs = t.regs := rfl
@[simp] theorem footQuery_mc (s t : State) : (footQuery s t).mc = s.mc := rfl
@[simp] theorem footQuery_plane (s t : State) : (footQuery s t).plane = s.plane := rfl
@[simp] theorem footQuery_ports (s t : State) : (footQuery s t).ports = s.ports := rfl
@[simp] theorem footQuery_epoch (s t : State) : (footQuery s t).epoch = s.epoch := rfl
@[simp] theorem footQuery_epochPend (s t : State) : (footQuery s t).epochPend = s.epochPend := rfl
@[simp] theorem footQuery_progs (s t : State) : (footQuery s t).progs = s.progs := rfl
@[simp] theorem footQuery_instStatus (s t : State) : (footQuery s t).instStatus = s.instStatus := rfl
@[simp] theorem footQuery_cores (s t : State) : (footQuery s t).cores = s.cores := rfl
@[simp] theorem footQuery_clusters (s t : State) : (footQuery s t).clusters = s.clusters := rfl
@[simp] theorem footQuery_hbm (s t : State) : (footQuery s t).hbm = s.hbm := rfl
@[simp] theorem footQuery_slots (s t : State) : (footQuery s t).slots = s.slots := rfl
@[simp] theorem footQuery_vrecs (s t : State) : (footQuery s t).vrecs = s.vrecs := rfl
@[simp] theorem footQuery_attrNext (s t : State) : (footQuery s t).attrNext = s.attrNext := rfl
@[simp] theorem footQuery_evictNext (s t : State) : (footQuery s t).evictNext = s.evictNext := rfl
@[simp] theorem footQuery_residentNext (s t : State) : (footQuery s t).residentNext = s.residentNext := rfl
@[simp] theorem footQuery_tensors (s t : State) : (footQuery s t).tensors = s.tensors := rfl
@[simp] theorem footQuery_tensorNext (s t : State) : (footQuery s t).tensorNext = s.tensorNext := rfl
@[simp] theorem footQuery_tdigs (s t : State) : (footQuery s t).tdigs = s.tdigs := rfl
@[simp] theorem footQuery_freezeNext (s t : State) : (footQuery s t).freezeNext = s.freezeNext := rfl
@[simp] theorem footQuery_uuAdd (s t : State) : (footQuery s t).uuAdd = s.uuAdd := rfl
@[simp] theorem footQuery_uuOpt (s t : State) : (footQuery s t).uuOpt = s.uuOpt := rfl
@[simp] theorem footQuery_uuBusy (s t : State) : (footQuery s t).uuBusy = s.uuBusy := rfl
@[simp] theorem footQuery_uuNow (s t : State) : (footQuery s t).uuNow = s.uuNow := rfl
@[simp] theorem footQuery_recs (s t : State) : (footQuery s t).recs = s.recs := rfl
@[simp] theorem footQuery_parts (s t : State) : (footQuery s t).parts = s.parts := rfl
@[simp] theorem footQuery_rings (s t : State) : (footQuery s t).rings = s.rings := rfl
@[simp] theorem footQuery_faces (s t : State) : (footQuery s t).faces = s.faces := rfl
@[simp] theorem footQuery_seg (s t : State) : (footQuery s t).seg = s.seg := rfl
@[simp] theorem footQuery_rcc (s t : State) : (footQuery s t).rcc = s.rcc := rfl
@[simp] theorem footQuery_run (s t : State) : (footQuery s t).run = s.run := rfl
@[simp] theorem footQuery_adm (s t : State) : (footQuery s t).adm = s.adm := rfl
@[simp] theorem footQuery_err (s t : State) : (footQuery s t).err = s.err := rfl
@[simp] theorem footQuery_pw (s t : State) : (footQuery s t).pw = s.pw := rfl

@[simp] theorem footCommand_pending (s t : State) : (footCommand s t).pending = s.pending := rfl
@[simp] theorem footCommand_out (s t : State) : (footCommand s t).out = t.out := rfl
@[simp] theorem footCommand_freeIx (s t : State) : (footCommand s t).freeIx = t.freeIx := rfl
@[simp] theorem footCommand_nv (s t : State) : (footCommand s t).nv = { s.nv with svnMin := max s.nv.svnMin t.nv.svnMin } := rfl
@[simp] theorem footCommand_cc (s t : State) : (footCommand s t).cc = t.cc := rfl
@[simp] theorem footCommand_sec (s t : State) : (footCommand s t).sec = keepLc s t := rfl
@[simp] theorem footCommand_regs (s t : State) : (footCommand s t).regs = t.regs := rfl
@[simp] theorem footCommand_mc (s t : State) : (footCommand s t).mc = t.mc := rfl
@[simp] theorem footCommand_plane (s t : State) : (footCommand s t).plane = t.plane := rfl
@[simp] theorem footCommand_ports (s t : State) : (footCommand s t).ports = t.ports := rfl
@[simp] theorem footCommand_epoch (s t : State) : (footCommand s t).epoch = s.epoch := rfl
@[simp] theorem footCommand_epochPend (s t : State) : (footCommand s t).epochPend = t.epochPend := rfl
@[simp] theorem footCommand_progs (s t : State) : (footCommand s t).progs = t.progs := rfl
@[simp] theorem footCommand_instStatus (s t : State) : (footCommand s t).instStatus = t.instStatus := rfl
@[simp] theorem footCommand_cores (s t : State) : (footCommand s t).cores = keepAssign s t := rfl
@[simp] theorem footCommand_clusters (s t : State) : (footCommand s t).clusters = t.clusters := rfl
@[simp] theorem footCommand_hbm (s t : State) : (footCommand s t).hbm = t.hbm := rfl
@[simp] theorem footCommand_slots (s t : State) : (footCommand s t).slots = t.slots := rfl
@[simp] theorem footCommand_vrecs (s t : State) : (footCommand s t).vrecs = t.vrecs := rfl
@[simp] theorem footCommand_attrNext (s t : State) : (footCommand s t).attrNext = t.attrNext := rfl
@[simp] theorem footCommand_evictNext (s t : State) : (footCommand s t).evictNext = t.evictNext := rfl
@[simp] theorem footCommand_residentNext (s t : State) : (footCommand s t).residentNext = t.residentNext := rfl
@[simp] theorem footCommand_tensors (s t : State) : (footCommand s t).tensors = t.tensors := rfl
@[simp] theorem footCommand_tensorNext (s t : State) : (footCommand s t).tensorNext = t.tensorNext := rfl
@[simp] theorem footCommand_tdigs (s t : State) : (footCommand s t).tdigs = t.tdigs := rfl
@[simp] theorem footCommand_freezeNext (s t : State) : (footCommand s t).freezeNext = t.freezeNext := rfl
@[simp] theorem footCommand_uuAdd (s t : State) : (footCommand s t).uuAdd = t.uuAdd := rfl
@[simp] theorem footCommand_uuOpt (s t : State) : (footCommand s t).uuOpt = t.uuOpt := rfl
@[simp] theorem footCommand_uuBusy (s t : State) : (footCommand s t).uuBusy = t.uuBusy := rfl
@[simp] theorem footCommand_uuNow (s t : State) : (footCommand s t).uuNow = t.uuNow := rfl
@[simp] theorem footCommand_recs (s t : State) : (footCommand s t).recs = t.recs := rfl
@[simp] theorem footCommand_parts (s t : State) : (footCommand s t).parts = t.parts := rfl
@[simp] theorem footCommand_rings (s t : State) : (footCommand s t).rings = t.rings := rfl
@[simp] theorem footCommand_faces (s t : State) : (footCommand s t).faces = t.faces := rfl
@[simp] theorem footCommand_seg (s t : State) : (footCommand s t).seg = t.seg := rfl
@[simp] theorem footCommand_rcc (s t : State) : (footCommand s t).rcc = t.rcc := rfl
@[simp] theorem footCommand_run (s t : State) : (footCommand s t).run = t.run := rfl
@[simp] theorem footCommand_adm (s t : State) : (footCommand s t).adm = t.adm := rfl
@[simp] theorem footCommand_err (s t : State) : (footCommand s t).err = t.err := rfl
@[simp] theorem footCommand_pw (s t : State) : (footCommand s t).pw = t.pw := rfl

@[simp] theorem footEnd_pending (s t : State) : (footEnd s t).pending = s.pending := rfl
@[simp] theorem footEnd_out (s t : State) : (footEnd s t).out = t.out := rfl
@[simp] theorem footEnd_freeIx (s t : State) : (footEnd s t).freeIx = t.freeIx := rfl
@[simp] theorem footEnd_nv (s t : State) : (footEnd s t).nv = s.nv := rfl
@[simp] theorem footEnd_cc (s t : State) : (footEnd s t).cc = t.cc := rfl
@[simp] theorem footEnd_sec (s t : State) : (footEnd s t).sec = keepLc s t := rfl
@[simp] theorem footEnd_regs (s t : State) : (footEnd s t).regs = t.regs := rfl
@[simp] theorem footEnd_mc (s t : State) : (footEnd s t).mc = t.mc := rfl
@[simp] theorem footEnd_plane (s t : State) : (footEnd s t).plane = t.plane := rfl
@[simp] theorem footEnd_ports (s t : State) : (footEnd s t).ports = t.ports := rfl
@[simp] theorem footEnd_epoch (s t : State) : (footEnd s t).epoch = t.epoch := rfl
@[simp] theorem footEnd_epochPend (s t : State) : (footEnd s t).epochPend = t.epochPend := rfl
@[simp] theorem footEnd_progs (s t : State) : (footEnd s t).progs = t.progs := rfl
@[simp] theorem footEnd_instStatus (s t : State) : (footEnd s t).instStatus = t.instStatus := rfl
@[simp] theorem footEnd_cores (s t : State) : (footEnd s t).cores = t.cores := rfl
@[simp] theorem footEnd_clusters (s t : State) : (footEnd s t).clusters = t.clusters := rfl
@[simp] theorem footEnd_hbm (s t : State) : (footEnd s t).hbm = t.hbm := rfl
@[simp] theorem footEnd_slots (s t : State) : (footEnd s t).slots = t.slots := rfl
@[simp] theorem footEnd_vrecs (s t : State) : (footEnd s t).vrecs = t.vrecs := rfl
@[simp] theorem footEnd_attrNext (s t : State) : (footEnd s t).attrNext = t.attrNext := rfl
@[simp] theorem footEnd_evictNext (s t : State) : (footEnd s t).evictNext = t.evictNext := rfl
@[simp] theorem footEnd_residentNext (s t : State) : (footEnd s t).residentNext = t.residentNext := rfl
@[simp] theorem footEnd_tensors (s t : State) : (footEnd s t).tensors = t.tensors := rfl
@[simp] theorem footEnd_tensorNext (s t : State) : (footEnd s t).tensorNext = t.tensorNext := rfl
@[simp] theorem footEnd_tdigs (s t : State) : (footEnd s t).tdigs = t.tdigs := rfl
@[simp] theorem footEnd_freezeNext (s t : State) : (footEnd s t).freezeNext = t.freezeNext := rfl
@[simp] theorem footEnd_uuAdd (s t : State) : (footEnd s t).uuAdd = t.uuAdd := rfl
@[simp] theorem footEnd_uuOpt (s t : State) : (footEnd s t).uuOpt = t.uuOpt := rfl
@[simp] theorem footEnd_uuBusy (s t : State) : (footEnd s t).uuBusy = t.uuBusy := rfl
@[simp] theorem footEnd_uuNow (s t : State) : (footEnd s t).uuNow = t.uuNow := rfl
@[simp] theorem footEnd_recs (s t : State) : (footEnd s t).recs = t.recs := rfl
@[simp] theorem footEnd_parts (s t : State) : (footEnd s t).parts = t.parts := rfl
@[simp] theorem footEnd_rings (s t : State) : (footEnd s t).rings = t.rings := rfl
@[simp] theorem footEnd_faces (s t : State) : (footEnd s t).faces = t.faces := rfl
@[simp] theorem footEnd_seg (s t : State) : (footEnd s t).seg = t.seg := rfl
@[simp] theorem footEnd_rcc (s t : State) : (footEnd s t).rcc = t.rcc := rfl
@[simp] theorem footEnd_run (s t : State) : (footEnd s t).run = t.run := rfl
@[simp] theorem footEnd_adm (s t : State) : (footEnd s t).adm = t.adm := rfl
@[simp] theorem footEnd_err (s t : State) : (footEnd s t).err = t.err := rfl
@[simp] theorem footEnd_pw (s t : State) : (footEnd s t).pw = t.pw := rfl

@[simp] theorem footTransition_pending (s t : State) : (footTransition s t).pending = s.pending := rfl
@[simp] theorem footTransition_out (s t : State) : (footTransition s t).out = t.out := rfl
@[simp] theorem footTransition_freeIx (s t : State) : (footTransition s t).freeIx = t.freeIx := rfl
@[simp] theorem footTransition_nv (s t : State) : (footTransition s t).nv = s.nv := rfl
@[simp] theorem footTransition_cc (s t : State) : (footTransition s t).cc = t.cc := rfl
@[simp] theorem footTransition_sec (s t : State) : (footTransition s t).sec = t.sec := rfl
@[simp] theorem footTransition_regs (s t : State) : (footTransition s t).regs = t.regs := rfl
@[simp] theorem footTransition_mc (s t : State) : (footTransition s t).mc = t.mc := rfl
@[simp] theorem footTransition_plane (s t : State) : (footTransition s t).plane = t.plane := rfl
@[simp] theorem footTransition_ports (s t : State) : (footTransition s t).ports = t.ports := rfl
@[simp] theorem footTransition_epoch (s t : State) : (footTransition s t).epoch = t.epoch := rfl
@[simp] theorem footTransition_epochPend (s t : State) : (footTransition s t).epochPend = t.epochPend := rfl
@[simp] theorem footTransition_progs (s t : State) : (footTransition s t).progs = t.progs := rfl
@[simp] theorem footTransition_instStatus (s t : State) : (footTransition s t).instStatus = t.instStatus := rfl
@[simp] theorem footTransition_cores (s t : State) : (footTransition s t).cores = t.cores := rfl
@[simp] theorem footTransition_clusters (s t : State) : (footTransition s t).clusters = t.clusters := rfl
@[simp] theorem footTransition_hbm (s t : State) : (footTransition s t).hbm = t.hbm := rfl
@[simp] theorem footTransition_slots (s t : State) : (footTransition s t).slots = t.slots := rfl
@[simp] theorem footTransition_vrecs (s t : State) : (footTransition s t).vrecs = t.vrecs := rfl
@[simp] theorem footTransition_attrNext (s t : State) : (footTransition s t).attrNext = t.attrNext := rfl
@[simp] theorem footTransition_evictNext (s t : State) : (footTransition s t).evictNext = t.evictNext := rfl
@[simp] theorem footTransition_residentNext (s t : State) : (footTransition s t).residentNext = t.residentNext := rfl
@[simp] theorem footTransition_tensors (s t : State) : (footTransition s t).tensors = t.tensors := rfl
@[simp] theorem footTransition_tensorNext (s t : State) : (footTransition s t).tensorNext = t.tensorNext := rfl
@[simp] theorem footTransition_tdigs (s t : State) : (footTransition s t).tdigs = t.tdigs := rfl
@[simp] theorem footTransition_freezeNext (s t : State) : (footTransition s t).freezeNext = t.freezeNext := rfl
@[simp] theorem footTransition_uuAdd (s t : State) : (footTransition s t).uuAdd = t.uuAdd := rfl
@[simp] theorem footTransition_uuOpt (s t : State) : (footTransition s t).uuOpt = t.uuOpt := rfl
@[simp] theorem footTransition_uuBusy (s t : State) : (footTransition s t).uuBusy = t.uuBusy := rfl
@[simp] theorem footTransition_uuNow (s t : State) : (footTransition s t).uuNow = t.uuNow := rfl
@[simp] theorem footTransition_recs (s t : State) : (footTransition s t).recs = t.recs := rfl
@[simp] theorem footTransition_parts (s t : State) : (footTransition s t).parts = t.parts := rfl
@[simp] theorem footTransition_rings (s t : State) : (footTransition s t).rings = t.rings := rfl
@[simp] theorem footTransition_faces (s t : State) : (footTransition s t).faces = t.faces := rfl
@[simp] theorem footTransition_seg (s t : State) : (footTransition s t).seg = t.seg := rfl
@[simp] theorem footTransition_rcc (s t : State) : (footTransition s t).rcc = t.rcc := rfl
@[simp] theorem footTransition_run (s t : State) : (footTransition s t).run = t.run := rfl
@[simp] theorem footTransition_adm (s t : State) : (footTransition s t).adm = t.adm := rfl
@[simp] theorem footTransition_err (s t : State) : (footTransition s t).err = t.err := rfl
@[simp] theorem footTransition_pw (s t : State) : (footTransition s t).pw = t.pw := rfl

/-- Cores kept: nothing but the assignment and the bypass in force. -/
@[simp] theorem keepAssign_part (s t : State) (n : CoreIx) : (keepAssign s t)[n].part = s.cores[n].part := by simp [keepAssign]

@[simp] theorem keepAssign_byp (s t : State) (n : CoreIx) : (keepAssign s t)[n].byp = s.cores[n].byp := by simp [keepAssign]

@[simp] theorem keepAssign_at (s t : State) (i : Nat) (h : i < 64) :
    (keepAssign s t)[i] = { t.cores[i] with part := s.cores[i].part, byp := s.cores[i].byp } := by simp [keepAssign]

/-- A state's own cores are kept whole. -/
@[simp] theorem keepAssign_self (s : State) : keepAssign s s = s.cores := by
  apply Vector.ext; intro i h; simp [keepAssign]

/-- Cores whose assignment and bypass are as they were are kept whole. -/
theorem keepAssign_same (s t : State) (h : ∀ n : CoreIx, t.cores[n].part = s.cores[n].part ∧ t.cores[n].byp = s.cores[n].byp) :
    keepAssign s t = t.cores := by
  apply Vector.ext; intro i hi
  have h := h ⟨i, hi⟩
  simp only [Fin.getElem_fin] at h
  simp [keepAssign, ← h.1, ← h.2]

@[simp] theorem keepLc_pendLc (s t : State) : (keepLc s t).pendLc = s.sec.pendLc := rfl

@[simp] theorem keepLc_self (s : State) : keepLc s s = s.sec := rfl

/-- A change that leaves the cores alone keeps them whole. -/
@[simp] theorem keepAssign_cores (s t : State) (h : t.cores = s.cores) : keepAssign s t = s.cores := by
  apply Vector.ext; intro i hi; simp [keepAssign, h]

/-- A change that leaves the transition under way alone keeps the security unit as the change leaves it. -/
@[simp] theorem keepLc_sec (s t : State) (h : t.sec.pendLc = s.sec.pendLc) : keepLc s t = t.sec := by simp [keepLc, ← h]

end Sys2Proof.Machine
end

