-- ==== Sys2Proof/Laws/State.lean ====
section
/-!
SUPPORT. What the small updates of the state leave as it is, one lemma for each field of each update.
-/

namespace Sys2Proof.Machine

/-- The entry that an update names. -/
@[simp] theorem vmod_same {α : Type} {n : Nat} (v : Vector α n) (i : Fin n) (f : α → α) : (vmod v i f)[i.val] = f v[i] := by simp [vmod]

/-- Every other entry. -/
theorem vmod_other {α : Type} {n : Nat} (v : Vector α n) (i : Fin n) (f : α → α) (j : Nat) (h : j < n) (e : i.val ≠ j) :
    (vmod v i f)[j] = v[j] := by simp [vmod, e]

/-- Either. -/
theorem vmod_at {α : Type} {n : Nat} (v : Vector α n) (i : Fin n) (f : α → α) (j : Nat) (h : j < n) :
    (vmod v i f)[j] = if i.val = j then f v[j] else v[j] := by
  by_cases e : i.val = j
  · subst e; simp [vmod]
  · simp [vmod, e]

@[simp] theorem send_pending (o : Out) (s : State) : (send o s).pending = s.pending := rfl
@[simp] theorem send_out (o : Out) (s : State) : (send o s).out = s.out ++ [o] := rfl
@[simp] theorem send_freeIx (o : Out) (s : State) : (send o s).freeIx = s.freeIx := rfl
@[simp] theorem send_nv (o : Out) (s : State) : (send o s).nv = s.nv := rfl
@[simp] theorem send_cc (o : Out) (s : State) : (send o s).cc = s.cc := rfl
@[simp] theorem send_sec (o : Out) (s : State) : (send o s).sec = s.sec := (rfl)
@[simp] theorem send_regs (o : Out) (s : State) : (send o s).regs = s.regs := rfl
@[simp] theorem send_mc (o : Out) (s : State) : (send o s).mc = s.mc := rfl
@[simp] theorem send_plane (o : Out) (s : State) : (send o s).plane = s.plane := rfl
@[simp] theorem send_ports (o : Out) (s : State) : (send o s).ports = s.ports := rfl
@[simp] theorem send_epoch (o : Out) (s : State) : (send o s).epoch = s.epoch := rfl
@[simp] theorem send_epochPend (o : Out) (s : State) : (send o s).epochPend = s.epochPend := rfl
@[simp] theorem send_progs (o : Out) (s : State) : (send o s).progs = s.progs := rfl
@[simp] theorem send_instStatus (o : Out) (s : State) : (send o s).instStatus = s.instStatus := rfl
@[simp] theorem send_cores (o : Out) (s : State) : (send o s).cores = s.cores := (rfl)
@[simp] theorem send_clusters (o : Out) (s : State) : (send o s).clusters = s.clusters := rfl
@[simp] theorem send_hbm (o : Out) (s : State) : (send o s).hbm = s.hbm := rfl
@[simp] theorem send_slots (o : Out) (s : State) : (send o s).slots = s.slots := rfl
@[simp] theorem send_vrecs (o : Out) (s : State) : (send o s).vrecs = s.vrecs := rfl
@[simp] theorem send_attrNext (o : Out) (s : State) : (send o s).attrNext = s.attrNext := rfl
@[simp] theorem send_evictNext (o : Out) (s : State) : (send o s).evictNext = s.evictNext := rfl
@[simp] theorem send_residentNext (o : Out) (s : State) : (send o s).residentNext = s.residentNext := rfl
@[simp] theorem send_tensors (o : Out) (s : State) : (send o s).tensors = s.tensors := rfl
@[simp] theorem send_tensorNext (o : Out) (s : State) : (send o s).tensorNext = s.tensorNext := rfl
@[simp] theorem send_tdigs (o : Out) (s : State) : (send o s).tdigs = s.tdigs := rfl
@[simp] theorem send_freezeNext (o : Out) (s : State) : (send o s).freezeNext = s.freezeNext := rfl
@[simp] theorem send_uuAdd (o : Out) (s : State) : (send o s).uuAdd = s.uuAdd := rfl
@[simp] theorem send_uuOpt (o : Out) (s : State) : (send o s).uuOpt = s.uuOpt := rfl
@[simp] theorem send_uuBusy (o : Out) (s : State) : (send o s).uuBusy = s.uuBusy := rfl
@[simp] theorem send_uuNow (o : Out) (s : State) : (send o s).uuNow = s.uuNow := rfl
@[simp] theorem send_recs (o : Out) (s : State) : (send o s).recs = s.recs := rfl
@[simp] theorem send_parts (o : Out) (s : State) : (send o s).parts = s.parts := rfl
@[simp] theorem send_rings (o : Out) (s : State) : (send o s).rings = s.rings := rfl
@[simp] theorem send_faces (o : Out) (s : State) : (send o s).faces = s.faces := rfl
@[simp] theorem send_seg (o : Out) (s : State) : (send o s).seg = s.seg := rfl
@[simp] theorem send_rcc (o : Out) (s : State) : (send o s).rcc = s.rcc := rfl
@[simp] theorem send_run (o : Out) (s : State) : (send o s).run = s.run := rfl
@[simp] theorem send_adm (o : Out) (s : State) : (send o s).adm = s.adm := rfl
@[simp] theorem send_err (o : Out) (s : State) : (send o s).err = s.err := rfl
@[simp] theorem send_pw (o : Out) (s : State) : (send o s).pw = s.pw := rfl

@[simp] theorem setInt_pending (p : Fin 32) (b : Nat) (s : State) : (setInt p b s).pending = s.pending := rfl
@[simp] theorem setInt_out (p : Fin 32) (b : Nat) (s : State) : (setInt p b s).out = s.out := rfl
@[simp] theorem setInt_freeIx (p : Fin 32) (b : Nat) (s : State) : (setInt p b s).freeIx = s.freeIx := rfl
@[simp] theorem setInt_nv (p : Fin 32) (b : Nat) (s : State) : (setInt p b s).nv = s.nv := rfl
@[simp] theorem setInt_cc (p : Fin 32) (b : Nat) (s : State) : (setInt p b s).cc = s.cc := rfl
@[simp] theorem setInt_sec (p : Fin 32) (b : Nat) (s : State) : (setInt p b s).sec = s.sec := (rfl)
@[simp] theorem setInt_mc (p : Fin 32) (b : Nat) (s : State) : (setInt p b s).mc = s.mc := rfl
@[simp] theorem setInt_plane (p : Fin 32) (b : Nat) (s : State) : (setInt p b s).plane = s.plane := rfl
@[simp] theorem setInt_ports (p : Fin 32) (b : Nat) (s : State) : (setInt p b s).ports = s.ports := rfl
@[simp] theorem setInt_epoch (p : Fin 32) (b : Nat) (s : State) : (setInt p b s).epoch = s.epoch := rfl
@[simp] theorem setInt_epochPend (p : Fin 32) (b : Nat) (s : State) : (setInt p b s).epochPend = s.epochPend := rfl
@[simp] theorem setInt_progs (p : Fin 32) (b : Nat) (s : State) : (setInt p b s).progs = s.progs := rfl
@[simp] theorem setInt_instStatus (p : Fin 32) (b : Nat) (s : State) : (setInt p b s).instStatus = s.instStatus := rfl
@[simp] theorem setInt_cores (p : Fin 32) (b : Nat) (s : State) : (setInt p b s).cores = s.cores := (rfl)
@[simp] theorem setInt_clusters (p : Fin 32) (b : Nat) (s : State) : (setInt p b s).clusters = s.clusters := rfl
@[simp] theorem setInt_hbm (p : Fin 32) (b : Nat) (s : State) : (setInt p b s).hbm = s.hbm := rfl
@[simp] theorem setInt_slots (p : Fin 32) (b : Nat) (s : State) : (setInt p b s).slots = s.slots := rfl
@[simp] theorem setInt_vrecs (p : Fin 32) (b : Nat) (s : State) : (setInt p b s).vrecs = s.vrecs := rfl
@[simp] theorem setInt_attrNext (p : Fin 32) (b : Nat) (s : State) : (setInt p b s).attrNext = s.attrNext := rfl
@[simp] theorem setInt_evictNext (p : Fin 32) (b : Nat) (s : State) : (setInt p b s).evictNext = s.evictNext := rfl
@[simp] theorem setInt_residentNext (p : Fin 32) (b : Nat) (s : State) : (setInt p b s).residentNext = s.residentNext := rfl
@[simp] theorem setInt_tensors (p : Fin 32) (b : Nat) (s : State) : (setInt p b s).tensors = s.tensors := rfl
@[simp] theorem setInt_tensorNext (p : Fin 32) (b : Nat) (s : State) : (setInt p b s).tensorNext = s.tensorNext := rfl
@[simp] theorem setInt_tdigs (p : Fin 32) (b : Nat) (s : State) : (setInt p b s).tdigs = s.tdigs := rfl
@[simp] theorem setInt_freezeNext (p : Fin 32) (b : Nat) (s : State) : (setInt p b s).freezeNext = s.freezeNext := rfl
@[simp] theorem setInt_uuAdd (p : Fin 32) (b : Nat) (s : State) : (setInt p b s).uuAdd = s.uuAdd := rfl
@[simp] theorem setInt_uuOpt (p : Fin 32) (b : Nat) (s : State) : (setInt p b s).uuOpt = s.uuOpt := rfl
@[simp] theorem setInt_uuBusy (p : Fin 32) (b : Nat) (s : State) : (setInt p b s).uuBusy = s.uuBusy := rfl
@[simp] theorem setInt_uuNow (p : Fin 32) (b : Nat) (s : State) : (setInt p b s).uuNow = s.uuNow := rfl
@[simp] theorem setInt_recs (p : Fin 32) (b : Nat) (s : State) : (setInt p b s).recs = s.recs := rfl
@[simp] theorem setInt_parts (p : Fin 32) (b : Nat) (s : State) : (setInt p b s).parts = s.parts := rfl
@[simp] theorem setInt_rings (p : Fin 32) (b : Nat) (s : State) : (setInt p b s).rings = s.rings := rfl
@[simp] theorem setInt_faces (p : Fin 32) (b : Nat) (s : State) : (setInt p b s).faces = s.faces := rfl
@[simp] theorem setInt_seg (p : Fin 32) (b : Nat) (s : State) : (setInt p b s).seg = s.seg := rfl
@[simp] theorem setInt_rcc (p : Fin 32) (b : Nat) (s : State) : (setInt p b s).rcc = s.rcc := rfl
@[simp] theorem setInt_run (p : Fin 32) (b : Nat) (s : State) : (setInt p b s).run = s.run := rfl
@[simp] theorem setInt_adm (p : Fin 32) (b : Nat) (s : State) : (setInt p b s).adm = s.adm := rfl
@[simp] theorem setInt_err (p : Fin 32) (b : Nat) (s : State) : (setInt p b s).err = s.err := rfl
@[simp] theorem setInt_pw (p : Fin 32) (b : Nat) (s : State) : (setInt p b s).pw = s.pw := rfl

@[simp] theorem modPart_pending (p : Part) (f : PartSt → PartSt) (s : State) : (modPart p f s).pending = s.pending := rfl
@[simp] theorem modPart_out (p : Part) (f : PartSt → PartSt) (s : State) : (modPart p f s).out = s.out := rfl
@[simp] theorem modPart_freeIx (p : Part) (f : PartSt → PartSt) (s : State) : (modPart p f s).freeIx = s.freeIx := rfl
@[simp] theorem modPart_nv (p : Part) (f : PartSt → PartSt) (s : State) : (modPart p f s).nv = s.nv := rfl
@[simp] theorem modPart_cc (p : Part) (f : PartSt → PartSt) (s : State) : (modPart p f s).cc = s.cc := rfl
@[simp] theorem modPart_sec (p : Part) (f : PartSt → PartSt) (s : State) : (modPart p f s).sec = s.sec := (rfl)
@[simp] theorem modPart_regs (p : Part) (f : PartSt → PartSt) (s : State) : (modPart p f s).regs = s.regs := rfl
@[simp] theorem modPart_mc (p : Part) (f : PartSt → PartSt) (s : State) : (modPart p f s).mc = s.mc := rfl
@[simp] theorem modPart_plane (p : Part) (f : PartSt → PartSt) (s : State) : (modPart p f s).plane = s.plane := rfl
@[simp] theorem modPart_ports (p : Part) (f : PartSt → PartSt) (s : State) : (modPart p f s).ports = s.ports := rfl
@[simp] theorem modPart_epoch (p : Part) (f : PartSt → PartSt) (s : State) : (modPart p f s).epoch = s.epoch := rfl
@[simp] theorem modPart_epochPend (p : Part) (f : PartSt → PartSt) (s : State) : (modPart p f s).epochPend = s.epochPend := rfl
@[simp] theorem modPart_progs (p : Part) (f : PartSt → PartSt) (s : State) : (modPart p f s).progs = s.progs := rfl
@[simp] theorem modPart_instStatus (p : Part) (f : PartSt → PartSt) (s : State) : (modPart p f s).instStatus = s.instStatus := rfl
@[simp] theorem modPart_cores (p : Part) (f : PartSt → PartSt) (s : State) : (modPart p f s).cores = s.cores := (rfl)
@[simp] theorem modPart_clusters (p : Part) (f : PartSt → PartSt) (s : State) : (modPart p f s).clusters = s.clusters := rfl
@[simp] theorem modPart_hbm (p : Part) (f : PartSt → PartSt) (s : State) : (modPart p f s).hbm = s.hbm := rfl
@[simp] theorem modPart_slots (p : Part) (f : PartSt → PartSt) (s : State) : (modPart p f s).slots = s.slots := rfl
@[simp] theorem modPart_vrecs (p : Part) (f : PartSt → PartSt) (s : State) : (modPart p f s).vrecs = s.vrecs := rfl
@[simp] theorem modPart_attrNext (p : Part) (f : PartSt → PartSt) (s : State) : (modPart p f s).attrNext = s.attrNext := rfl
@[simp] theorem modPart_evictNext (p : Part) (f : PartSt → PartSt) (s : State) : (modPart p f s).evictNext = s.evictNext := rfl
@[simp] theorem modPart_residentNext (p : Part) (f : PartSt → PartSt) (s : State) : (modPart p f s).residentNext = s.residentNext := rfl
@[simp] theorem modPart_tensors (p : Part) (f : PartSt → PartSt) (s : State) : (modPart p f s).tensors = s.tensors := rfl
@[simp] theorem modPart_tensorNext (p : Part) (f : PartSt → PartSt) (s : State) : (modPart p f s).tensorNext = s.tensorNext := rfl
@[simp] theorem modPart_tdigs (p : Part) (f : PartSt → PartSt) (s : State) : (modPart p f s).tdigs = s.tdigs := rfl
@[simp] theorem modPart_freezeNext (p : Part) (f : PartSt → PartSt) (s : State) : (modPart p f s).freezeNext = s.freezeNext := rfl
@[simp] theorem modPart_uuAdd (p : Part) (f : PartSt → PartSt) (s : State) : (modPart p f s).uuAdd = s.uuAdd := rfl
@[simp] theorem modPart_uuOpt (p : Part) (f : PartSt → PartSt) (s : State) : (modPart p f s).uuOpt = s.uuOpt := rfl
@[simp] theorem modPart_uuBusy (p : Part) (f : PartSt → PartSt) (s : State) : (modPart p f s).uuBusy = s.uuBusy := rfl
@[simp] theorem modPart_uuNow (p : Part) (f : PartSt → PartSt) (s : State) : (modPart p f s).uuNow = s.uuNow := rfl
@[simp] theorem modPart_recs (p : Part) (f : PartSt → PartSt) (s : State) : (modPart p f s).recs = s.recs := rfl
@[simp] theorem modPart_parts (p : Part) (f : PartSt → PartSt) (s : State) : (modPart p f s).parts = vmod s.parts p f := rfl
@[simp] theorem modPart_rings (p : Part) (f : PartSt → PartSt) (s : State) : (modPart p f s).rings = s.rings := rfl
@[simp] theorem modPart_faces (p : Part) (f : PartSt → PartSt) (s : State) : (modPart p f s).faces = s.faces := rfl
@[simp] theorem modPart_seg (p : Part) (f : PartSt → PartSt) (s : State) : (modPart p f s).seg = s.seg := rfl
@[simp] theorem modPart_rcc (p : Part) (f : PartSt → PartSt) (s : State) : (modPart p f s).rcc = s.rcc := rfl
@[simp] theorem modPart_run (p : Part) (f : PartSt → PartSt) (s : State) : (modPart p f s).run = s.run := rfl
@[simp] theorem modPart_adm (p : Part) (f : PartSt → PartSt) (s : State) : (modPart p f s).adm = s.adm := rfl
@[simp] theorem modPart_err (p : Part) (f : PartSt → PartSt) (s : State) : (modPart p f s).err = s.err := rfl
@[simp] theorem modPart_pw (p : Part) (f : PartSt → PartSt) (s : State) : (modPart p f s).pw = s.pw := rfl

@[simp] theorem modRun_pending (f : Run → Run) (s : State) : (modRun f s).pending = s.pending := rfl
@[simp] theorem modRun_out (f : Run → Run) (s : State) : (modRun f s).out = s.out := rfl
@[simp] theorem modRun_freeIx (f : Run → Run) (s : State) : (modRun f s).freeIx = s.freeIx := rfl
@[simp] theorem modRun_nv (f : Run → Run) (s : State) : (modRun f s).nv = s.nv := rfl
@[simp] theorem modRun_cc (f : Run → Run) (s : State) : (modRun f s).cc = s.cc := rfl
@[simp] theorem modRun_sec (f : Run → Run) (s : State) : (modRun f s).sec = s.sec := (rfl)
@[simp] theorem modRun_regs (f : Run → Run) (s : State) : (modRun f s).regs = s.regs := rfl
@[simp] theorem modRun_mc (f : Run → Run) (s : State) : (modRun f s).mc = s.mc := rfl
@[simp] theorem modRun_plane (f : Run → Run) (s : State) : (modRun f s).plane = s.plane := rfl
@[simp] theorem modRun_ports (f : Run → Run) (s : State) : (modRun f s).ports = s.ports := rfl
@[simp] theorem modRun_epoch (f : Run → Run) (s : State) : (modRun f s).epoch = s.epoch := rfl
@[simp] theorem modRun_epochPend (f : Run → Run) (s : State) : (modRun f s).epochPend = s.epochPend := rfl
@[simp] theorem modRun_progs (f : Run → Run) (s : State) : (modRun f s).progs = s.progs := rfl
@[simp] theorem modRun_instStatus (f : Run → Run) (s : State) : (modRun f s).instStatus = s.instStatus := rfl
@[simp] theorem modRun_cores (f : Run → Run) (s : State) : (modRun f s).cores = s.cores := (rfl)
@[simp] theorem modRun_clusters (f : Run → Run) (s : State) : (modRun f s).clusters = s.clusters := rfl
@[simp] theorem modRun_hbm (f : Run → Run) (s : State) : (modRun f s).hbm = s.hbm := rfl
@[simp] theorem modRun_slots (f : Run → Run) (s : State) : (modRun f s).slots = s.slots := rfl
@[simp] theorem modRun_vrecs (f : Run → Run) (s : State) : (modRun f s).vrecs = s.vrecs := rfl
@[simp] theorem modRun_attrNext (f : Run → Run) (s : State) : (modRun f s).attrNext = s.attrNext := rfl
@[simp] theorem modRun_evictNext (f : Run → Run) (s : State) : (modRun f s).evictNext = s.evictNext := rfl
@[simp] theorem modRun_residentNext (f : Run → Run) (s : State) : (modRun f s).residentNext = s.residentNext := rfl
@[simp] theorem modRun_tensors (f : Run → Run) (s : State) : (modRun f s).tensors = s.tensors := rfl
@[simp] theorem modRun_tensorNext (f : Run → Run) (s : State) : (modRun f s).tensorNext = s.tensorNext := rfl
@[simp] theorem modRun_tdigs (f : Run → Run) (s : State) : (modRun f s).tdigs = s.tdigs := rfl
@[simp] theorem modRun_freezeNext (f : Run → Run) (s : State) : (modRun f s).freezeNext = s.freezeNext := rfl
@[simp] theorem modRun_uuAdd (f : Run → Run) (s : State) : (modRun f s).uuAdd = s.uuAdd := rfl
@[simp] theorem modRun_uuOpt (f : Run → Run) (s : State) : (modRun f s).uuOpt = s.uuOpt := rfl
@[simp] theorem modRun_uuBusy (f : Run → Run) (s : State) : (modRun f s).uuBusy = s.uuBusy := rfl
@[simp] theorem modRun_uuNow (f : Run → Run) (s : State) : (modRun f s).uuNow = s.uuNow := rfl
@[simp] theorem modRun_recs (f : Run → Run) (s : State) : (modRun f s).recs = s.recs := rfl
@[simp] theorem modRun_parts (f : Run → Run) (s : State) : (modRun f s).parts = s.parts := rfl
@[simp] theorem modRun_rings (f : Run → Run) (s : State) : (modRun f s).rings = s.rings := rfl
@[simp] theorem modRun_faces (f : Run → Run) (s : State) : (modRun f s).faces = s.faces := rfl
@[simp] theorem modRun_seg (f : Run → Run) (s : State) : (modRun f s).seg = s.seg := rfl
@[simp] theorem modRun_rcc (f : Run → Run) (s : State) : (modRun f s).rcc = s.rcc := rfl
@[simp] theorem modRun_run (f : Run → Run) (s : State) : (modRun f s).run = f s.run := rfl
@[simp] theorem modRun_adm (f : Run → Run) (s : State) : (modRun f s).adm = s.adm := rfl
@[simp] theorem modRun_err (f : Run → Run) (s : State) : (modRun f s).err = s.err := rfl
@[simp] theorem modRun_pw (f : Run → Run) (s : State) : (modRun f s).pw = s.pw := rfl

@[simp] theorem modFace_pending (i : FaceIx) (f : FaceSt → FaceSt) (s : State) : (modFace i f s).pending = s.pending := rfl
@[simp] theorem modFace_out (i : FaceIx) (f : FaceSt → FaceSt) (s : State) : (modFace i f s).out = s.out := rfl
@[simp] theorem modFace_freeIx (i : FaceIx) (f : FaceSt → FaceSt) (s : State) : (modFace i f s).freeIx = s.freeIx := rfl
@[simp] theorem modFace_nv (i : FaceIx) (f : FaceSt → FaceSt) (s : State) : (modFace i f s).nv = s.nv := rfl
@[simp] theorem modFace_cc (i : FaceIx) (f : FaceSt → FaceSt) (s : State) : (modFace i f s).cc = s.cc := rfl
@[simp] theorem modFace_sec (i : FaceIx) (f : FaceSt → FaceSt) (s : State) : (modFace i f s).sec = s.sec := (rfl)
@[simp] theorem modFace_regs (i : FaceIx) (f : FaceSt → FaceSt) (s : State) : (modFace i f s).regs = s.regs := rfl
@[simp] theorem modFace_mc (i : FaceIx) (f : FaceSt → FaceSt) (s : State) : (modFace i f s).mc = s.mc := rfl
@[simp] theorem modFace_plane (i : FaceIx) (f : FaceSt → FaceSt) (s : State) : (modFace i f s).plane = s.plane := rfl
@[simp] theorem modFace_ports (i : FaceIx) (f : FaceSt → FaceSt) (s : State) : (modFace i f s).ports = s.ports := rfl
@[simp] theorem modFace_epoch (i : FaceIx) (f : FaceSt → FaceSt) (s : State) : (modFace i f s).epoch = s.epoch := rfl
@[simp] theorem modFace_epochPend (i : FaceIx) (f : FaceSt → FaceSt) (s : State) : (modFace i f s).epochPend = s.epochPend := rfl
@[simp] theorem modFace_progs (i : FaceIx) (f : FaceSt → FaceSt) (s : State) : (modFace i f s).progs = s.progs := rfl
@[simp] theorem modFace_instStatus (i : FaceIx) (f : FaceSt → FaceSt) (s : State) : (modFace i f s).instStatus = s.instStatus := rfl
@[simp] theorem modFace_cores (i : FaceIx) (f : FaceSt → FaceSt) (s : State) : (modFace i f s).cores = s.cores := (rfl)
@[simp] theorem modFace_clusters (i : FaceIx) (f : FaceSt → FaceSt) (s : State) : (modFace i f s).clusters = s.clusters := rfl
@[simp] theorem modFace_hbm (i : FaceIx) (f : FaceSt → FaceSt) (s : State) : (modFace i f s).hbm = s.hbm := rfl
@[simp] theorem modFace_slots (i : FaceIx) (f : FaceSt → FaceSt) (s : State) : (modFace i f s).slots = s.slots := rfl
@[simp] theorem modFace_vrecs (i : FaceIx) (f : FaceSt → FaceSt) (s : State) : (modFace i f s).vrecs = s.vrecs := rfl
@[simp] theorem modFace_attrNext (i : FaceIx) (f : FaceSt → FaceSt) (s : State) : (modFace i f s).attrNext = s.attrNext := rfl
@[simp] theorem modFace_evictNext (i : FaceIx) (f : FaceSt → FaceSt) (s : State) : (modFace i f s).evictNext = s.evictNext := rfl
@[simp] theorem modFace_residentNext (i : FaceIx) (f : FaceSt → FaceSt) (s : State) : (modFace i f s).residentNext = s.residentNext := rfl
@[simp] theorem modFace_tensors (i : FaceIx) (f : FaceSt → FaceSt) (s : State) : (modFace i f s).tensors = s.tensors := rfl
@[simp] theorem modFace_tensorNext (i : FaceIx) (f : FaceSt → FaceSt) (s : State) : (modFace i f s).tensorNext = s.tensorNext := rfl
@[simp] theorem modFace_tdigs (i : FaceIx) (f : FaceSt → FaceSt) (s : State) : (modFace i f s).tdigs = s.tdigs := rfl
@[simp] theorem modFace_freezeNext (i : FaceIx) (f : FaceSt → FaceSt) (s : State) : (modFace i f s).freezeNext = s.freezeNext := rfl
@[simp] theorem modFace_uuAdd (i : FaceIx) (f : FaceSt → FaceSt) (s : State) : (modFace i f s).uuAdd = s.uuAdd := rfl
@[simp] theorem modFace_uuOpt (i : FaceIx) (f : FaceSt → FaceSt) (s : State) : (modFace i f s).uuOpt = s.uuOpt := rfl
@[simp] theorem modFace_uuBusy (i : FaceIx) (f : FaceSt → FaceSt) (s : State) : (modFace i f s).uuBusy = s.uuBusy := rfl
@[simp] theorem modFace_uuNow (i : FaceIx) (f : FaceSt → FaceSt) (s : State) : (modFace i f s).uuNow = s.uuNow := rfl
@[simp] theorem modFace_recs (i : FaceIx) (f : FaceSt → FaceSt) (s : State) : (modFace i f s).recs = s.recs := rfl
@[simp] theorem modFace_parts (i : FaceIx) (f : FaceSt → FaceSt) (s : State) : (modFace i f s).parts = s.parts := rfl
@[simp] theorem modFace_rings (i : FaceIx) (f : FaceSt → FaceSt) (s : State) : (modFace i f s).rings = s.rings := rfl
@[simp] theorem modFace_faces (i : FaceIx) (f : FaceSt → FaceSt) (s : State) : (modFace i f s).faces = vmod s.faces i f := rfl
@[simp] theorem modFace_seg (i : FaceIx) (f : FaceSt → FaceSt) (s : State) : (modFace i f s).seg = s.seg := rfl
@[simp] theorem modFace_rcc (i : FaceIx) (f : FaceSt → FaceSt) (s : State) : (modFace i f s).rcc = s.rcc := rfl
@[simp] theorem modFace_run (i : FaceIx) (f : FaceSt → FaceSt) (s : State) : (modFace i f s).run = s.run := rfl
@[simp] theorem modFace_adm (i : FaceIx) (f : FaceSt → FaceSt) (s : State) : (modFace i f s).adm = s.adm := rfl
@[simp] theorem modFace_err (i : FaceIx) (f : FaceSt → FaceSt) (s : State) : (modFace i f s).err = s.err := rfl
@[simp] theorem modFace_pw (i : FaceIx) (f : FaceSt → FaceSt) (s : State) : (modFace i f s).pw = s.pw := rfl

@[simp] theorem modPort_pending (i : PortIx) (f : PortSt → PortSt) (s : State) : (modPort i f s).pending = s.pending := rfl
@[simp] theorem modPort_out (i : PortIx) (f : PortSt → PortSt) (s : State) : (modPort i f s).out = s.out := rfl
@[simp] theorem modPort_freeIx (i : PortIx) (f : PortSt → PortSt) (s : State) : (modPort i f s).freeIx = s.freeIx := rfl
@[simp] theorem modPort_nv (i : PortIx) (f : PortSt → PortSt) (s : State) : (modPort i f s).nv = s.nv := rfl
@[simp] theorem modPort_cc (i : PortIx) (f : PortSt → PortSt) (s : State) : (modPort i f s).cc = s.cc := rfl
@[simp] theorem modPort_sec (i : PortIx) (f : PortSt → PortSt) (s : State) : (modPort i f s).sec = s.sec := (rfl)
@[simp] theorem modPort_regs (i : PortIx) (f : PortSt → PortSt) (s : State) : (modPort i f s).regs = s.regs := rfl
@[simp] theorem modPort_mc (i : PortIx) (f : PortSt → PortSt) (s : State) : (modPort i f s).mc = s.mc := rfl
@[simp] theorem modPort_plane (i : PortIx) (f : PortSt → PortSt) (s : State) : (modPort i f s).plane = s.plane := rfl
@[simp] theorem modPort_ports (i : PortIx) (f : PortSt → PortSt) (s : State) : (modPort i f s).ports = vmod s.ports i f := rfl
@[simp] theorem modPort_epoch (i : PortIx) (f : PortSt → PortSt) (s : State) : (modPort i f s).epoch = s.epoch := rfl
@[simp] theorem modPort_epochPend (i : PortIx) (f : PortSt → PortSt) (s : State) : (modPort i f s).epochPend = s.epochPend := rfl
@[simp] theorem modPort_progs (i : PortIx) (f : PortSt → PortSt) (s : State) : (modPort i f s).progs = s.progs := rfl
@[simp] theorem modPort_instStatus (i : PortIx) (f : PortSt → PortSt) (s : State) : (modPort i f s).instStatus = s.instStatus := rfl
@[simp] theorem modPort_cores (i : PortIx) (f : PortSt → PortSt) (s : State) : (modPort i f s).cores = s.cores := (rfl)
@[simp] theorem modPort_clusters (i : PortIx) (f : PortSt → PortSt) (s : State) : (modPort i f s).clusters = s.clusters := rfl
@[simp] theorem modPort_hbm (i : PortIx) (f : PortSt → PortSt) (s : State) : (modPort i f s).hbm = s.hbm := rfl
@[simp] theorem modPort_slots (i : PortIx) (f : PortSt → PortSt) (s : State) : (modPort i f s).slots = s.slots := rfl
@[simp] theorem modPort_vrecs (i : PortIx) (f : PortSt → PortSt) (s : State) : (modPort i f s).vrecs = s.vrecs := rfl
@[simp] theorem modPort_attrNext (i : PortIx) (f : PortSt → PortSt) (s : State) : (modPort i f s).attrNext = s.attrNext := rfl
@[simp] theorem modPort_evictNext (i : PortIx) (f : PortSt → PortSt) (s : State) : (modPort i f s).evictNext = s.evictNext := rfl
@[simp] theorem modPort_residentNext (i : PortIx) (f : PortSt → PortSt) (s : State) : (modPort i f s).residentNext = s.residentNext := rfl
@[simp] theorem modPort_tensors (i : PortIx) (f : PortSt → PortSt) (s : State) : (modPort i f s).tensors = s.tensors := rfl
@[simp] theorem modPort_tensorNext (i : PortIx) (f : PortSt → PortSt) (s : State) : (modPort i f s).tensorNext = s.tensorNext := rfl
@[simp] theorem modPort_tdigs (i : PortIx) (f : PortSt → PortSt) (s : State) : (modPort i f s).tdigs = s.tdigs := rfl
@[simp] theorem modPort_freezeNext (i : PortIx) (f : PortSt → PortSt) (s : State) : (modPort i f s).freezeNext = s.freezeNext := rfl
@[simp] theorem modPort_uuAdd (i : PortIx) (f : PortSt → PortSt) (s : State) : (modPort i f s).uuAdd = s.uuAdd := rfl
@[simp] theorem modPort_uuOpt (i : PortIx) (f : PortSt → PortSt) (s : State) : (modPort i f s).uuOpt = s.uuOpt := rfl
@[simp] theorem modPort_uuBusy (i : PortIx) (f : PortSt → PortSt) (s : State) : (modPort i f s).uuBusy = s.uuBusy := rfl
@[simp] theorem modPort_uuNow (i : PortIx) (f : PortSt → PortSt) (s : State) : (modPort i f s).uuNow = s.uuNow := rfl
@[simp] theorem modPort_recs (i : PortIx) (f : PortSt → PortSt) (s : State) : (modPort i f s).recs = s.recs := rfl
@[simp] theorem modPort_parts (i : PortIx) (f : PortSt → PortSt) (s : State) : (modPort i f s).parts = s.parts := rfl
@[simp] theorem modPort_rings (i : PortIx) (f : PortSt → PortSt) (s : State) : (modPort i f s).rings = s.rings := rfl
@[simp] theorem modPort_faces (i : PortIx) (f : PortSt → PortSt) (s : State) : (modPort i f s).faces = s.faces := rfl
@[simp] theorem modPort_seg (i : PortIx) (f : PortSt → PortSt) (s : State) : (modPort i f s).seg = s.seg := rfl
@[simp] theorem modPort_rcc (i : PortIx) (f : PortSt → PortSt) (s : State) : (modPort i f s).rcc = s.rcc := rfl
@[simp] theorem modPort_run (i : PortIx) (f : PortSt → PortSt) (s : State) : (modPort i f s).run = s.run := rfl
@[simp] theorem modPort_adm (i : PortIx) (f : PortSt → PortSt) (s : State) : (modPort i f s).adm = s.adm := rfl
@[simp] theorem modPort_err (i : PortIx) (f : PortSt → PortSt) (s : State) : (modPort i f s).err = s.err := rfl
@[simp] theorem modPort_pw (i : PortIx) (f : PortSt → PortSt) (s : State) : (modPort i f s).pw = s.pw := rfl

@[simp] theorem modCore_pending (n : CoreIx) (f : CoreSt → CoreSt) (s : State) : (modCore n f s).pending = s.pending := rfl
@[simp] theorem modCore_out (n : CoreIx) (f : CoreSt → CoreSt) (s : State) : (modCore n f s).out = s.out := rfl
@[simp] theorem modCore_freeIx (n : CoreIx) (f : CoreSt → CoreSt) (s : State) : (modCore n f s).freeIx = s.freeIx := rfl
@[simp] theorem modCore_nv (n : CoreIx) (f : CoreSt → CoreSt) (s : State) : (modCore n f s).nv = s.nv := rfl
@[simp] theorem modCore_cc (n : CoreIx) (f : CoreSt → CoreSt) (s : State) : (modCore n f s).cc = s.cc := rfl
@[simp] theorem modCore_sec (n : CoreIx) (f : CoreSt → CoreSt) (s : State) : (modCore n f s).sec = s.sec := (rfl)
@[simp] theorem modCore_regs (n : CoreIx) (f : CoreSt → CoreSt) (s : State) : (modCore n f s).regs = s.regs := rfl
@[simp] theorem modCore_mc (n : CoreIx) (f : CoreSt → CoreSt) (s : State) : (modCore n f s).mc = s.mc := rfl
@[simp] theorem modCore_plane (n : CoreIx) (f : CoreSt → CoreSt) (s : State) : (modCore n f s).plane = s.plane := rfl
@[simp] theorem modCore_ports (n : CoreIx) (f : CoreSt → CoreSt) (s : State) : (modCore n f s).ports = s.ports := rfl
@[simp] theorem modCore_epoch (n : CoreIx) (f : CoreSt → CoreSt) (s : State) : (modCore n f s).epoch = s.epoch := rfl
@[simp] theorem modCore_epochPend (n : CoreIx) (f : CoreSt → CoreSt) (s : State) : (modCore n f s).epochPend = s.epochPend := rfl
@[simp] theorem modCore_progs (n : CoreIx) (f : CoreSt → CoreSt) (s : State) : (modCore n f s).progs = s.progs := rfl
@[simp] theorem modCore_instStatus (n : CoreIx) (f : CoreSt → CoreSt) (s : State) : (modCore n f s).instStatus = s.instStatus := rfl
@[simp] theorem modCore_cores (n : CoreIx) (f : CoreSt → CoreSt) (s : State) : (modCore n f s).cores = vmod s.cores n f := rfl
@[simp] theorem modCore_clusters (n : CoreIx) (f : CoreSt → CoreSt) (s : State) : (modCore n f s).clusters = s.clusters := rfl
@[simp] theorem modCore_hbm (n : CoreIx) (f : CoreSt → CoreSt) (s : State) : (modCore n f s).hbm = s.hbm := rfl
@[simp] theorem modCore_slots (n : CoreIx) (f : CoreSt → CoreSt) (s : State) : (modCore n f s).slots = s.slots := rfl
@[simp] theorem modCore_vrecs (n : CoreIx) (f : CoreSt → CoreSt) (s : State) : (modCore n f s).vrecs = s.vrecs := rfl
@[simp] theorem modCore_attrNext (n : CoreIx) (f : CoreSt → CoreSt) (s : State) : (modCore n f s).attrNext = s.attrNext := rfl
@[simp] theorem modCore_evictNext (n : CoreIx) (f : CoreSt → CoreSt) (s : State) : (modCore n f s).evictNext = s.evictNext := rfl
@[simp] theorem modCore_residentNext (n : CoreIx) (f : CoreSt → CoreSt) (s : State) : (modCore n f s).residentNext = s.residentNext := rfl
@[simp] theorem modCore_tensors (n : CoreIx) (f : CoreSt → CoreSt) (s : State) : (modCore n f s).tensors = s.tensors := rfl
@[simp] theorem modCore_tensorNext (n : CoreIx) (f : CoreSt → CoreSt) (s : State) : (modCore n f s).tensorNext = s.tensorNext := rfl
@[simp] theorem modCore_tdigs (n : CoreIx) (f : CoreSt → CoreSt) (s : State) : (modCore n f s).tdigs = s.tdigs := rfl
@[simp] theorem modCore_freezeNext (n : CoreIx) (f : CoreSt → CoreSt) (s : State) : (modCore n f s).freezeNext = s.freezeNext := rfl
@[simp] theorem modCore_uuAdd (n : CoreIx) (f : CoreSt → CoreSt) (s : State) : (modCore n f s).uuAdd = s.uuAdd := rfl
@[simp] theorem modCore_uuOpt (n : CoreIx) (f : CoreSt → CoreSt) (s : State) : (modCore n f s).uuOpt = s.uuOpt := rfl
@[simp] theorem modCore_uuBusy (n : CoreIx) (f : CoreSt → CoreSt) (s : State) : (modCore n f s).uuBusy = s.uuBusy := rfl
@[simp] theorem modCore_uuNow (n : CoreIx) (f : CoreSt → CoreSt) (s : State) : (modCore n f s).uuNow = s.uuNow := rfl
@[simp] theorem modCore_recs (n : CoreIx) (f : CoreSt → CoreSt) (s : State) : (modCore n f s).recs = s.recs := rfl
@[simp] theorem modCore_parts (n : CoreIx) (f : CoreSt → CoreSt) (s : State) : (modCore n f s).parts = s.parts := rfl
@[simp] theorem modCore_rings (n : CoreIx) (f : CoreSt → CoreSt) (s : State) : (modCore n f s).rings = s.rings := rfl
@[simp] theorem modCore_faces (n : CoreIx) (f : CoreSt → CoreSt) (s : State) : (modCore n f s).faces = s.faces := rfl
@[simp] theorem modCore_seg (n : CoreIx) (f : CoreSt → CoreSt) (s : State) : (modCore n f s).seg = s.seg := rfl
@[simp] theorem modCore_rcc (n : CoreIx) (f : CoreSt → CoreSt) (s : State) : (modCore n f s).rcc = s.rcc := rfl
@[simp] theorem modCore_run (n : CoreIx) (f : CoreSt → CoreSt) (s : State) : (modCore n f s).run = s.run := rfl
@[simp] theorem modCore_adm (n : CoreIx) (f : CoreSt → CoreSt) (s : State) : (modCore n f s).adm = s.adm := rfl
@[simp] theorem modCore_err (n : CoreIx) (f : CoreSt → CoreSt) (s : State) : (modCore n f s).err = s.err := rfl
@[simp] theorem modCore_pw (n : CoreIx) (f : CoreSt → CoreSt) (s : State) : (modCore n f s).pw = s.pw := rfl

@[simp] theorem modCluster_pending (c : ClusterIx) (f : ClusterSt → ClusterSt) (s : State) : (modCluster c f s).pending = s.pending := rfl
@[simp] theorem modCluster_out (c : ClusterIx) (f : ClusterSt → ClusterSt) (s : State) : (modCluster c f s).out = s.out := rfl
@[simp] theorem modCluster_freeIx (c : ClusterIx) (f : ClusterSt → ClusterSt) (s : State) : (modCluster c f s).freeIx = s.freeIx := rfl
@[simp] theorem modCluster_nv (c : ClusterIx) (f : ClusterSt → ClusterSt) (s : State) : (modCluster c f s).nv = s.nv := rfl
@[simp] theorem modCluster_cc (c : ClusterIx) (f : ClusterSt → ClusterSt) (s : State) : (modCluster c f s).cc = s.cc := rfl
@[simp] theorem modCluster_sec (c : ClusterIx) (f : ClusterSt → ClusterSt) (s : State) : (modCluster c f s).sec = s.sec := (rfl)
@[simp] theorem modCluster_regs (c : ClusterIx) (f : ClusterSt → ClusterSt) (s : State) : (modCluster c f s).regs = s.regs := rfl
@[simp] theorem modCluster_mc (c : ClusterIx) (f : ClusterSt → ClusterSt) (s : State) : (modCluster c f s).mc = s.mc := rfl
@[simp] theorem modCluster_plane (c : ClusterIx) (f : ClusterSt → ClusterSt) (s : State) : (modCluster c f s).plane = s.plane := rfl
@[simp] theorem modCluster_ports (c : ClusterIx) (f : ClusterSt → ClusterSt) (s : State) : (modCluster c f s).ports = s.ports := rfl
@[simp] theorem modCluster_epoch (c : ClusterIx) (f : ClusterSt → ClusterSt) (s : State) : (modCluster c f s).epoch = s.epoch := rfl
@[simp] theorem modCluster_epochPend (c : ClusterIx) (f : ClusterSt → ClusterSt) (s : State) : (modCluster c f s).epochPend = s.epochPend := rfl
@[simp] theorem modCluster_progs (c : ClusterIx) (f : ClusterSt → ClusterSt) (s : State) : (modCluster c f s).progs = s.progs := rfl
@[simp] theorem modCluster_instStatus (c : ClusterIx) (f : ClusterSt → ClusterSt) (s : State) : (modCluster c f s).instStatus = s.instStatus := rfl
@[simp] theorem modCluster_cores (c : ClusterIx) (f : ClusterSt → ClusterSt) (s : State) : (modCluster c f s).cores = s.cores := (rfl)
@[simp] theorem modCluster_clusters (c : ClusterIx) (f : ClusterSt → ClusterSt) (s : State) : (modCluster c f s).clusters = vmod s.clusters c f := rfl
@[simp] theorem modCluster_hbm (c : ClusterIx) (f : ClusterSt → ClusterSt) (s : State) : (modCluster c f s).hbm = s.hbm := rfl
@[simp] theorem modCluster_slots (c : ClusterIx) (f : ClusterSt → ClusterSt) (s : State) : (modCluster c f s).slots = s.slots := rfl
@[simp] theorem modCluster_vrecs (c : ClusterIx) (f : ClusterSt → ClusterSt) (s : State) : (modCluster c f s).vrecs = s.vrecs := rfl
@[simp] theorem modCluster_attrNext (c : ClusterIx) (f : ClusterSt → ClusterSt) (s : State) : (modCluster c f s).attrNext = s.attrNext := rfl
@[simp] theorem modCluster_evictNext (c : ClusterIx) (f : ClusterSt → ClusterSt) (s : State) : (modCluster c f s).evictNext = s.evictNext := rfl
@[simp] theorem modCluster_residentNext (c : ClusterIx) (f : ClusterSt → ClusterSt) (s : State) : (modCluster c f s).residentNext = s.residentNext := rfl
@[simp] theorem modCluster_tensors (c : ClusterIx) (f : ClusterSt → ClusterSt) (s : State) : (modCluster c f s).tensors = s.tensors := rfl
@[simp] theorem modCluster_tensorNext (c : ClusterIx) (f : ClusterSt → ClusterSt) (s : State) : (modCluster c f s).tensorNext = s.tensorNext := rfl
@[simp] theorem modCluster_tdigs (c : ClusterIx) (f : ClusterSt → ClusterSt) (s : State) : (modCluster c f s).tdigs = s.tdigs := rfl
@[simp] theorem modCluster_freezeNext (c : ClusterIx) (f : ClusterSt → ClusterSt) (s : State) : (modCluster c f s).freezeNext = s.freezeNext := rfl
@[simp] theorem modCluster_uuAdd (c : ClusterIx) (f : ClusterSt → ClusterSt) (s : State) : (modCluster c f s).uuAdd = s.uuAdd := rfl
@[simp] theorem modCluster_uuOpt (c : ClusterIx) (f : ClusterSt → ClusterSt) (s : State) : (modCluster c f s).uuOpt = s.uuOpt := rfl
@[simp] theorem modCluster_uuBusy (c : ClusterIx) (f : ClusterSt → ClusterSt) (s : State) : (modCluster c f s).uuBusy = s.uuBusy := rfl
@[simp] theorem modCluster_uuNow (c : ClusterIx) (f : ClusterSt → ClusterSt) (s : State) : (modCluster c f s).uuNow = s.uuNow := rfl
@[simp] theorem modCluster_recs (c : ClusterIx) (f : ClusterSt → ClusterSt) (s : State) : (modCluster c f s).recs = s.recs := rfl
@[simp] theorem modCluster_parts (c : ClusterIx) (f : ClusterSt → ClusterSt) (s : State) : (modCluster c f s).parts = s.parts := rfl
@[simp] theorem modCluster_rings (c : ClusterIx) (f : ClusterSt → ClusterSt) (s : State) : (modCluster c f s).rings = s.rings := rfl
@[simp] theorem modCluster_faces (c : ClusterIx) (f : ClusterSt → ClusterSt) (s : State) : (modCluster c f s).faces = s.faces := rfl
@[simp] theorem modCluster_seg (c : ClusterIx) (f : ClusterSt → ClusterSt) (s : State) : (modCluster c f s).seg = s.seg := rfl
@[simp] theorem modCluster_rcc (c : ClusterIx) (f : ClusterSt → ClusterSt) (s : State) : (modCluster c f s).rcc = s.rcc := rfl
@[simp] theorem modCluster_run (c : ClusterIx) (f : ClusterSt → ClusterSt) (s : State) : (modCluster c f s).run = s.run := rfl
@[simp] theorem modCluster_adm (c : ClusterIx) (f : ClusterSt → ClusterSt) (s : State) : (modCluster c f s).adm = s.adm := rfl
@[simp] theorem modCluster_err (c : ClusterIx) (f : ClusterSt → ClusterSt) (s : State) : (modCluster c f s).err = s.err := rfl
@[simp] theorem modCluster_pw (c : ClusterIx) (f : ClusterSt → ClusterSt) (s : State) : (modCluster c f s).pw = s.pw := rfl

@[simp] theorem putFront_pending (c : Instr) (s : State) : (putFront c s).pending = c :: s.pending := rfl
@[simp] theorem putFront_out (c : Instr) (s : State) : (putFront c s).out = s.out := rfl
@[simp] theorem putFront_freeIx (c : Instr) (s : State) : (putFront c s).freeIx = s.freeIx := rfl
@[simp] theorem putFront_nv (c : Instr) (s : State) : (putFront c s).nv = s.nv := rfl
@[simp] theorem putFront_cc (c : Instr) (s : State) : (putFront c s).cc = s.cc := rfl
@[simp] theorem putFront_sec (c : Instr) (s : State) : (putFront c s).sec = s.sec := (rfl)
@[simp] theorem putFront_regs (c : Instr) (s : State) : (putFront c s).regs = s.regs := rfl
@[simp] theorem putFront_mc (c : Instr) (s : State) : (putFront c s).mc = s.mc := rfl
@[simp] theorem putFront_plane (c : Instr) (s : State) : (putFront c s).plane = s.plane := rfl
@[simp] theorem putFront_ports (c : Instr) (s : State) : (putFront c s).ports = s.ports := rfl
@[simp] theorem putFront_epoch (c : Instr) (s : State) : (putFront c s).epoch = s.epoch := rfl
@[simp] theorem putFront_epochPend (c : Instr) (s : State) : (putFront c s).epochPend = s.epochPend := rfl
@[simp] theorem putFront_progs (c : Instr) (s : State) : (putFront c s).progs = s.progs := rfl
@[simp] theorem putFront_instStatus (c : Instr) (s : State) : (putFront c s).instStatus = s.instStatus := rfl
@[simp] theorem putFront_cores (c : Instr) (s : State) : (putFront c s).cores = s.cores := (rfl)
@[simp] theorem putFront_clusters (c : Instr) (s : State) : (putFront c s).clusters = s.clusters := rfl
@[simp] theorem putFront_hbm (c : Instr) (s : State) : (putFront c s).hbm = s.hbm := rfl
@[simp] theorem putFront_slots (c : Instr) (s : State) : (putFront c s).slots = s.slots := rfl
@[simp] theorem putFront_vrecs (c : Instr) (s : State) : (putFront c s).vrecs = s.vrecs := rfl
@[simp] theorem putFront_attrNext (c : Instr) (s : State) : (putFront c s).attrNext = s.attrNext := rfl
@[simp] theorem putFront_evictNext (c : Instr) (s : State) : (putFront c s).evictNext = s.evictNext := rfl
@[simp] theorem putFront_residentNext (c : Instr) (s : State) : (putFront c s).residentNext = s.residentNext := rfl
@[simp] theorem putFront_tensors (c : Instr) (s : State) : (putFront c s).tensors = s.tensors := rfl
@[simp] theorem putFront_tensorNext (c : Instr) (s : State) : (putFront c s).tensorNext = s.tensorNext := rfl
@[simp] theorem putFront_tdigs (c : Instr) (s : State) : (putFront c s).tdigs = s.tdigs := rfl
@[simp] theorem putFront_freezeNext (c : Instr) (s : State) : (putFront c s).freezeNext = s.freezeNext := rfl
@[simp] theorem putFront_uuAdd (c : Instr) (s : State) : (putFront c s).uuAdd = s.uuAdd := rfl
@[simp] theorem putFront_uuOpt (c : Instr) (s : State) : (putFront c s).uuOpt = s.uuOpt := rfl
@[simp] theorem putFront_uuBusy (c : Instr) (s : State) : (putFront c s).uuBusy = s.uuBusy := rfl
@[simp] theorem putFront_uuNow (c : Instr) (s : State) : (putFront c s).uuNow = s.uuNow := rfl
@[simp] theorem putFront_recs (c : Instr) (s : State) : (putFront c s).recs = s.recs := rfl
@[simp] theorem putFront_parts (c : Instr) (s : State) : (putFront c s).parts = s.parts := rfl
@[simp] theorem putFront_rings (c : Instr) (s : State) : (putFront c s).rings = s.rings := rfl
@[simp] theorem putFront_faces (c : Instr) (s : State) : (putFront c s).faces = s.faces := rfl
@[simp] theorem putFront_seg (c : Instr) (s : State) : (putFront c s).seg = s.seg := rfl
@[simp] theorem putFront_rcc (c : Instr) (s : State) : (putFront c s).rcc = s.rcc := rfl
@[simp] theorem putFront_run (c : Instr) (s : State) : (putFront c s).run = s.run := rfl
@[simp] theorem putFront_adm (c : Instr) (s : State) : (putFront c s).adm = s.adm := rfl
@[simp] theorem putFront_err (c : Instr) (s : State) : (putFront c s).err = s.err := rfl
@[simp] theorem putFront_pw (c : Instr) (s : State) : (putFront c s).pw = s.pw := rfl

@[simp] theorem withQueue_pending (l : List Instr) (s : State) : (withQueue l s).pending = l := rfl
@[simp] theorem withQueue_out (l : List Instr) (s : State) : (withQueue l s).out = s.out := rfl
@[simp] theorem withQueue_freeIx (l : List Instr) (s : State) : (withQueue l s).freeIx = s.freeIx := rfl
@[simp] theorem withQueue_nv (l : List Instr) (s : State) : (withQueue l s).nv = s.nv := rfl
@[simp] theorem withQueue_cc (l : List Instr) (s : State) : (withQueue l s).cc = s.cc := rfl
@[simp] theorem withQueue_sec (l : List Instr) (s : State) : (withQueue l s).sec = s.sec := (rfl)
@[simp] theorem withQueue_regs (l : List Instr) (s : State) : (withQueue l s).regs = s.regs := rfl
@[simp] theorem withQueue_mc (l : List Instr) (s : State) : (withQueue l s).mc = s.mc := rfl
@[simp] theorem withQueue_plane (l : List Instr) (s : State) : (withQueue l s).plane = s.plane := rfl
@[simp] theorem withQueue_ports (l : List Instr) (s : State) : (withQueue l s).ports = s.ports := rfl
@[simp] theorem withQueue_epoch (l : List Instr) (s : State) : (withQueue l s).epoch = s.epoch := rfl
@[simp] theorem withQueue_epochPend (l : List Instr) (s : State) : (withQueue l s).epochPend = s.epochPend := rfl
@[simp] theorem withQueue_progs (l : List Instr) (s : State) : (withQueue l s).progs = s.progs := rfl
@[simp] theorem withQueue_instStatus (l : List Instr) (s : State) : (withQueue l s).instStatus = s.instStatus := rfl
@[simp] theorem withQueue_cores (l : List Instr) (s : State) : (withQueue l s).cores = s.cores := (rfl)
@[simp] theorem withQueue_clusters (l : List Instr) (s : State) : (withQueue l s).clusters = s.clusters := rfl
@[simp] theorem withQueue_hbm (l : List Instr) (s : State) : (withQueue l s).hbm = s.hbm := rfl
@[simp] theorem withQueue_slots (l : List Instr) (s : State) : (withQueue l s).slots = s.slots := rfl
@[simp] theorem withQueue_vrecs (l : List Instr) (s : State) : (withQueue l s).vrecs = s.vrecs := rfl
@[simp] theorem withQueue_attrNext (l : List Instr) (s : State) : (withQueue l s).attrNext = s.attrNext := rfl
@[simp] theorem withQueue_evictNext (l : List Instr) (s : State) : (withQueue l s).evictNext = s.evictNext := rfl
@[simp] theorem withQueue_residentNext (l : List Instr) (s : State) : (withQueue l s).residentNext = s.residentNext := rfl
@[simp] theorem withQueue_tensors (l : List Instr) (s : State) : (withQueue l s).tensors = s.tensors := rfl
@[simp] theorem withQueue_tensorNext (l : List Instr) (s : State) : (withQueue l s).tensorNext = s.tensorNext := rfl
@[simp] theorem withQueue_tdigs (l : List Instr) (s : State) : (withQueue l s).tdigs = s.tdigs := rfl
@[simp] theorem withQueue_freezeNext (l : List Instr) (s : State) : (withQueue l s).freezeNext = s.freezeNext := rfl
@[simp] theorem withQueue_uuAdd (l : List Instr) (s : State) : (withQueue l s).uuAdd = s.uuAdd := rfl
@[simp] theorem withQueue_uuOpt (l : List Instr) (s : State) : (withQueue l s).uuOpt = s.uuOpt := rfl
@[simp] theorem withQueue_uuBusy (l : List Instr) (s : State) : (withQueue l s).uuBusy = s.uuBusy := rfl
@[simp] theorem withQueue_uuNow (l : List Instr) (s : State) : (withQueue l s).uuNow = s.uuNow := rfl
@[simp] theorem withQueue_recs (l : List Instr) (s : State) : (withQueue l s).recs = s.recs := rfl
@[simp] theorem withQueue_parts (l : List Instr) (s : State) : (withQueue l s).parts = s.parts := rfl
@[simp] theorem withQueue_rings (l : List Instr) (s : State) : (withQueue l s).rings = s.rings := rfl
@[simp] theorem withQueue_faces (l : List Instr) (s : State) : (withQueue l s).faces = s.faces := rfl
@[simp] theorem withQueue_seg (l : List Instr) (s : State) : (withQueue l s).seg = s.seg := rfl
@[simp] theorem withQueue_rcc (l : List Instr) (s : State) : (withQueue l s).rcc = s.rcc := rfl
@[simp] theorem withQueue_run (l : List Instr) (s : State) : (withQueue l s).run = s.run := rfl
@[simp] theorem withQueue_adm (l : List Instr) (s : State) : (withQueue l s).adm = s.adm := rfl
@[simp] theorem withQueue_err (l : List Instr) (s : State) : (withQueue l s).err = s.err := rfl
@[simp] theorem withQueue_pw (l : List Instr) (s : State) : (withQueue l s).pw = s.pw := rfl

@[simp] theorem raiseInt_pending (p : Fin 32) (b : Nat) (s : State) : (raiseInt p b s).pending = s.pending := rfl
@[simp] theorem raiseInt_out (p : Fin 32) (b : Nat) (s : State) : (raiseInt p b s).out = s.out := rfl
@[simp] theorem raiseInt_freeIx (p : Fin 32) (b : Nat) (s : State) : (raiseInt p b s).freeIx = s.freeIx := rfl
@[simp] theorem raiseInt_nv (p : Fin 32) (b : Nat) (s : State) : (raiseInt p b s).nv = s.nv := rfl
@[simp] theorem raiseInt_cc (p : Fin 32) (b : Nat) (s : State) : (raiseInt p b s).cc = s.cc := rfl
@[simp] theorem raiseInt_sec (p : Fin 32) (b : Nat) (s : State) : (raiseInt p b s).sec = s.sec := rfl
@[simp] theorem raiseInt_mc (p : Fin 32) (b : Nat) (s : State) : (raiseInt p b s).mc = s.mc := rfl
@[simp] theorem raiseInt_plane (p : Fin 32) (b : Nat) (s : State) : (raiseInt p b s).plane = s.plane := rfl
@[simp] theorem raiseInt_ports (p : Fin 32) (b : Nat) (s : State) : (raiseInt p b s).ports = s.ports := rfl
@[simp] theorem raiseInt_epoch (p : Fin 32) (b : Nat) (s : State) : (raiseInt p b s).epoch = s.epoch := rfl
@[simp] theorem raiseInt_epochPend (p : Fin 32) (b : Nat) (s : State) : (raiseInt p b s).epochPend = s.epochPend := rfl
@[simp] theorem raiseInt_progs (p : Fin 32) (b : Nat) (s : State) : (raiseInt p b s).progs = s.progs := rfl
@[simp] theorem raiseInt_instStatus (p : Fin 32) (b : Nat) (s : State) : (raiseInt p b s).instStatus = s.instStatus := rfl
@[simp] theorem raiseInt_cores (p : Fin 32) (b : Nat) (s : State) : (raiseInt p b s).cores = s.cores := rfl
@[simp] theorem raiseInt_clusters (p : Fin 32) (b : Nat) (s : State) : (raiseInt p b s).clusters = s.clusters := rfl
@[simp] theorem raiseInt_hbm (p : Fin 32) (b : Nat) (s : State) : (raiseInt p b s).hbm = s.hbm := rfl
@[simp] theorem raiseInt_slots (p : Fin 32) (b : Nat) (s : State) : (raiseInt p b s).slots = s.slots := rfl
@[simp] theorem raiseInt_vrecs (p : Fin 32) (b : Nat) (s : State) : (raiseInt p b s).vrecs = s.vrecs := rfl
@[simp] theorem raiseInt_attrNext (p : Fin 32) (b : Nat) (s : State) : (raiseInt p b s).attrNext = s.attrNext := rfl
@[simp] theorem raiseInt_evictNext (p : Fin 32) (b : Nat) (s : State) : (raiseInt p b s).evictNext = s.evictNext := rfl
@[simp] theorem raiseInt_residentNext (p : Fin 32) (b : Nat) (s : State) : (raiseInt p b s).residentNext = s.residentNext := rfl
@[simp] theorem raiseInt_tensors (p : Fin 32) (b : Nat) (s : State) : (raiseInt p b s).tensors = s.tensors := rfl
@[simp] theorem raiseInt_tensorNext (p : Fin 32) (b : Nat) (s : State) : (raiseInt p b s).tensorNext = s.tensorNext := rfl
@[simp] theorem raiseInt_tdigs (p : Fin 32) (b : Nat) (s : State) : (raiseInt p b s).tdigs = s.tdigs := rfl
@[simp] theorem raiseInt_freezeNext (p : Fin 32) (b : Nat) (s : State) : (raiseInt p b s).freezeNext = s.freezeNext := rfl
@[simp] theorem raiseInt_uuAdd (p : Fin 32) (b : Nat) (s : State) : (raiseInt p b s).uuAdd = s.uuAdd := rfl
@[simp] theorem raiseInt_uuOpt (p : Fin 32) (b : Nat) (s : State) : (raiseInt p b s).uuOpt = s.uuOpt := rfl
@[simp] theorem raiseInt_uuBusy (p : Fin 32) (b : Nat) (s : State) : (raiseInt p b s).uuBusy = s.uuBusy := rfl
@[simp] theorem raiseInt_uuNow (p : Fin 32) (b : Nat) (s : State) : (raiseInt p b s).uuNow = s.uuNow := rfl
@[simp] theorem raiseInt_recs (p : Fin 32) (b : Nat) (s : State) : (raiseInt p b s).recs = s.recs := rfl
@[simp] theorem raiseInt_parts (p : Fin 32) (b : Nat) (s : State) : (raiseInt p b s).parts = s.parts := rfl
@[simp] theorem raiseInt_rings (p : Fin 32) (b : Nat) (s : State) : (raiseInt p b s).rings = s.rings := rfl
@[simp] theorem raiseInt_faces (p : Fin 32) (b : Nat) (s : State) : (raiseInt p b s).faces = s.faces := rfl
@[simp] theorem raiseInt_seg (p : Fin 32) (b : Nat) (s : State) : (raiseInt p b s).seg = s.seg := rfl
@[simp] theorem raiseInt_rcc (p : Fin 32) (b : Nat) (s : State) : (raiseInt p b s).rcc = s.rcc := rfl
@[simp] theorem raiseInt_run (p : Fin 32) (b : Nat) (s : State) : (raiseInt p b s).run = s.run := rfl
@[simp] theorem raiseInt_adm (p : Fin 32) (b : Nat) (s : State) : (raiseInt p b s).adm = s.adm := rfl
@[simp] theorem raiseInt_err (p : Fin 32) (b : Nat) (s : State) : (raiseInt p b s).err = s.err := rfl
@[simp] theorem raiseInt_pw (p : Fin 32) (b : Nat) (s : State) : (raiseInt p b s).pw = s.pw := rfl

@[simp] theorem chipLog_pending (c : Nat) (k : ErrClass) (a b d e : Nat) (s : State) : (chipLog c k a b d e s).pending = s.pending := by simp [chipLog]
@[simp] theorem chipLog_out (c : Nat) (k : ErrClass) (a b d e : Nat) (s : State) : (chipLog c k a b d e s).out = s.out := by simp [chipLog]
@[simp] theorem chipLog_freeIx (c : Nat) (k : ErrClass) (a b d e : Nat) (s : State) : (chipLog c k a b d e s).freeIx = s.freeIx := by simp [chipLog]
@[simp] theorem chipLog_nv (c : Nat) (k : ErrClass) (a b d e : Nat) (s : State) : (chipLog c k a b d e s).nv = s.nv := by simp [chipLog]
@[simp] theorem chipLog_cc (c : Nat) (k : ErrClass) (a b d e : Nat) (s : State) : (chipLog c k a b d e s).cc = s.cc := by simp [chipLog]
@[simp] theorem chipLog_sec (c : Nat) (k : ErrClass) (a b d e : Nat) (s : State) : (chipLog c k a b d e s).sec = s.sec := by simp [chipLog]
@[simp] theorem chipLog_mc (c : Nat) (k : ErrClass) (a b d e : Nat) (s : State) : (chipLog c k a b d e s).mc = s.mc := by simp [chipLog]
@[simp] theorem chipLog_plane (c : Nat) (k : ErrClass) (a b d e : Nat) (s : State) : (chipLog c k a b d e s).plane = s.plane := by simp [chipLog]
@[simp] theorem chipLog_ports (c : Nat) (k : ErrClass) (a b d e : Nat) (s : State) : (chipLog c k a b d e s).ports = s.ports := by simp [chipLog]
@[simp] theorem chipLog_epoch (c : Nat) (k : ErrClass) (a b d e : Nat) (s : State) : (chipLog c k a b d e s).epoch = s.epoch := by simp [chipLog]
@[simp] theorem chipLog_epochPend (c : Nat) (k : ErrClass) (a b d e : Nat) (s : State) : (chipLog c k a b d e s).epochPend = s.epochPend := by simp [chipLog]
@[simp] theorem chipLog_progs (c : Nat) (k : ErrClass) (a b d e : Nat) (s : State) : (chipLog c k a b d e s).progs = s.progs := by simp [chipLog]
@[simp] theorem chipLog_instStatus (c : Nat) (k : ErrClass) (a b d e : Nat) (s : State) : (chipLog c k a b d e s).instStatus = s.instStatus := by simp [chipLog]
@[simp] theorem chipLog_cores (c : Nat) (k : ErrClass) (a b d e : Nat) (s : State) : (chipLog c k a b d e s).cores = s.cores := by simp [chipLog]
@[simp] theorem chipLog_clusters (c : Nat) (k : ErrClass) (a b d e : Nat) (s : State) : (chipLog c k a b d e s).clusters = s.clusters := by simp [chipLog]
@[simp] theorem chipLog_hbm (c : Nat) (k : ErrClass) (a b d e : Nat) (s : State) : (chipLog c k a b d e s).hbm = s.hbm := by simp [chipLog]
@[simp] theorem chipLog_slots (c : Nat) (k : ErrClass) (a b d e : Nat) (s : State) : (chipLog c k a b d e s).slots = s.slots := by simp [chipLog]
@[simp] theorem chipLog_vrecs (c : Nat) (k : ErrClass) (a b d e : Nat) (s : State) : (chipLog c k a b d e s).vrecs = s.vrecs := by simp [chipLog]
@[simp] theorem chipLog_attrNext (c : Nat) (k : ErrClass) (a b d e : Nat) (s : State) : (chipLog c k a b d e s).attrNext = s.attrNext := by simp [chipLog]
@[simp] theorem chipLog_evictNext (c : Nat) (k : ErrClass) (a b d e : Nat) (s : State) : (chipLog c k a b d e s).evictNext = s.evictNext := by simp [chipLog]
@[simp] theorem chipLog_residentNext (c : Nat) (k : ErrClass) (a b d e : Nat) (s : State) : (chipLog c k a b d e s).residentNext = s.residentNext := by simp [chipLog]
@[simp] theorem chipLog_tensors (c : Nat) (k : ErrClass) (a b d e : Nat) (s : State) : (chipLog c k a b d e s).tensors = s.tensors := by simp [chipLog]
@[simp] theorem chipLog_tensorNext (c : Nat) (k : ErrClass) (a b d e : Nat) (s : State) : (chipLog c k a b d e s).tensorNext = s.tensorNext := by simp [chipLog]
@[simp] theorem chipLog_tdigs (c : Nat) (k : ErrClass) (a b d e : Nat) (s : State) : (chipLog c k a b d e s).tdigs = s.tdigs := by simp [chipLog]
@[simp] theorem chipLog_freezeNext (c : Nat) (k : ErrClass) (a b d e : Nat) (s : State) : (chipLog c k a b d e s).freezeNext = s.freezeNext := by simp [chipLog]
@[simp] theorem chipLog_uuAdd (c : Nat) (k : ErrClass) (a b d e : Nat) (s : State) : (chipLog c k a b d e s).uuAdd = s.uuAdd := by simp [chipLog]
@[simp] theorem chipLog_uuOpt (c : Nat) (k : ErrClass) (a b d e : Nat) (s : State) : (chipLog c k a b d e s).uuOpt = s.uuOpt := by simp [chipLog]
@[simp] theorem chipLog_uuBusy (c : Nat) (k : ErrClass) (a b d e : Nat) (s : State) : (chipLog c k a b d e s).uuBusy = s.uuBusy := by simp [chipLog]
@[simp] theorem chipLog_uuNow (c : Nat) (k : ErrClass) (a b d e : Nat) (s : State) : (chipLog c k a b d e s).uuNow = s.uuNow := by simp [chipLog]
@[simp] theorem chipLog_recs (c : Nat) (k : ErrClass) (a b d e : Nat) (s : State) : (chipLog c k a b d e s).recs = s.recs := by simp [chipLog]
@[simp] theorem chipLog_parts (c : Nat) (k : ErrClass) (a b d e : Nat) (s : State) : (chipLog c k a b d e s).parts = s.parts := by simp [chipLog]
@[simp] theorem chipLog_rings (c : Nat) (k : ErrClass) (a b d e : Nat) (s : State) : (chipLog c k a b d e s).rings = s.rings := by simp [chipLog]
@[simp] theorem chipLog_faces (c : Nat) (k : ErrClass) (a b d e : Nat) (s : State) : (chipLog c k a b d e s).faces = s.faces := by simp [chipLog]
@[simp] theorem chipLog_seg (c : Nat) (k : ErrClass) (a b d e : Nat) (s : State) : (chipLog c k a b d e s).seg = s.seg := by simp [chipLog]
@[simp] theorem chipLog_rcc (c : Nat) (k : ErrClass) (a b d e : Nat) (s : State) : (chipLog c k a b d e s).rcc = s.rcc := by simp [chipLog]
@[simp] theorem chipLog_run (c : Nat) (k : ErrClass) (a b d e : Nat) (s : State) : (chipLog c k a b d e s).run = s.run := by simp [chipLog]
@[simp] theorem chipLog_adm (c : Nat) (k : ErrClass) (a b d e : Nat) (s : State) : (chipLog c k a b d e s).adm = s.adm := by simp [chipLog]
@[simp] theorem chipLog_pw (c : Nat) (k : ErrClass) (a b d e : Nat) (s : State) : (chipLog c k a b d e s).pw = s.pw := by simp [chipLog]

/-- The chip log keeps the last 1,024 entries (R432). -/
theorem chipLog_length (c : Nat) (k : ErrClass) (a b d e : Nat) (s : State) : (chipLog c k a b d e s).err.log.length ≤ 1024 := by
  simp [chipLog]; omega

end Sys2Proof.Machine
end

