-- ==== Sys2Proof/Laws/Shared.lean ====
section
/-!
SUPPORT. What the operations shared by the commands leave as it is: links, fence, error records, latches and the issue of
words, one lemma for each field of each operation.
-/

namespace Sys2Proof.Machine

@[simp] theorem report_pending (w : String) (s : State) : (report w s).pending = s.pending := rfl
@[simp] theorem report_freeIx (w : String) (s : State) : (report w s).freeIx = s.freeIx := rfl
@[simp] theorem report_nv (w : String) (s : State) : (report w s).nv = s.nv := rfl
@[simp] theorem report_cc (w : String) (s : State) : (report w s).cc = s.cc := rfl
@[simp] theorem report_sec (w : String) (s : State) : (report w s).sec = s.sec := (rfl)
@[simp] theorem report_regs (w : String) (s : State) : (report w s).regs = s.regs := rfl
@[simp] theorem report_mc (w : String) (s : State) : (report w s).mc = s.mc := rfl
@[simp] theorem report_plane (w : String) (s : State) : (report w s).plane = s.plane := rfl
@[simp] theorem report_ports (w : String) (s : State) : (report w s).ports = s.ports := rfl
@[simp] theorem report_epoch (w : String) (s : State) : (report w s).epoch = s.epoch := rfl
@[simp] theorem report_epochPend (w : String) (s : State) : (report w s).epochPend = s.epochPend := rfl
@[simp] theorem report_progs (w : String) (s : State) : (report w s).progs = s.progs := rfl
@[simp] theorem report_instStatus (w : String) (s : State) : (report w s).instStatus = s.instStatus := rfl
@[simp] theorem report_cores (w : String) (s : State) : (report w s).cores = s.cores := (rfl)
@[simp] theorem report_clusters (w : String) (s : State) : (report w s).clusters = s.clusters := rfl
@[simp] theorem report_hbm (w : String) (s : State) : (report w s).hbm = s.hbm := rfl
@[simp] theorem report_slots (w : String) (s : State) : (report w s).slots = s.slots := rfl
@[simp] theorem report_vrecs (w : String) (s : State) : (report w s).vrecs = s.vrecs := rfl
@[simp] theorem report_attrNext (w : String) (s : State) : (report w s).attrNext = s.attrNext := rfl
@[simp] theorem report_evictNext (w : String) (s : State) : (report w s).evictNext = s.evictNext := rfl
@[simp] theorem report_residentNext (w : String) (s : State) : (report w s).residentNext = s.residentNext := rfl
@[simp] theorem report_tensors (w : String) (s : State) : (report w s).tensors = s.tensors := rfl
@[simp] theorem report_tensorNext (w : String) (s : State) : (report w s).tensorNext = s.tensorNext := rfl
@[simp] theorem report_tdigs (w : String) (s : State) : (report w s).tdigs = s.tdigs := rfl
@[simp] theorem report_freezeNext (w : String) (s : State) : (report w s).freezeNext = s.freezeNext := rfl
@[simp] theorem report_uuAdd (w : String) (s : State) : (report w s).uuAdd = s.uuAdd := rfl
@[simp] theorem report_uuOpt (w : String) (s : State) : (report w s).uuOpt = s.uuOpt := rfl
@[simp] theorem report_uuBusy (w : String) (s : State) : (report w s).uuBusy = s.uuBusy := rfl
@[simp] theorem report_uuNow (w : String) (s : State) : (report w s).uuNow = s.uuNow := rfl
@[simp] theorem report_recs (w : String) (s : State) : (report w s).recs = s.recs := rfl
@[simp] theorem report_parts (w : String) (s : State) : (report w s).parts = s.parts := rfl
@[simp] theorem report_rings (w : String) (s : State) : (report w s).rings = s.rings := rfl
@[simp] theorem report_faces (w : String) (s : State) : (report w s).faces = s.faces := rfl
@[simp] theorem report_seg (w : String) (s : State) : (report w s).seg = s.seg := rfl
@[simp] theorem report_rcc (w : String) (s : State) : (report w s).rcc = s.rcc := rfl
@[simp] theorem report_run (w : String) (s : State) : (report w s).run = s.run := rfl
@[simp] theorem report_adm (w : String) (s : State) : (report w s).adm = s.adm := rfl
@[simp] theorem report_err (w : String) (s : State) : (report w s).err = s.err := rfl
@[simp] theorem report_pw (w : String) (s : State) : (report w s).pw = s.pw := rfl

@[simp] theorem countCorrected_pending (n : Nat) (s : State) : (countCorrected n s).pending = s.pending := rfl
@[simp] theorem countCorrected_out (n : Nat) (s : State) : (countCorrected n s).out = s.out := rfl
@[simp] theorem countCorrected_freeIx (n : Nat) (s : State) : (countCorrected n s).freeIx = s.freeIx := rfl
@[simp] theorem countCorrected_nv (n : Nat) (s : State) : (countCorrected n s).nv = s.nv := rfl
@[simp] theorem countCorrected_cc (n : Nat) (s : State) : (countCorrected n s).cc = s.cc := rfl
@[simp] theorem countCorrected_sec (n : Nat) (s : State) : (countCorrected n s).sec = s.sec := (rfl)
@[simp] theorem countCorrected_regs (n : Nat) (s : State) : (countCorrected n s).regs = s.regs := rfl
@[simp] theorem countCorrected_mc (n : Nat) (s : State) : (countCorrected n s).mc = s.mc := rfl
@[simp] theorem countCorrected_plane (n : Nat) (s : State) : (countCorrected n s).plane = s.plane := rfl
@[simp] theorem countCorrected_ports (n : Nat) (s : State) : (countCorrected n s).ports = s.ports := rfl
@[simp] theorem countCorrected_epoch (n : Nat) (s : State) : (countCorrected n s).epoch = s.epoch := rfl
@[simp] theorem countCorrected_epochPend (n : Nat) (s : State) : (countCorrected n s).epochPend = s.epochPend := rfl
@[simp] theorem countCorrected_progs (n : Nat) (s : State) : (countCorrected n s).progs = s.progs := rfl
@[simp] theorem countCorrected_instStatus (n : Nat) (s : State) : (countCorrected n s).instStatus = s.instStatus := rfl
@[simp] theorem countCorrected_cores (n : Nat) (s : State) : (countCorrected n s).cores = s.cores := (rfl)
@[simp] theorem countCorrected_clusters (n : Nat) (s : State) : (countCorrected n s).clusters = s.clusters := rfl
@[simp] theorem countCorrected_hbm (n : Nat) (s : State) : (countCorrected n s).hbm = s.hbm := rfl
@[simp] theorem countCorrected_slots (n : Nat) (s : State) : (countCorrected n s).slots = s.slots := rfl
@[simp] theorem countCorrected_vrecs (n : Nat) (s : State) : (countCorrected n s).vrecs = s.vrecs := rfl
@[simp] theorem countCorrected_attrNext (n : Nat) (s : State) : (countCorrected n s).attrNext = s.attrNext := rfl
@[simp] theorem countCorrected_evictNext (n : Nat) (s : State) : (countCorrected n s).evictNext = s.evictNext := rfl
@[simp] theorem countCorrected_residentNext (n : Nat) (s : State) : (countCorrected n s).residentNext = s.residentNext := rfl
@[simp] theorem countCorrected_tensors (n : Nat) (s : State) : (countCorrected n s).tensors = s.tensors := rfl
@[simp] theorem countCorrected_tensorNext (n : Nat) (s : State) : (countCorrected n s).tensorNext = s.tensorNext := rfl
@[simp] theorem countCorrected_tdigs (n : Nat) (s : State) : (countCorrected n s).tdigs = s.tdigs := rfl
@[simp] theorem countCorrected_freezeNext (n : Nat) (s : State) : (countCorrected n s).freezeNext = s.freezeNext := rfl
@[simp] theorem countCorrected_uuAdd (n : Nat) (s : State) : (countCorrected n s).uuAdd = s.uuAdd := rfl
@[simp] theorem countCorrected_uuOpt (n : Nat) (s : State) : (countCorrected n s).uuOpt = s.uuOpt := rfl
@[simp] theorem countCorrected_uuBusy (n : Nat) (s : State) : (countCorrected n s).uuBusy = s.uuBusy := rfl
@[simp] theorem countCorrected_uuNow (n : Nat) (s : State) : (countCorrected n s).uuNow = s.uuNow := rfl
@[simp] theorem countCorrected_recs (n : Nat) (s : State) : (countCorrected n s).recs = s.recs := rfl
@[simp] theorem countCorrected_parts (n : Nat) (s : State) : (countCorrected n s).parts = s.parts := rfl
@[simp] theorem countCorrected_rings (n : Nat) (s : State) : (countCorrected n s).rings = s.rings := rfl
@[simp] theorem countCorrected_faces (n : Nat) (s : State) : (countCorrected n s).faces = s.faces := rfl
@[simp] theorem countCorrected_seg (n : Nat) (s : State) : (countCorrected n s).seg = s.seg := rfl
@[simp] theorem countCorrected_rcc (n : Nat) (s : State) : (countCorrected n s).rcc = s.rcc := rfl
@[simp] theorem countCorrected_adm (n : Nat) (s : State) : (countCorrected n s).adm = s.adm := rfl
@[simp] theorem countCorrected_pw (n : Nat) (s : State) : (countCorrected n s).pw = s.pw := rfl

@[simp] theorem countContained_pending (n : Nat) (s : State) : (countContained n s).pending = s.pending := rfl
@[simp] theorem countContained_out (n : Nat) (s : State) : (countContained n s).out = s.out := rfl
@[simp] theorem countContained_freeIx (n : Nat) (s : State) : (countContained n s).freeIx = s.freeIx := rfl
@[simp] theorem countContained_nv (n : Nat) (s : State) : (countContained n s).nv = s.nv := rfl
@[simp] theorem countContained_cc (n : Nat) (s : State) : (countContained n s).cc = s.cc := rfl
@[simp] theorem countContained_sec (n : Nat) (s : State) : (countContained n s).sec = s.sec := (rfl)
@[simp] theorem countContained_regs (n : Nat) (s : State) : (countContained n s).regs = s.regs := rfl
@[simp] theorem countContained_mc (n : Nat) (s : State) : (countContained n s).mc = s.mc := rfl
@[simp] theorem countContained_plane (n : Nat) (s : State) : (countContained n s).plane = s.plane := rfl
@[simp] theorem countContained_ports (n : Nat) (s : State) : (countContained n s).ports = s.ports := rfl
@[simp] theorem countContained_epoch (n : Nat) (s : State) : (countContained n s).epoch = s.epoch := rfl
@[simp] theorem countContained_epochPend (n : Nat) (s : State) : (countContained n s).epochPend = s.epochPend := rfl
@[simp] theorem countContained_progs (n : Nat) (s : State) : (countContained n s).progs = s.progs := rfl
@[simp] theorem countContained_instStatus (n : Nat) (s : State) : (countContained n s).instStatus = s.instStatus := rfl
@[simp] theorem countContained_cores (n : Nat) (s : State) : (countContained n s).cores = s.cores := (rfl)
@[simp] theorem countContained_clusters (n : Nat) (s : State) : (countContained n s).clusters = s.clusters := rfl
@[simp] theorem countContained_hbm (n : Nat) (s : State) : (countContained n s).hbm = s.hbm := rfl
@[simp] theorem countContained_slots (n : Nat) (s : State) : (countContained n s).slots = s.slots := rfl
@[simp] theorem countContained_vrecs (n : Nat) (s : State) : (countContained n s).vrecs = s.vrecs := rfl
@[simp] theorem countContained_attrNext (n : Nat) (s : State) : (countContained n s).attrNext = s.attrNext := rfl
@[simp] theorem countContained_evictNext (n : Nat) (s : State) : (countContained n s).evictNext = s.evictNext := rfl
@[simp] theorem countContained_residentNext (n : Nat) (s : State) : (countContained n s).residentNext = s.residentNext := rfl
@[simp] theorem countContained_tensors (n : Nat) (s : State) : (countContained n s).tensors = s.tensors := rfl
@[simp] theorem countContained_tensorNext (n : Nat) (s : State) : (countContained n s).tensorNext = s.tensorNext := rfl
@[simp] theorem countContained_tdigs (n : Nat) (s : State) : (countContained n s).tdigs = s.tdigs := rfl
@[simp] theorem countContained_freezeNext (n : Nat) (s : State) : (countContained n s).freezeNext = s.freezeNext := rfl
@[simp] theorem countContained_uuAdd (n : Nat) (s : State) : (countContained n s).uuAdd = s.uuAdd := rfl
@[simp] theorem countContained_uuOpt (n : Nat) (s : State) : (countContained n s).uuOpt = s.uuOpt := rfl
@[simp] theorem countContained_uuBusy (n : Nat) (s : State) : (countContained n s).uuBusy = s.uuBusy := rfl
@[simp] theorem countContained_uuNow (n : Nat) (s : State) : (countContained n s).uuNow = s.uuNow := rfl
@[simp] theorem countContained_recs (n : Nat) (s : State) : (countContained n s).recs = s.recs := rfl
@[simp] theorem countContained_parts (n : Nat) (s : State) : (countContained n s).parts = s.parts := rfl
@[simp] theorem countContained_rings (n : Nat) (s : State) : (countContained n s).rings = s.rings := rfl
@[simp] theorem countContained_faces (n : Nat) (s : State) : (countContained n s).faces = s.faces := rfl
@[simp] theorem countContained_seg (n : Nat) (s : State) : (countContained n s).seg = s.seg := rfl
@[simp] theorem countContained_rcc (n : Nat) (s : State) : (countContained n s).rcc = s.rcc := rfl
@[simp] theorem countContained_run (n : Nat) (s : State) : (countContained n s).run = s.run := rfl
@[simp] theorem countContained_adm (n : Nat) (s : State) : (countContained n s).adm = s.adm := rfl
@[simp] theorem countContained_pw (n : Nat) (s : State) : (countContained n s).pw = s.pw := rfl

@[simp] theorem setLink_pending (i : PortIx) (x : LinkSt) (r : Nat) (s : State) : (setLink i x r s).pending = s.pending := by unfold setLink; split <;> simp
@[simp] theorem setLink_out (i : PortIx) (x : LinkSt) (r : Nat) (s : State) : (setLink i x r s).out = s.out := by unfold setLink; split <;> simp
@[simp] theorem setLink_freeIx (i : PortIx) (x : LinkSt) (r : Nat) (s : State) : (setLink i x r s).freeIx = s.freeIx := by unfold setLink; split <;> simp
@[simp] theorem setLink_nv (i : PortIx) (x : LinkSt) (r : Nat) (s : State) : (setLink i x r s).nv = s.nv := by unfold setLink; split <;> simp
@[simp] theorem setLink_cc (i : PortIx) (x : LinkSt) (r : Nat) (s : State) : (setLink i x r s).cc = s.cc := by unfold setLink; split <;> simp
@[simp] theorem setLink_sec (i : PortIx) (x : LinkSt) (r : Nat) (s : State) : (setLink i x r s).sec = s.sec := by unfold setLink; split <;> simp
@[simp] theorem setLink_mc (i : PortIx) (x : LinkSt) (r : Nat) (s : State) : (setLink i x r s).mc = s.mc := by unfold setLink; split <;> simp
@[simp] theorem setLink_plane (i : PortIx) (x : LinkSt) (r : Nat) (s : State) : (setLink i x r s).plane = s.plane := by unfold setLink; split <;> simp
@[simp] theorem setLink_epoch (i : PortIx) (x : LinkSt) (r : Nat) (s : State) : (setLink i x r s).epoch = s.epoch := by unfold setLink; split <;> simp
@[simp] theorem setLink_epochPend (i : PortIx) (x : LinkSt) (r : Nat) (s : State) : (setLink i x r s).epochPend = s.epochPend := by unfold setLink; split <;> simp
@[simp] theorem setLink_progs (i : PortIx) (x : LinkSt) (r : Nat) (s : State) : (setLink i x r s).progs = s.progs := by unfold setLink; split <;> simp
@[simp] theorem setLink_instStatus (i : PortIx) (x : LinkSt) (r : Nat) (s : State) : (setLink i x r s).instStatus = s.instStatus := by unfold setLink; split <;> simp
@[simp] theorem setLink_cores (i : PortIx) (x : LinkSt) (r : Nat) (s : State) : (setLink i x r s).cores = s.cores := by unfold setLink; split <;> simp
@[simp] theorem setLink_clusters (i : PortIx) (x : LinkSt) (r : Nat) (s : State) : (setLink i x r s).clusters = s.clusters := by unfold setLink; split <;> simp
@[simp] theorem setLink_hbm (i : PortIx) (x : LinkSt) (r : Nat) (s : State) : (setLink i x r s).hbm = s.hbm := by unfold setLink; split <;> simp
@[simp] theorem setLink_slots (i : PortIx) (x : LinkSt) (r : Nat) (s : State) : (setLink i x r s).slots = s.slots := by unfold setLink; split <;> simp
@[simp] theorem setLink_vrecs (i : PortIx) (x : LinkSt) (r : Nat) (s : State) : (setLink i x r s).vrecs = s.vrecs := by unfold setLink; split <;> simp
@[simp] theorem setLink_attrNext (i : PortIx) (x : LinkSt) (r : Nat) (s : State) : (setLink i x r s).attrNext = s.attrNext := by unfold setLink; split <;> simp
@[simp] theorem setLink_evictNext (i : PortIx) (x : LinkSt) (r : Nat) (s : State) : (setLink i x r s).evictNext = s.evictNext := by unfold setLink; split <;> simp
@[simp] theorem setLink_residentNext (i : PortIx) (x : LinkSt) (r : Nat) (s : State) : (setLink i x r s).residentNext = s.residentNext := by unfold setLink; split <;> simp
@[simp] theorem setLink_tensors (i : PortIx) (x : LinkSt) (r : Nat) (s : State) : (setLink i x r s).tensors = s.tensors := by unfold setLink; split <;> simp
@[simp] theorem setLink_tensorNext (i : PortIx) (x : LinkSt) (r : Nat) (s : State) : (setLink i x r s).tensorNext = s.tensorNext := by unfold setLink; split <;> simp
@[simp] theorem setLink_tdigs (i : PortIx) (x : LinkSt) (r : Nat) (s : State) : (setLink i x r s).tdigs = s.tdigs := by unfold setLink; split <;> simp
@[simp] theorem setLink_freezeNext (i : PortIx) (x : LinkSt) (r : Nat) (s : State) : (setLink i x r s).freezeNext = s.freezeNext := by unfold setLink; split <;> simp
@[simp] theorem setLink_uuAdd (i : PortIx) (x : LinkSt) (r : Nat) (s : State) : (setLink i x r s).uuAdd = s.uuAdd := by unfold setLink; split <;> simp
@[simp] theorem setLink_uuOpt (i : PortIx) (x : LinkSt) (r : Nat) (s : State) : (setLink i x r s).uuOpt = s.uuOpt := by unfold setLink; split <;> simp
@[simp] theorem setLink_uuBusy (i : PortIx) (x : LinkSt) (r : Nat) (s : State) : (setLink i x r s).uuBusy = s.uuBusy := by unfold setLink; split <;> simp
@[simp] theorem setLink_uuNow (i : PortIx) (x : LinkSt) (r : Nat) (s : State) : (setLink i x r s).uuNow = s.uuNow := by unfold setLink; split <;> simp
@[simp] theorem setLink_recs (i : PortIx) (x : LinkSt) (r : Nat) (s : State) : (setLink i x r s).recs = s.recs := by unfold setLink; split <;> simp
@[simp] theorem setLink_parts (i : PortIx) (x : LinkSt) (r : Nat) (s : State) : (setLink i x r s).parts = s.parts := by unfold setLink; split <;> simp
@[simp] theorem setLink_rings (i : PortIx) (x : LinkSt) (r : Nat) (s : State) : (setLink i x r s).rings = s.rings := by unfold setLink; split <;> simp
@[simp] theorem setLink_faces (i : PortIx) (x : LinkSt) (r : Nat) (s : State) : (setLink i x r s).faces = s.faces := by unfold setLink; split <;> simp
@[simp] theorem setLink_seg (i : PortIx) (x : LinkSt) (r : Nat) (s : State) : (setLink i x r s).seg = s.seg := by unfold setLink; split <;> simp
@[simp] theorem setLink_rcc (i : PortIx) (x : LinkSt) (r : Nat) (s : State) : (setLink i x r s).rcc = s.rcc := by unfold setLink; split <;> simp
@[simp] theorem setLink_run (i : PortIx) (x : LinkSt) (r : Nat) (s : State) : (setLink i x r s).run = s.run := by unfold setLink; split <;> simp
@[simp] theorem setLink_adm (i : PortIx) (x : LinkSt) (r : Nat) (s : State) : (setLink i x r s).adm = s.adm := by unfold setLink; split <;> simp
@[simp] theorem setLink_err (i : PortIx) (x : LinkSt) (r : Nat) (s : State) : (setLink i x r s).err = s.err := by unfold setLink; split <;> simp
@[simp] theorem setLink_pw (i : PortIx) (x : LinkSt) (r : Nat) (s : State) : (setLink i x r s).pw = s.pw := by unfold setLink; split <;> simp

@[simp] theorem setLinks_pending (l : List PortIx) (g : LinkSt → Bool) (x : LinkSt) (s : State) : (setLinks l g x s).pending = s.pending := by
  unfold setLinks
  induction l generalizing s with
  | nil => rfl
  | cons a r ih => rw [List.foldl_cons, ih]; split <;> simp
@[simp] theorem setLinks_out (l : List PortIx) (g : LinkSt → Bool) (x : LinkSt) (s : State) : (setLinks l g x s).out = s.out := by
  unfold setLinks
  induction l generalizing s with
  | nil => rfl
  | cons a r ih => rw [List.foldl_cons, ih]; split <;> simp
@[simp] theorem setLinks_freeIx (l : List PortIx) (g : LinkSt → Bool) (x : LinkSt) (s : State) : (setLinks l g x s).freeIx = s.freeIx := by
  unfold setLinks
  induction l generalizing s with
  | nil => rfl
  | cons a r ih => rw [List.foldl_cons, ih]; split <;> simp
@[simp] theorem setLinks_nv (l : List PortIx) (g : LinkSt → Bool) (x : LinkSt) (s : State) : (setLinks l g x s).nv = s.nv := by
  unfold setLinks
  induction l generalizing s with
  | nil => rfl
  | cons a r ih => rw [List.foldl_cons, ih]; split <;> simp
@[simp] theorem setLinks_cc (l : List PortIx) (g : LinkSt → Bool) (x : LinkSt) (s : State) : (setLinks l g x s).cc = s.cc := by
  unfold setLinks
  induction l generalizing s with
  | nil => rfl
  | cons a r ih => rw [List.foldl_cons, ih]; split <;> simp
@[simp] theorem setLinks_sec (l : List PortIx) (g : LinkSt → Bool) (x : LinkSt) (s : State) : (setLinks l g x s).sec = s.sec := by
  unfold setLinks
  induction l generalizing s with
  | nil => rfl
  | cons a r ih => rw [List.foldl_cons, ih]; split <;> simp
@[simp] theorem setLinks_mc (l : List PortIx) (g : LinkSt → Bool) (x : LinkSt) (s : State) : (setLinks l g x s).mc = s.mc := by
  unfold setLinks
  induction l generalizing s with
  | nil => rfl
  | cons a r ih => rw [List.foldl_cons, ih]; split <;> simp
@[simp] theorem setLinks_plane (l : List PortIx) (g : LinkSt → Bool) (x : LinkSt) (s : State) : (setLinks l g x s).plane = s.plane := by
  unfold setLinks
  induction l generalizing s with
  | nil => rfl
  | cons a r ih => rw [List.foldl_cons, ih]; split <;> simp
@[simp] theorem setLinks_epoch (l : List PortIx) (g : LinkSt → Bool) (x : LinkSt) (s : State) : (setLinks l g x s).epoch = s.epoch := by
  unfold setLinks
  induction l generalizing s with
  | nil => rfl
  | cons a r ih => rw [List.foldl_cons, ih]; split <;> simp
@[simp] theorem setLinks_epochPend (l : List PortIx) (g : LinkSt → Bool) (x : LinkSt) (s : State) : (setLinks l g x s).epochPend = s.epochPend := by
  unfold setLinks
  induction l generalizing s with
  | nil => rfl
  | cons a r ih => rw [List.foldl_cons, ih]; split <;> simp
@[simp] theorem setLinks_progs (l : List PortIx) (g : LinkSt → Bool) (x : LinkSt) (s : State) : (setLinks l g x s).progs = s.progs := by
  unfold setLinks
  induction l generalizing s with
  | nil => rfl
  | cons a r ih => rw [List.foldl_cons, ih]; split <;> simp
@[simp] theorem setLinks_instStatus (l : List PortIx) (g : LinkSt → Bool) (x : LinkSt) (s : State) : (setLinks l g x s).instStatus = s.instStatus := by
  unfold setLinks
  induction l generalizing s with
  | nil => rfl
  | cons a r ih => rw [List.foldl_cons, ih]; split <;> simp
@[simp] theorem setLinks_cores (l : List PortIx) (g : LinkSt → Bool) (x : LinkSt) (s : State) : (setLinks l g x s).cores = s.cores := by
  unfold setLinks
  induction l generalizing s with
  | nil => rfl
  | cons a r ih => rw [List.foldl_cons, ih]; split <;> simp
@[simp] theorem setLinks_clusters (l : List PortIx) (g : LinkSt → Bool) (x : LinkSt) (s : State) : (setLinks l g x s).clusters = s.clusters := by
  unfold setLinks
  induction l generalizing s with
  | nil => rfl
  | cons a r ih => rw [List.foldl_cons, ih]; split <;> simp
@[simp] theorem setLinks_hbm (l : List PortIx) (g : LinkSt → Bool) (x : LinkSt) (s : State) : (setLinks l g x s).hbm = s.hbm := by
  unfold setLinks
  induction l generalizing s with
  | nil => rfl
  | cons a r ih => rw [List.foldl_cons, ih]; split <;> simp
@[simp] theorem setLinks_slots (l : List PortIx) (g : LinkSt → Bool) (x : LinkSt) (s : State) : (setLinks l g x s).slots = s.slots := by
  unfold setLinks
  induction l generalizing s with
  | nil => rfl
  | cons a r ih => rw [List.foldl_cons, ih]; split <;> simp
@[simp] theorem setLinks_vrecs (l : List PortIx) (g : LinkSt → Bool) (x : LinkSt) (s : State) : (setLinks l g x s).vrecs = s.vrecs := by
  unfold setLinks
  induction l generalizing s with
  | nil => rfl
  | cons a r ih => rw [List.foldl_cons, ih]; split <;> simp
@[simp] theorem setLinks_attrNext (l : List PortIx) (g : LinkSt → Bool) (x : LinkSt) (s : State) : (setLinks l g x s).attrNext = s.attrNext := by
  unfold setLinks
  induction l generalizing s with
  | nil => rfl
  | cons a r ih => rw [List.foldl_cons, ih]; split <;> simp
@[simp] theorem setLinks_evictNext (l : List PortIx) (g : LinkSt → Bool) (x : LinkSt) (s : State) : (setLinks l g x s).evictNext = s.evictNext := by
  unfold setLinks
  induction l generalizing s with
  | nil => rfl
  | cons a r ih => rw [List.foldl_cons, ih]; split <;> simp
@[simp] theorem setLinks_residentNext (l : List PortIx) (g : LinkSt → Bool) (x : LinkSt) (s : State) : (setLinks l g x s).residentNext = s.residentNext := by
  unfold setLinks
  induction l generalizing s with
  | nil => rfl
  | cons a r ih => rw [List.foldl_cons, ih]; split <;> simp
@[simp] theorem setLinks_tensors (l : List PortIx) (g : LinkSt → Bool) (x : LinkSt) (s : State) : (setLinks l g x s).tensors = s.tensors := by
  unfold setLinks
  induction l generalizing s with
  | nil => rfl
  | cons a r ih => rw [List.foldl_cons, ih]; split <;> simp
@[simp] theorem setLinks_tensorNext (l : List PortIx) (g : LinkSt → Bool) (x : LinkSt) (s : State) : (setLinks l g x s).tensorNext = s.tensorNext := by
  unfold setLinks
  induction l generalizing s with
  | nil => rfl
  | cons a r ih => rw [List.foldl_cons, ih]; split <;> simp
@[simp] theorem setLinks_tdigs (l : List PortIx) (g : LinkSt → Bool) (x : LinkSt) (s : State) : (setLinks l g x s).tdigs = s.tdigs := by
  unfold setLinks
  induction l generalizing s with
  | nil => rfl
  | cons a r ih => rw [List.foldl_cons, ih]; split <;> simp
@[simp] theorem setLinks_freezeNext (l : List PortIx) (g : LinkSt → Bool) (x : LinkSt) (s : State) : (setLinks l g x s).freezeNext = s.freezeNext := by
  unfold setLinks
  induction l generalizing s with
  | nil => rfl
  | cons a r ih => rw [List.foldl_cons, ih]; split <;> simp
@[simp] theorem setLinks_uuAdd (l : List PortIx) (g : LinkSt → Bool) (x : LinkSt) (s : State) : (setLinks l g x s).uuAdd = s.uuAdd := by
  unfold setLinks
  induction l generalizing s with
  | nil => rfl
  | cons a r ih => rw [List.foldl_cons, ih]; split <;> simp
@[simp] theorem setLinks_uuOpt (l : List PortIx) (g : LinkSt → Bool) (x : LinkSt) (s : State) : (setLinks l g x s).uuOpt = s.uuOpt := by
  unfold setLinks
  induction l generalizing s with
  | nil => rfl
  | cons a r ih => rw [List.foldl_cons, ih]; split <;> simp
@[simp] theorem setLinks_uuBusy (l : List PortIx) (g : LinkSt → Bool) (x : LinkSt) (s : State) : (setLinks l g x s).uuBusy = s.uuBusy := by
  unfold setLinks
  induction l generalizing s with
  | nil => rfl
  | cons a r ih => rw [List.foldl_cons, ih]; split <;> simp
@[simp] theorem setLinks_uuNow (l : List PortIx) (g : LinkSt → Bool) (x : LinkSt) (s : State) : (setLinks l g x s).uuNow = s.uuNow := by
  unfold setLinks
  induction l generalizing s with
  | nil => rfl
  | cons a r ih => rw [List.foldl_cons, ih]; split <;> simp
@[simp] theorem setLinks_recs (l : List PortIx) (g : LinkSt → Bool) (x : LinkSt) (s : State) : (setLinks l g x s).recs = s.recs := by
  unfold setLinks
  induction l generalizing s with
  | nil => rfl
  | cons a r ih => rw [List.foldl_cons, ih]; split <;> simp
@[simp] theorem setLinks_parts (l : List PortIx) (g : LinkSt → Bool) (x : LinkSt) (s : State) : (setLinks l g x s).parts = s.parts := by
  unfold setLinks
  induction l generalizing s with
  | nil => rfl
  | cons a r ih => rw [List.foldl_cons, ih]; split <;> simp
@[simp] theorem setLinks_rings (l : List PortIx) (g : LinkSt → Bool) (x : LinkSt) (s : State) : (setLinks l g x s).rings = s.rings := by
  unfold setLinks
  induction l generalizing s with
  | nil => rfl
  | cons a r ih => rw [List.foldl_cons, ih]; split <;> simp
@[simp] theorem setLinks_faces (l : List PortIx) (g : LinkSt → Bool) (x : LinkSt) (s : State) : (setLinks l g x s).faces = s.faces := by
  unfold setLinks
  induction l generalizing s with
  | nil => rfl
  | cons a r ih => rw [List.foldl_cons, ih]; split <;> simp
@[simp] theorem setLinks_seg (l : List PortIx) (g : LinkSt → Bool) (x : LinkSt) (s : State) : (setLinks l g x s).seg = s.seg := by
  unfold setLinks
  induction l generalizing s with
  | nil => rfl
  | cons a r ih => rw [List.foldl_cons, ih]; split <;> simp
@[simp] theorem setLinks_rcc (l : List PortIx) (g : LinkSt → Bool) (x : LinkSt) (s : State) : (setLinks l g x s).rcc = s.rcc := by
  unfold setLinks
  induction l generalizing s with
  | nil => rfl
  | cons a r ih => rw [List.foldl_cons, ih]; split <;> simp
@[simp] theorem setLinks_run (l : List PortIx) (g : LinkSt → Bool) (x : LinkSt) (s : State) : (setLinks l g x s).run = s.run := by
  unfold setLinks
  induction l generalizing s with
  | nil => rfl
  | cons a r ih => rw [List.foldl_cons, ih]; split <;> simp
@[simp] theorem setLinks_adm (l : List PortIx) (g : LinkSt → Bool) (x : LinkSt) (s : State) : (setLinks l g x s).adm = s.adm := by
  unfold setLinks
  induction l generalizing s with
  | nil => rfl
  | cons a r ih => rw [List.foldl_cons, ih]; split <;> simp
@[simp] theorem setLinks_err (l : List PortIx) (g : LinkSt → Bool) (x : LinkSt) (s : State) : (setLinks l g x s).err = s.err := by
  unfold setLinks
  induction l generalizing s with
  | nil => rfl
  | cons a r ih => rw [List.foldl_cons, ih]; split <;> simp
@[simp] theorem setLinks_pw (l : List PortIx) (g : LinkSt → Bool) (x : LinkSt) (s : State) : (setLinks l g x s).pw = s.pw := by
  unfold setLinks
  induction l generalizing s with
  | nil => rfl
  | cons a r ih => rw [List.foldl_cons, ih]; split <;> simp

@[simp] theorem fenceChip_pending (s : State) : (fenceChip s).pending = s.pending := by unfold fenceChip; dsimp only; split <;> simp
@[simp] theorem fenceChip_freeIx (s : State) : (fenceChip s).freeIx = s.freeIx := by unfold fenceChip; dsimp only; split <;> simp
@[simp] theorem fenceChip_nv (s : State) : (fenceChip s).nv = s.nv := by unfold fenceChip; dsimp only; split <;> simp
@[simp] theorem fenceChip_cc (s : State) : (fenceChip s).cc = s.cc := by unfold fenceChip; dsimp only; split <;> simp
@[simp] theorem fenceChip_sec (s : State) : (fenceChip s).sec = s.sec := by unfold fenceChip; dsimp only; split <;> simp
@[simp] theorem fenceChip_plane (s : State) : (fenceChip s).plane = s.plane := by unfold fenceChip; dsimp only; split <;> simp
@[simp] theorem fenceChip_epoch (s : State) : (fenceChip s).epoch = s.epoch := by unfold fenceChip; dsimp only; split <;> simp
@[simp] theorem fenceChip_epochPend (s : State) : (fenceChip s).epochPend = s.epochPend := by unfold fenceChip; dsimp only; split <;> simp
@[simp] theorem fenceChip_progs (s : State) : (fenceChip s).progs = s.progs := by unfold fenceChip; dsimp only; split <;> simp
@[simp] theorem fenceChip_instStatus (s : State) : (fenceChip s).instStatus = s.instStatus := by unfold fenceChip; dsimp only; split <;> simp
@[simp] theorem fenceChip_cores (s : State) : (fenceChip s).cores = s.cores := by unfold fenceChip; dsimp only; split <;> simp
@[simp] theorem fenceChip_clusters (s : State) : (fenceChip s).clusters = s.clusters := by unfold fenceChip; dsimp only; split <;> simp
@[simp] theorem fenceChip_hbm (s : State) : (fenceChip s).hbm = s.hbm := by unfold fenceChip; dsimp only; split <;> simp
@[simp] theorem fenceChip_slots (s : State) : (fenceChip s).slots = s.slots := by unfold fenceChip; dsimp only; split <;> simp
@[simp] theorem fenceChip_vrecs (s : State) : (fenceChip s).vrecs = s.vrecs := by unfold fenceChip; dsimp only; split <;> simp
@[simp] theorem fenceChip_attrNext (s : State) : (fenceChip s).attrNext = s.attrNext := by unfold fenceChip; dsimp only; split <;> simp
@[simp] theorem fenceChip_evictNext (s : State) : (fenceChip s).evictNext = s.evictNext := by unfold fenceChip; dsimp only; split <;> simp
@[simp] theorem fenceChip_residentNext (s : State) : (fenceChip s).residentNext = s.residentNext := by unfold fenceChip; dsimp only; split <;> simp
@[simp] theorem fenceChip_tensors (s : State) : (fenceChip s).tensors = s.tensors := by unfold fenceChip; dsimp only; split <;> simp
@[simp] theorem fenceChip_tensorNext (s : State) : (fenceChip s).tensorNext = s.tensorNext := by unfold fenceChip; dsimp only; split <;> simp
@[simp] theorem fenceChip_tdigs (s : State) : (fenceChip s).tdigs = s.tdigs := by unfold fenceChip; dsimp only; split <;> simp
@[simp] theorem fenceChip_freezeNext (s : State) : (fenceChip s).freezeNext = s.freezeNext := by unfold fenceChip; dsimp only; split <;> simp
@[simp] theorem fenceChip_uuAdd (s : State) : (fenceChip s).uuAdd = s.uuAdd := by unfold fenceChip; dsimp only; split <;> simp
@[simp] theorem fenceChip_uuOpt (s : State) : (fenceChip s).uuOpt = s.uuOpt := by unfold fenceChip; dsimp only; split <;> simp
@[simp] theorem fenceChip_uuBusy (s : State) : (fenceChip s).uuBusy = s.uuBusy := by unfold fenceChip; dsimp only; split <;> simp
@[simp] theorem fenceChip_uuNow (s : State) : (fenceChip s).uuNow = s.uuNow := by unfold fenceChip; dsimp only; split <;> simp
@[simp] theorem fenceChip_recs (s : State) : (fenceChip s).recs = s.recs := by unfold fenceChip; dsimp only; split <;> simp
@[simp] theorem fenceChip_parts (s : State) : (fenceChip s).parts = s.parts := by unfold fenceChip; dsimp only; split <;> simp
@[simp] theorem fenceChip_rings (s : State) : (fenceChip s).rings = s.rings := by unfold fenceChip; dsimp only; split <;> simp
@[simp] theorem fenceChip_faces (s : State) : (fenceChip s).faces = s.faces := by unfold fenceChip; dsimp only; split <;> simp
@[simp] theorem fenceChip_seg (s : State) : (fenceChip s).seg = s.seg := by unfold fenceChip; dsimp only; split <;> simp
@[simp] theorem fenceChip_rcc (s : State) : (fenceChip s).rcc = s.rcc := by unfold fenceChip; dsimp only; split <;> simp
@[simp] theorem fenceChip_run (s : State) : (fenceChip s).run = s.run := by unfold fenceChip; dsimp only; split <;> simp
@[simp] theorem fenceChip_adm (s : State) : (fenceChip s).adm = s.adm := by unfold fenceChip; dsimp only; split <;> simp
@[simp] theorem fenceChip_err (s : State) : (fenceChip s).err = s.err := by unfold fenceChip; dsimp only; split <;> simp
@[simp] theorem fenceChip_pw (s : State) : (fenceChip s).pw = s.pw := by unfold fenceChip; dsimp only; split <;> simp

@[simp] theorem fatalError_pending (a b c d e : Nat) (s : State) : (fatalError a b c d e s).pending = s.pending := by simp [fatalError]
@[simp] theorem fatalError_freeIx (a b c d e : Nat) (s : State) : (fatalError a b c d e s).freeIx = s.freeIx := by simp [fatalError]
@[simp] theorem fatalError_cc (a b c d e : Nat) (s : State) : (fatalError a b c d e s).cc = s.cc := by simp [fatalError]
@[simp] theorem fatalError_sec (a b c d e : Nat) (s : State) : (fatalError a b c d e s).sec = s.sec := by simp [fatalError]
@[simp] theorem fatalError_plane (a b c d e : Nat) (s : State) : (fatalError a b c d e s).plane = s.plane := by simp [fatalError]
@[simp] theorem fatalError_epoch (a b c d e : Nat) (s : State) : (fatalError a b c d e s).epoch = s.epoch := by simp [fatalError]
@[simp] theorem fatalError_epochPend (a b c d e : Nat) (s : State) : (fatalError a b c d e s).epochPend = s.epochPend := by simp [fatalError]
@[simp] theorem fatalError_progs (a b c d e : Nat) (s : State) : (fatalError a b c d e s).progs = s.progs := by simp [fatalError]
@[simp] theorem fatalError_instStatus (a b c d e : Nat) (s : State) : (fatalError a b c d e s).instStatus = s.instStatus := by simp [fatalError]
@[simp] theorem fatalError_cores (a b c d e : Nat) (s : State) : (fatalError a b c d e s).cores = s.cores := by simp [fatalError]
@[simp] theorem fatalError_clusters (a b c d e : Nat) (s : State) : (fatalError a b c d e s).clusters = s.clusters := by simp [fatalError]
@[simp] theorem fatalError_hbm (a b c d e : Nat) (s : State) : (fatalError a b c d e s).hbm = s.hbm := by simp [fatalError]
@[simp] theorem fatalError_slots (a b c d e : Nat) (s : State) : (fatalError a b c d e s).slots = s.slots := by simp [fatalError]
@[simp] theorem fatalError_vrecs (a b c d e : Nat) (s : State) : (fatalError a b c d e s).vrecs = s.vrecs := by simp [fatalError]
@[simp] theorem fatalError_attrNext (a b c d e : Nat) (s : State) : (fatalError a b c d e s).attrNext = s.attrNext := by simp [fatalError]
@[simp] theorem fatalError_evictNext (a b c d e : Nat) (s : State) : (fatalError a b c d e s).evictNext = s.evictNext := by simp [fatalError]
@[simp] theorem fatalError_residentNext (a b c d e : Nat) (s : State) : (fatalError a b c d e s).residentNext = s.residentNext := by simp [fatalError]
@[simp] theorem fatalError_tensors (a b c d e : Nat) (s : State) : (fatalError a b c d e s).tensors = s.tensors := by simp [fatalError]
@[simp] theorem fatalError_tensorNext (a b c d e : Nat) (s : State) : (fatalError a b c d e s).tensorNext = s.tensorNext := by simp [fatalError]
@[simp] theorem fatalError_tdigs (a b c d e : Nat) (s : State) : (fatalError a b c d e s).tdigs = s.tdigs := by simp [fatalError]
@[simp] theorem fatalError_freezeNext (a b c d e : Nat) (s : State) : (fatalError a b c d e s).freezeNext = s.freezeNext := by simp [fatalError]
@[simp] theorem fatalError_uuAdd (a b c d e : Nat) (s : State) : (fatalError a b c d e s).uuAdd = s.uuAdd := by simp [fatalError]
@[simp] theorem fatalError_uuOpt (a b c d e : Nat) (s : State) : (fatalError a b c d e s).uuOpt = s.uuOpt := by simp [fatalError]
@[simp] theorem fatalError_uuBusy (a b c d e : Nat) (s : State) : (fatalError a b c d e s).uuBusy = s.uuBusy := by simp [fatalError]
@[simp] theorem fatalError_uuNow (a b c d e : Nat) (s : State) : (fatalError a b c d e s).uuNow = s.uuNow := by simp [fatalError]
@[simp] theorem fatalError_recs (a b c d e : Nat) (s : State) : (fatalError a b c d e s).recs = s.recs := by simp [fatalError]
@[simp] theorem fatalError_parts (a b c d e : Nat) (s : State) : (fatalError a b c d e s).parts = s.parts := by simp [fatalError]
@[simp] theorem fatalError_rings (a b c d e : Nat) (s : State) : (fatalError a b c d e s).rings = s.rings := by simp [fatalError]
@[simp] theorem fatalError_faces (a b c d e : Nat) (s : State) : (fatalError a b c d e s).faces = s.faces := by simp [fatalError]
@[simp] theorem fatalError_seg (a b c d e : Nat) (s : State) : (fatalError a b c d e s).seg = s.seg := by simp [fatalError]
@[simp] theorem fatalError_rcc (a b c d e : Nat) (s : State) : (fatalError a b c d e s).rcc = s.rcc := by simp [fatalError]
@[simp] theorem fatalError_adm (a b c d e : Nat) (s : State) : (fatalError a b c d e s).adm = s.adm := by simp [fatalError]
@[simp] theorem fatalError_pw (a b c d e : Nat) (s : State) : (fatalError a b c d e s).pw = s.pw := by simp [fatalError]

@[simp] theorem fatalSrc_pending (a : Nat) (s : State) : (fatalSrc a s).pending = s.pending := by simp [fatalSrc]
@[simp] theorem fatalSrc_freeIx (a : Nat) (s : State) : (fatalSrc a s).freeIx = s.freeIx := by simp [fatalSrc]
@[simp] theorem fatalSrc_cc (a : Nat) (s : State) : (fatalSrc a s).cc = s.cc := by simp [fatalSrc]
@[simp] theorem fatalSrc_sec (a : Nat) (s : State) : (fatalSrc a s).sec = s.sec := by simp [fatalSrc]
@[simp] theorem fatalSrc_plane (a : Nat) (s : State) : (fatalSrc a s).plane = s.plane := by simp [fatalSrc]
@[simp] theorem fatalSrc_epoch (a : Nat) (s : State) : (fatalSrc a s).epoch = s.epoch := by simp [fatalSrc]
@[simp] theorem fatalSrc_epochPend (a : Nat) (s : State) : (fatalSrc a s).epochPend = s.epochPend := by simp [fatalSrc]
@[simp] theorem fatalSrc_progs (a : Nat) (s : State) : (fatalSrc a s).progs = s.progs := by simp [fatalSrc]
@[simp] theorem fatalSrc_instStatus (a : Nat) (s : State) : (fatalSrc a s).instStatus = s.instStatus := by simp [fatalSrc]
@[simp] theorem fatalSrc_cores (a : Nat) (s : State) : (fatalSrc a s).cores = s.cores := by simp [fatalSrc]
@[simp] theorem fatalSrc_clusters (a : Nat) (s : State) : (fatalSrc a s).clusters = s.clusters := by simp [fatalSrc]
@[simp] theorem fatalSrc_hbm (a : Nat) (s : State) : (fatalSrc a s).hbm = s.hbm := by simp [fatalSrc]
@[simp] theorem fatalSrc_slots (a : Nat) (s : State) : (fatalSrc a s).slots = s.slots := by simp [fatalSrc]
@[simp] theorem fatalSrc_vrecs (a : Nat) (s : State) : (fatalSrc a s).vrecs = s.vrecs := by simp [fatalSrc]
@[simp] theorem fatalSrc_attrNext (a : Nat) (s : State) : (fatalSrc a s).attrNext = s.attrNext := by simp [fatalSrc]
@[simp] theorem fatalSrc_evictNext (a : Nat) (s : State) : (fatalSrc a s).evictNext = s.evictNext := by simp [fatalSrc]
@[simp] theorem fatalSrc_residentNext (a : Nat) (s : State) : (fatalSrc a s).residentNext = s.residentNext := by simp [fatalSrc]
@[simp] theorem fatalSrc_tensors (a : Nat) (s : State) : (fatalSrc a s).tensors = s.tensors := by simp [fatalSrc]
@[simp] theorem fatalSrc_tensorNext (a : Nat) (s : State) : (fatalSrc a s).tensorNext = s.tensorNext := by simp [fatalSrc]
@[simp] theorem fatalSrc_tdigs (a : Nat) (s : State) : (fatalSrc a s).tdigs = s.tdigs := by simp [fatalSrc]
@[simp] theorem fatalSrc_freezeNext (a : Nat) (s : State) : (fatalSrc a s).freezeNext = s.freezeNext := by simp [fatalSrc]
@[simp] theorem fatalSrc_uuAdd (a : Nat) (s : State) : (fatalSrc a s).uuAdd = s.uuAdd := by simp [fatalSrc]
@[simp] theorem fatalSrc_uuOpt (a : Nat) (s : State) : (fatalSrc a s).uuOpt = s.uuOpt := by simp [fatalSrc]
@[simp] theorem fatalSrc_uuBusy (a : Nat) (s : State) : (fatalSrc a s).uuBusy = s.uuBusy := by simp [fatalSrc]
@[simp] theorem fatalSrc_uuNow (a : Nat) (s : State) : (fatalSrc a s).uuNow = s.uuNow := by simp [fatalSrc]
@[simp] theorem fatalSrc_recs (a : Nat) (s : State) : (fatalSrc a s).recs = s.recs := by simp [fatalSrc]
@[simp] theorem fatalSrc_parts (a : Nat) (s : State) : (fatalSrc a s).parts = s.parts := by simp [fatalSrc]
@[simp] theorem fatalSrc_rings (a : Nat) (s : State) : (fatalSrc a s).rings = s.rings := by simp [fatalSrc]
@[simp] theorem fatalSrc_faces (a : Nat) (s : State) : (fatalSrc a s).faces = s.faces := by simp [fatalSrc]
@[simp] theorem fatalSrc_seg (a : Nat) (s : State) : (fatalSrc a s).seg = s.seg := by simp [fatalSrc]
@[simp] theorem fatalSrc_rcc (a : Nat) (s : State) : (fatalSrc a s).rcc = s.rcc := by simp [fatalSrc]
@[simp] theorem fatalSrc_adm (a : Nat) (s : State) : (fatalSrc a s).adm = s.adm := by simp [fatalSrc]
@[simp] theorem fatalSrc_pw (a : Nat) (s : State) : (fatalSrc a s).pw = s.pw := by simp [fatalSrc]

@[simp] theorem partErr_pending (p : Part) (e : ErrEntry) (s : State) : (partErr p e s).pending = s.pending := by unfold partErr; dsimp only; split <;> simp
@[simp] theorem partErr_out (p : Part) (e : ErrEntry) (s : State) : (partErr p e s).out = s.out := by unfold partErr; dsimp only; split <;> simp
@[simp] theorem partErr_freeIx (p : Part) (e : ErrEntry) (s : State) : (partErr p e s).freeIx = s.freeIx := by unfold partErr; dsimp only; split <;> simp
@[simp] theorem partErr_nv (p : Part) (e : ErrEntry) (s : State) : (partErr p e s).nv = s.nv := by unfold partErr; dsimp only; split <;> simp
@[simp] theorem partErr_cc (p : Part) (e : ErrEntry) (s : State) : (partErr p e s).cc = s.cc := by unfold partErr; dsimp only; split <;> simp
@[simp] theorem partErr_sec (p : Part) (e : ErrEntry) (s : State) : (partErr p e s).sec = s.sec := by unfold partErr; dsimp only; split <;> simp
@[simp] theorem partErr_mc (p : Part) (e : ErrEntry) (s : State) : (partErr p e s).mc = s.mc := by unfold partErr; dsimp only; split <;> simp
@[simp] theorem partErr_plane (p : Part) (e : ErrEntry) (s : State) : (partErr p e s).plane = s.plane := by unfold partErr; dsimp only; split <;> simp
@[simp] theorem partErr_ports (p : Part) (e : ErrEntry) (s : State) : (partErr p e s).ports = s.ports := by unfold partErr; dsimp only; split <;> simp
@[simp] theorem partErr_epoch (p : Part) (e : ErrEntry) (s : State) : (partErr p e s).epoch = s.epoch := by unfold partErr; dsimp only; split <;> simp
@[simp] theorem partErr_epochPend (p : Part) (e : ErrEntry) (s : State) : (partErr p e s).epochPend = s.epochPend := by unfold partErr; dsimp only; split <;> simp
@[simp] theorem partErr_progs (p : Part) (e : ErrEntry) (s : State) : (partErr p e s).progs = s.progs := by unfold partErr; dsimp only; split <;> simp
@[simp] theorem partErr_instStatus (p : Part) (e : ErrEntry) (s : State) : (partErr p e s).instStatus = s.instStatus := by unfold partErr; dsimp only; split <;> simp
@[simp] theorem partErr_cores (p : Part) (e : ErrEntry) (s : State) : (partErr p e s).cores = s.cores := by unfold partErr; dsimp only; split <;> simp
@[simp] theorem partErr_clusters (p : Part) (e : ErrEntry) (s : State) : (partErr p e s).clusters = s.clusters := by unfold partErr; dsimp only; split <;> simp
@[simp] theorem partErr_hbm (p : Part) (e : ErrEntry) (s : State) : (partErr p e s).hbm = s.hbm := by unfold partErr; dsimp only; split <;> simp
@[simp] theorem partErr_slots (p : Part) (e : ErrEntry) (s : State) : (partErr p e s).slots = s.slots := by unfold partErr; dsimp only; split <;> simp
@[simp] theorem partErr_vrecs (p : Part) (e : ErrEntry) (s : State) : (partErr p e s).vrecs = s.vrecs := by unfold partErr; dsimp only; split <;> simp
@[simp] theorem partErr_attrNext (p : Part) (e : ErrEntry) (s : State) : (partErr p e s).attrNext = s.attrNext := by unfold partErr; dsimp only; split <;> simp
@[simp] theorem partErr_evictNext (p : Part) (e : ErrEntry) (s : State) : (partErr p e s).evictNext = s.evictNext := by unfold partErr; dsimp only; split <;> simp
@[simp] theorem partErr_residentNext (p : Part) (e : ErrEntry) (s : State) : (partErr p e s).residentNext = s.residentNext := by unfold partErr; dsimp only; split <;> simp
@[simp] theorem partErr_tensors (p : Part) (e : ErrEntry) (s : State) : (partErr p e s).tensors = s.tensors := by unfold partErr; dsimp only; split <;> simp
@[simp] theorem partErr_tensorNext (p : Part) (e : ErrEntry) (s : State) : (partErr p e s).tensorNext = s.tensorNext := by unfold partErr; dsimp only; split <;> simp
@[simp] theorem partErr_tdigs (p : Part) (e : ErrEntry) (s : State) : (partErr p e s).tdigs = s.tdigs := by unfold partErr; dsimp only; split <;> simp
@[simp] theorem partErr_freezeNext (p : Part) (e : ErrEntry) (s : State) : (partErr p e s).freezeNext = s.freezeNext := by unfold partErr; dsimp only; split <;> simp
@[simp] theorem partErr_uuAdd (p : Part) (e : ErrEntry) (s : State) : (partErr p e s).uuAdd = s.uuAdd := by unfold partErr; dsimp only; split <;> simp
@[simp] theorem partErr_uuOpt (p : Part) (e : ErrEntry) (s : State) : (partErr p e s).uuOpt = s.uuOpt := by unfold partErr; dsimp only; split <;> simp
@[simp] theorem partErr_uuBusy (p : Part) (e : ErrEntry) (s : State) : (partErr p e s).uuBusy = s.uuBusy := by unfold partErr; dsimp only; split <;> simp
@[simp] theorem partErr_uuNow (p : Part) (e : ErrEntry) (s : State) : (partErr p e s).uuNow = s.uuNow := by unfold partErr; dsimp only; split <;> simp
@[simp] theorem partErr_recs (p : Part) (e : ErrEntry) (s : State) : (partErr p e s).recs = s.recs := by unfold partErr; dsimp only; split <;> simp
@[simp] theorem partErr_rings (p : Part) (e : ErrEntry) (s : State) : (partErr p e s).rings = s.rings := by unfold partErr; dsimp only; split <;> simp
@[simp] theorem partErr_faces (p : Part) (e : ErrEntry) (s : State) : (partErr p e s).faces = s.faces := by unfold partErr; dsimp only; split <;> simp
@[simp] theorem partErr_seg (p : Part) (e : ErrEntry) (s : State) : (partErr p e s).seg = s.seg := by unfold partErr; dsimp only; split <;> simp
@[simp] theorem partErr_rcc (p : Part) (e : ErrEntry) (s : State) : (partErr p e s).rcc = s.rcc := by unfold partErr; dsimp only; split <;> simp
@[simp] theorem partErr_adm (p : Part) (e : ErrEntry) (s : State) : (partErr p e s).adm = s.adm := by unfold partErr; dsimp only; split <;> simp
@[simp] theorem partErr_err (p : Part) (e : ErrEntry) (s : State) : (partErr p e s).err = s.err := by unfold partErr; dsimp only; split <;> simp
@[simp] theorem partErr_pw (p : Part) (e : ErrEntry) (s : State) : (partErr p e s).pw = s.pw := by unfold partErr; dsimp only; split <;> simp

@[simp] theorem coreEvent_pending (n : CoreIx) (l : Fin 9) (a b c d e g : Nat) (s : State) : (coreEvent n l a b c d e g s).pending = s.pending := by unfold coreEvent; split <;> rfl
@[simp] theorem coreEvent_out (n : CoreIx) (l : Fin 9) (a b c d e g : Nat) (s : State) : (coreEvent n l a b c d e g s).out = s.out := by unfold coreEvent; split <;> rfl
@[simp] theorem coreEvent_freeIx (n : CoreIx) (l : Fin 9) (a b c d e g : Nat) (s : State) : (coreEvent n l a b c d e g s).freeIx = s.freeIx := by unfold coreEvent; split <;> rfl
@[simp] theorem coreEvent_nv (n : CoreIx) (l : Fin 9) (a b c d e g : Nat) (s : State) : (coreEvent n l a b c d e g s).nv = s.nv := by unfold coreEvent; split <;> rfl
@[simp] theorem coreEvent_cc (n : CoreIx) (l : Fin 9) (a b c d e g : Nat) (s : State) : (coreEvent n l a b c d e g s).cc = s.cc := by unfold coreEvent; split <;> rfl
@[simp] theorem coreEvent_sec (n : CoreIx) (l : Fin 9) (a b c d e g : Nat) (s : State) : (coreEvent n l a b c d e g s).sec = s.sec := by unfold coreEvent; split <;> rfl
@[simp] theorem coreEvent_regs (n : CoreIx) (l : Fin 9) (a b c d e g : Nat) (s : State) : (coreEvent n l a b c d e g s).regs = s.regs := by unfold coreEvent; split <;> rfl
@[simp] theorem coreEvent_mc (n : CoreIx) (l : Fin 9) (a b c d e g : Nat) (s : State) : (coreEvent n l a b c d e g s).mc = s.mc := by unfold coreEvent; split <;> rfl
@[simp] theorem coreEvent_plane (n : CoreIx) (l : Fin 9) (a b c d e g : Nat) (s : State) : (coreEvent n l a b c d e g s).plane = s.plane := by unfold coreEvent; split <;> rfl
@[simp] theorem coreEvent_ports (n : CoreIx) (l : Fin 9) (a b c d e g : Nat) (s : State) : (coreEvent n l a b c d e g s).ports = s.ports := by unfold coreEvent; split <;> rfl
@[simp] theorem coreEvent_epoch (n : CoreIx) (l : Fin 9) (a b c d e g : Nat) (s : State) : (coreEvent n l a b c d e g s).epoch = s.epoch := by unfold coreEvent; split <;> rfl
@[simp] theorem coreEvent_epochPend (n : CoreIx) (l : Fin 9) (a b c d e g : Nat) (s : State) : (coreEvent n l a b c d e g s).epochPend = s.epochPend := by unfold coreEvent; split <;> rfl
@[simp] theorem coreEvent_progs (n : CoreIx) (l : Fin 9) (a b c d e g : Nat) (s : State) : (coreEvent n l a b c d e g s).progs = s.progs := by unfold coreEvent; split <;> rfl
@[simp] theorem coreEvent_instStatus (n : CoreIx) (l : Fin 9) (a b c d e g : Nat) (s : State) : (coreEvent n l a b c d e g s).instStatus = s.instStatus := by unfold coreEvent; split <;> rfl
@[simp] theorem coreEvent_clusters (n : CoreIx) (l : Fin 9) (a b c d e g : Nat) (s : State) : (coreEvent n l a b c d e g s).clusters = s.clusters := by unfold coreEvent; split <;> rfl
@[simp] theorem coreEvent_hbm (n : CoreIx) (l : Fin 9) (a b c d e g : Nat) (s : State) : (coreEvent n l a b c d e g s).hbm = s.hbm := by unfold coreEvent; split <;> rfl
@[simp] theorem coreEvent_slots (n : CoreIx) (l : Fin 9) (a b c d e g : Nat) (s : State) : (coreEvent n l a b c d e g s).slots = s.slots := by unfold coreEvent; split <;> rfl
@[simp] theorem coreEvent_vrecs (n : CoreIx) (l : Fin 9) (a b c d e g : Nat) (s : State) : (coreEvent n l a b c d e g s).vrecs = s.vrecs := by unfold coreEvent; split <;> rfl
@[simp] theorem coreEvent_attrNext (n : CoreIx) (l : Fin 9) (a b c d e g : Nat) (s : State) : (coreEvent n l a b c d e g s).attrNext = s.attrNext := by unfold coreEvent; split <;> rfl
@[simp] theorem coreEvent_evictNext (n : CoreIx) (l : Fin 9) (a b c d e g : Nat) (s : State) : (coreEvent n l a b c d e g s).evictNext = s.evictNext := by unfold coreEvent; split <;> rfl
@[simp] theorem coreEvent_residentNext (n : CoreIx) (l : Fin 9) (a b c d e g : Nat) (s : State) : (coreEvent n l a b c d e g s).residentNext = s.residentNext := by unfold coreEvent; split <;> rfl
@[simp] theorem coreEvent_tensors (n : CoreIx) (l : Fin 9) (a b c d e g : Nat) (s : State) : (coreEvent n l a b c d e g s).tensors = s.tensors := by unfold coreEvent; split <;> rfl
@[simp] theorem coreEvent_tensorNext (n : CoreIx) (l : Fin 9) (a b c d e g : Nat) (s : State) : (coreEvent n l a b c d e g s).tensorNext = s.tensorNext := by unfold coreEvent; split <;> rfl
@[simp] theorem coreEvent_tdigs (n : CoreIx) (l : Fin 9) (a b c d e g : Nat) (s : State) : (coreEvent n l a b c d e g s).tdigs = s.tdigs := by unfold coreEvent; split <;> rfl
@[simp] theorem coreEvent_freezeNext (n : CoreIx) (l : Fin 9) (a b c d e g : Nat) (s : State) : (coreEvent n l a b c d e g s).freezeNext = s.freezeNext := by unfold coreEvent; split <;> rfl
@[simp] theorem coreEvent_uuAdd (n : CoreIx) (l : Fin 9) (a b c d e g : Nat) (s : State) : (coreEvent n l a b c d e g s).uuAdd = s.uuAdd := by unfold coreEvent; split <;> rfl
@[simp] theorem coreEvent_uuOpt (n : CoreIx) (l : Fin 9) (a b c d e g : Nat) (s : State) : (coreEvent n l a b c d e g s).uuOpt = s.uuOpt := by unfold coreEvent; split <;> rfl
@[simp] theorem coreEvent_uuBusy (n : CoreIx) (l : Fin 9) (a b c d e g : Nat) (s : State) : (coreEvent n l a b c d e g s).uuBusy = s.uuBusy := by unfold coreEvent; split <;> rfl
@[simp] theorem coreEvent_uuNow (n : CoreIx) (l : Fin 9) (a b c d e g : Nat) (s : State) : (coreEvent n l a b c d e g s).uuNow = s.uuNow := by unfold coreEvent; split <;> rfl
@[simp] theorem coreEvent_recs (n : CoreIx) (l : Fin 9) (a b c d e g : Nat) (s : State) : (coreEvent n l a b c d e g s).recs = s.recs := by unfold coreEvent; split <;> rfl
@[simp] theorem coreEvent_parts (n : CoreIx) (l : Fin 9) (a b c d e g : Nat) (s : State) : (coreEvent n l a b c d e g s).parts = s.parts := by unfold coreEvent; split <;> rfl
@[simp] theorem coreEvent_rings (n : CoreIx) (l : Fin 9) (a b c d e g : Nat) (s : State) : (coreEvent n l a b c d e g s).rings = s.rings := by unfold coreEvent; split <;> rfl
@[simp] theorem coreEvent_faces (n : CoreIx) (l : Fin 9) (a b c d e g : Nat) (s : State) : (coreEvent n l a b c d e g s).faces = s.faces := by unfold coreEvent; split <;> rfl
@[simp] theorem coreEvent_seg (n : CoreIx) (l : Fin 9) (a b c d e g : Nat) (s : State) : (coreEvent n l a b c d e g s).seg = s.seg := by unfold coreEvent; split <;> rfl
@[simp] theorem coreEvent_rcc (n : CoreIx) (l : Fin 9) (a b c d e g : Nat) (s : State) : (coreEvent n l a b c d e g s).rcc = s.rcc := by unfold coreEvent; split <;> rfl
@[simp] theorem coreEvent_run (n : CoreIx) (l : Fin 9) (a b c d e g : Nat) (s : State) : (coreEvent n l a b c d e g s).run = s.run := by unfold coreEvent; split <;> rfl
@[simp] theorem coreEvent_adm (n : CoreIx) (l : Fin 9) (a b c d e g : Nat) (s : State) : (coreEvent n l a b c d e g s).adm = s.adm := by unfold coreEvent; split <;> rfl
@[simp] theorem coreEvent_err (n : CoreIx) (l : Fin 9) (a b c d e g : Nat) (s : State) : (coreEvent n l a b c d e g s).err = s.err := by unfold coreEvent; split <;> rfl
@[simp] theorem coreEvent_pw (n : CoreIx) (l : Fin 9) (a b c d e g : Nat) (s : State) : (coreEvent n l a b c d e g s).pw = s.pw := by unfold coreEvent; split <;> rfl

@[simp] theorem finishWord_pending (q n : Nat) (w : IWord) (s : State) : (finishWord q n w s).pending = s.pending := rfl
@[simp] theorem finishWord_out (q n : Nat) (w : IWord) (s : State) : (finishWord q n w s).out = s.out := rfl
@[simp] theorem finishWord_freeIx (q n : Nat) (w : IWord) (s : State) : (finishWord q n w s).freeIx = s.freeIx := rfl
@[simp] theorem finishWord_nv (q n : Nat) (w : IWord) (s : State) : (finishWord q n w s).nv = s.nv := rfl
@[simp] theorem finishWord_cc (q n : Nat) (w : IWord) (s : State) : (finishWord q n w s).cc = s.cc := rfl
@[simp] theorem finishWord_sec (q n : Nat) (w : IWord) (s : State) : (finishWord q n w s).sec = s.sec := (rfl)
@[simp] theorem finishWord_regs (q n : Nat) (w : IWord) (s : State) : (finishWord q n w s).regs = s.regs := rfl
@[simp] theorem finishWord_mc (q n : Nat) (w : IWord) (s : State) : (finishWord q n w s).mc = s.mc := rfl
@[simp] theorem finishWord_plane (q n : Nat) (w : IWord) (s : State) : (finishWord q n w s).plane = s.plane := rfl
@[simp] theorem finishWord_ports (q n : Nat) (w : IWord) (s : State) : (finishWord q n w s).ports = s.ports := rfl
@[simp] theorem finishWord_epoch (q n : Nat) (w : IWord) (s : State) : (finishWord q n w s).epoch = s.epoch := rfl
@[simp] theorem finishWord_epochPend (q n : Nat) (w : IWord) (s : State) : (finishWord q n w s).epochPend = s.epochPend := rfl
@[simp] theorem finishWord_progs (q n : Nat) (w : IWord) (s : State) : (finishWord q n w s).progs = s.progs := rfl
@[simp] theorem finishWord_instStatus (q n : Nat) (w : IWord) (s : State) : (finishWord q n w s).instStatus = s.instStatus := rfl
@[simp] theorem finishWord_cores (q n : Nat) (w : IWord) (s : State) : (finishWord q n w s).cores = s.cores := (rfl)
@[simp] theorem finishWord_clusters (q n : Nat) (w : IWord) (s : State) : (finishWord q n w s).clusters = s.clusters := rfl
@[simp] theorem finishWord_hbm (q n : Nat) (w : IWord) (s : State) : (finishWord q n w s).hbm = s.hbm := rfl
@[simp] theorem finishWord_slots (q n : Nat) (w : IWord) (s : State) : (finishWord q n w s).slots = s.slots := rfl
@[simp] theorem finishWord_vrecs (q n : Nat) (w : IWord) (s : State) : (finishWord q n w s).vrecs = s.vrecs := rfl
@[simp] theorem finishWord_attrNext (q n : Nat) (w : IWord) (s : State) : (finishWord q n w s).attrNext = s.attrNext := rfl
@[simp] theorem finishWord_evictNext (q n : Nat) (w : IWord) (s : State) : (finishWord q n w s).evictNext = s.evictNext := rfl
@[simp] theorem finishWord_residentNext (q n : Nat) (w : IWord) (s : State) : (finishWord q n w s).residentNext = s.residentNext := rfl
@[simp] theorem finishWord_tensors (q n : Nat) (w : IWord) (s : State) : (finishWord q n w s).tensors = s.tensors := rfl
@[simp] theorem finishWord_tensorNext (q n : Nat) (w : IWord) (s : State) : (finishWord q n w s).tensorNext = s.tensorNext := rfl
@[simp] theorem finishWord_tdigs (q n : Nat) (w : IWord) (s : State) : (finishWord q n w s).tdigs = s.tdigs := rfl
@[simp] theorem finishWord_freezeNext (q n : Nat) (w : IWord) (s : State) : (finishWord q n w s).freezeNext = s.freezeNext := rfl
@[simp] theorem finishWord_uuAdd (q n : Nat) (w : IWord) (s : State) : (finishWord q n w s).uuAdd = s.uuAdd := rfl
@[simp] theorem finishWord_uuOpt (q n : Nat) (w : IWord) (s : State) : (finishWord q n w s).uuOpt = s.uuOpt := rfl
@[simp] theorem finishWord_uuBusy (q n : Nat) (w : IWord) (s : State) : (finishWord q n w s).uuBusy = s.uuBusy := rfl
@[simp] theorem finishWord_uuNow (q n : Nat) (w : IWord) (s : State) : (finishWord q n w s).uuNow = s.uuNow := rfl
@[simp] theorem finishWord_recs (q n : Nat) (w : IWord) (s : State) : (finishWord q n w s).recs = s.recs := rfl
@[simp] theorem finishWord_parts (q n : Nat) (w : IWord) (s : State) : (finishWord q n w s).parts = s.parts := rfl
@[simp] theorem finishWord_rings (q n : Nat) (w : IWord) (s : State) : (finishWord q n w s).rings = s.rings := rfl
@[simp] theorem finishWord_faces (q n : Nat) (w : IWord) (s : State) : (finishWord q n w s).faces = s.faces := rfl
@[simp] theorem finishWord_seg (q n : Nat) (w : IWord) (s : State) : (finishWord q n w s).seg = s.seg := rfl
@[simp] theorem finishWord_rcc (q n : Nat) (w : IWord) (s : State) : (finishWord q n w s).rcc = s.rcc := rfl
@[simp] theorem finishWord_adm (q n : Nat) (w : IWord) (s : State) : (finishWord q n w s).adm = s.adm := rfl
@[simp] theorem finishWord_err (q n : Nat) (w : IWord) (s : State) : (finishWord q n w s).err = s.err := rfl
@[simp] theorem finishWord_pw (q n : Nat) (w : IWord) (s : State) : (finishWord q n w s).pw = s.pw := rfl

@[simp] theorem setStatus_pending (i c : Nat) (h : Bool) (s : State) : (setStatus i c h s).pending = s.pending := rfl
@[simp] theorem setStatus_out (i c : Nat) (h : Bool) (s : State) : (setStatus i c h s).out = s.out := rfl
@[simp] theorem setStatus_freeIx (i c : Nat) (h : Bool) (s : State) : (setStatus i c h s).freeIx = s.freeIx := rfl
@[simp] theorem setStatus_nv (i c : Nat) (h : Bool) (s : State) : (setStatus i c h s).nv = s.nv := rfl
@[simp] theorem setStatus_cc (i c : Nat) (h : Bool) (s : State) : (setStatus i c h s).cc = s.cc := rfl
@[simp] theorem setStatus_sec (i c : Nat) (h : Bool) (s : State) : (setStatus i c h s).sec = s.sec := (rfl)
@[simp] theorem setStatus_regs (i c : Nat) (h : Bool) (s : State) : (setStatus i c h s).regs = s.regs := rfl
@[simp] theorem setStatus_mc (i c : Nat) (h : Bool) (s : State) : (setStatus i c h s).mc = s.mc := rfl
@[simp] theorem setStatus_plane (i c : Nat) (h : Bool) (s : State) : (setStatus i c h s).plane = s.plane := rfl
@[simp] theorem setStatus_ports (i c : Nat) (h : Bool) (s : State) : (setStatus i c h s).ports = s.ports := rfl
@[simp] theorem setStatus_epoch (i c : Nat) (h : Bool) (s : State) : (setStatus i c h s).epoch = s.epoch := rfl
@[simp] theorem setStatus_epochPend (i c : Nat) (h : Bool) (s : State) : (setStatus i c h s).epochPend = s.epochPend := rfl
@[simp] theorem setStatus_progs (i c : Nat) (h : Bool) (s : State) : (setStatus i c h s).progs = s.progs := rfl
@[simp] theorem setStatus_instStatus (i c : Nat) (h : Bool) (s : State) : (setStatus i c h s).instStatus = s.instStatus := rfl
@[simp] theorem setStatus_cores (i c : Nat) (h : Bool) (s : State) : (setStatus i c h s).cores = s.cores := (rfl)
@[simp] theorem setStatus_clusters (i c : Nat) (h : Bool) (s : State) : (setStatus i c h s).clusters = s.clusters := rfl
@[simp] theorem setStatus_hbm (i c : Nat) (h : Bool) (s : State) : (setStatus i c h s).hbm = s.hbm := rfl
@[simp] theorem setStatus_slots (i c : Nat) (h : Bool) (s : State) : (setStatus i c h s).slots = s.slots := rfl
@[simp] theorem setStatus_vrecs (i c : Nat) (h : Bool) (s : State) : (setStatus i c h s).vrecs = s.vrecs := rfl
@[simp] theorem setStatus_attrNext (i c : Nat) (h : Bool) (s : State) : (setStatus i c h s).attrNext = s.attrNext := rfl
@[simp] theorem setStatus_evictNext (i c : Nat) (h : Bool) (s : State) : (setStatus i c h s).evictNext = s.evictNext := rfl
@[simp] theorem setStatus_residentNext (i c : Nat) (h : Bool) (s : State) : (setStatus i c h s).residentNext = s.residentNext := rfl
@[simp] theorem setStatus_tensors (i c : Nat) (h : Bool) (s : State) : (setStatus i c h s).tensors = s.tensors := rfl
@[simp] theorem setStatus_tensorNext (i c : Nat) (h : Bool) (s : State) : (setStatus i c h s).tensorNext = s.tensorNext := rfl
@[simp] theorem setStatus_tdigs (i c : Nat) (h : Bool) (s : State) : (setStatus i c h s).tdigs = s.tdigs := rfl
@[simp] theorem setStatus_freezeNext (i c : Nat) (h : Bool) (s : State) : (setStatus i c h s).freezeNext = s.freezeNext := rfl
@[simp] theorem setStatus_uuAdd (i c : Nat) (h : Bool) (s : State) : (setStatus i c h s).uuAdd = s.uuAdd := rfl
@[simp] theorem setStatus_uuOpt (i c : Nat) (h : Bool) (s : State) : (setStatus i c h s).uuOpt = s.uuOpt := rfl
@[simp] theorem setStatus_uuBusy (i c : Nat) (h : Bool) (s : State) : (setStatus i c h s).uuBusy = s.uuBusy := rfl
@[simp] theorem setStatus_uuNow (i c : Nat) (h : Bool) (s : State) : (setStatus i c h s).uuNow = s.uuNow := rfl
@[simp] theorem setStatus_recs (i c : Nat) (h : Bool) (s : State) : (setStatus i c h s).recs = s.recs := rfl
@[simp] theorem setStatus_parts (i c : Nat) (h : Bool) (s : State) : (setStatus i c h s).parts = s.parts := rfl
@[simp] theorem setStatus_rings (i c : Nat) (h : Bool) (s : State) : (setStatus i c h s).rings = s.rings := rfl
@[simp] theorem setStatus_faces (i c : Nat) (h : Bool) (s : State) : (setStatus i c h s).faces = s.faces := rfl
@[simp] theorem setStatus_seg (i c : Nat) (h : Bool) (s : State) : (setStatus i c h s).seg = s.seg := rfl
@[simp] theorem setStatus_rcc (i c : Nat) (h : Bool) (s : State) : (setStatus i c h s).rcc = s.rcc := rfl
@[simp] theorem setStatus_adm (i c : Nat) (h : Bool) (s : State) : (setStatus i c h s).adm = s.adm := rfl
@[simp] theorem setStatus_err (i c : Nat) (h : Bool) (s : State) : (setStatus i c h s).err = s.err := rfl
@[simp] theorem setStatus_pw (i c : Nat) (h : Bool) (s : State) : (setStatus i c h s).pw = s.pw := rfl

@[simp] theorem wordErr_pending (i : Nat) (p : Option Part) (e : ErrEntry) (s : State) : (wordErr i p e s).pending = s.pending := by unfold wordErr; split <;> rfl
@[simp] theorem wordErr_out (i : Nat) (p : Option Part) (e : ErrEntry) (s : State) : (wordErr i p e s).out = s.out := by unfold wordErr; split <;> rfl
@[simp] theorem wordErr_freeIx (i : Nat) (p : Option Part) (e : ErrEntry) (s : State) : (wordErr i p e s).freeIx = s.freeIx := by unfold wordErr; split <;> rfl
@[simp] theorem wordErr_nv (i : Nat) (p : Option Part) (e : ErrEntry) (s : State) : (wordErr i p e s).nv = s.nv := by unfold wordErr; split <;> rfl
@[simp] theorem wordErr_cc (i : Nat) (p : Option Part) (e : ErrEntry) (s : State) : (wordErr i p e s).cc = s.cc := by unfold wordErr; split <;> rfl
@[simp] theorem wordErr_sec (i : Nat) (p : Option Part) (e : ErrEntry) (s : State) : (wordErr i p e s).sec = s.sec := by unfold wordErr; split <;> rfl
@[simp] theorem wordErr_regs (i : Nat) (p : Option Part) (e : ErrEntry) (s : State) : (wordErr i p e s).regs = s.regs := by unfold wordErr; split <;> rfl
@[simp] theorem wordErr_mc (i : Nat) (p : Option Part) (e : ErrEntry) (s : State) : (wordErr i p e s).mc = s.mc := by unfold wordErr; split <;> rfl
@[simp] theorem wordErr_plane (i : Nat) (p : Option Part) (e : ErrEntry) (s : State) : (wordErr i p e s).plane = s.plane := by unfold wordErr; split <;> rfl
@[simp] theorem wordErr_ports (i : Nat) (p : Option Part) (e : ErrEntry) (s : State) : (wordErr i p e s).ports = s.ports := by unfold wordErr; split <;> rfl
@[simp] theorem wordErr_epoch (i : Nat) (p : Option Part) (e : ErrEntry) (s : State) : (wordErr i p e s).epoch = s.epoch := by unfold wordErr; split <;> rfl
@[simp] theorem wordErr_epochPend (i : Nat) (p : Option Part) (e : ErrEntry) (s : State) : (wordErr i p e s).epochPend = s.epochPend := by unfold wordErr; split <;> rfl
@[simp] theorem wordErr_progs (i : Nat) (p : Option Part) (e : ErrEntry) (s : State) : (wordErr i p e s).progs = s.progs := by unfold wordErr; split <;> rfl
@[simp] theorem wordErr_instStatus (i : Nat) (p : Option Part) (e : ErrEntry) (s : State) : (wordErr i p e s).instStatus = s.instStatus := by unfold wordErr; split <;> rfl
@[simp] theorem wordErr_cores (i : Nat) (p : Option Part) (e : ErrEntry) (s : State) : (wordErr i p e s).cores = s.cores := by unfold wordErr; split <;> rfl
@[simp] theorem wordErr_clusters (i : Nat) (p : Option Part) (e : ErrEntry) (s : State) : (wordErr i p e s).clusters = s.clusters := by unfold wordErr; split <;> rfl
@[simp] theorem wordErr_hbm (i : Nat) (p : Option Part) (e : ErrEntry) (s : State) : (wordErr i p e s).hbm = s.hbm := by unfold wordErr; split <;> rfl
@[simp] theorem wordErr_slots (i : Nat) (p : Option Part) (e : ErrEntry) (s : State) : (wordErr i p e s).slots = s.slots := by unfold wordErr; split <;> rfl
@[simp] theorem wordErr_vrecs (i : Nat) (p : Option Part) (e : ErrEntry) (s : State) : (wordErr i p e s).vrecs = s.vrecs := by unfold wordErr; split <;> rfl
@[simp] theorem wordErr_attrNext (i : Nat) (p : Option Part) (e : ErrEntry) (s : State) : (wordErr i p e s).attrNext = s.attrNext := by unfold wordErr; split <;> rfl
@[simp] theorem wordErr_evictNext (i : Nat) (p : Option Part) (e : ErrEntry) (s : State) : (wordErr i p e s).evictNext = s.evictNext := by unfold wordErr; split <;> rfl
@[simp] theorem wordErr_residentNext (i : Nat) (p : Option Part) (e : ErrEntry) (s : State) : (wordErr i p e s).residentNext = s.residentNext := by unfold wordErr; split <;> rfl
@[simp] theorem wordErr_tensors (i : Nat) (p : Option Part) (e : ErrEntry) (s : State) : (wordErr i p e s).tensors = s.tensors := by unfold wordErr; split <;> rfl
@[simp] theorem wordErr_tensorNext (i : Nat) (p : Option Part) (e : ErrEntry) (s : State) : (wordErr i p e s).tensorNext = s.tensorNext := by unfold wordErr; split <;> rfl
@[simp] theorem wordErr_tdigs (i : Nat) (p : Option Part) (e : ErrEntry) (s : State) : (wordErr i p e s).tdigs = s.tdigs := by unfold wordErr; split <;> rfl
@[simp] theorem wordErr_freezeNext (i : Nat) (p : Option Part) (e : ErrEntry) (s : State) : (wordErr i p e s).freezeNext = s.freezeNext := by unfold wordErr; split <;> rfl
@[simp] theorem wordErr_uuAdd (i : Nat) (p : Option Part) (e : ErrEntry) (s : State) : (wordErr i p e s).uuAdd = s.uuAdd := by unfold wordErr; split <;> rfl
@[simp] theorem wordErr_uuOpt (i : Nat) (p : Option Part) (e : ErrEntry) (s : State) : (wordErr i p e s).uuOpt = s.uuOpt := by unfold wordErr; split <;> rfl
@[simp] theorem wordErr_uuBusy (i : Nat) (p : Option Part) (e : ErrEntry) (s : State) : (wordErr i p e s).uuBusy = s.uuBusy := by unfold wordErr; split <;> rfl
@[simp] theorem wordErr_uuNow (i : Nat) (p : Option Part) (e : ErrEntry) (s : State) : (wordErr i p e s).uuNow = s.uuNow := by unfold wordErr; split <;> rfl
@[simp] theorem wordErr_recs (i : Nat) (p : Option Part) (e : ErrEntry) (s : State) : (wordErr i p e s).recs = s.recs := by unfold wordErr; split <;> rfl
@[simp] theorem wordErr_parts (i : Nat) (p : Option Part) (e : ErrEntry) (s : State) : (wordErr i p e s).parts = s.parts := by unfold wordErr; split <;> rfl
@[simp] theorem wordErr_rings (i : Nat) (p : Option Part) (e : ErrEntry) (s : State) : (wordErr i p e s).rings = s.rings := by unfold wordErr; split <;> rfl
@[simp] theorem wordErr_faces (i : Nat) (p : Option Part) (e : ErrEntry) (s : State) : (wordErr i p e s).faces = s.faces := by unfold wordErr; split <;> rfl
@[simp] theorem wordErr_seg (i : Nat) (p : Option Part) (e : ErrEntry) (s : State) : (wordErr i p e s).seg = s.seg := by unfold wordErr; split <;> rfl
@[simp] theorem wordErr_rcc (i : Nat) (p : Option Part) (e : ErrEntry) (s : State) : (wordErr i p e s).rcc = s.rcc := by unfold wordErr; split <;> rfl
@[simp] theorem wordErr_adm (i : Nat) (p : Option Part) (e : ErrEntry) (s : State) : (wordErr i p e s).adm = s.adm := by unfold wordErr; split <;> rfl
@[simp] theorem wordErr_err (i : Nat) (p : Option Part) (e : ErrEntry) (s : State) : (wordErr i p e s).err = s.err := by unfold wordErr; split <;> rfl
@[simp] theorem wordErr_pw (i : Nat) (p : Option Part) (e : ErrEntry) (s : State) : (wordErr i p e s).pw = s.pw := by unfold wordErr; split <;> rfl

@[simp] theorem stepErr_pending (p : Part) (e : ErrEntry) (s : State) : (stepErr p e s).pending = s.pending := rfl
@[simp] theorem stepErr_out (p : Part) (e : ErrEntry) (s : State) : (stepErr p e s).out = s.out := rfl
@[simp] theorem stepErr_freeIx (p : Part) (e : ErrEntry) (s : State) : (stepErr p e s).freeIx = s.freeIx := rfl
@[simp] theorem stepErr_nv (p : Part) (e : ErrEntry) (s : State) : (stepErr p e s).nv = s.nv := rfl
@[simp] theorem stepErr_cc (p : Part) (e : ErrEntry) (s : State) : (stepErr p e s).cc = s.cc := rfl
@[simp] theorem stepErr_sec (p : Part) (e : ErrEntry) (s : State) : (stepErr p e s).sec = s.sec := (rfl)
@[simp] theorem stepErr_regs (p : Part) (e : ErrEntry) (s : State) : (stepErr p e s).regs = s.regs := rfl
@[simp] theorem stepErr_mc (p : Part) (e : ErrEntry) (s : State) : (stepErr p e s).mc = s.mc := rfl
@[simp] theorem stepErr_plane (p : Part) (e : ErrEntry) (s : State) : (stepErr p e s).plane = s.plane := rfl
@[simp] theorem stepErr_ports (p : Part) (e : ErrEntry) (s : State) : (stepErr p e s).ports = s.ports := rfl
@[simp] theorem stepErr_epoch (p : Part) (e : ErrEntry) (s : State) : (stepErr p e s).epoch = s.epoch := rfl
@[simp] theorem stepErr_epochPend (p : Part) (e : ErrEntry) (s : State) : (stepErr p e s).epochPend = s.epochPend := rfl
@[simp] theorem stepErr_progs (p : Part) (e : ErrEntry) (s : State) : (stepErr p e s).progs = s.progs := rfl
@[simp] theorem stepErr_instStatus (p : Part) (e : ErrEntry) (s : State) : (stepErr p e s).instStatus = s.instStatus := rfl
@[simp] theorem stepErr_cores (p : Part) (e : ErrEntry) (s : State) : (stepErr p e s).cores = s.cores := (rfl)
@[simp] theorem stepErr_clusters (p : Part) (e : ErrEntry) (s : State) : (stepErr p e s).clusters = s.clusters := rfl
@[simp] theorem stepErr_hbm (p : Part) (e : ErrEntry) (s : State) : (stepErr p e s).hbm = s.hbm := rfl
@[simp] theorem stepErr_slots (p : Part) (e : ErrEntry) (s : State) : (stepErr p e s).slots = s.slots := rfl
@[simp] theorem stepErr_vrecs (p : Part) (e : ErrEntry) (s : State) : (stepErr p e s).vrecs = s.vrecs := rfl
@[simp] theorem stepErr_attrNext (p : Part) (e : ErrEntry) (s : State) : (stepErr p e s).attrNext = s.attrNext := rfl
@[simp] theorem stepErr_evictNext (p : Part) (e : ErrEntry) (s : State) : (stepErr p e s).evictNext = s.evictNext := rfl
@[simp] theorem stepErr_residentNext (p : Part) (e : ErrEntry) (s : State) : (stepErr p e s).residentNext = s.residentNext := rfl
@[simp] theorem stepErr_tensors (p : Part) (e : ErrEntry) (s : State) : (stepErr p e s).tensors = s.tensors := rfl
@[simp] theorem stepErr_tensorNext (p : Part) (e : ErrEntry) (s : State) : (stepErr p e s).tensorNext = s.tensorNext := rfl
@[simp] theorem stepErr_tdigs (p : Part) (e : ErrEntry) (s : State) : (stepErr p e s).tdigs = s.tdigs := rfl
@[simp] theorem stepErr_freezeNext (p : Part) (e : ErrEntry) (s : State) : (stepErr p e s).freezeNext = s.freezeNext := rfl
@[simp] theorem stepErr_uuAdd (p : Part) (e : ErrEntry) (s : State) : (stepErr p e s).uuAdd = s.uuAdd := rfl
@[simp] theorem stepErr_uuOpt (p : Part) (e : ErrEntry) (s : State) : (stepErr p e s).uuOpt = s.uuOpt := rfl
@[simp] theorem stepErr_uuBusy (p : Part) (e : ErrEntry) (s : State) : (stepErr p e s).uuBusy = s.uuBusy := rfl
@[simp] theorem stepErr_uuNow (p : Part) (e : ErrEntry) (s : State) : (stepErr p e s).uuNow = s.uuNow := rfl
@[simp] theorem stepErr_recs (p : Part) (e : ErrEntry) (s : State) : (stepErr p e s).recs = s.recs := rfl
@[simp] theorem stepErr_parts (p : Part) (e : ErrEntry) (s : State) : (stepErr p e s).parts = s.parts := rfl
@[simp] theorem stepErr_rings (p : Part) (e : ErrEntry) (s : State) : (stepErr p e s).rings = s.rings := rfl
@[simp] theorem stepErr_faces (p : Part) (e : ErrEntry) (s : State) : (stepErr p e s).faces = s.faces := rfl
@[simp] theorem stepErr_seg (p : Part) (e : ErrEntry) (s : State) : (stepErr p e s).seg = s.seg := rfl
@[simp] theorem stepErr_rcc (p : Part) (e : ErrEntry) (s : State) : (stepErr p e s).rcc = s.rcc := rfl
@[simp] theorem stepErr_adm (p : Part) (e : ErrEntry) (s : State) : (stepErr p e s).adm = s.adm := rfl
@[simp] theorem stepErr_err (p : Part) (e : ErrEntry) (s : State) : (stepErr p e s).err = s.err := rfl
@[simp] theorem stepErr_pw (p : Part) (e : ErrEntry) (s : State) : (stepErr p e s).pw = s.pw := rfl

@[simp] theorem noteErr_pending (p : Part) (e : ErrEntry) (s : State) : (noteErr p e s).pending = s.pending := by unfold noteErr; split <;> simp
@[simp] theorem noteErr_out (p : Part) (e : ErrEntry) (s : State) : (noteErr p e s).out = s.out := by unfold noteErr; split <;> simp
@[simp] theorem noteErr_freeIx (p : Part) (e : ErrEntry) (s : State) : (noteErr p e s).freeIx = s.freeIx := by unfold noteErr; split <;> simp
@[simp] theorem noteErr_nv (p : Part) (e : ErrEntry) (s : State) : (noteErr p e s).nv = s.nv := by unfold noteErr; split <;> simp
@[simp] theorem noteErr_cc (p : Part) (e : ErrEntry) (s : State) : (noteErr p e s).cc = s.cc := by unfold noteErr; split <;> simp
@[simp] theorem noteErr_sec (p : Part) (e : ErrEntry) (s : State) : (noteErr p e s).sec = s.sec := by unfold noteErr; split <;> simp
@[simp] theorem noteErr_mc (p : Part) (e : ErrEntry) (s : State) : (noteErr p e s).mc = s.mc := by unfold noteErr; split <;> simp
@[simp] theorem noteErr_plane (p : Part) (e : ErrEntry) (s : State) : (noteErr p e s).plane = s.plane := by unfold noteErr; split <;> simp
@[simp] theorem noteErr_ports (p : Part) (e : ErrEntry) (s : State) : (noteErr p e s).ports = s.ports := by unfold noteErr; split <;> simp
@[simp] theorem noteErr_epoch (p : Part) (e : ErrEntry) (s : State) : (noteErr p e s).epoch = s.epoch := by unfold noteErr; split <;> simp
@[simp] theorem noteErr_epochPend (p : Part) (e : ErrEntry) (s : State) : (noteErr p e s).epochPend = s.epochPend := by unfold noteErr; split <;> simp
@[simp] theorem noteErr_progs (p : Part) (e : ErrEntry) (s : State) : (noteErr p e s).progs = s.progs := by unfold noteErr; split <;> simp
@[simp] theorem noteErr_instStatus (p : Part) (e : ErrEntry) (s : State) : (noteErr p e s).instStatus = s.instStatus := by unfold noteErr; split <;> simp
@[simp] theorem noteErr_cores (p : Part) (e : ErrEntry) (s : State) : (noteErr p e s).cores = s.cores := by unfold noteErr; split <;> simp
@[simp] theorem noteErr_clusters (p : Part) (e : ErrEntry) (s : State) : (noteErr p e s).clusters = s.clusters := by unfold noteErr; split <;> simp
@[simp] theorem noteErr_hbm (p : Part) (e : ErrEntry) (s : State) : (noteErr p e s).hbm = s.hbm := by unfold noteErr; split <;> simp
@[simp] theorem noteErr_slots (p : Part) (e : ErrEntry) (s : State) : (noteErr p e s).slots = s.slots := by unfold noteErr; split <;> simp
@[simp] theorem noteErr_vrecs (p : Part) (e : ErrEntry) (s : State) : (noteErr p e s).vrecs = s.vrecs := by unfold noteErr; split <;> simp
@[simp] theorem noteErr_attrNext (p : Part) (e : ErrEntry) (s : State) : (noteErr p e s).attrNext = s.attrNext := by unfold noteErr; split <;> simp
@[simp] theorem noteErr_evictNext (p : Part) (e : ErrEntry) (s : State) : (noteErr p e s).evictNext = s.evictNext := by unfold noteErr; split <;> simp
@[simp] theorem noteErr_residentNext (p : Part) (e : ErrEntry) (s : State) : (noteErr p e s).residentNext = s.residentNext := by unfold noteErr; split <;> simp
@[simp] theorem noteErr_tensors (p : Part) (e : ErrEntry) (s : State) : (noteErr p e s).tensors = s.tensors := by unfold noteErr; split <;> simp
@[simp] theorem noteErr_tensorNext (p : Part) (e : ErrEntry) (s : State) : (noteErr p e s).tensorNext = s.tensorNext := by unfold noteErr; split <;> simp
@[simp] theorem noteErr_tdigs (p : Part) (e : ErrEntry) (s : State) : (noteErr p e s).tdigs = s.tdigs := by unfold noteErr; split <;> simp
@[simp] theorem noteErr_freezeNext (p : Part) (e : ErrEntry) (s : State) : (noteErr p e s).freezeNext = s.freezeNext := by unfold noteErr; split <;> simp
@[simp] theorem noteErr_uuAdd (p : Part) (e : ErrEntry) (s : State) : (noteErr p e s).uuAdd = s.uuAdd := by unfold noteErr; split <;> simp
@[simp] theorem noteErr_uuOpt (p : Part) (e : ErrEntry) (s : State) : (noteErr p e s).uuOpt = s.uuOpt := by unfold noteErr; split <;> simp
@[simp] theorem noteErr_uuBusy (p : Part) (e : ErrEntry) (s : State) : (noteErr p e s).uuBusy = s.uuBusy := by unfold noteErr; split <;> simp
@[simp] theorem noteErr_uuNow (p : Part) (e : ErrEntry) (s : State) : (noteErr p e s).uuNow = s.uuNow := by unfold noteErr; split <;> simp
@[simp] theorem noteErr_recs (p : Part) (e : ErrEntry) (s : State) : (noteErr p e s).recs = s.recs := by unfold noteErr; split <;> simp
@[simp] theorem noteErr_rings (p : Part) (e : ErrEntry) (s : State) : (noteErr p e s).rings = s.rings := by unfold noteErr; split <;> simp
@[simp] theorem noteErr_faces (p : Part) (e : ErrEntry) (s : State) : (noteErr p e s).faces = s.faces := by unfold noteErr; split <;> simp
@[simp] theorem noteErr_seg (p : Part) (e : ErrEntry) (s : State) : (noteErr p e s).seg = s.seg := by unfold noteErr; split <;> simp
@[simp] theorem noteErr_rcc (p : Part) (e : ErrEntry) (s : State) : (noteErr p e s).rcc = s.rcc := by unfold noteErr; split <;> simp
@[simp] theorem noteErr_adm (p : Part) (e : ErrEntry) (s : State) : (noteErr p e s).adm = s.adm := by unfold noteErr; split <;> simp
@[simp] theorem noteErr_err (p : Part) (e : ErrEntry) (s : State) : (noteErr p e s).err = s.err := by unfold noteErr; split <;> simp
@[simp] theorem noteErr_pw (p : Part) (e : ErrEntry) (s : State) : (noteErr p e s).pw = s.pw := by unfold noteErr; split <;> simp

@[simp] theorem endPending_pending (g : PendWork → Bool) (n : Nat) (s : State) : (endPending g n s).pending = s.pending := by unfold endPending; (repeat split) <;> rfl
@[simp] theorem endPending_out (g : PendWork → Bool) (n : Nat) (s : State) : (endPending g n s).out = s.out := by unfold endPending; (repeat split) <;> rfl
@[simp] theorem endPending_freeIx (g : PendWork → Bool) (n : Nat) (s : State) : (endPending g n s).freeIx = s.freeIx := by unfold endPending; (repeat split) <;> rfl
@[simp] theorem endPending_nv (g : PendWork → Bool) (n : Nat) (s : State) : (endPending g n s).nv = s.nv := by unfold endPending; (repeat split) <;> rfl
@[simp] theorem endPending_sec (g : PendWork → Bool) (n : Nat) (s : State) : (endPending g n s).sec = s.sec := by unfold endPending; (repeat split) <;> rfl
@[simp] theorem endPending_regs (g : PendWork → Bool) (n : Nat) (s : State) : (endPending g n s).regs = s.regs := by unfold endPending; (repeat split) <;> rfl
@[simp] theorem endPending_mc (g : PendWork → Bool) (n : Nat) (s : State) : (endPending g n s).mc = s.mc := by unfold endPending; (repeat split) <;> rfl
@[simp] theorem endPending_plane (g : PendWork → Bool) (n : Nat) (s : State) : (endPending g n s).plane = s.plane := by unfold endPending; (repeat split) <;> rfl
@[simp] theorem endPending_ports (g : PendWork → Bool) (n : Nat) (s : State) : (endPending g n s).ports = s.ports := by unfold endPending; (repeat split) <;> rfl
@[simp] theorem endPending_epoch (g : PendWork → Bool) (n : Nat) (s : State) : (endPending g n s).epoch = s.epoch := by unfold endPending; (repeat split) <;> rfl
@[simp] theorem endPending_epochPend (g : PendWork → Bool) (n : Nat) (s : State) : (endPending g n s).epochPend = s.epochPend := by unfold endPending; (repeat split) <;> rfl
@[simp] theorem endPending_progs (g : PendWork → Bool) (n : Nat) (s : State) : (endPending g n s).progs = s.progs := by unfold endPending; (repeat split) <;> rfl
@[simp] theorem endPending_instStatus (g : PendWork → Bool) (n : Nat) (s : State) : (endPending g n s).instStatus = s.instStatus := by unfold endPending; (repeat split) <;> rfl
@[simp] theorem endPending_cores (g : PendWork → Bool) (n : Nat) (s : State) : (endPending g n s).cores = s.cores := by unfold endPending; (repeat split) <;> rfl
@[simp] theorem endPending_clusters (g : PendWork → Bool) (n : Nat) (s : State) : (endPending g n s).clusters = s.clusters := by unfold endPending; (repeat split) <;> rfl
@[simp] theorem endPending_hbm (g : PendWork → Bool) (n : Nat) (s : State) : (endPending g n s).hbm = s.hbm := by unfold endPending; (repeat split) <;> rfl
@[simp] theorem endPending_slots (g : PendWork → Bool) (n : Nat) (s : State) : (endPending g n s).slots = s.slots := by unfold endPending; (repeat split) <;> rfl
@[simp] theorem endPending_vrecs (g : PendWork → Bool) (n : Nat) (s : State) : (endPending g n s).vrecs = s.vrecs := by unfold endPending; (repeat split) <;> rfl
@[simp] theorem endPending_attrNext (g : PendWork → Bool) (n : Nat) (s : State) : (endPending g n s).attrNext = s.attrNext := by unfold endPending; (repeat split) <;> rfl
@[simp] theorem endPending_evictNext (g : PendWork → Bool) (n : Nat) (s : State) : (endPending g n s).evictNext = s.evictNext := by unfold endPending; (repeat split) <;> rfl
@[simp] theorem endPending_residentNext (g : PendWork → Bool) (n : Nat) (s : State) : (endPending g n s).residentNext = s.residentNext := by unfold endPending; (repeat split) <;> rfl
@[simp] theorem endPending_tensors (g : PendWork → Bool) (n : Nat) (s : State) : (endPending g n s).tensors = s.tensors := by unfold endPending; (repeat split) <;> rfl
@[simp] theorem endPending_tensorNext (g : PendWork → Bool) (n : Nat) (s : State) : (endPending g n s).tensorNext = s.tensorNext := by unfold endPending; (repeat split) <;> rfl
@[simp] theorem endPending_tdigs (g : PendWork → Bool) (n : Nat) (s : State) : (endPending g n s).tdigs = s.tdigs := by unfold endPending; (repeat split) <;> rfl
@[simp] theorem endPending_freezeNext (g : PendWork → Bool) (n : Nat) (s : State) : (endPending g n s).freezeNext = s.freezeNext := by unfold endPending; (repeat split) <;> rfl
@[simp] theorem endPending_uuAdd (g : PendWork → Bool) (n : Nat) (s : State) : (endPending g n s).uuAdd = s.uuAdd := by unfold endPending; (repeat split) <;> rfl
@[simp] theorem endPending_uuOpt (g : PendWork → Bool) (n : Nat) (s : State) : (endPending g n s).uuOpt = s.uuOpt := by unfold endPending; (repeat split) <;> rfl
@[simp] theorem endPending_uuBusy (g : PendWork → Bool) (n : Nat) (s : State) : (endPending g n s).uuBusy = s.uuBusy := by unfold endPending; (repeat split) <;> rfl
@[simp] theorem endPending_uuNow (g : PendWork → Bool) (n : Nat) (s : State) : (endPending g n s).uuNow = s.uuNow := by unfold endPending; (repeat split) <;> rfl
@[simp] theorem endPending_recs (g : PendWork → Bool) (n : Nat) (s : State) : (endPending g n s).recs = s.recs := by unfold endPending; (repeat split) <;> rfl
@[simp] theorem endPending_parts (g : PendWork → Bool) (n : Nat) (s : State) : (endPending g n s).parts = s.parts := by unfold endPending; (repeat split) <;> rfl
@[simp] theorem endPending_rings (g : PendWork → Bool) (n : Nat) (s : State) : (endPending g n s).rings = s.rings := by unfold endPending; (repeat split) <;> rfl
@[simp] theorem endPending_faces (g : PendWork → Bool) (n : Nat) (s : State) : (endPending g n s).faces = s.faces := by unfold endPending; (repeat split) <;> rfl
@[simp] theorem endPending_seg (g : PendWork → Bool) (n : Nat) (s : State) : (endPending g n s).seg = s.seg := by unfold endPending; (repeat split) <;> rfl
@[simp] theorem endPending_rcc (g : PendWork → Bool) (n : Nat) (s : State) : (endPending g n s).rcc = s.rcc := by unfold endPending; (repeat split) <;> rfl
@[simp] theorem endPending_run (g : PendWork → Bool) (n : Nat) (s : State) : (endPending g n s).run = s.run := by unfold endPending; (repeat split) <;> rfl
@[simp] theorem endPending_adm (g : PendWork → Bool) (n : Nat) (s : State) : (endPending g n s).adm = s.adm := by unfold endPending; (repeat split) <;> rfl
@[simp] theorem endPending_err (g : PendWork → Bool) (n : Nat) (s : State) : (endPending g n s).err = s.err := by unfold endPending; (repeat split) <;> rfl
@[simp] theorem endPending_pw (g : PendWork → Bool) (n : Nat) (s : State) : (endPending g n s).pw = s.pw := by unfold endPending; (repeat split) <;> rfl

@[simp] theorem storeWrite_pending (n : CoreIx) (a : Nat) (b : List Byte) (s : State) : (storeWrite n a b s).pending = s.pending := rfl
@[simp] theorem storeWrite_out (n : CoreIx) (a : Nat) (b : List Byte) (s : State) : (storeWrite n a b s).out = s.out := rfl
@[simp] theorem storeWrite_freeIx (n : CoreIx) (a : Nat) (b : List Byte) (s : State) : (storeWrite n a b s).freeIx = s.freeIx := rfl
@[simp] theorem storeWrite_nv (n : CoreIx) (a : Nat) (b : List Byte) (s : State) : (storeWrite n a b s).nv = s.nv := rfl
@[simp] theorem storeWrite_cc (n : CoreIx) (a : Nat) (b : List Byte) (s : State) : (storeWrite n a b s).cc = s.cc := rfl
@[simp] theorem storeWrite_sec (n : CoreIx) (a : Nat) (b : List Byte) (s : State) : (storeWrite n a b s).sec = s.sec := (rfl)
@[simp] theorem storeWrite_regs (n : CoreIx) (a : Nat) (b : List Byte) (s : State) : (storeWrite n a b s).regs = s.regs := rfl
@[simp] theorem storeWrite_mc (n : CoreIx) (a : Nat) (b : List Byte) (s : State) : (storeWrite n a b s).mc = s.mc := rfl
@[simp] theorem storeWrite_plane (n : CoreIx) (a : Nat) (b : List Byte) (s : State) : (storeWrite n a b s).plane = s.plane := rfl
@[simp] theorem storeWrite_ports (n : CoreIx) (a : Nat) (b : List Byte) (s : State) : (storeWrite n a b s).ports = s.ports := rfl
@[simp] theorem storeWrite_epoch (n : CoreIx) (a : Nat) (b : List Byte) (s : State) : (storeWrite n a b s).epoch = s.epoch := rfl
@[simp] theorem storeWrite_epochPend (n : CoreIx) (a : Nat) (b : List Byte) (s : State) : (storeWrite n a b s).epochPend = s.epochPend := rfl
@[simp] theorem storeWrite_progs (n : CoreIx) (a : Nat) (b : List Byte) (s : State) : (storeWrite n a b s).progs = s.progs := rfl
@[simp] theorem storeWrite_instStatus (n : CoreIx) (a : Nat) (b : List Byte) (s : State) : (storeWrite n a b s).instStatus = s.instStatus := rfl
@[simp] theorem storeWrite_clusters (n : CoreIx) (a : Nat) (b : List Byte) (s : State) : (storeWrite n a b s).clusters = s.clusters := rfl
@[simp] theorem storeWrite_hbm (n : CoreIx) (a : Nat) (b : List Byte) (s : State) : (storeWrite n a b s).hbm = s.hbm := rfl
@[simp] theorem storeWrite_slots (n : CoreIx) (a : Nat) (b : List Byte) (s : State) : (storeWrite n a b s).slots = s.slots := rfl
@[simp] theorem storeWrite_vrecs (n : CoreIx) (a : Nat) (b : List Byte) (s : State) : (storeWrite n a b s).vrecs = s.vrecs := rfl
@[simp] theorem storeWrite_attrNext (n : CoreIx) (a : Nat) (b : List Byte) (s : State) : (storeWrite n a b s).attrNext = s.attrNext := rfl
@[simp] theorem storeWrite_evictNext (n : CoreIx) (a : Nat) (b : List Byte) (s : State) : (storeWrite n a b s).evictNext = s.evictNext := rfl
@[simp] theorem storeWrite_residentNext (n : CoreIx) (a : Nat) (b : List Byte) (s : State) : (storeWrite n a b s).residentNext = s.residentNext := rfl
@[simp] theorem storeWrite_tensors (n : CoreIx) (a : Nat) (b : List Byte) (s : State) : (storeWrite n a b s).tensors = s.tensors := rfl
@[simp] theorem storeWrite_tensorNext (n : CoreIx) (a : Nat) (b : List Byte) (s : State) : (storeWrite n a b s).tensorNext = s.tensorNext := rfl
@[simp] theorem storeWrite_tdigs (n : CoreIx) (a : Nat) (b : List Byte) (s : State) : (storeWrite n a b s).tdigs = s.tdigs := rfl
@[simp] theorem storeWrite_freezeNext (n : CoreIx) (a : Nat) (b : List Byte) (s : State) : (storeWrite n a b s).freezeNext = s.freezeNext := rfl
@[simp] theorem storeWrite_uuAdd (n : CoreIx) (a : Nat) (b : List Byte) (s : State) : (storeWrite n a b s).uuAdd = s.uuAdd := rfl
@[simp] theorem storeWrite_uuOpt (n : CoreIx) (a : Nat) (b : List Byte) (s : State) : (storeWrite n a b s).uuOpt = s.uuOpt := rfl
@[simp] theorem storeWrite_uuBusy (n : CoreIx) (a : Nat) (b : List Byte) (s : State) : (storeWrite n a b s).uuBusy = s.uuBusy := rfl
@[simp] theorem storeWrite_uuNow (n : CoreIx) (a : Nat) (b : List Byte) (s : State) : (storeWrite n a b s).uuNow = s.uuNow := rfl
@[simp] theorem storeWrite_recs (n : CoreIx) (a : Nat) (b : List Byte) (s : State) : (storeWrite n a b s).recs = s.recs := rfl
@[simp] theorem storeWrite_parts (n : CoreIx) (a : Nat) (b : List Byte) (s : State) : (storeWrite n a b s).parts = s.parts := rfl
@[simp] theorem storeWrite_rings (n : CoreIx) (a : Nat) (b : List Byte) (s : State) : (storeWrite n a b s).rings = s.rings := rfl
@[simp] theorem storeWrite_faces (n : CoreIx) (a : Nat) (b : List Byte) (s : State) : (storeWrite n a b s).faces = s.faces := rfl
@[simp] theorem storeWrite_seg (n : CoreIx) (a : Nat) (b : List Byte) (s : State) : (storeWrite n a b s).seg = s.seg := rfl
@[simp] theorem storeWrite_rcc (n : CoreIx) (a : Nat) (b : List Byte) (s : State) : (storeWrite n a b s).rcc = s.rcc := rfl
@[simp] theorem storeWrite_run (n : CoreIx) (a : Nat) (b : List Byte) (s : State) : (storeWrite n a b s).run = s.run := rfl
@[simp] theorem storeWrite_adm (n : CoreIx) (a : Nat) (b : List Byte) (s : State) : (storeWrite n a b s).adm = s.adm := rfl
@[simp] theorem storeWrite_err (n : CoreIx) (a : Nat) (b : List Byte) (s : State) : (storeWrite n a b s).err = s.err := rfl
@[simp] theorem storeWrite_pw (n : CoreIx) (a : Nat) (b : List Byte) (s : State) : (storeWrite n a b s).pw = s.pw := rfl

/-- A port's state after a change of its link. -/
@[simp] theorem setLink_own (i : PortIx) (x : LinkSt) (r : Nat) (s : State) : (setLink i x r s).ports[i.val].st = x := by
  unfold setLink; split
  · next h => exact h.1
  · simp

/-- Another port's state after a change of a link. -/
theorem setLink_other (i : PortIx) (x : LinkSt) (r : Nat) (s : State) (j : PortIx) (h : i ≠ j) :
    (setLink i x r s).ports[j.val] = s.ports[j.val] := by
  unfold setLink; split
  · rfl
  · simp only [raiseInt_ports, modPort_ports]; exact vmod_other _ _ _ _ _ (fun e => h (Fin.ext e))

/-- A list of links changed: a port of the list whose state is selected goes to the new state, every other port stays. -/
theorem setLinks_spec (l : List PortIx) (g : LinkSt → Bool) (x : LinkSt) (s : State) (j : PortIx) (hx : g x = false ∨ l.Nodup) :
    (setLinks l g x s).ports[j.val].st = if j ∈ l ∧ g s.ports[j.val].st = true then x else s.ports[j.val].st := by
  unfold setLinks
  induction l generalizing s with
  | nil => simp
  | cons a r ih =>
    rw [List.foldl_cons, ih _ (hx.imp_right (fun h => (List.nodup_cons.mp h).2))]
    have key : (if g s.ports[a].st = true then setLink a x s.ports[a].reason s else s).ports[j.val].st =
        if a = j ∧ g s.ports[j.val].st = true then x else s.ports[j.val].st := by
      by_cases q : g s.ports[a.val].st = true
      · have q' : g s.ports[a].st = true := q
        simp only [if_pos q']
        by_cases e : a = j
        · subst e; simp [q]
        · rw [setLink_other _ _ _ _ _ e, if_neg (fun h => e h.1)]
      · have q' : ¬ g s.ports[a].st = true := q
        simp only [if_neg q']
        by_cases e : a = j
        · subst e; exact (if_neg (fun h => q h.2)).symm
        · exact (if_neg (fun h => e h.1)).symm
    rw [key]
    by_cases e : a = j
    · subst e
      by_cases q : g s.ports[a.val].st = true
      · simp [q]
      · simp [q]
    · have e' : ¬ j = a := fun h => e h.symm
      simp [e, e']

/-- A FATAL error fences the chip, holds the issue of words, keeps the first fatal record and the last entry, and leaves every
port DOWN or FENCED (R437). -/
theorem fatalError_stops (a b c d e : Nat) (s : State) :
    (fatalError a b c d e s).mc.fenced = true ∧ (fatalError a b c d e s).run.held = true ∧
      (fatalError a b c d e s).err.fatal = s.err.fatal.orElse (fun _ => some (a, s.mc.step)) ∧
      (fatalError a b c d e s).nv.lastFatal.isSome = true ∧
      ∀ j : PortIx, (fatalError a b c d e s).ports[j.val].st = .down ∨ (fatalError a b c d e s).ports[j.val].st = .fenced := by
  refine ⟨?_, ?_, ?_, ?_, ?_⟩
  · simp only [fatalError, modRun_mc, setLinks_mc]; unfold fenceChip; split <;> simp_all
  · simp [fatalError]
  · simp [fatalError, chipLog]
  · simp [fatalError]
  · intro j
    simp only [fatalError, modRun_ports]
    rw [setLinks_spec _ _ _ _ _ (Or.inr (by decide))]
    split
    · exact Or.inr rfl
    · next h => exact Or.inl (Decidable.byContradiction (fun q => h ⟨List.mem_finRange j, by simpa using q⟩))

end Sys2Proof.Machine
end

