-- ==== Sys2Proof/Laws/Tab.lean ====
section
/-!
SUPPORT. Sparse tables and byte memories: what an entry reads as after an update, and that every operation keeps the
canonical form.
-/

namespace Sys2Proof.Machine

/-- An update leaves every other entry alone. -/
theorem tabGet_tabSet_other {α : Type} [DecidableEq α] (d x : α) (t : Tab α) (k j : Nat) (h : j ≠ k) :
    tabGet d (tabSet d t k x) j = tabGet d t j := by
  induction t with
  | nil => unfold tabSet; split <;> simp [tabGet, Ne.symm h]
  | cons e r ih =>
    obtain ⟨i, v⟩ := e
    unfold tabSet
    split
    · simp only [tabGet, ih]
    · split
      · next h1 => subst h1; split <;> simp [tabGet, Ne.symm h]
      · split <;> simp [tabGet, Ne.symm h]

/-- An entry other than the default reads as it was written. -/
theorem tabGet_tabSet_same {α : Type} [DecidableEq α] (d x : α) (t : Tab α) (k : Nat) (h : x ≠ d) :
    tabGet d (tabSet d t k x) k = x := by
  induction t with
  | nil => simp [tabSet, h, tabGet]
  | cons e r ih =>
    obtain ⟨i, v⟩ := e
    unfold tabSet
    split
    · next h1 => simp only [tabGet, ih]; rw [if_neg (by omega)]
    · split <;> simp [tabGet]

/-- Below the first key of a table in canonical form every entry is the default. -/
theorem tabGet_below {α : Type} [DecidableEq α] (d : α) (t : Tab α) (n k : Nat) (w : tabWfFrom d n t = true) (h : k < n) :
    tabGet d t k = d := by
  induction t generalizing n with
  | nil => rfl
  | cons e r ih =>
    obtain ⟨i, v⟩ := e
    simp only [tabWfFrom, Bool.and_eq_true, decide_eq_true_eq] at w
    simp only [tabGet]
    rw [if_neg (by omega)]
    exact ih (i + 1) w.2 (by omega)

/-- A table that may begin at n may begin earlier. -/
theorem tabWfFrom_mono {α : Type} [DecidableEq α] (d : α) (t : Tab α) (n m : Nat) (w : tabWfFrom d n t = true) (h : m ≤ n) :
    tabWfFrom d m t = true := by
  cases t with
  | nil => rfl
  | cons e r =>
    simp only [tabWfFrom, Bool.and_eq_true, decide_eq_true_eq] at w ⊢
    exact ⟨⟨by omega, w.1.2⟩, w.2⟩

/-- Any entry of a table in canonical form reads as it was written. -/
theorem tabGet_tabSet_wf {α : Type} [DecidableEq α] (d x : α) (t : Tab α) (k n : Nat) (w : tabWfFrom d n t = true) :
    tabGet d (tabSet d t k x) k = x := by
  by_cases h : x = d
  · subst h
    induction t generalizing n with
    | nil => simp [tabSet, tabGet]
    | cons e r ih =>
      obtain ⟨i, v⟩ := e
      simp only [tabWfFrom, Bool.and_eq_true, decide_eq_true_eq] at w
      unfold tabSet
      split
      · simp only [tabGet, ih _ w.2]; rw [if_neg (by omega)]
      · split
        · next h1 => subst h1; simp only [if_pos]; exact tabGet_below _ _ _ _ w.2 (by omega)
        · simp only [if_pos, tabGet]
          rw [if_neg (by omega)]
          exact tabGet_below _ _ _ _ w.2 (by omega)
  · exact tabGet_tabSet_same d x t k h

/-- Setting an entry keeps the canonical form. -/
theorem tabWfFrom_tabSet {α : Type} [DecidableEq α] (d x : α) (t : Tab α) (k n : Nat) (w : tabWfFrom d n t = true) (h : n ≤ k) :
    tabWfFrom d n (tabSet d t k x) = true := by
  induction t generalizing n with
  | nil => unfold tabSet; split <;> simp_all [tabWfFrom]
  | cons e r ih =>
    obtain ⟨i, v⟩ := e
    have w' := w
    simp only [tabWfFrom, Bool.and_eq_true, decide_eq_true_eq] at w
    unfold tabSet
    split
    · simp only [tabWfFrom, Bool.and_eq_true, decide_eq_true_eq]
      exact ⟨w.1, ih _ w.2 (by omega)⟩
    · split
      · next h1 =>
        subst h1
        split
        · exact tabWfFrom_mono _ _ _ _ w.2 (by omega)
        · next h2 => simp only [tabWfFrom, Bool.and_eq_true, decide_eq_true_eq]; exact ⟨⟨h, h2⟩, w.2⟩
      · split
        · exact w'
        · next h1 h2 h3 =>
          simp only [tabWfFrom, Bool.and_eq_true, decide_eq_true_eq]
          exact ⟨⟨h, h3⟩, ⟨by omega, w.1.2⟩, w.2⟩

/-- Setting an entry keeps the canonical form of a table. -/
theorem tabWf_tabSet {α : Type} [DecidableEq α] (d x : α) (t : Tab α) (k : Nat) (w : tabWf d t = true) :
    tabWf d (tabSet d t k x) = true := tabWfFrom_tabSet d x t k 0 w (Nat.zero_le k)

/-- Changing an entry keeps the canonical form of a table. -/
theorem tabWf_tabMod {α : Type} [DecidableEq α] (d : α) (t : Tab α) (k : Nat) (f : α → α) (w : tabWf d t = true) :
    tabWf d (tabMod d t k f) = true := tabWf_tabSet d _ t k w

/-- Removing entries keeps the canonical form. -/
theorem tabWfFrom_filter {α : Type} [DecidableEq α] (d : α) (g : Nat × α → Bool) (t : Tab α) (n : Nat) (w : tabWfFrom d n t = true) :
    tabWfFrom d n (t.filter g) = true := by
  induction t generalizing n with
  | nil => rfl
  | cons e r ih =>
    obtain ⟨i, v⟩ := e
    simp only [tabWfFrom, Bool.and_eq_true, decide_eq_true_eq] at w
    rw [List.filter_cons]
    split
    · simp only [tabWfFrom, Bool.and_eq_true, decide_eq_true_eq]; exact ⟨w.1, ih _ w.2⟩
    · exact ih _ (tabWfFrom_mono _ _ _ _ w.2 (by omega))

/-- Clearing a range of keys keeps the canonical form of a table. -/
theorem tabWf_tabClear {α : Type} [DecidableEq α] (d : α) (t : Tab α) (lo n : Nat) (w : tabWf d t = true) :
    tabWf d (tabClear t lo n) = true := tabWfFrom_filter d _ t 0 w

/-- What an entry reads as after a range of keys is cleared. -/
theorem tabGet_tabClear {α : Type} (d : α) (t : Tab α) (lo n k : Nat) :
    tabGet d (tabClear t lo n) k = if lo ≤ k ∧ k < lo + n then d else tabGet d t k := by
  induction t with
  | nil => simp [tabClear, tabGet]
  | cons e r ih =>
    obtain ⟨i, v⟩ := e
    unfold tabClear at ih ⊢
    rw [List.filter_cons]
    split
    · next h =>
      simp only [decide_eq_true_eq] at h
      simp only [tabGet, ih]
      split
      · next h1 => subst h1; rw [if_neg (by omega)]
      · rfl
    · next h =>
      simp only [decide_eq_true_eq] at h
      rw [ih]; simp only [tabGet]
      split
      · rfl
      · rw [if_neg (by omega)]

/-! ### Memories -/

/-- A write keeps the canonical form of a memory. -/
theorem wf_memWrite (m : Memory) (a : Nat) (b : List Byte) (w : Memory.wf m = true) : Memory.wf (memWrite m a b) = true := by
  induction b generalizing m a with
  | nil => exact w
  | cons x r ih => exact ih _ _ (tabWf_tabSet 0 x m a w)

/-- Zeroing keeps the canonical form of a memory. -/
theorem wf_memZero (m : Memory) (a n : Nat) (w : Memory.wf m = true) : Memory.wf (memZero m a n) = true :=
  tabWf_tabClear 0 m a n w

/-- A write leaves every byte outside it alone. -/
theorem memByte_memWrite_outside (m : Memory) (a : Nat) (b : List Byte) (c : Nat) (h : c < a ∨ a + b.length ≤ c) :
    memByte (memWrite m a b) c = memByte m c := by
  induction b generalizing m a with
  | nil => rfl
  | cons x r ih =>
    simp only [List.length_cons] at h
    rw [memWrite, ih _ _ (by omega)]
    exact tabGet_tabSet_other 0 x m a c (by omega)

/-- A byte that is written reads as written. -/
theorem memByte_memWrite_inside (m : Memory) (a : Nat) (b : List Byte) (k : Nat) (w : Memory.wf m = true) (h : k < b.length) :
    memByte (memWrite m a b) (a + k) = b[k] := by
  induction b generalizing m a k with
  | nil => simp at h
  | cons x r ih =>
    rw [memWrite]
    cases k with
    | zero =>
      rw [memByte_memWrite_outside _ _ _ _ (by omega)]
      exact tabGet_tabSet_wf 0 x m a 0 w
    | succ k =>
      have := ih (tabSet 0 m a x) (a + 1) k (tabWf_tabSet 0 x m a w) (by simpa using h)
      rw [show a + (k + 1) = a + 1 + k by omega, this]
      rfl

/-- Zeroed bytes read as zero and the others as before. -/
theorem memByte_memZero (m : Memory) (a n c : Nat) :
    memByte (memZero m a n) c = if a ≤ c ∧ c < a + n then 0 else memByte m c := tabGet_tabClear 0 m a n c

/-- The memory after reset has the canonical form. -/
theorem reset_hbm_wf : Memory.wf State.reset.hbm = true := rfl

end Sys2Proof.Machine
end

