-- ==== Sys2Proof/Laws/Net.lean ====
section
/-!
SUPPORT. Messages: what sending, flooding and the receive checks leave as it is, and what a message that passes the checks does.
-/

namespace Sys2Proof.Machine

@[simp] theorem sendOn_pending (x : Fin 7) (p : PortIx) (vc : Fin 4) (d : Bool) (m : Msg) (s : State) : (sendOn x p vc d m s).pending = s.pending := by unfold sendOn; split <;> simp
@[simp] theorem sendOn_freeIx (x : Fin 7) (p : PortIx) (vc : Fin 4) (d : Bool) (m : Msg) (s : State) : (sendOn x p vc d m s).freeIx = s.freeIx := by unfold sendOn; split <;> simp
@[simp] theorem sendOn_nv (x : Fin 7) (p : PortIx) (vc : Fin 4) (d : Bool) (m : Msg) (s : State) : (sendOn x p vc d m s).nv = s.nv := by unfold sendOn; split <;> simp
@[simp] theorem sendOn_cc (x : Fin 7) (p : PortIx) (vc : Fin 4) (d : Bool) (m : Msg) (s : State) : (sendOn x p vc d m s).cc = s.cc := by unfold sendOn; split <;> simp
@[simp] theorem sendOn_sec (x : Fin 7) (p : PortIx) (vc : Fin 4) (d : Bool) (m : Msg) (s : State) : (sendOn x p vc d m s).sec = s.sec := by unfold sendOn; split <;> simp
@[simp] theorem sendOn_regs (x : Fin 7) (p : PortIx) (vc : Fin 4) (d : Bool) (m : Msg) (s : State) : (sendOn x p vc d m s).regs = s.regs := by unfold sendOn; split <;> simp
@[simp] theorem sendOn_mc (x : Fin 7) (p : PortIx) (vc : Fin 4) (d : Bool) (m : Msg) (s : State) : (sendOn x p vc d m s).mc = s.mc := by unfold sendOn; split <;> simp
@[simp] theorem sendOn_plane (x : Fin 7) (p : PortIx) (vc : Fin 4) (d : Bool) (m : Msg) (s : State) : (sendOn x p vc d m s).plane = s.plane := by unfold sendOn; split <;> simp
@[simp] theorem sendOn_epoch (x : Fin 7) (p : PortIx) (vc : Fin 4) (d : Bool) (m : Msg) (s : State) : (sendOn x p vc d m s).epoch = s.epoch := by unfold sendOn; split <;> simp
@[simp] theorem sendOn_epochPend (x : Fin 7) (p : PortIx) (vc : Fin 4) (d : Bool) (m : Msg) (s : State) : (sendOn x p vc d m s).epochPend = s.epochPend := by unfold sendOn; split <;> simp
@[simp] theorem sendOn_progs (x : Fin 7) (p : PortIx) (vc : Fin 4) (d : Bool) (m : Msg) (s : State) : (sendOn x p vc d m s).progs = s.progs := by unfold sendOn; split <;> simp
@[simp] theorem sendOn_instStatus (x : Fin 7) (p : PortIx) (vc : Fin 4) (d : Bool) (m : Msg) (s : State) : (sendOn x p vc d m s).instStatus = s.instStatus := by unfold sendOn; split <;> simp
@[simp] theorem sendOn_cores (x : Fin 7) (p : PortIx) (vc : Fin 4) (d : Bool) (m : Msg) (s : State) : (sendOn x p vc d m s).cores = s.cores := by unfold sendOn; split <;> simp
@[simp] theorem sendOn_clusters (x : Fin 7) (p : PortIx) (vc : Fin 4) (d : Bool) (m : Msg) (s : State) : (sendOn x p vc d m s).clusters = s.clusters := by unfold sendOn; split <;> simp
@[simp] theorem sendOn_hbm (x : Fin 7) (p : PortIx) (vc : Fin 4) (d : Bool) (m : Msg) (s : State) : (sendOn x p vc d m s).hbm = s.hbm := by unfold sendOn; split <;> simp
@[simp] theorem sendOn_slots (x : Fin 7) (p : PortIx) (vc : Fin 4) (d : Bool) (m : Msg) (s : State) : (sendOn x p vc d m s).slots = s.slots := by unfold sendOn; split <;> simp
@[simp] theorem sendOn_vrecs (x : Fin 7) (p : PortIx) (vc : Fin 4) (d : Bool) (m : Msg) (s : State) : (sendOn x p vc d m s).vrecs = s.vrecs := by unfold sendOn; split <;> simp
@[simp] theorem sendOn_attrNext (x : Fin 7) (p : PortIx) (vc : Fin 4) (d : Bool) (m : Msg) (s : State) : (sendOn x p vc d m s).attrNext = s.attrNext := by unfold sendOn; split <;> simp
@[simp] theorem sendOn_evictNext (x : Fin 7) (p : PortIx) (vc : Fin 4) (d : Bool) (m : Msg) (s : State) : (sendOn x p vc d m s).evictNext = s.evictNext := by unfold sendOn; split <;> simp
@[simp] theorem sendOn_residentNext (x : Fin 7) (p : PortIx) (vc : Fin 4) (d : Bool) (m : Msg) (s : State) : (sendOn x p vc d m s).residentNext = s.residentNext := by unfold sendOn; split <;> simp
@[simp] theorem sendOn_tensors (x : Fin 7) (p : PortIx) (vc : Fin 4) (d : Bool) (m : Msg) (s : State) : (sendOn x p vc d m s).tensors = s.tensors := by unfold sendOn; split <;> simp
@[simp] theorem sendOn_tensorNext (x : Fin 7) (p : PortIx) (vc : Fin 4) (d : Bool) (m : Msg) (s : State) : (sendOn x p vc d m s).tensorNext = s.tensorNext := by unfold sendOn; split <;> simp
@[simp] theorem sendOn_tdigs (x : Fin 7) (p : PortIx) (vc : Fin 4) (d : Bool) (m : Msg) (s : State) : (sendOn x p vc d m s).tdigs = s.tdigs := by unfold sendOn; split <;> simp
@[simp] theorem sendOn_freezeNext (x : Fin 7) (p : PortIx) (vc : Fin 4) (d : Bool) (m : Msg) (s : State) : (sendOn x p vc d m s).freezeNext = s.freezeNext := by unfold sendOn; split <;> simp
@[simp] theorem sendOn_uuAdd (x : Fin 7) (p : PortIx) (vc : Fin 4) (d : Bool) (m : Msg) (s : State) : (sendOn x p vc d m s).uuAdd = s.uuAdd := by unfold sendOn; split <;> simp
@[simp] theorem sendOn_uuOpt (x : Fin 7) (p : PortIx) (vc : Fin 4) (d : Bool) (m : Msg) (s : State) : (sendOn x p vc d m s).uuOpt = s.uuOpt := by unfold sendOn; split <;> simp
@[simp] theorem sendOn_uuBusy (x : Fin 7) (p : PortIx) (vc : Fin 4) (d : Bool) (m : Msg) (s : State) : (sendOn x p vc d m s).uuBusy = s.uuBusy := by unfold sendOn; split <;> simp
@[simp] theorem sendOn_uuNow (x : Fin 7) (p : PortIx) (vc : Fin 4) (d : Bool) (m : Msg) (s : State) : (sendOn x p vc d m s).uuNow = s.uuNow := by unfold sendOn; split <;> simp
@[simp] theorem sendOn_recs (x : Fin 7) (p : PortIx) (vc : Fin 4) (d : Bool) (m : Msg) (s : State) : (sendOn x p vc d m s).recs = s.recs := by unfold sendOn; split <;> simp
@[simp] theorem sendOn_parts (x : Fin 7) (p : PortIx) (vc : Fin 4) (d : Bool) (m : Msg) (s : State) : (sendOn x p vc d m s).parts = s.parts := by unfold sendOn; split <;> simp
@[simp] theorem sendOn_rings (x : Fin 7) (p : PortIx) (vc : Fin 4) (d : Bool) (m : Msg) (s : State) : (sendOn x p vc d m s).rings = s.rings := by unfold sendOn; split <;> simp
@[simp] theorem sendOn_faces (x : Fin 7) (p : PortIx) (vc : Fin 4) (d : Bool) (m : Msg) (s : State) : (sendOn x p vc d m s).faces = s.faces := by unfold sendOn; split <;> simp
@[simp] theorem sendOn_seg (x : Fin 7) (p : PortIx) (vc : Fin 4) (d : Bool) (m : Msg) (s : State) : (sendOn x p vc d m s).seg = s.seg := by unfold sendOn; split <;> simp
@[simp] theorem sendOn_rcc (x : Fin 7) (p : PortIx) (vc : Fin 4) (d : Bool) (m : Msg) (s : State) : (sendOn x p vc d m s).rcc = s.rcc := by unfold sendOn; split <;> simp
@[simp] theorem sendOn_run (x : Fin 7) (p : PortIx) (vc : Fin 4) (d : Bool) (m : Msg) (s : State) : (sendOn x p vc d m s).run = s.run := by unfold sendOn; split <;> simp
@[simp] theorem sendOn_adm (x : Fin 7) (p : PortIx) (vc : Fin 4) (d : Bool) (m : Msg) (s : State) : (sendOn x p vc d m s).adm = s.adm := by unfold sendOn; split <;> simp
@[simp] theorem sendOn_err (x : Fin 7) (p : PortIx) (vc : Fin 4) (d : Bool) (m : Msg) (s : State) : (sendOn x p vc d m s).err = s.err := by unfold sendOn; split <;> simp
@[simp] theorem sendOn_pw (x : Fin 7) (p : PortIx) (vc : Fin 4) (d : Bool) (m : Msg) (s : State) : (sendOn x p vc d m s).pw = s.pw := by unfold sendOn; split <;> simp

@[simp] theorem dropEntry_pending (a : Nat) (m : Msg) (s : State) : (dropEntry a m s).pending = s.pending := by simp [dropEntry]
@[simp] theorem dropEntry_out (a : Nat) (m : Msg) (s : State) : (dropEntry a m s).out = s.out := by simp [dropEntry]
@[simp] theorem dropEntry_freeIx (a : Nat) (m : Msg) (s : State) : (dropEntry a m s).freeIx = s.freeIx := by simp [dropEntry]
@[simp] theorem dropEntry_nv (a : Nat) (m : Msg) (s : State) : (dropEntry a m s).nv = s.nv := by simp [dropEntry]
@[simp] theorem dropEntry_cc (a : Nat) (m : Msg) (s : State) : (dropEntry a m s).cc = s.cc := by simp [dropEntry]
@[simp] theorem dropEntry_sec (a : Nat) (m : Msg) (s : State) : (dropEntry a m s).sec = s.sec := by simp [dropEntry]
@[simp] theorem dropEntry_mc (a : Nat) (m : Msg) (s : State) : (dropEntry a m s).mc = s.mc := by simp [dropEntry]
@[simp] theorem dropEntry_plane (a : Nat) (m : Msg) (s : State) : (dropEntry a m s).plane = s.plane := by simp [dropEntry]
@[simp] theorem dropEntry_ports (a : Nat) (m : Msg) (s : State) : (dropEntry a m s).ports = s.ports := by simp [dropEntry]
@[simp] theorem dropEntry_epoch (a : Nat) (m : Msg) (s : State) : (dropEntry a m s).epoch = s.epoch := by simp [dropEntry]
@[simp] theorem dropEntry_epochPend (a : Nat) (m : Msg) (s : State) : (dropEntry a m s).epochPend = s.epochPend := by simp [dropEntry]
@[simp] theorem dropEntry_progs (a : Nat) (m : Msg) (s : State) : (dropEntry a m s).progs = s.progs := by simp [dropEntry]
@[simp] theorem dropEntry_instStatus (a : Nat) (m : Msg) (s : State) : (dropEntry a m s).instStatus = s.instStatus := by simp [dropEntry]
@[simp] theorem dropEntry_cores (a : Nat) (m : Msg) (s : State) : (dropEntry a m s).cores = s.cores := by simp [dropEntry]
@[simp] theorem dropEntry_clusters (a : Nat) (m : Msg) (s : State) : (dropEntry a m s).clusters = s.clusters := by simp [dropEntry]
@[simp] theorem dropEntry_hbm (a : Nat) (m : Msg) (s : State) : (dropEntry a m s).hbm = s.hbm := by simp [dropEntry]
@[simp] theorem dropEntry_slots (a : Nat) (m : Msg) (s : State) : (dropEntry a m s).slots = s.slots := by simp [dropEntry]
@[simp] theorem dropEntry_vrecs (a : Nat) (m : Msg) (s : State) : (dropEntry a m s).vrecs = s.vrecs := by simp [dropEntry]
@[simp] theorem dropEntry_attrNext (a : Nat) (m : Msg) (s : State) : (dropEntry a m s).attrNext = s.attrNext := by simp [dropEntry]
@[simp] theorem dropEntry_evictNext (a : Nat) (m : Msg) (s : State) : (dropEntry a m s).evictNext = s.evictNext := by simp [dropEntry]
@[simp] theorem dropEntry_residentNext (a : Nat) (m : Msg) (s : State) : (dropEntry a m s).residentNext = s.residentNext := by simp [dropEntry]
@[simp] theorem dropEntry_tensors (a : Nat) (m : Msg) (s : State) : (dropEntry a m s).tensors = s.tensors := by simp [dropEntry]
@[simp] theorem dropEntry_tensorNext (a : Nat) (m : Msg) (s : State) : (dropEntry a m s).tensorNext = s.tensorNext := by simp [dropEntry]
@[simp] theorem dropEntry_tdigs (a : Nat) (m : Msg) (s : State) : (dropEntry a m s).tdigs = s.tdigs := by simp [dropEntry]
@[simp] theorem dropEntry_freezeNext (a : Nat) (m : Msg) (s : State) : (dropEntry a m s).freezeNext = s.freezeNext := by simp [dropEntry]
@[simp] theorem dropEntry_uuAdd (a : Nat) (m : Msg) (s : State) : (dropEntry a m s).uuAdd = s.uuAdd := by simp [dropEntry]
@[simp] theorem dropEntry_uuOpt (a : Nat) (m : Msg) (s : State) : (dropEntry a m s).uuOpt = s.uuOpt := by simp [dropEntry]
@[simp] theorem dropEntry_uuBusy (a : Nat) (m : Msg) (s : State) : (dropEntry a m s).uuBusy = s.uuBusy := by simp [dropEntry]
@[simp] theorem dropEntry_uuNow (a : Nat) (m : Msg) (s : State) : (dropEntry a m s).uuNow = s.uuNow := by simp [dropEntry]
@[simp] theorem dropEntry_recs (a : Nat) (m : Msg) (s : State) : (dropEntry a m s).recs = s.recs := by simp [dropEntry]
@[simp] theorem dropEntry_parts (a : Nat) (m : Msg) (s : State) : (dropEntry a m s).parts = s.parts := by simp [dropEntry]
@[simp] theorem dropEntry_rings (a : Nat) (m : Msg) (s : State) : (dropEntry a m s).rings = s.rings := by simp [dropEntry]
@[simp] theorem dropEntry_faces (a : Nat) (m : Msg) (s : State) : (dropEntry a m s).faces = s.faces := by simp [dropEntry]
@[simp] theorem dropEntry_seg (a : Nat) (m : Msg) (s : State) : (dropEntry a m s).seg = s.seg := by simp [dropEntry]
@[simp] theorem dropEntry_rcc (a : Nat) (m : Msg) (s : State) : (dropEntry a m s).rcc = s.rcc := by simp [dropEntry]
@[simp] theorem dropEntry_run (a : Nat) (m : Msg) (s : State) : (dropEntry a m s).run = s.run := by simp [dropEntry]
@[simp] theorem dropEntry_adm (a : Nat) (m : Msg) (s : State) : (dropEntry a m s).adm = s.adm := by simp [dropEntry]
@[simp] theorem dropEntry_pw (a : Nat) (m : Msg) (s : State) : (dropEntry a m s).pw = s.pw := by simp [dropEntry]

@[simp] theorem routeDrop_pending (m : Msg) (s : State) : (routeDrop m s).pending = s.pending := by simp [routeDrop]
@[simp] theorem routeDrop_out (m : Msg) (s : State) : (routeDrop m s).out = s.out := by simp [routeDrop]
@[simp] theorem routeDrop_freeIx (m : Msg) (s : State) : (routeDrop m s).freeIx = s.freeIx := by simp [routeDrop]
@[simp] theorem routeDrop_nv (m : Msg) (s : State) : (routeDrop m s).nv = s.nv := by simp [routeDrop]
@[simp] theorem routeDrop_cc (m : Msg) (s : State) : (routeDrop m s).cc = s.cc := by simp [routeDrop]
@[simp] theorem routeDrop_sec (m : Msg) (s : State) : (routeDrop m s).sec = s.sec := by simp [routeDrop]
@[simp] theorem routeDrop_mc (m : Msg) (s : State) : (routeDrop m s).mc = s.mc := by simp [routeDrop]
@[simp] theorem routeDrop_ports (m : Msg) (s : State) : (routeDrop m s).ports = s.ports := by simp [routeDrop]
@[simp] theorem routeDrop_epoch (m : Msg) (s : State) : (routeDrop m s).epoch = s.epoch := by simp [routeDrop]
@[simp] theorem routeDrop_epochPend (m : Msg) (s : State) : (routeDrop m s).epochPend = s.epochPend := by simp [routeDrop]
@[simp] theorem routeDrop_progs (m : Msg) (s : State) : (routeDrop m s).progs = s.progs := by simp [routeDrop]
@[simp] theorem routeDrop_instStatus (m : Msg) (s : State) : (routeDrop m s).instStatus = s.instStatus := by simp [routeDrop]
@[simp] theorem routeDrop_cores (m : Msg) (s : State) : (routeDrop m s).cores = s.cores := by simp [routeDrop]
@[simp] theorem routeDrop_clusters (m : Msg) (s : State) : (routeDrop m s).clusters = s.clusters := by simp [routeDrop]
@[simp] theorem routeDrop_hbm (m : Msg) (s : State) : (routeDrop m s).hbm = s.hbm := by simp [routeDrop]
@[simp] theorem routeDrop_slots (m : Msg) (s : State) : (routeDrop m s).slots = s.slots := by simp [routeDrop]
@[simp] theorem routeDrop_vrecs (m : Msg) (s : State) : (routeDrop m s).vrecs = s.vrecs := by simp [routeDrop]
@[simp] theorem routeDrop_attrNext (m : Msg) (s : State) : (routeDrop m s).attrNext = s.attrNext := by simp [routeDrop]
@[simp] theorem routeDrop_evictNext (m : Msg) (s : State) : (routeDrop m s).evictNext = s.evictNext := by simp [routeDrop]
@[simp] theorem routeDrop_residentNext (m : Msg) (s : State) : (routeDrop m s).residentNext = s.residentNext := by simp [routeDrop]
@[simp] theorem routeDrop_tensors (m : Msg) (s : State) : (routeDrop m s).tensors = s.tensors := by simp [routeDrop]
@[simp] theorem routeDrop_tensorNext (m : Msg) (s : State) : (routeDrop m s).tensorNext = s.tensorNext := by simp [routeDrop]
@[simp] theorem routeDrop_tdigs (m : Msg) (s : State) : (routeDrop m s).tdigs = s.tdigs := by simp [routeDrop]
@[simp] theorem routeDrop_freezeNext (m : Msg) (s : State) : (routeDrop m s).freezeNext = s.freezeNext := by simp [routeDrop]
@[simp] theorem routeDrop_uuAdd (m : Msg) (s : State) : (routeDrop m s).uuAdd = s.uuAdd := by simp [routeDrop]
@[simp] theorem routeDrop_uuOpt (m : Msg) (s : State) : (routeDrop m s).uuOpt = s.uuOpt := by simp [routeDrop]
@[simp] theorem routeDrop_uuBusy (m : Msg) (s : State) : (routeDrop m s).uuBusy = s.uuBusy := by simp [routeDrop]
@[simp] theorem routeDrop_uuNow (m : Msg) (s : State) : (routeDrop m s).uuNow = s.uuNow := by simp [routeDrop]
@[simp] theorem routeDrop_recs (m : Msg) (s : State) : (routeDrop m s).recs = s.recs := by simp [routeDrop]
@[simp] theorem routeDrop_parts (m : Msg) (s : State) : (routeDrop m s).parts = s.parts := by simp [routeDrop]
@[simp] theorem routeDrop_rings (m : Msg) (s : State) : (routeDrop m s).rings = s.rings := by simp [routeDrop]
@[simp] theorem routeDrop_faces (m : Msg) (s : State) : (routeDrop m s).faces = s.faces := by simp [routeDrop]
@[simp] theorem routeDrop_seg (m : Msg) (s : State) : (routeDrop m s).seg = s.seg := by simp [routeDrop]
@[simp] theorem routeDrop_rcc (m : Msg) (s : State) : (routeDrop m s).rcc = s.rcc := by simp [routeDrop]
@[simp] theorem routeDrop_run (m : Msg) (s : State) : (routeDrop m s).run = s.run := by simp [routeDrop]
@[simp] theorem routeDrop_adm (m : Msg) (s : State) : (routeDrop m s).adm = s.adm := by simp [routeDrop]
@[simp] theorem routeDrop_pw (m : Msg) (s : State) : (routeDrop m s).pw = s.pw := by simp [routeDrop]

@[simp] theorem routeMsg_pending (x : Fin 7) (vc : Fin 4) (d : Bool) (m : Msg) (s : State) : (routeMsg x vc d m s).pending = s.pending := by unfold routeMsg; dsimp only; split <;> (try split) <;> simp
@[simp] theorem routeMsg_freeIx (x : Fin 7) (vc : Fin 4) (d : Bool) (m : Msg) (s : State) : (routeMsg x vc d m s).freeIx = s.freeIx := by unfold routeMsg; dsimp only; split <;> (try split) <;> simp
@[simp] theorem routeMsg_nv (x : Fin 7) (vc : Fin 4) (d : Bool) (m : Msg) (s : State) : (routeMsg x vc d m s).nv = s.nv := by unfold routeMsg; dsimp only; split <;> (try split) <;> simp
@[simp] theorem routeMsg_cc (x : Fin 7) (vc : Fin 4) (d : Bool) (m : Msg) (s : State) : (routeMsg x vc d m s).cc = s.cc := by unfold routeMsg; dsimp only; split <;> (try split) <;> simp
@[simp] theorem routeMsg_sec (x : Fin 7) (vc : Fin 4) (d : Bool) (m : Msg) (s : State) : (routeMsg x vc d m s).sec = s.sec := by unfold routeMsg; dsimp only; split <;> (try split) <;> simp
@[simp] theorem routeMsg_mc (x : Fin 7) (vc : Fin 4) (d : Bool) (m : Msg) (s : State) : (routeMsg x vc d m s).mc = s.mc := by unfold routeMsg; dsimp only; split <;> (try split) <;> simp
@[simp] theorem routeMsg_epoch (x : Fin 7) (vc : Fin 4) (d : Bool) (m : Msg) (s : State) : (routeMsg x vc d m s).epoch = s.epoch := by unfold routeMsg; dsimp only; split <;> (try split) <;> simp
@[simp] theorem routeMsg_epochPend (x : Fin 7) (vc : Fin 4) (d : Bool) (m : Msg) (s : State) : (routeMsg x vc d m s).epochPend = s.epochPend := by unfold routeMsg; dsimp only; split <;> (try split) <;> simp
@[simp] theorem routeMsg_progs (x : Fin 7) (vc : Fin 4) (d : Bool) (m : Msg) (s : State) : (routeMsg x vc d m s).progs = s.progs := by unfold routeMsg; dsimp only; split <;> (try split) <;> simp
@[simp] theorem routeMsg_instStatus (x : Fin 7) (vc : Fin 4) (d : Bool) (m : Msg) (s : State) : (routeMsg x vc d m s).instStatus = s.instStatus := by unfold routeMsg; dsimp only; split <;> (try split) <;> simp
@[simp] theorem routeMsg_cores (x : Fin 7) (vc : Fin 4) (d : Bool) (m : Msg) (s : State) : (routeMsg x vc d m s).cores = s.cores := by unfold routeMsg; dsimp only; split <;> (try split) <;> simp
@[simp] theorem routeMsg_clusters (x : Fin 7) (vc : Fin 4) (d : Bool) (m : Msg) (s : State) : (routeMsg x vc d m s).clusters = s.clusters := by unfold routeMsg; dsimp only; split <;> (try split) <;> simp
@[simp] theorem routeMsg_hbm (x : Fin 7) (vc : Fin 4) (d : Bool) (m : Msg) (s : State) : (routeMsg x vc d m s).hbm = s.hbm := by unfold routeMsg; dsimp only; split <;> (try split) <;> simp
@[simp] theorem routeMsg_slots (x : Fin 7) (vc : Fin 4) (d : Bool) (m : Msg) (s : State) : (routeMsg x vc d m s).slots = s.slots := by unfold routeMsg; dsimp only; split <;> (try split) <;> simp
@[simp] theorem routeMsg_vrecs (x : Fin 7) (vc : Fin 4) (d : Bool) (m : Msg) (s : State) : (routeMsg x vc d m s).vrecs = s.vrecs := by unfold routeMsg; dsimp only; split <;> (try split) <;> simp
@[simp] theorem routeMsg_attrNext (x : Fin 7) (vc : Fin 4) (d : Bool) (m : Msg) (s : State) : (routeMsg x vc d m s).attrNext = s.attrNext := by unfold routeMsg; dsimp only; split <;> (try split) <;> simp
@[simp] theorem routeMsg_evictNext (x : Fin 7) (vc : Fin 4) (d : Bool) (m : Msg) (s : State) : (routeMsg x vc d m s).evictNext = s.evictNext := by unfold routeMsg; dsimp only; split <;> (try split) <;> simp
@[simp] theorem routeMsg_residentNext (x : Fin 7) (vc : Fin 4) (d : Bool) (m : Msg) (s : State) : (routeMsg x vc d m s).residentNext = s.residentNext := by unfold routeMsg; dsimp only; split <;> (try split) <;> simp
@[simp] theorem routeMsg_tensors (x : Fin 7) (vc : Fin 4) (d : Bool) (m : Msg) (s : State) : (routeMsg x vc d m s).tensors = s.tensors := by unfold routeMsg; dsimp only; split <;> (try split) <;> simp
@[simp] theorem routeMsg_tensorNext (x : Fin 7) (vc : Fin 4) (d : Bool) (m : Msg) (s : State) : (routeMsg x vc d m s).tensorNext = s.tensorNext := by unfold routeMsg; dsimp only; split <;> (try split) <;> simp
@[simp] theorem routeMsg_tdigs (x : Fin 7) (vc : Fin 4) (d : Bool) (m : Msg) (s : State) : (routeMsg x vc d m s).tdigs = s.tdigs := by unfold routeMsg; dsimp only; split <;> (try split) <;> simp
@[simp] theorem routeMsg_freezeNext (x : Fin 7) (vc : Fin 4) (d : Bool) (m : Msg) (s : State) : (routeMsg x vc d m s).freezeNext = s.freezeNext := by unfold routeMsg; dsimp only; split <;> (try split) <;> simp
@[simp] theorem routeMsg_uuAdd (x : Fin 7) (vc : Fin 4) (d : Bool) (m : Msg) (s : State) : (routeMsg x vc d m s).uuAdd = s.uuAdd := by unfold routeMsg; dsimp only; split <;> (try split) <;> simp
@[simp] theorem routeMsg_uuOpt (x : Fin 7) (vc : Fin 4) (d : Bool) (m : Msg) (s : State) : (routeMsg x vc d m s).uuOpt = s.uuOpt := by unfold routeMsg; dsimp only; split <;> (try split) <;> simp
@[simp] theorem routeMsg_uuBusy (x : Fin 7) (vc : Fin 4) (d : Bool) (m : Msg) (s : State) : (routeMsg x vc d m s).uuBusy = s.uuBusy := by unfold routeMsg; dsimp only; split <;> (try split) <;> simp
@[simp] theorem routeMsg_uuNow (x : Fin 7) (vc : Fin 4) (d : Bool) (m : Msg) (s : State) : (routeMsg x vc d m s).uuNow = s.uuNow := by unfold routeMsg; dsimp only; split <;> (try split) <;> simp
@[simp] theorem routeMsg_recs (x : Fin 7) (vc : Fin 4) (d : Bool) (m : Msg) (s : State) : (routeMsg x vc d m s).recs = s.recs := by unfold routeMsg; dsimp only; split <;> (try split) <;> simp
@[simp] theorem routeMsg_parts (x : Fin 7) (vc : Fin 4) (d : Bool) (m : Msg) (s : State) : (routeMsg x vc d m s).parts = s.parts := by unfold routeMsg; dsimp only; split <;> (try split) <;> simp
@[simp] theorem routeMsg_rings (x : Fin 7) (vc : Fin 4) (d : Bool) (m : Msg) (s : State) : (routeMsg x vc d m s).rings = s.rings := by unfold routeMsg; dsimp only; split <;> (try split) <;> simp
@[simp] theorem routeMsg_faces (x : Fin 7) (vc : Fin 4) (d : Bool) (m : Msg) (s : State) : (routeMsg x vc d m s).faces = s.faces := by unfold routeMsg; dsimp only; split <;> (try split) <;> simp
@[simp] theorem routeMsg_seg (x : Fin 7) (vc : Fin 4) (d : Bool) (m : Msg) (s : State) : (routeMsg x vc d m s).seg = s.seg := by unfold routeMsg; dsimp only; split <;> (try split) <;> simp
@[simp] theorem routeMsg_rcc (x : Fin 7) (vc : Fin 4) (d : Bool) (m : Msg) (s : State) : (routeMsg x vc d m s).rcc = s.rcc := by unfold routeMsg; dsimp only; split <;> (try split) <;> simp
@[simp] theorem routeMsg_run (x : Fin 7) (vc : Fin 4) (d : Bool) (m : Msg) (s : State) : (routeMsg x vc d m s).run = s.run := by unfold routeMsg; dsimp only; split <;> (try split) <;> simp
@[simp] theorem routeMsg_adm (x : Fin 7) (vc : Fin 4) (d : Bool) (m : Msg) (s : State) : (routeMsg x vc d m s).adm = s.adm := by unfold routeMsg; dsimp only; split <;> (try split) <;> simp
@[simp] theorem routeMsg_pw (x : Fin 7) (vc : Fin 4) (d : Bool) (m : Msg) (s : State) : (routeMsg x vc d m s).pw = s.pw := by unfold routeMsg; dsimp only; split <;> (try split) <;> simp

/-- One message sent on each port of a list. -/
theorem sendAll_frame (x : Fin 7) (l : List PortIx) (m : Msg) (s : State) :
    l.foldl (fun s p => sendOn x p 2 false m s) s = { s with
      out := (l.foldl (fun s p => sendOn x p 2 false m s) s).out, ports := (l.foldl (fun s p => sendOn x p 2 false m s) s).ports } := by
  induction l generalizing s with
  | nil => rfl
  | cons y r ih =>
    rw [List.foldl_cons]
    conv => lhs; rw [ih]
    unfold sendOn; split <;> rfl

/-- A flood sends and changes nothing else. -/
theorem floodOn_frame (a : Option PortIx) (m : Msg) (s : State) :
    floodOn a m s = { s with out := (floodOn a m s).out, ports := (floodOn a m s).ports } := by
  unfold floodOn; split
  · rfl
  · exact sendAll_frame _ _ m s

@[simp] theorem floodOn_pending (a : Option PortIx) (m : Msg) (s : State) : (floodOn a m s).pending = s.pending := by rw [floodOn_frame]
@[simp] theorem floodOn_freeIx (a : Option PortIx) (m : Msg) (s : State) : (floodOn a m s).freeIx = s.freeIx := by rw [floodOn_frame]
@[simp] theorem floodOn_nv (a : Option PortIx) (m : Msg) (s : State) : (floodOn a m s).nv = s.nv := by rw [floodOn_frame]
@[simp] theorem floodOn_cc (a : Option PortIx) (m : Msg) (s : State) : (floodOn a m s).cc = s.cc := by rw [floodOn_frame]
@[simp] theorem floodOn_sec (a : Option PortIx) (m : Msg) (s : State) : (floodOn a m s).sec = s.sec := by rw [floodOn_frame]
@[simp] theorem floodOn_regs (a : Option PortIx) (m : Msg) (s : State) : (floodOn a m s).regs = s.regs := by rw [floodOn_frame]
@[simp] theorem floodOn_mc (a : Option PortIx) (m : Msg) (s : State) : (floodOn a m s).mc = s.mc := by rw [floodOn_frame]
@[simp] theorem floodOn_plane (a : Option PortIx) (m : Msg) (s : State) : (floodOn a m s).plane = s.plane := by rw [floodOn_frame]
@[simp] theorem floodOn_epoch (a : Option PortIx) (m : Msg) (s : State) : (floodOn a m s).epoch = s.epoch := by rw [floodOn_frame]
@[simp] theorem floodOn_epochPend (a : Option PortIx) (m : Msg) (s : State) : (floodOn a m s).epochPend = s.epochPend := by rw [floodOn_frame]
@[simp] theorem floodOn_progs (a : Option PortIx) (m : Msg) (s : State) : (floodOn a m s).progs = s.progs := by rw [floodOn_frame]
@[simp] theorem floodOn_instStatus (a : Option PortIx) (m : Msg) (s : State) : (floodOn a m s).instStatus = s.instStatus := by rw [floodOn_frame]
@[simp] theorem floodOn_cores (a : Option PortIx) (m : Msg) (s : State) : (floodOn a m s).cores = s.cores := by rw [floodOn_frame]
@[simp] theorem floodOn_clusters (a : Option PortIx) (m : Msg) (s : State) : (floodOn a m s).clusters = s.clusters := by rw [floodOn_frame]
@[simp] theorem floodOn_hbm (a : Option PortIx) (m : Msg) (s : State) : (floodOn a m s).hbm = s.hbm := by rw [floodOn_frame]
@[simp] theorem floodOn_slots (a : Option PortIx) (m : Msg) (s : State) : (floodOn a m s).slots = s.slots := by rw [floodOn_frame]
@[simp] theorem floodOn_vrecs (a : Option PortIx) (m : Msg) (s : State) : (floodOn a m s).vrecs = s.vrecs := by rw [floodOn_frame]
@[simp] theorem floodOn_attrNext (a : Option PortIx) (m : Msg) (s : State) : (floodOn a m s).attrNext = s.attrNext := by rw [floodOn_frame]
@[simp] theorem floodOn_evictNext (a : Option PortIx) (m : Msg) (s : State) : (floodOn a m s).evictNext = s.evictNext := by rw [floodOn_frame]
@[simp] theorem floodOn_residentNext (a : Option PortIx) (m : Msg) (s : State) : (floodOn a m s).residentNext = s.residentNext := by rw [floodOn_frame]
@[simp] theorem floodOn_tensors (a : Option PortIx) (m : Msg) (s : State) : (floodOn a m s).tensors = s.tensors := by rw [floodOn_frame]
@[simp] theorem floodOn_tensorNext (a : Option PortIx) (m : Msg) (s : State) : (floodOn a m s).tensorNext = s.tensorNext := by rw [floodOn_frame]
@[simp] theorem floodOn_tdigs (a : Option PortIx) (m : Msg) (s : State) : (floodOn a m s).tdigs = s.tdigs := by rw [floodOn_frame]
@[simp] theorem floodOn_freezeNext (a : Option PortIx) (m : Msg) (s : State) : (floodOn a m s).freezeNext = s.freezeNext := by rw [floodOn_frame]
@[simp] theorem floodOn_uuAdd (a : Option PortIx) (m : Msg) (s : State) : (floodOn a m s).uuAdd = s.uuAdd := by rw [floodOn_frame]
@[simp] theorem floodOn_uuOpt (a : Option PortIx) (m : Msg) (s : State) : (floodOn a m s).uuOpt = s.uuOpt := by rw [floodOn_frame]
@[simp] theorem floodOn_uuBusy (a : Option PortIx) (m : Msg) (s : State) : (floodOn a m s).uuBusy = s.uuBusy := by rw [floodOn_frame]
@[simp] theorem floodOn_uuNow (a : Option PortIx) (m : Msg) (s : State) : (floodOn a m s).uuNow = s.uuNow := by rw [floodOn_frame]
@[simp] theorem floodOn_recs (a : Option PortIx) (m : Msg) (s : State) : (floodOn a m s).recs = s.recs := by rw [floodOn_frame]
@[simp] theorem floodOn_parts (a : Option PortIx) (m : Msg) (s : State) : (floodOn a m s).parts = s.parts := by rw [floodOn_frame]
@[simp] theorem floodOn_rings (a : Option PortIx) (m : Msg) (s : State) : (floodOn a m s).rings = s.rings := by rw [floodOn_frame]
@[simp] theorem floodOn_faces (a : Option PortIx) (m : Msg) (s : State) : (floodOn a m s).faces = s.faces := by rw [floodOn_frame]
@[simp] theorem floodOn_seg (a : Option PortIx) (m : Msg) (s : State) : (floodOn a m s).seg = s.seg := by rw [floodOn_frame]
@[simp] theorem floodOn_rcc (a : Option PortIx) (m : Msg) (s : State) : (floodOn a m s).rcc = s.rcc := by rw [floodOn_frame]
@[simp] theorem floodOn_run (a : Option PortIx) (m : Msg) (s : State) : (floodOn a m s).run = s.run := by rw [floodOn_frame]
@[simp] theorem floodOn_adm (a : Option PortIx) (m : Msg) (s : State) : (floodOn a m s).adm = s.adm := by rw [floodOn_frame]
@[simp] theorem floodOn_err (a : Option PortIx) (m : Msg) (s : State) : (floodOn a m s).err = s.err := by rw [floodOn_frame]
@[simp] theorem floodOn_pw (a : Option PortIx) (m : Msg) (s : State) : (floodOn a m s).pw = s.pw := by rw [floodOn_frame]

@[simp] theorem floodFrom_pending (a : Option PortIx) (m : Msg) (s : State) : (floodFrom a m s).pending = s.pending := by unfold floodFrom; dsimp only; split <;> (try split) <;> first | rw [sendAll_frame] | simp
@[simp] theorem floodFrom_freeIx (a : Option PortIx) (m : Msg) (s : State) : (floodFrom a m s).freeIx = s.freeIx := by unfold floodFrom; dsimp only; split <;> (try split) <;> first | rw [sendAll_frame] | simp
@[simp] theorem floodFrom_nv (a : Option PortIx) (m : Msg) (s : State) : (floodFrom a m s).nv = s.nv := by unfold floodFrom; dsimp only; split <;> (try split) <;> first | rw [sendAll_frame] | simp
@[simp] theorem floodFrom_cc (a : Option PortIx) (m : Msg) (s : State) : (floodFrom a m s).cc = s.cc := by unfold floodFrom; dsimp only; split <;> (try split) <;> first | rw [sendAll_frame] | simp
@[simp] theorem floodFrom_sec (a : Option PortIx) (m : Msg) (s : State) : (floodFrom a m s).sec = s.sec := by unfold floodFrom; dsimp only; split <;> (try split) <;> first | rw [sendAll_frame] | simp
@[simp] theorem floodFrom_regs (a : Option PortIx) (m : Msg) (s : State) : (floodFrom a m s).regs = s.regs := by unfold floodFrom; dsimp only; split <;> (try split) <;> first | rw [sendAll_frame] | simp
@[simp] theorem floodFrom_mc (a : Option PortIx) (m : Msg) (s : State) : (floodFrom a m s).mc = s.mc := by unfold floodFrom; dsimp only; split <;> (try split) <;> first | rw [sendAll_frame] | simp
@[simp] theorem floodFrom_plane (a : Option PortIx) (m : Msg) (s : State) : (floodFrom a m s).plane = s.plane := by unfold floodFrom; dsimp only; split <;> (try split) <;> first | rw [sendAll_frame] | simp
@[simp] theorem floodFrom_epoch (a : Option PortIx) (m : Msg) (s : State) : (floodFrom a m s).epoch = s.epoch := by unfold floodFrom; dsimp only; split <;> (try split) <;> first | rw [sendAll_frame] | simp
@[simp] theorem floodFrom_epochPend (a : Option PortIx) (m : Msg) (s : State) : (floodFrom a m s).epochPend = s.epochPend := by unfold floodFrom; dsimp only; split <;> (try split) <;> first | rw [sendAll_frame] | simp
@[simp] theorem floodFrom_progs (a : Option PortIx) (m : Msg) (s : State) : (floodFrom a m s).progs = s.progs := by unfold floodFrom; dsimp only; split <;> (try split) <;> first | rw [sendAll_frame] | simp
@[simp] theorem floodFrom_instStatus (a : Option PortIx) (m : Msg) (s : State) : (floodFrom a m s).instStatus = s.instStatus := by unfold floodFrom; dsimp only; split <;> (try split) <;> first | rw [sendAll_frame] | simp
@[simp] theorem floodFrom_cores (a : Option PortIx) (m : Msg) (s : State) : (floodFrom a m s).cores = s.cores := by unfold floodFrom; dsimp only; split <;> (try split) <;> first | rw [sendAll_frame] | simp
@[simp] theorem floodFrom_clusters (a : Option PortIx) (m : Msg) (s : State) : (floodFrom a m s).clusters = s.clusters := by unfold floodFrom; dsimp only; split <;> (try split) <;> first | rw [sendAll_frame] | simp
@[simp] theorem floodFrom_hbm (a : Option PortIx) (m : Msg) (s : State) : (floodFrom a m s).hbm = s.hbm := by unfold floodFrom; dsimp only; split <;> (try split) <;> first | rw [sendAll_frame] | simp
@[simp] theorem floodFrom_slots (a : Option PortIx) (m : Msg) (s : State) : (floodFrom a m s).slots = s.slots := by unfold floodFrom; dsimp only; split <;> (try split) <;> first | rw [sendAll_frame] | simp
@[simp] theorem floodFrom_vrecs (a : Option PortIx) (m : Msg) (s : State) : (floodFrom a m s).vrecs = s.vrecs := by unfold floodFrom; dsimp only; split <;> (try split) <;> first | rw [sendAll_frame] | simp
@[simp] theorem floodFrom_attrNext (a : Option PortIx) (m : Msg) (s : State) : (floodFrom a m s).attrNext = s.attrNext := by unfold floodFrom; dsimp only; split <;> (try split) <;> first | rw [sendAll_frame] | simp
@[simp] theorem floodFrom_evictNext (a : Option PortIx) (m : Msg) (s : State) : (floodFrom a m s).evictNext = s.evictNext := by unfold floodFrom; dsimp only; split <;> (try split) <;> first | rw [sendAll_frame] | simp
@[simp] theorem floodFrom_residentNext (a : Option PortIx) (m : Msg) (s : State) : (floodFrom a m s).residentNext = s.residentNext := by unfold floodFrom; dsimp only; split <;> (try split) <;> first | rw [sendAll_frame] | simp
@[simp] theorem floodFrom_tensors (a : Option PortIx) (m : Msg) (s : State) : (floodFrom a m s).tensors = s.tensors := by unfold floodFrom; dsimp only; split <;> (try split) <;> first | rw [sendAll_frame] | simp
@[simp] theorem floodFrom_tensorNext (a : Option PortIx) (m : Msg) (s : State) : (floodFrom a m s).tensorNext = s.tensorNext := by unfold floodFrom; dsimp only; split <;> (try split) <;> first | rw [sendAll_frame] | simp
@[simp] theorem floodFrom_tdigs (a : Option PortIx) (m : Msg) (s : State) : (floodFrom a m s).tdigs = s.tdigs := by unfold floodFrom; dsimp only; split <;> (try split) <;> first | rw [sendAll_frame] | simp
@[simp] theorem floodFrom_freezeNext (a : Option PortIx) (m : Msg) (s : State) : (floodFrom a m s).freezeNext = s.freezeNext := by unfold floodFrom; dsimp only; split <;> (try split) <;> first | rw [sendAll_frame] | simp
@[simp] theorem floodFrom_uuAdd (a : Option PortIx) (m : Msg) (s : State) : (floodFrom a m s).uuAdd = s.uuAdd := by unfold floodFrom; dsimp only; split <;> (try split) <;> first | rw [sendAll_frame] | simp
@[simp] theorem floodFrom_uuOpt (a : Option PortIx) (m : Msg) (s : State) : (floodFrom a m s).uuOpt = s.uuOpt := by unfold floodFrom; dsimp only; split <;> (try split) <;> first | rw [sendAll_frame] | simp
@[simp] theorem floodFrom_uuBusy (a : Option PortIx) (m : Msg) (s : State) : (floodFrom a m s).uuBusy = s.uuBusy := by unfold floodFrom; dsimp only; split <;> (try split) <;> first | rw [sendAll_frame] | simp
@[simp] theorem floodFrom_uuNow (a : Option PortIx) (m : Msg) (s : State) : (floodFrom a m s).uuNow = s.uuNow := by unfold floodFrom; dsimp only; split <;> (try split) <;> first | rw [sendAll_frame] | simp
@[simp] theorem floodFrom_recs (a : Option PortIx) (m : Msg) (s : State) : (floodFrom a m s).recs = s.recs := by unfold floodFrom; dsimp only; split <;> (try split) <;> first | rw [sendAll_frame] | simp
@[simp] theorem floodFrom_parts (a : Option PortIx) (m : Msg) (s : State) : (floodFrom a m s).parts = s.parts := by unfold floodFrom; dsimp only; split <;> (try split) <;> first | rw [sendAll_frame] | simp
@[simp] theorem floodFrom_rings (a : Option PortIx) (m : Msg) (s : State) : (floodFrom a m s).rings = s.rings := by unfold floodFrom; dsimp only; split <;> (try split) <;> first | rw [sendAll_frame] | simp
@[simp] theorem floodFrom_faces (a : Option PortIx) (m : Msg) (s : State) : (floodFrom a m s).faces = s.faces := by unfold floodFrom; dsimp only; split <;> (try split) <;> first | rw [sendAll_frame] | simp
@[simp] theorem floodFrom_seg (a : Option PortIx) (m : Msg) (s : State) : (floodFrom a m s).seg = s.seg := by unfold floodFrom; dsimp only; split <;> (try split) <;> first | rw [sendAll_frame] | simp
@[simp] theorem floodFrom_rcc (a : Option PortIx) (m : Msg) (s : State) : (floodFrom a m s).rcc = s.rcc := by unfold floodFrom; dsimp only; split <;> (try split) <;> first | rw [sendAll_frame] | simp
@[simp] theorem floodFrom_run (a : Option PortIx) (m : Msg) (s : State) : (floodFrom a m s).run = s.run := by unfold floodFrom; dsimp only; split <;> (try split) <;> first | rw [sendAll_frame] | simp
@[simp] theorem floodFrom_adm (a : Option PortIx) (m : Msg) (s : State) : (floodFrom a m s).adm = s.adm := by unfold floodFrom; dsimp only; split <;> (try split) <;> first | rw [sendAll_frame] | simp
@[simp] theorem floodFrom_err (a : Option PortIx) (m : Msg) (s : State) : (floodFrom a m s).err = s.err := by unfold floodFrom; dsimp only; split <;> (try split) <;> first | rw [sendAll_frame] | simp
@[simp] theorem floodFrom_pw (a : Option PortIx) (m : Msg) (s : State) : (floodFrom a m s).pw = s.pw := by unfold floodFrom; dsimp only; split <;> (try split) <;> first | rw [sendAll_frame] | simp

@[simp] theorem flood_pending (k n : Nat) (b : List Byte) (s : State) : (flood k n b s).pending = s.pending := by simp [flood]
@[simp] theorem flood_freeIx (k n : Nat) (b : List Byte) (s : State) : (flood k n b s).freeIx = s.freeIx := by simp [flood]
@[simp] theorem flood_nv (k n : Nat) (b : List Byte) (s : State) : (flood k n b s).nv = s.nv := by simp [flood]
@[simp] theorem flood_cc (k n : Nat) (b : List Byte) (s : State) : (flood k n b s).cc = s.cc := by simp [flood]
@[simp] theorem flood_sec (k n : Nat) (b : List Byte) (s : State) : (flood k n b s).sec = s.sec := by simp [flood]
@[simp] theorem flood_regs (k n : Nat) (b : List Byte) (s : State) : (flood k n b s).regs = s.regs := by simp [flood]
@[simp] theorem flood_mc (k n : Nat) (b : List Byte) (s : State) : (flood k n b s).mc = s.mc := by simp [flood]
@[simp] theorem flood_plane (k n : Nat) (b : List Byte) (s : State) : (flood k n b s).plane = s.plane := by simp [flood]
@[simp] theorem flood_epoch (k n : Nat) (b : List Byte) (s : State) : (flood k n b s).epoch = s.epoch := by simp [flood]
@[simp] theorem flood_epochPend (k n : Nat) (b : List Byte) (s : State) : (flood k n b s).epochPend = s.epochPend := by simp [flood]
@[simp] theorem flood_progs (k n : Nat) (b : List Byte) (s : State) : (flood k n b s).progs = s.progs := by simp [flood]
@[simp] theorem flood_instStatus (k n : Nat) (b : List Byte) (s : State) : (flood k n b s).instStatus = s.instStatus := by simp [flood]
@[simp] theorem flood_cores (k n : Nat) (b : List Byte) (s : State) : (flood k n b s).cores = s.cores := by simp [flood]
@[simp] theorem flood_clusters (k n : Nat) (b : List Byte) (s : State) : (flood k n b s).clusters = s.clusters := by simp [flood]
@[simp] theorem flood_hbm (k n : Nat) (b : List Byte) (s : State) : (flood k n b s).hbm = s.hbm := by simp [flood]
@[simp] theorem flood_slots (k n : Nat) (b : List Byte) (s : State) : (flood k n b s).slots = s.slots := by simp [flood]
@[simp] theorem flood_vrecs (k n : Nat) (b : List Byte) (s : State) : (flood k n b s).vrecs = s.vrecs := by simp [flood]
@[simp] theorem flood_attrNext (k n : Nat) (b : List Byte) (s : State) : (flood k n b s).attrNext = s.attrNext := by simp [flood]
@[simp] theorem flood_evictNext (k n : Nat) (b : List Byte) (s : State) : (flood k n b s).evictNext = s.evictNext := by simp [flood]
@[simp] theorem flood_residentNext (k n : Nat) (b : List Byte) (s : State) : (flood k n b s).residentNext = s.residentNext := by simp [flood]
@[simp] theorem flood_tensors (k n : Nat) (b : List Byte) (s : State) : (flood k n b s).tensors = s.tensors := by simp [flood]
@[simp] theorem flood_tensorNext (k n : Nat) (b : List Byte) (s : State) : (flood k n b s).tensorNext = s.tensorNext := by simp [flood]
@[simp] theorem flood_tdigs (k n : Nat) (b : List Byte) (s : State) : (flood k n b s).tdigs = s.tdigs := by simp [flood]
@[simp] theorem flood_freezeNext (k n : Nat) (b : List Byte) (s : State) : (flood k n b s).freezeNext = s.freezeNext := by simp [flood]
@[simp] theorem flood_uuAdd (k n : Nat) (b : List Byte) (s : State) : (flood k n b s).uuAdd = s.uuAdd := by simp [flood]
@[simp] theorem flood_uuOpt (k n : Nat) (b : List Byte) (s : State) : (flood k n b s).uuOpt = s.uuOpt := by simp [flood]
@[simp] theorem flood_uuBusy (k n : Nat) (b : List Byte) (s : State) : (flood k n b s).uuBusy = s.uuBusy := by simp [flood]
@[simp] theorem flood_uuNow (k n : Nat) (b : List Byte) (s : State) : (flood k n b s).uuNow = s.uuNow := by simp [flood]
@[simp] theorem flood_recs (k n : Nat) (b : List Byte) (s : State) : (flood k n b s).recs = s.recs := by simp [flood]
@[simp] theorem flood_parts (k n : Nat) (b : List Byte) (s : State) : (flood k n b s).parts = s.parts := by simp [flood]
@[simp] theorem flood_rings (k n : Nat) (b : List Byte) (s : State) : (flood k n b s).rings = s.rings := by simp [flood]
@[simp] theorem flood_faces (k n : Nat) (b : List Byte) (s : State) : (flood k n b s).faces = s.faces := by simp [flood]
@[simp] theorem flood_seg (k n : Nat) (b : List Byte) (s : State) : (flood k n b s).seg = s.seg := by simp [flood]
@[simp] theorem flood_rcc (k n : Nat) (b : List Byte) (s : State) : (flood k n b s).rcc = s.rcc := by simp [flood]
@[simp] theorem flood_run (k n : Nat) (b : List Byte) (s : State) : (flood k n b s).run = s.run := by simp [flood]
@[simp] theorem flood_adm (k n : Nat) (b : List Byte) (s : State) : (flood k n b s).adm = s.adm := by simp [flood]
@[simp] theorem flood_err (k n : Nat) (b : List Byte) (s : State) : (flood k n b s).err = s.err := by simp [flood]
@[simp] theorem flood_pw (k n : Nat) (b : List Byte) (s : State) : (flood k n b s).pw = s.pw := by simp [flood]

@[simp] theorem floodMarch_pending (k : Nat) (n : BitVec 64) (v : Nat) (s : State) : (floodMarch k n v s).pending = s.pending := by simp [floodMarch]
@[simp] theorem floodMarch_freeIx (k : Nat) (n : BitVec 64) (v : Nat) (s : State) : (floodMarch k n v s).freeIx = s.freeIx := by simp [floodMarch]
@[simp] theorem floodMarch_nv (k : Nat) (n : BitVec 64) (v : Nat) (s : State) : (floodMarch k n v s).nv = s.nv := by simp [floodMarch]
@[simp] theorem floodMarch_cc (k : Nat) (n : BitVec 64) (v : Nat) (s : State) : (floodMarch k n v s).cc = s.cc := by simp [floodMarch]
@[simp] theorem floodMarch_sec (k : Nat) (n : BitVec 64) (v : Nat) (s : State) : (floodMarch k n v s).sec = s.sec := by simp [floodMarch]
@[simp] theorem floodMarch_regs (k : Nat) (n : BitVec 64) (v : Nat) (s : State) : (floodMarch k n v s).regs = s.regs := by simp [floodMarch]
@[simp] theorem floodMarch_mc (k : Nat) (n : BitVec 64) (v : Nat) (s : State) : (floodMarch k n v s).mc = s.mc := by simp [floodMarch]
@[simp] theorem floodMarch_plane (k : Nat) (n : BitVec 64) (v : Nat) (s : State) : (floodMarch k n v s).plane = s.plane := by simp [floodMarch]
@[simp] theorem floodMarch_epoch (k : Nat) (n : BitVec 64) (v : Nat) (s : State) : (floodMarch k n v s).epoch = s.epoch := by simp [floodMarch]
@[simp] theorem floodMarch_epochPend (k : Nat) (n : BitVec 64) (v : Nat) (s : State) : (floodMarch k n v s).epochPend = s.epochPend := by simp [floodMarch]
@[simp] theorem floodMarch_progs (k : Nat) (n : BitVec 64) (v : Nat) (s : State) : (floodMarch k n v s).progs = s.progs := by simp [floodMarch]
@[simp] theorem floodMarch_instStatus (k : Nat) (n : BitVec 64) (v : Nat) (s : State) : (floodMarch k n v s).instStatus = s.instStatus := by simp [floodMarch]
@[simp] theorem floodMarch_cores (k : Nat) (n : BitVec 64) (v : Nat) (s : State) : (floodMarch k n v s).cores = s.cores := by simp [floodMarch]
@[simp] theorem floodMarch_clusters (k : Nat) (n : BitVec 64) (v : Nat) (s : State) : (floodMarch k n v s).clusters = s.clusters := by simp [floodMarch]
@[simp] theorem floodMarch_hbm (k : Nat) (n : BitVec 64) (v : Nat) (s : State) : (floodMarch k n v s).hbm = s.hbm := by simp [floodMarch]
@[simp] theorem floodMarch_slots (k : Nat) (n : BitVec 64) (v : Nat) (s : State) : (floodMarch k n v s).slots = s.slots := by simp [floodMarch]
@[simp] theorem floodMarch_vrecs (k : Nat) (n : BitVec 64) (v : Nat) (s : State) : (floodMarch k n v s).vrecs = s.vrecs := by simp [floodMarch]
@[simp] theorem floodMarch_attrNext (k : Nat) (n : BitVec 64) (v : Nat) (s : State) : (floodMarch k n v s).attrNext = s.attrNext := by simp [floodMarch]
@[simp] theorem floodMarch_evictNext (k : Nat) (n : BitVec 64) (v : Nat) (s : State) : (floodMarch k n v s).evictNext = s.evictNext := by simp [floodMarch]
@[simp] theorem floodMarch_residentNext (k : Nat) (n : BitVec 64) (v : Nat) (s : State) : (floodMarch k n v s).residentNext = s.residentNext := by simp [floodMarch]
@[simp] theorem floodMarch_tensors (k : Nat) (n : BitVec 64) (v : Nat) (s : State) : (floodMarch k n v s).tensors = s.tensors := by simp [floodMarch]
@[simp] theorem floodMarch_tensorNext (k : Nat) (n : BitVec 64) (v : Nat) (s : State) : (floodMarch k n v s).tensorNext = s.tensorNext := by simp [floodMarch]
@[simp] theorem floodMarch_tdigs (k : Nat) (n : BitVec 64) (v : Nat) (s : State) : (floodMarch k n v s).tdigs = s.tdigs := by simp [floodMarch]
@[simp] theorem floodMarch_freezeNext (k : Nat) (n : BitVec 64) (v : Nat) (s : State) : (floodMarch k n v s).freezeNext = s.freezeNext := by simp [floodMarch]
@[simp] theorem floodMarch_uuAdd (k : Nat) (n : BitVec 64) (v : Nat) (s : State) : (floodMarch k n v s).uuAdd = s.uuAdd := by simp [floodMarch]
@[simp] theorem floodMarch_uuOpt (k : Nat) (n : BitVec 64) (v : Nat) (s : State) : (floodMarch k n v s).uuOpt = s.uuOpt := by simp [floodMarch]
@[simp] theorem floodMarch_uuBusy (k : Nat) (n : BitVec 64) (v : Nat) (s : State) : (floodMarch k n v s).uuBusy = s.uuBusy := by simp [floodMarch]
@[simp] theorem floodMarch_uuNow (k : Nat) (n : BitVec 64) (v : Nat) (s : State) : (floodMarch k n v s).uuNow = s.uuNow := by simp [floodMarch]
@[simp] theorem floodMarch_recs (k : Nat) (n : BitVec 64) (v : Nat) (s : State) : (floodMarch k n v s).recs = s.recs := by simp [floodMarch]
@[simp] theorem floodMarch_parts (k : Nat) (n : BitVec 64) (v : Nat) (s : State) : (floodMarch k n v s).parts = s.parts := by simp [floodMarch]
@[simp] theorem floodMarch_rings (k : Nat) (n : BitVec 64) (v : Nat) (s : State) : (floodMarch k n v s).rings = s.rings := by simp [floodMarch]
@[simp] theorem floodMarch_faces (k : Nat) (n : BitVec 64) (v : Nat) (s : State) : (floodMarch k n v s).faces = s.faces := by simp [floodMarch]
@[simp] theorem floodMarch_seg (k : Nat) (n : BitVec 64) (v : Nat) (s : State) : (floodMarch k n v s).seg = s.seg := by simp [floodMarch]
@[simp] theorem floodMarch_rcc (k : Nat) (n : BitVec 64) (v : Nat) (s : State) : (floodMarch k n v s).rcc = s.rcc := by simp [floodMarch]
@[simp] theorem floodMarch_run (k : Nat) (n : BitVec 64) (v : Nat) (s : State) : (floodMarch k n v s).run = s.run := by simp [floodMarch]
@[simp] theorem floodMarch_adm (k : Nat) (n : BitVec 64) (v : Nat) (s : State) : (floodMarch k n v s).adm = s.adm := by simp [floodMarch]
@[simp] theorem floodMarch_err (k : Nat) (n : BitVec 64) (v : Nat) (s : State) : (floodMarch k n v s).err = s.err := by simp [floodMarch]
@[simp] theorem floodMarch_pw (k : Nat) (n : BitVec 64) (v : Nat) (s : State) : (floodMarch k n v s).pw = s.pw := by simp [floodMarch]

@[simp] theorem freeFlits_pending (m : Msg) (s : State) : (freeFlits m s).pending = s.pending := by unfold freeFlits; split <;> simp
@[simp] theorem freeFlits_out (m : Msg) (s : State) : (freeFlits m s).out = s.out := by unfold freeFlits; split <;> simp
@[simp] theorem freeFlits_freeIx (m : Msg) (s : State) : (freeFlits m s).freeIx = s.freeIx := by unfold freeFlits; split <;> simp
@[simp] theorem freeFlits_nv (m : Msg) (s : State) : (freeFlits m s).nv = s.nv := by unfold freeFlits; split <;> simp
@[simp] theorem freeFlits_cc (m : Msg) (s : State) : (freeFlits m s).cc = s.cc := by unfold freeFlits; split <;> simp
@[simp] theorem freeFlits_sec (m : Msg) (s : State) : (freeFlits m s).sec = s.sec := by unfold freeFlits; split <;> simp
@[simp] theorem freeFlits_regs (m : Msg) (s : State) : (freeFlits m s).regs = s.regs := by unfold freeFlits; split <;> simp
@[simp] theorem freeFlits_mc (m : Msg) (s : State) : (freeFlits m s).mc = s.mc := by unfold freeFlits; split <;> simp
@[simp] theorem freeFlits_plane (m : Msg) (s : State) : (freeFlits m s).plane = s.plane := by unfold freeFlits; split <;> simp
@[simp] theorem freeFlits_epoch (m : Msg) (s : State) : (freeFlits m s).epoch = s.epoch := by unfold freeFlits; split <;> simp
@[simp] theorem freeFlits_epochPend (m : Msg) (s : State) : (freeFlits m s).epochPend = s.epochPend := by unfold freeFlits; split <;> simp
@[simp] theorem freeFlits_progs (m : Msg) (s : State) : (freeFlits m s).progs = s.progs := by unfold freeFlits; split <;> simp
@[simp] theorem freeFlits_instStatus (m : Msg) (s : State) : (freeFlits m s).instStatus = s.instStatus := by unfold freeFlits; split <;> simp
@[simp] theorem freeFlits_cores (m : Msg) (s : State) : (freeFlits m s).cores = s.cores := by unfold freeFlits; split <;> simp
@[simp] theorem freeFlits_clusters (m : Msg) (s : State) : (freeFlits m s).clusters = s.clusters := by unfold freeFlits; split <;> simp
@[simp] theorem freeFlits_hbm (m : Msg) (s : State) : (freeFlits m s).hbm = s.hbm := by unfold freeFlits; split <;> simp
@[simp] theorem freeFlits_slots (m : Msg) (s : State) : (freeFlits m s).slots = s.slots := by unfold freeFlits; split <;> simp
@[simp] theorem freeFlits_vrecs (m : Msg) (s : State) : (freeFlits m s).vrecs = s.vrecs := by unfold freeFlits; split <;> simp
@[simp] theorem freeFlits_attrNext (m : Msg) (s : State) : (freeFlits m s).attrNext = s.attrNext := by unfold freeFlits; split <;> simp
@[simp] theorem freeFlits_evictNext (m : Msg) (s : State) : (freeFlits m s).evictNext = s.evictNext := by unfold freeFlits; split <;> simp
@[simp] theorem freeFlits_residentNext (m : Msg) (s : State) : (freeFlits m s).residentNext = s.residentNext := by unfold freeFlits; split <;> simp
@[simp] theorem freeFlits_tensors (m : Msg) (s : State) : (freeFlits m s).tensors = s.tensors := by unfold freeFlits; split <;> simp
@[simp] theorem freeFlits_tensorNext (m : Msg) (s : State) : (freeFlits m s).tensorNext = s.tensorNext := by unfold freeFlits; split <;> simp
@[simp] theorem freeFlits_tdigs (m : Msg) (s : State) : (freeFlits m s).tdigs = s.tdigs := by unfold freeFlits; split <;> simp
@[simp] theorem freeFlits_freezeNext (m : Msg) (s : State) : (freeFlits m s).freezeNext = s.freezeNext := by unfold freeFlits; split <;> simp
@[simp] theorem freeFlits_uuAdd (m : Msg) (s : State) : (freeFlits m s).uuAdd = s.uuAdd := by unfold freeFlits; split <;> simp
@[simp] theorem freeFlits_uuOpt (m : Msg) (s : State) : (freeFlits m s).uuOpt = s.uuOpt := by unfold freeFlits; split <;> simp
@[simp] theorem freeFlits_uuBusy (m : Msg) (s : State) : (freeFlits m s).uuBusy = s.uuBusy := by unfold freeFlits; split <;> simp
@[simp] theorem freeFlits_uuNow (m : Msg) (s : State) : (freeFlits m s).uuNow = s.uuNow := by unfold freeFlits; split <;> simp
@[simp] theorem freeFlits_recs (m : Msg) (s : State) : (freeFlits m s).recs = s.recs := by unfold freeFlits; split <;> simp
@[simp] theorem freeFlits_parts (m : Msg) (s : State) : (freeFlits m s).parts = s.parts := by unfold freeFlits; split <;> simp
@[simp] theorem freeFlits_rings (m : Msg) (s : State) : (freeFlits m s).rings = s.rings := by unfold freeFlits; split <;> simp
@[simp] theorem freeFlits_faces (m : Msg) (s : State) : (freeFlits m s).faces = s.faces := by unfold freeFlits; split <;> simp
@[simp] theorem freeFlits_seg (m : Msg) (s : State) : (freeFlits m s).seg = s.seg := by unfold freeFlits; split <;> simp
@[simp] theorem freeFlits_rcc (m : Msg) (s : State) : (freeFlits m s).rcc = s.rcc := by unfold freeFlits; split <;> simp
@[simp] theorem freeFlits_run (m : Msg) (s : State) : (freeFlits m s).run = s.run := by unfold freeFlits; split <;> simp
@[simp] theorem freeFlits_adm (m : Msg) (s : State) : (freeFlits m s).adm = s.adm := by unfold freeFlits; split <;> simp
@[simp] theorem freeFlits_err (m : Msg) (s : State) : (freeFlits m s).err = s.err := by unfold freeFlits; split <;> simp
@[simp] theorem freeFlits_pw (m : Msg) (s : State) : (freeFlits m s).pw = s.pw := by unfold freeFlits; split <;> simp

@[simp] theorem countStray_pending (m : Msg) (s : State) : (countStray m s).pending = s.pending := by unfold countStray; split <;> simp
@[simp] theorem countStray_out (m : Msg) (s : State) : (countStray m s).out = s.out := by unfold countStray; split <;> simp
@[simp] theorem countStray_freeIx (m : Msg) (s : State) : (countStray m s).freeIx = s.freeIx := by unfold countStray; split <;> simp
@[simp] theorem countStray_nv (m : Msg) (s : State) : (countStray m s).nv = s.nv := by unfold countStray; split <;> simp
@[simp] theorem countStray_cc (m : Msg) (s : State) : (countStray m s).cc = s.cc := by unfold countStray; split <;> simp
@[simp] theorem countStray_sec (m : Msg) (s : State) : (countStray m s).sec = s.sec := by unfold countStray; split <;> simp
@[simp] theorem countStray_regs (m : Msg) (s : State) : (countStray m s).regs = s.regs := by unfold countStray; split <;> simp
@[simp] theorem countStray_mc (m : Msg) (s : State) : (countStray m s).mc = s.mc := by unfold countStray; split <;> simp
@[simp] theorem countStray_ports (m : Msg) (s : State) : (countStray m s).ports = s.ports := by unfold countStray; split <;> simp
@[simp] theorem countStray_epoch (m : Msg) (s : State) : (countStray m s).epoch = s.epoch := by unfold countStray; split <;> simp
@[simp] theorem countStray_epochPend (m : Msg) (s : State) : (countStray m s).epochPend = s.epochPend := by unfold countStray; split <;> simp
@[simp] theorem countStray_progs (m : Msg) (s : State) : (countStray m s).progs = s.progs := by unfold countStray; split <;> simp
@[simp] theorem countStray_instStatus (m : Msg) (s : State) : (countStray m s).instStatus = s.instStatus := by unfold countStray; split <;> simp
@[simp] theorem countStray_cores (m : Msg) (s : State) : (countStray m s).cores = s.cores := by unfold countStray; split <;> simp
@[simp] theorem countStray_clusters (m : Msg) (s : State) : (countStray m s).clusters = s.clusters := by unfold countStray; split <;> simp
@[simp] theorem countStray_hbm (m : Msg) (s : State) : (countStray m s).hbm = s.hbm := by unfold countStray; split <;> simp
@[simp] theorem countStray_slots (m : Msg) (s : State) : (countStray m s).slots = s.slots := by unfold countStray; split <;> simp
@[simp] theorem countStray_vrecs (m : Msg) (s : State) : (countStray m s).vrecs = s.vrecs := by unfold countStray; split <;> simp
@[simp] theorem countStray_attrNext (m : Msg) (s : State) : (countStray m s).attrNext = s.attrNext := by unfold countStray; split <;> simp
@[simp] theorem countStray_evictNext (m : Msg) (s : State) : (countStray m s).evictNext = s.evictNext := by unfold countStray; split <;> simp
@[simp] theorem countStray_residentNext (m : Msg) (s : State) : (countStray m s).residentNext = s.residentNext := by unfold countStray; split <;> simp
@[simp] theorem countStray_tensors (m : Msg) (s : State) : (countStray m s).tensors = s.tensors := by unfold countStray; split <;> simp
@[simp] theorem countStray_tensorNext (m : Msg) (s : State) : (countStray m s).tensorNext = s.tensorNext := by unfold countStray; split <;> simp
@[simp] theorem countStray_tdigs (m : Msg) (s : State) : (countStray m s).tdigs = s.tdigs := by unfold countStray; split <;> simp
@[simp] theorem countStray_freezeNext (m : Msg) (s : State) : (countStray m s).freezeNext = s.freezeNext := by unfold countStray; split <;> simp
@[simp] theorem countStray_uuAdd (m : Msg) (s : State) : (countStray m s).uuAdd = s.uuAdd := by unfold countStray; split <;> simp
@[simp] theorem countStray_uuOpt (m : Msg) (s : State) : (countStray m s).uuOpt = s.uuOpt := by unfold countStray; split <;> simp
@[simp] theorem countStray_uuBusy (m : Msg) (s : State) : (countStray m s).uuBusy = s.uuBusy := by unfold countStray; split <;> simp
@[simp] theorem countStray_uuNow (m : Msg) (s : State) : (countStray m s).uuNow = s.uuNow := by unfold countStray; split <;> simp
@[simp] theorem countStray_recs (m : Msg) (s : State) : (countStray m s).recs = s.recs := by unfold countStray; split <;> simp
@[simp] theorem countStray_rings (m : Msg) (s : State) : (countStray m s).rings = s.rings := by unfold countStray; split <;> simp
@[simp] theorem countStray_faces (m : Msg) (s : State) : (countStray m s).faces = s.faces := by unfold countStray; split <;> simp
@[simp] theorem countStray_seg (m : Msg) (s : State) : (countStray m s).seg = s.seg := by unfold countStray; split <;> simp
@[simp] theorem countStray_rcc (m : Msg) (s : State) : (countStray m s).rcc = s.rcc := by unfold countStray; split <;> simp
@[simp] theorem countStray_run (m : Msg) (s : State) : (countStray m s).run = s.run := by unfold countStray; split <;> simp
@[simp] theorem countStray_adm (m : Msg) (s : State) : (countStray m s).adm = s.adm := by unfold countStray; split <;> simp
@[simp] theorem countStray_err (m : Msg) (s : State) : (countStray m s).err = s.err := by unfold countStray; split <;> simp
@[simp] theorem countStray_pw (m : Msg) (s : State) : (countStray m s).pw = s.pw := by unfold countStray; split <;> simp

@[simp] theorem barrierMiss_pending (m : Msg) (s : State) : (barrierMiss m s).pending = s.pending := by unfold barrierMiss; dsimp only; split <;> simp
@[simp] theorem barrierMiss_out (m : Msg) (s : State) : (barrierMiss m s).out = s.out := by unfold barrierMiss; dsimp only; split <;> simp
@[simp] theorem barrierMiss_freeIx (m : Msg) (s : State) : (barrierMiss m s).freeIx = s.freeIx := by unfold barrierMiss; dsimp only; split <;> simp
@[simp] theorem barrierMiss_nv (m : Msg) (s : State) : (barrierMiss m s).nv = s.nv := by unfold barrierMiss; dsimp only; split <;> simp
@[simp] theorem barrierMiss_cc (m : Msg) (s : State) : (barrierMiss m s).cc = s.cc := by unfold barrierMiss; dsimp only; split <;> simp
@[simp] theorem barrierMiss_sec (m : Msg) (s : State) : (barrierMiss m s).sec = s.sec := by unfold barrierMiss; dsimp only; split <;> simp
@[simp] theorem barrierMiss_plane (m : Msg) (s : State) : (barrierMiss m s).plane = s.plane := by unfold barrierMiss; dsimp only; split <;> simp
@[simp] theorem barrierMiss_ports (m : Msg) (s : State) : (barrierMiss m s).ports = s.ports := by unfold barrierMiss; dsimp only; split <;> simp
@[simp] theorem barrierMiss_epoch (m : Msg) (s : State) : (barrierMiss m s).epoch = s.epoch := by unfold barrierMiss; dsimp only; split <;> simp
@[simp] theorem barrierMiss_epochPend (m : Msg) (s : State) : (barrierMiss m s).epochPend = s.epochPend := by unfold barrierMiss; dsimp only; split <;> simp
@[simp] theorem barrierMiss_progs (m : Msg) (s : State) : (barrierMiss m s).progs = s.progs := by unfold barrierMiss; dsimp only; split <;> simp
@[simp] theorem barrierMiss_instStatus (m : Msg) (s : State) : (barrierMiss m s).instStatus = s.instStatus := by unfold barrierMiss; dsimp only; split <;> simp
@[simp] theorem barrierMiss_cores (m : Msg) (s : State) : (barrierMiss m s).cores = s.cores := by unfold barrierMiss; dsimp only; split <;> simp
@[simp] theorem barrierMiss_clusters (m : Msg) (s : State) : (barrierMiss m s).clusters = s.clusters := by unfold barrierMiss; dsimp only; split <;> simp
@[simp] theorem barrierMiss_hbm (m : Msg) (s : State) : (barrierMiss m s).hbm = s.hbm := by unfold barrierMiss; dsimp only; split <;> simp
@[simp] theorem barrierMiss_slots (m : Msg) (s : State) : (barrierMiss m s).slots = s.slots := by unfold barrierMiss; dsimp only; split <;> simp
@[simp] theorem barrierMiss_vrecs (m : Msg) (s : State) : (barrierMiss m s).vrecs = s.vrecs := by unfold barrierMiss; dsimp only; split <;> simp
@[simp] theorem barrierMiss_attrNext (m : Msg) (s : State) : (barrierMiss m s).attrNext = s.attrNext := by unfold barrierMiss; dsimp only; split <;> simp
@[simp] theorem barrierMiss_evictNext (m : Msg) (s : State) : (barrierMiss m s).evictNext = s.evictNext := by unfold barrierMiss; dsimp only; split <;> simp
@[simp] theorem barrierMiss_residentNext (m : Msg) (s : State) : (barrierMiss m s).residentNext = s.residentNext := by unfold barrierMiss; dsimp only; split <;> simp
@[simp] theorem barrierMiss_tensors (m : Msg) (s : State) : (barrierMiss m s).tensors = s.tensors := by unfold barrierMiss; dsimp only; split <;> simp
@[simp] theorem barrierMiss_tensorNext (m : Msg) (s : State) : (barrierMiss m s).tensorNext = s.tensorNext := by unfold barrierMiss; dsimp only; split <;> simp
@[simp] theorem barrierMiss_tdigs (m : Msg) (s : State) : (barrierMiss m s).tdigs = s.tdigs := by unfold barrierMiss; dsimp only; split <;> simp
@[simp] theorem barrierMiss_freezeNext (m : Msg) (s : State) : (barrierMiss m s).freezeNext = s.freezeNext := by unfold barrierMiss; dsimp only; split <;> simp
@[simp] theorem barrierMiss_uuAdd (m : Msg) (s : State) : (barrierMiss m s).uuAdd = s.uuAdd := by unfold barrierMiss; dsimp only; split <;> simp
@[simp] theorem barrierMiss_uuOpt (m : Msg) (s : State) : (barrierMiss m s).uuOpt = s.uuOpt := by unfold barrierMiss; dsimp only; split <;> simp
@[simp] theorem barrierMiss_uuBusy (m : Msg) (s : State) : (barrierMiss m s).uuBusy = s.uuBusy := by unfold barrierMiss; dsimp only; split <;> simp
@[simp] theorem barrierMiss_uuNow (m : Msg) (s : State) : (barrierMiss m s).uuNow = s.uuNow := by unfold barrierMiss; dsimp only; split <;> simp
@[simp] theorem barrierMiss_recs (m : Msg) (s : State) : (barrierMiss m s).recs = s.recs := by unfold barrierMiss; dsimp only; split <;> simp
@[simp] theorem barrierMiss_parts (m : Msg) (s : State) : (barrierMiss m s).parts = s.parts := by unfold barrierMiss; dsimp only; split <;> simp
@[simp] theorem barrierMiss_rings (m : Msg) (s : State) : (barrierMiss m s).rings = s.rings := by unfold barrierMiss; dsimp only; split <;> simp
@[simp] theorem barrierMiss_faces (m : Msg) (s : State) : (barrierMiss m s).faces = s.faces := by unfold barrierMiss; dsimp only; split <;> simp
@[simp] theorem barrierMiss_seg (m : Msg) (s : State) : (barrierMiss m s).seg = s.seg := by unfold barrierMiss; dsimp only; split <;> simp
@[simp] theorem barrierMiss_rcc (m : Msg) (s : State) : (barrierMiss m s).rcc = s.rcc := by unfold barrierMiss; dsimp only; split <;> simp
@[simp] theorem barrierMiss_adm (m : Msg) (s : State) : (barrierMiss m s).adm = s.adm := by unfold barrierMiss; dsimp only; split <;> simp
@[simp] theorem barrierMiss_pw (m : Msg) (s : State) : (barrierMiss m s).pw = s.pw := by unfold barrierMiss; dsimp only; split <;> simp

/-- Freed flits leave every port's state, reason and everything but its receive buffers. -/
theorem freeFlits_ports (m : Msg) (s : State) (p : PortIx) :
    (freeFlits m s).ports[p.val].st = s.ports[p.val].st ∧ (freeFlits m s).ports[p.val].reason = s.ports[p.val].reason := by
  unfold freeFlits; split
  · simp only [modPort_ports, vmod_at]; split <;> simp
  · exact ⟨rfl, rfl⟩

/-- A message that passes the receive checks is marked as seen, its flits freed, and nothing else happens (Table PLANE-9). -/
theorem receive_checked (m : Msg) (s : State) (h : MsgChecked m s) (k : 6 ≤ mKind m) :
    receive m s = .ok (checked m s) := by
  obtain ⟨⟨pl, e, b, c⟩, -, f, r, ep, kk, st, sn⟩ := h
  have r' : refusedSrc (freeFlits m s) (mSrc m) = false := by
    unfold refusedSrc at r ⊢
    simp only [portOf, freeFlits_plane, freeFlits_mc] at r ⊢
    split at r <;> simp_all [freeFlits_ports]
  have c' : isCut (freeFlits m s) pl (mSrc m) = false := by simpa [isCut] using c
  have f' : (fencedOrCut (freeFlits m s) && mKind m != 8 && mKind m != 9) = false := by
    have g : fencedOrCut (freeFlits m s) = fencedOrCut s := by simp [fencedOrCut, isCut]
    rcases f with f | f | f <;> simp [f, g]
  have st' : (decide (mKind m ≤ 7) && decide (mStep m ≠ s.mc.step)) = false := by
    by_cases q : mKind m ≤ 7
    · simp [st q]
    · simp [q]
  have k5 : ¬ mKind m ≤ 5 := by omega
  have k4 : ¬ mKind m = 4 := by omega
  have kb : ¬ 0xB ≤ mKind m := by omega
  have sn' : s.plane.seen.contains (mStep m, mSrc m, mKind m, mMsg m) = false := by
    simpa [msgKey] using sn
  simp only [receive, freeFlits_plane, freeFlits_mc, e, r', c', b, f', ep, epochNum, freeFlits_epoch, st', sn', msgKey, k5, k4, kb, checked]
  simp

end Sys2Proof.Machine
end

