-- ==== Sys2Proof/Laws/Step.lean ====
section
/-!
SUPPORT. The parts of a step: the queue of commands, the sealing of result batches, floods, and the restart of the control core,
each said once.
-/

namespace Sys2Proof.Machine

/-- The batch that the end of a step adds to a face. -/
theorem seal_face (s u : State) (f : FaceIx) :
    (sealBatches (footEnds s u)).faces[f].sealed = s.faces[f].sealed ++ [faceBatch (footEnds s u) f (statusWord (footEnds s u))] := by
  simp only [sealBatches, modRun_faces, Fin.getElem_fin, Vector.getElem_ofFn, footEnds_faces]

/-- It is the batch of the running step and of its face. -/
theorem seal_batch (s u : State) (f : FaceIx) (w : BitVec 64) :
    (faceBatch (footEnds s u) f w).step = s.mc.step ∧ (faceBatch (footEnds s u) f w).face = f := ⟨rfl, rfl⟩

/-- Sending on a port only adds to what the chip has sent. -/
theorem sendOn_out (x : Fin 7) (p : PortIx) (vc : Fin 4) (d : Bool) (m : Msg) (s : State) (o : Out) (h : o ∈ s.out) :
    o ∈ (sendOn x p vc d m s).out := by
  unfold sendOn; split
  · simp [h]
  · exact h

/-- One message sent on each port of a list keeps what was sent before. -/
theorem sendAll_out (a : Fin 7) (l : List PortIx) (m : Msg) (s : State) (o : Out) (h : o ∈ s.out) :
    o ∈ (l.foldl (fun s p => sendOn a p 2 false m s) s).out := by
  induction l generalizing s with
  | nil => exact h
  | cons x r ih => exact ih (sendOn a x 2 false m s) (sendOn_out a x 2 false m s o h)

/-- A flood keeps what was sent before it. -/
theorem floodOn_out (a : Option PortIx) (m : Msg) (s : State) (o : Out) (h : o ∈ s.out) : o ∈ (floodOn a m s).out := by
  unfold floodOn; split
  · exact h
  · exact sendAll_out _ _ m s o h

/-- A flood of the chip itself is among what it has sent. -/
theorem flood_out (k n : Nat) (b : List Byte) (s : State) : Out.flood (mkMsg s k n 0 floodDst b) ∈ (flood k n b s).out :=
  floodOn_out none _ _ _ (by simp)

/-- A restart that does not halt the control core: it restarts with its cause, logs and counts by the cause's row, and marks the
step. -/
theorem restart_goes (c : Nat) (s : State) (h5 : 5 ≤ s.cc.bootph) (h8 : s.cc.bootph ≤ 8)
    (h : (s.cc.restartSteps.filter (fun x => decide (s.mc.step.toNat < x.toNat + 1000))).length < 4) :
    ∃ k, restart c s = (let t := chipLog 0x14 (if c = 6 then .event else .corrected) (restartSrc c) 0 c 0 { s with cc := k }
      let t := if restartSrc c = 0 then t else countCorrected (restartSrc c) t
      if c = 6 then t else modRun (fun r => { r with corrected := true }) t) ∧ k.restarting = true ∧ k.restartCause = c ∧
      k.bootph = s.cc.bootph ∧ k.restarts = min 0xFFFE (s.cc.restarts + 1) := by
  have h6 : ¬ 5 ≤ (List.filter (fun (x : BitVec 64) => decide (s.mc.step.toNat < x.toNat + 1000)) (s.mc.step :: s.cc.restartSteps)).length := by
    simp; omega
  unfold restart
  rw [if_neg (by omega)]
  dsimp only
  rw [if_neg h6]
  exact ⟨_, rfl, rfl, rfl, rfl, rfl⟩

/-- A corrected error counts one more of its source. -/
theorem countCorrected_up (n : Nat) (s : State) :
    (tabGet (0, 0) (countCorrected n s).err.cnt n).1 = min 0xFFFE ((tabGet (0, 0) s.err.cnt n).1 + 1) := by
  simp only [countCorrected, tabMod, modRun_err]
  rw [tabGet_tabSet_same]
  · simp [satAdd, cnt16Max]
  · simp [satAdd, cnt16Max]

end Sys2Proof.Machine
end

