-- ==== Sys2Proof/Tests/Slice0.lean ====
section
/-!
SUPPORT. The model's own tests: the smoke test of the well-formedness checks, worked values of the spec, and for every statement
with hypotheses a state and operands that meet them together.
-/

open Sys2Proof.Machine

set_option Elab.async false

namespace Sys2Proof.Tests

/-! ### Small states -/

/-- A chip whose six ports are alike. -/
def portsAs (p : PortSt) : State := { State.reset with ports := Vector.replicate 6 p }

/-- A chip whose partitions are alike. -/
def partsAs (p : PartSt) : State := { State.reset with parts := Vector.replicate 16 p }

/-- A chip at a boot phase. -/
def atPhase (n : Nat) : State := { State.reset with cc := { bootph := n } }

/-- A chip with a provisioning record, in use. -/
def inUse : State := { atPhase 8 with nv := { lc := .operational, prov := some {} } }

/-- The plan of a slice of two chips in a row. -/
def plan2 : Plan := { slice := 1, dim := (2, 1, 1), admitter := 0, guard := 0x1000, ents := [{ iddig := [1] }, { iddig := [1] }] }

/-- The chip at the origin of that slice, its six ports alike. -/
def inSlice (p : PortSt) : State :=
  { portsAs p with
    cc := { bootph := 8 }, nv := { lc := .operational, prov := some {} }, sec := { wiping := false, lkey := some 1, zkey := some 1 },
    plane := { coordOk := true, st := .active, plan := some plan2 }, mc := { locked := true, started := true, admitter := true, tick := 0x5000, eLast := some 0x1000, sNext := 0x4000, period := 0x3000 } }

/-- The other chip of the slice sends a message. -/
def fromPeer (s : State) (kind msg part : Nat) (b : List Byte) : Msg :=
  mkMsg { s with plane := { s.plane with coord := 1 } } kind msg part s.plane.coord b

/-- A chip of the slice with a running step. -/
def running (r : Run) : State := { inSlice { st := .up } with run := { r with isOpen := true, openTick := 0x1000 } }

theorem checked_of (m : Msg) (s : State) (p : Plan) (h : s.plane.plan = some p) (c : inBox p (mSrc m) = true ∧ isCut s p (mSrc m) = false)
    (d : notHere m s = false) (f : fencedOrCut s = false) (r : refusedSrc s (mSrc m) = false) (e : mEpoch m = epochNum s) (k : mKind m < 0xB)
    (t : mStep m = s.mc.step) (n : msgKey m ∉ s.plane.seen) : MsgChecked m s :=
  ⟨⟨p, h, c.1, c.2⟩, d, .inl f, r, e, k, fun _ => t, n⟩

theorem slice_mid (a b c : List Byte) (o n : Nat) (h : a.length = o) (g : b.length = n) : slice (a ++ b ++ c) o n = b := by
  subst h g; simp [slice]

theorem slice_split (a b c d : List Byte) (o n : Nat) (h : a.length + b.length = o) (g : c.length = n) :
    slice (a ++ b ++ c ++ d) o n = c := by
  have := slice_mid (a ++ b) c d o n (by simpa using h) g
  simpa [List.append_assoc] using this


/-! ### The queue, the step, whole-machine rules -/

theorem test_hyps_queue : (∃ (c : Instr) (r : List Instr) (s : State), s.pending = c :: r) ∧ ∃ s : State, s.pending = [] :=
  ⟨⟨.march, [.boundary], { State.reset with pending := [.march, .boundary] }, rfl⟩, State.reset, rfl⟩

/-- A chip in use whose transition to SERVICE awaits the end of its wipe. -/
def toService : State :=
  { inUse with sec := { wiping := true, lastWipe := true, pendLc := some .service }, cc := { bootph := 8, pendCmd := some (0xB, 1, .transition .service) } }

/-- The same for retirement, decommissioning and commissioning. -/
def toState (a b : LifeCycle) : State :=
  { toService with nv := { lc := a, prov := some {} }, sec := { wiping := true, pendLc := some b } }

/-- A retired chip. -/
def retired : State := { atPhase 8 with nv := { lc := .retired, idkey := none } }

theorem test_hyps_lifecycle :
    (∃ (c : Instr) (s t : State), LifeOk s ∧ exec c s = .next t ∧ t.nv.lc ≠ s.nv.lc) ∧
      ∃ (c : Instr) (s t : State), LifeOk s ∧ s.nv.lc = .retired ∧ exec c s = .next t := by
  refine ⟨⟨.autumnWipeDone, toService, _, ⟨?_, ?_, ?_⟩, rfl, ?_⟩, ⟨.march, retired, _, ⟨?_, ?_, ?_⟩, rfl, rfl⟩⟩
  · intro d h; cases h; exact .inr (.inr (.inl ⟨rfl, rfl⟩))
  · intro _; rfl
  · intro h; cases h
  · decide +kernel
  · intro d h; cases h
  · intro h; rcases h with h | h <;> cases h
  · intro _; exact ⟨rfl, rfl⟩

theorem test_hyps_frames :
    (∃ (c : Instr) (s t : State), exec c s = .next t) ∧
    (∃ (c : Instr) (s t : State), c ≠ .boundary ∧ (∀ x, c ≠ .fuseLoadDone x) ∧ wipesCores c = false ∧ exec c s = .next t) :=
  ⟨⟨.march, State.reset, _, rfl⟩, .march, State.reset, _, by decide, (fun x h => by cases h), rfl, rfl⟩


/-! ### Bring-up, the control core, power -/

theorem test_hyps_phases :
    (atPhase 0).cc.bootph = 0 ∧ (atPhase 1).cc.bootph = 1 ∧ (atPhase 2).cc.bootph = 2 ∧ (atPhase 3).cc.bootph = 3 ∧
      (atPhase 7).cc.bootph = 7 := ⟨rfl, rfl, rfl, rfl, rfl⟩

theorem test_hyps_wipe :
    (∃ s : State, s.sec.wiping = true ∧ 4 ≤ s.cc.bootph ∧ s.cc.bootph ≤ 8 ∧ s.sec.pendLc = none) ∧
    (∃ s : State, s.sec.wiping = true ∧ 4 ≤ s.cc.bootph ∧ s.cc.bootph ≤ 8 ∧ s.sec.pendLc = some .retired) ∧
    (∃ s : State, s.sec.wiping = true ∧ 4 ≤ s.cc.bootph ∧ s.cc.bootph ≤ 8 ∧ s.sec.pendLc = some .provisioned ∧ s.nv.lc ≠ .blank) ∧
    (∃ s : State, s.sec.wiping = true ∧ 4 ≤ s.cc.bootph ∧ s.cc.bootph ≤ 8 ∧ s.sec.pendLc = some .operational ∧ s.nv.lc = .provisioned) ∧
    ∃ (s : State) (q : BitVec 16) (w : Word), s.sec.wiping = true ∧ 5 ≤ s.cc.bootph ∧ s.cc.bootph ≤ 8 ∧ s.sec.pendLc = some .operational ∧
      s.cc.rwlHeld = [(q, 4, 0x3C, w)] ∧ q ≠ 0 ∧ q ≠ s.cc.lastSeq :=
  ⟨⟨{ atPhase 4 with sec := { wiping := true } }, by decide⟩, ⟨toState .service .retired, by decide⟩,
    ⟨toState .service .provisioned, by decide⟩, ⟨toState .provisioned .operational, by decide⟩,
    { toState .provisioned .operational with cc := { bootph := 5, rwlHeld := [(7, 4, 0x3C, 0)] } }, 7, 0, by decide⟩

/-- A chip that verifies an image of no bytes. -/
def verifying (n : Nat) : State := { atPhase n with cc := { bootph := n, pendCmd := some (0x32, 1, .fwEnd) } }

theorem test_hyps_image :
    (verifying 6).cc.pendCmd = some (0x32, 1, .fwEnd) ∧ imageFormat (slotBytes (verifying 6)) = false := by decide +kernel

/-- A chip whose watchdog has run out, after a number of restarts. -/
def watchdogOut (n : Nat) : State :=
  { atPhase 8 with cc := { bootph := 8, image := some {}, slotSt := .running, ckptCopy := some 3, restartSteps := List.replicate n 0 }, mc := { tick := 0x1000000 } }

theorem test_hyps_restart :
    (∃ s : State, 5 ≤ s.cc.bootph ∧ s.cc.bootph ≤ 8 ∧ 5 * s.cc.wdogT.toNat ≤ 6 * (s.mc.tick.toNat - s.cc.wdogKick) ∧
      (s.cc.restartSteps.filter (fun x => decide (s.mc.step.toNat < x.toNat + 1000))).length < 4 ∧ s.cc.image.isSome = true ∧
      s.cc.slotSt = .running ∧ s.cc.ckptCopy = some 3) ∧
    (∃ s : State, 5 ≤ s.cc.bootph ∧ s.cc.bootph ≤ 8 ∧ 5 * s.cc.wdogT.toNat ≤ 6 * (s.mc.tick.toNat - s.cc.wdogKick) ∧
      4 ≤ (s.cc.restartSteps.filter (fun x => decide (s.mc.step.toNat < x.toNat + 1000))).length) :=
  ⟨⟨watchdogOut 3, by decide +kernel⟩, watchdogOut 4, by decide +kernel⟩

theorem test_hyps_checkpoint : ∃ (f : CcFault) (k : Nat), (f, k) ∈ [(CcFault.dataSram, 2), (CcFault.regFile, 3), (CcFault.pipeline, 4)] :=
  ⟨.pipeline, 4, by decide⟩

theorem test_hyps_fatal : ∃ src : Nat, 1 ≤ src ∧ src ≤ 0x0F := ⟨0x0F, by decide⟩

theorem test_hyps_power :
    State.reset.pw.warn = false ∧ (∃ s : State, s.pw.warn = true) ∧
    (∃ (l : List Nat) (s : State), l.length = 12 ∧ (∀ x ∈ l, x < s.plane.rwl.thTrip.toNat) ∧ s.pw.hot = false ∧
      ∀ x ∈ l, x < s.plane.rwl.thThrottle.toNat) ∧
    (∃ (l : List Nat) (s : State), l.length = 12 ∧ (∀ x ∈ l, x < s.plane.rwl.thTrip.toNat) ∧ ∃ x ∈ l, s.plane.rwl.thThrottle.toNat ≤ x) ∧
    (∃ (i : Fin 20) (s : State), s.pw.islands[i].going = true ∧ s.pw.islands[i].st = .off ∧ 2 ≤ i.val ∧ i.val < 10) ∧
    ∃ (s : State) (c : Nat) (q : BitVec 16) (m : BitVec 64), s.cc.pendCmd = some (c, q, .selftest m) ∧ tabWf 0 s.err.stRes = true ∧
      m.getLsbD 63 = true :=
  ⟨rfl, ⟨{ State.reset with pw := { warn := true } }, rfl⟩, ⟨List.replicate 12 0x419, State.reset, by decide +kernel⟩,
    ⟨List.replicate 12 0x41A, State.reset, by decide +kernel⟩,
    ⟨9, { State.reset with pw := { islands := Vector.replicate 20 { req := .active, going := true, st := .off } } }, by decide⟩,
    { atPhase 8 with cc := { bootph := 8, pendCmd := some (0x70, 1, .selftest (BitVec.allOnes 64)) } }, 0x70, 1, _, rfl, by decide, by decide⟩

theorem test_hyps_scrub : ∃ (u : Nat) (s : State), u < hbmUnits ∧ u ∉ s.err.badUnits ∧ rsDecode s.err.ecc [] = .clean ∧
    rsDecode s.err.ecc [(0, 1)] = .corrected ∧ rsDecode s.err.ecc [(0, 1), (1, 1), (2, 1), (3, 1), (4, 1)] = .uncorrectable :=
  ⟨0, State.reset, by decide +kernel⟩

/-- The generator of the code, a codeword of weight nine, added to the stored word reads as error-free; short of one symbol it is
corrected to the wrong codeword. -/
theorem test_scrub_wrong :
    let g : List (Fin 72 × Byte) := [(0, 24), (1, 200), (2, 173), (3, 239), (4, 54), (5, 81), (6, 11), (7, 255), (8, 1)]
    rsDecode 0 g = .wrong false ∧ rsDecode 0 (g.drop 1) = .wrong true ∧ 2 * Config.hbmUnit ≤ 64 * (hbmUnits - 1) := by decide +kernel


/-! ### Time and the March counter -/

theorem test_hyps_sync :
    (∃ (i : PortIx) (s : State), portCarries s i 3 = true) ∧
    (∃ (i : PortIx) (m : Msg) (s : State), MsgChecked m s ∧ mKind m = 8 ∧ portCarries s i 3 = true ∧ nfld (leAt m.body 0 32) 16 1 = 0) ∧
    (∃ (i : PortIx) (t1 t2 t3 : Nat) (m : Msg) (s : State), MsgChecked m s ∧ mKind m = 8 ∧ s.mc.parent = some i ∧ s.mc.started = true ∧
      nfld (leAt m.body 0 32) 16 1 = 1 ∧ nfld (leAt m.body 0 32) 64 64 = t1 ∧ t1 < 2 ^ 54 ∧ s.ports[i].syncT1 = some t1 ∧
      nfld (leAt m.body 0 32) 128 54 = t2 ∧ nfld (leAt m.body 0 32) 192 54 = t3 ∧
      (nfld (leAt m.body 0 32) 0 16 + 1) % 65536 = s.ports[i].syncSeq % 65536) ∧
    (∃ (s : State) (t0 : Nat), s.mc.holdover = some t0 ∧ t0 + 4000000 < s.mc.tick.toNat) := by
  let s := inSlice { st := .up, syncSeq := 65536, syncT1 := some (2 ^ 54 - 1) }
  refine ⟨⟨0, s, by decide +kernel⟩, ⟨0, fromPeer s 8 7 0 (tsyncBody 7 0 100 0 0), s, ?_, by decide +kernel⟩,
    ⟨0, 2 ^ 54 - 1, 300, 400, fromPeer s 8 65535 0 (tsyncBody 65535 1 (2 ^ 54 - 1) 300 400), { s with mc := { s.mc with parent := some 0 } }, ?_,
      by decide +kernel⟩, ⟨{ s with mc := { holdover := some 0, tick := 4000001 } }, 0, by decide +kernel⟩⟩
  · apply checked_of _ _ plan2 rfl <;> decide +kernel
  · apply checked_of _ _ plan2 rfl <;> decide +kernel

/-- The SYNCM with the step synchroniser enabled. -/
def synced : State := { running {} with mc := { (running {}).mc with syncm := true, syncEn := true, lastEdge := some 0x4C18 } }

/-- Edges at the limits of R314: 20 ns wide and 1 µs after the last are taken, 19 ns are not. -/
theorem test_hyps_edge : edgeOk synced 20 = true ∧ edgeOk synced 19 = false := by decide +kernel

theorem test_hyps_march_messages :
    (∃ (m : Msg) (s : State), MsgChecked m s ∧ mKind m = 6 ∧ marchType m = 0 ∧ s.mc.tick.toNat ≤ s.mc.sNext) ∧
    (∃ (m : Msg) (s : State), MsgChecked m s ∧ mKind m = 6 ∧ marchType m = 1) ∧
    (∃ (m : Msg) (s : State), MsgChecked m s ∧ mKind m = 6 ∧ marchType m = 2) ∧
    (∃ (m : Msg) (s : State) (pl : Plan), s.plane.plan = some pl ∧ inBox pl (mSrc m) = true ∧ isCut s pl (mSrc m) = false ∧ fencedOrCut s = false ∧ notHere m s = false ∧
      mEpoch m = epochNum s ∧ mKind m = 6 ∧ marchType m = 3 ∧ (mStep m).toNat ≤ s.mc.step.toNat ∧ msgKey m ∉ s.plane.seen ∧
      refusedSrc s (mSrc m) = true ∧ (mStep m).toNat < s.mc.step.toNat) := by
  let s := running {}
  let u : State := { s with mc := { s.mc with step := 1, refused := Vector.replicate 6 true } }
  let m : Nat → Msg := fun t => fromPeer s 6 t 0 (marchBody s t 0 5)
  refine ⟨⟨m 0, { s with mc := { s.mc with tick := 0x4000 } }, ?_, by decide +kernel⟩, ⟨m 1, s, ?_, by decide +kernel⟩,
    ⟨m 2, s, ?_, by decide +kernel⟩, ⟨m 3, u, plan2, rfl, by decide +kernel⟩⟩ <;> apply checked_of _ _ plan2 rfl <;> decide +kernel

/-- A void step whose result batches are sealed. -/
def atMarch : State := running { segmented := true, void := 2, acted := 5, sealedUp := true }

theorem test_hyps_barrier :
    marchReady atMarch = true ∧ atMarch.mc.ownLate = false ∧
    (∃ s : State, marchReady s = true ∧ s.mc.ownLate = true) ∧ marchReady State.reset = false ∧
    (∃ s : State, s.run.isOpen = true ∧ s.mc.arrived = none ∧ s.mc.ownLate = false ∧ s.mc.sNext ≤ s.mc.tick.toNat + s.mc.guard ∧ s.err.fatal = none) :=
  ⟨by decide +kernel, rfl, ⟨{ atMarch with mc := { atMarch.mc with ownLate := true } }, by decide +kernel⟩, by decide +kernel,
    { atMarch with mc := { atMarch.mc with tick := 0x3000 } }, by decide +kernel⟩


/-! ### Ports and the plane -/

theorem test_hyps_links :
    (∃ (i : PortIx) (s : State), s.ports[i].st = .training) ∧
    (∃ (i : PortIx) (s : State), (s.ports[i].st = .training ∨ s.ports[i].st = .hello) ∧ s.ports[i].helloSeen = false ∧ (expected s i).isSome = true) ∧
    (∃ (i : PortIx) (r : Fin 16) (s : State), giveUpOk s.ports[i] r.val = true) ∧ (∃ (i : PortIx) (s : State), s.ports[i].st = .down) :=
  ⟨⟨0, portsAs { st := .training }, rfl⟩, ⟨0, inSlice { st := .hello }, by decide +kernel⟩, ⟨0, 9, portsAs { st := .up }, by decide +kernel⟩,
    0, portsAs { st := .down }, rfl⟩

/-- A hello of 448 bytes with MAGIC and FORMAT, echoing a nonce, with no signature. -/
def helloBytes : List Byte := leBytes 4 0x314C4857 ++ leBytes 2 1 ++ List.replicate 90 0 ++ leBytes 16 9 ++ List.replicate 336 0

theorem test_hyps_hello :
    (∃ (i : PortIx) (s : State), s.ports[i].st = .hello ∧ s.ports[i].ctr + 2 ≤ lastCtr) ∧
    (∃ (i : PortIx) (s : State), s.ports[i].st = .up ∧ s.ports[i].helloDue = true ∧ s.ports[i].ctr + 2 ≤ lastCtr) ∧
    (∃ (i : PortIx) (h : List Byte) (s : State), s.ports[i].st = .hello ∧ helloValid h = true ∧ s.plane.plan.isSome = true ∧ expected s i = none) ∧
    (∃ (i : PortIx) (h : List Byte) (s : State) (c : Coord) (e : PlanEnt), s.ports[i].st = .hello ∧ helloValid h = true ∧
      expected s i = some (c, e) ∧ leAt h 0x60 16 ≠ 0) ∧
    (∃ (i : PortIx) (h : List Byte) (s : State) (c : Coord) (e : PlanEnt), s.ports[i].st = .up ∧ helloValid h = true ∧
      expected s i = some (c, e)) :=
  ⟨⟨0, portsAs { st := .hello }, by decide +kernel⟩, ⟨0, portsAs { st := .up, helloDue := true }, by decide +kernel⟩, ⟨2, helloBytes, inSlice { st := .hello }, by decide +kernel⟩,
    ⟨0, helloBytes, inSlice { st := .hello }, 1, { iddig := [1] }, by decide +kernel⟩,
    0, helloBytes, inSlice { st := .up }, 1, { iddig := [1] }, by decide +kernel⟩

theorem test_hyps_linkev :
    (∃ (m : Msg) (s : State), MsgChecked m s ∧ mKind m = 0xA) ∧
    (∃ s : State, s.run.isOpen = true ∧ lostSources s ≠ []) ∧
    (∃ s : State, s.plane.drainReq = false ∧ s.plane.st ≠ .drained ∧ s.plane.plan = some plan2 ∧ s.ports[(0 : PortIx)].st = .up ∧
      (boxNeigh plan2 s.plane.coord 0).isSome = true) ∧
    (∃ s : State, s.plane.st = .draining ∧ (s.run.isOpen = false ∨ fencedOrCut s = true) ∧ ∀ i : PortIx, portEmpty s.ports[i] = true) := by
  let s := running {}
  refine ⟨⟨fromPeer s 0xA 0 0 (linkevBody {}), s, ?_, by decide +kernel⟩, ⟨{ s with plane := { s.plane with events := [{ typ := 0, port := 0, src := 0, origin := 0x2000 }] } }, by decide +kernel⟩,
    ⟨s, by decide +kernel⟩, { portsAs {} with plane := { st := .draining } }, by decide +kernel⟩
  apply checked_of _ _ plan2 rfl <;> decide +kernel

theorem le_round (n v : Nat) (h : v < 256 ^ n) : leNat (leBytes n v) = v := by
  induction n generalizing v with
  | zero => simp [leBytes, leNat] at *; omega
  | succ n ih => rw [leBytes, leNat, ih (v / 256) (by rw [Nat.pow_succ] at h; omega)]; simp; omega

/-- The tag of a flit: its header, and a DATA flit's ciphertext. -/
def flitTag (k : LinkKey) (data : Bool) (h p : List Byte) : List Byte :=
  (gcmTag (leBytes 32 k.rxKey.toNat) (flitIv k.rxSalt (fld (BitVec.ofNat 128 (leNat h)) 48 48)) h (if data then p else [])).take 12

/-- A flit with header h and payload p, sealed by the far end. -/
def sealedFlit (k : LinkKey) (data : Bool) (h p : List Byte) : RxFlit := { bytes := flitBytes h p (flitTag k data h p), fecOk := true }

/-- A flit made that way passes R332 and R341. -/
theorem sealed_passes (k : LinkKey) (data : Bool) (h p : List Byte) (a : h.length = 16) (b : p.length = 224)
    (hd : rxType { bytes := h, fecOk := true } = if data then 0 else 1) (kl : k.lastCtr = none)
    (e : (aesEnc (leBytes 32 k.rxKey.toNat) (flitIv k.rxSalt (fld (BitVec.ofNat 128 (leNat h)) 48 48) ++ [0, 0, 0, 1])).length = 16) :
    rxGood (sealedFlit k data h p) = true ∧ rxAuth (sealedFlit k data h p) k = true ∧
      rxHdr (sealedFlit k data h p) = BitVec.ofNat 128 (leNat h) := by
  have be : ∀ n v, (beBytes n v).length = n := by
    intro n v; rw [beBytes, List.length_reverse]
    induction n generalizing v with
    | zero => rfl
    | succ n ih => rw [leBytes, List.length_cons, ih]
  have lb : ∀ n v, (leBytes n v).length = n := fun n v => by have := be n v; rwa [beBytes, List.length_reverse] at this
  have gl : (gcmTag (leBytes 32 k.rxKey.toNat) (flitIv k.rxSalt (fld (BitVec.ofNat 128 (leNat h)) 48 48)) h (if data then p else [])).length = 16 := by
    rw [gcmTag, xorBytes, List.length_zipWith, be, e]; rfl
  have tl : (flitTag k data h p).length = 12 := by rw [flitTag, List.length_take, gl]; rfl
  have hh : rxHdr (sealedFlit k data h p) = BitVec.ofNat 128 (leNat h) := by
    have : slice (sealedFlit k data h p).bytes 0 16 = h := by
      have := slice_mid [] h (p ++ (flitTag k data h p) ++ leBytes 4 (crc32 (h ++ p ++ flitTag k data h p)).toNat) 0 16 rfl a
      simpa [sealedFlit, flitBytes, List.append_assoc] using this
    rw [rxHdr, leAt, this]
  have hh2 : rxHdr { bytes := h, fecOk := true } = BitVec.ofNat 128 (leNat h) := by
    have : slice h 0 16 = h := by have := slice_mid [] h [] 0 16 rfl a; simpa using this
    rw [rxHdr, leAt]; exact congrArg (fun x => BitVec.ofNat 128 (leNat x)) this
  refine ⟨?_, ?_, hh⟩
  · have t : (sealedFlit k data h p).bytes.take 252 = h ++ p ++ flitTag k data h p := by
      rw [show 252 = (h ++ p ++ flitTag k data h p).length by simp [a, b, tl], sealedFlit, flitBytes]; simp only [List.take_left]
    have c : leAt (sealedFlit k data h p).bytes 252 4 = (crc32 (h ++ p ++ flitTag k data h p)).toNat := by
      have := slice_mid (h ++ p ++ flitTag k data h p) (leBytes 4 (crc32 (h ++ p ++ flitTag k data h p)).toNat) [] 252 4 (by simp [a, b, tl]) (lb _ _)
      rw [List.append_nil] at this
      rw [leAt, sealedFlit, flitBytes]; dsimp only; rw [this]
      exact le_round 4 _ (crc32 _).isLt
    have l : (sealedFlit k data h p).bytes.length = 256 := by simp [sealedFlit, flitBytes, a, b, tl, lb]
    rw [rxGood, t, c, l]; simp [sealedFlit]
  · have s1 : slice (sealedFlit k data h p).bytes 16 224 = p := by
      have := slice_mid h p (flitTag k data h p ++ leBytes 4 (crc32 (h ++ p ++ flitTag k data h p)).toNat) 16 224 a b
      simpa [sealedFlit, flitBytes, List.append_assoc] using this
    have s2 : slice (sealedFlit k data h p).bytes 240 12 = flitTag k data h p :=
      slice_split h p (flitTag k data h p) (leBytes 4 (crc32 (h ++ p ++ flitTag k data h p)).toNat) 240 12 (by simp [a, b]) tl
    have s3 : (sealedFlit k data h p).bytes.take 16 = h := by
      rw [show 16 = h.length by simp [a], sealedFlit, flitBytes]; simp [List.append_assoc]
    have ty : rxType (sealedFlit k data h p) = if data then 0 else 1 := by rw [rxType, hh, ← hd, rxType, hh2]
    rw [rxAuth, s1, s2, s3, kl, hh, ty]; cases data <;> simp [flitTag]

/-- A header: FTYPE, NAK, SEQ, ACK, CTR 1. -/
def header (typ nak seq ack : Nat) : List Byte := leBytes 16 (typ + put 7 nak + put 8 seq + put 20 ack + put 48 1 + put 98 5)

theorem test_hyps_flits :
    (∃ (i : PortIx) (s : State), linkLive s.ports[i].st = true ∧ s.ports[i].ctr < lastCtr ∧ s.ports[i].gap.isSome = true) ∧
    (∀ q : Nat, q = 3 ∨ q = 4 → ∃ (i : PortIx) (f : RxFlit) (s : State) (k : LinkKey), linkLive s.ports[i].st = true ∧ rxGood f = true ∧
      rxType f = 0 ∧ rxKeyOf s.ports[i] f = some k ∧ rxAuth f k = true ∧ fld (rxHdr f) 8 12 = 3 ∧ s.ports[i].rxSeq = q) ∧
    (∀ n : Nat, n = 0 ∨ n = 1 → ∃ (i : PortIx) (f : RxFlit) (s : State) (k : LinkKey), linkLive s.ports[i].st = true ∧ rxGood f = true ∧
      rxType f = 1 ∧ rxNak f = (n == 1) ∧ rxKeyOf s.ports[i] f = some k ∧ rxAuth f k = true ∧
      s.ports[i].replay.any (fun x => x.seq == fld (rxHdr f) 20 12) = true) ∧
    (∃ (i : PortIx) (f : RxFlit) (s : State), linkLive s.ports[i].st = true ∧ rxGood f = false) ∧
    (∃ (i : PortIx) (f : RxFlit) (s : State), linkLive s.ports[i].st = true ∧ rxGood f = true ∧ rxType f = 0 ∧
      (rxKeyOf s.ports[i] f).filter (rxAuth f) = none) := by
  let k : LinkKey := { rxKey := 7, rxSalt := 9 }
  let p : Nat → PortSt := fun q => { st := .up, keys := [k], rxSeq := q, gap := some false, replay := [{ seq := 2 }] }
  have d := sealed_passes k true (header 0 0 3 0xFFF) (List.replicate 224 1) (by decide +kernel) (by decide +kernel) (by decide +kernel) rfl (by decide +kernel)
  have c := fun n (hn : n = 0 ∨ n = 1) => sealed_passes k false (header 1 n 0 2) (List.replicate 224 0) (by rcases hn with rfl | rfl <;> decide +kernel)
    (by decide +kernel) (by rcases hn with rfl | rfl <;> decide +kernel) rfl (by rcases hn with rfl | rfl <;> decide +kernel)
  refine ⟨⟨0, portsAs (p 0), by decide +kernel⟩, fun q hq => ⟨0, _, portsAs (p q), k, rfl, d.1, ?_, ?_, d.2.1, ?_, rfl⟩,
    fun n hn => ⟨0, _, portsAs (p 0), k, rfl, (c n hn).1, ?_, ?_, ?_, (c n hn).2.1, ?_⟩, ⟨0, { bytes := [], fecOk := false }, portsAs (p 0), by decide +kernel⟩,
    0, _, portsAs { st := .up }, rfl, d.1, ?_, by simp [rxKeyOf, portsAs]⟩
  · rw [rxType, d.2.2]; decide +kernel
  · rw [rxKeyOf, d.2.2]; rcases hq with rfl | rfl <;> decide +kernel
  · rw [d.2.2]; decide +kernel
  · rw [rxType, (c n hn).2.2]; rcases hn with rfl | rfl <;> decide +kernel
  · rw [rxNak, (c n hn).2.2]; rcases hn with rfl | rfl <;> decide +kernel
  · rw [rxKeyOf, (c n hn).2.2]; rcases hn with rfl | rfl <;> decide +kernel
  · rw [(c n hn).2.2]; rcases hn with rfl | rfl <;> decide +kernel
  · rw [rxType, d.2.2]; decide +kernel

theorem test_hyps_forward :
    (∃ (i : PortIx) (d : Bool) (m : Msg) (s : State), s.plane.plan.isSome = true ∧ linkLive s.ports[i].st = true ∧ mDst m ≠ floodDst ∧
      mDst m ≠ s.plane.coord ∧ refusedSrc s (mSrc m) = false ∧ routeEntry s d (mDst m) % 8 = (0 : PortIx).val) ∧
    (∃ (i : PortIx) (d : Bool) (m : Msg) (s : State), s.plane.plan.isSome = true ∧ linkLive s.ports[i].st = true ∧ mDst m ≠ floodDst ∧
      mDst m ≠ s.plane.coord ∧ refusedSrc s (mSrc m) = false ∧ routeEntry s d (mDst m) % 8 = 7) ∧
    (∃ (i : PortIx) (m : Msg) (s : State), s.plane.plan.isSome = true ∧ linkLive s.ports[i].st = true ∧ mDst m ≠ floodDst ∧
      mDst m ≠ s.plane.coord ∧ refusedSrc s (mSrc m) = true) ∧
    (∃ (i : PortIx) (m : Msg) (s : State) (p : PortIx), s.plane.plan.isSome = true ∧ linkLive s.ports[i].st = true ∧ mDst m = floodDst ∧
      mDst m ≠ s.plane.coord ∧ refusedSrc s (mSrc m) = false ∧ msgKey m ∉ s.plane.seen ∧ msgKey m ∉ s.plane.passed ∧ p ≠ i ∧
      s.ports[p].st = .up ∧ patternPort s (mSrc m) ≠ some i) ∧
    (∃ (m : Msg) (s : State), notHere m s = true ∧ mKind m = 0 ∧ standsAt m s = none ∧ refusedSrc s (mSrc m) = false ∧
      routeEntry s false (mDst m) % 8 = (0 : PortIx).val) := by
  let s := running {}
  let s := { s with plane := { s.plane with rtNormal := [(1, 0)] } }
  exact ⟨⟨1, false, mkMsg s 2 0 0 1 [], s, by decide +kernel⟩, ⟨1, false, mkMsg s 2 0 0 2 [], s, by decide +kernel⟩,
    ⟨1, mkMsg { s with plane := { s.plane with coord := 1 } } 2 0 0 2 [], { s with mc := { s.mc with refused := Vector.replicate 6 true } }, by decide +kernel⟩,
    ⟨1, mkMsg { s with plane := { s.plane with coord := 1 } } 6 0 0 floodDst [], s, 2, by decide +kernel⟩, mkMsg s 0 0 0 1 [], s, by decide +kernel⟩

theorem test_hyps_header : ∃ (kind msg part : Nat) (b : List Byte), kind < 16 ∧ msg < 65536 ∧ part < 16 ∧ b.length < 2 ^ 20 :=
  ⟨15, 65535, 15, [0], by decide⟩


/-! ### The step -/

/-- A step that closes now: MARCH has issued, the admission of the next one is complete, its tags are written. -/
def closing (r : Run) : State :=
  { running { r with acted := 6, segmented := true } with ports := Vector.replicate 6 {}, adm := { closed := true, complete := true }, seg := { valid := true } }

theorem test_hyps_segmentation :
    (∃ s : State, s.run.isOpen = true ∧ s.run.segmented = false) ∧
    (∃ s : State, s.run.isOpen = true ∧ s.run.segmented = false ∧ s.run.prog = some {} ∧ presentField s = 0) := by
  exact ⟨⟨running {}, by decide⟩, running { prog := some {} }, by decide +kernel⟩

theorem test_hyps_tail : tailReady (running { segmented := true, void := 2 }) = true ∧ tailReady State.reset = false := by
  decide +kernel

theorem test_hyps_boundary :
    (∃ (s : State) (e : Nat), mayClose s = true ∧ closeTick s = some e ∧ e ≤ s.mc.tick.toNat ∧ s.adm.closed = true ∧ s.adm.complete = true ∧
      s.seg.valid = true ∧ s.run.waited = false ∧ (∀ f : FaceIx, faceClear s f = true) ∧ s.mc.notice = none ∧ agreePorts s = [] ∧
      ripeEvents e s = [] ∧ staysClosed s = false ∧ s.plane.leaving = false ∧ s.progs[s.seg.pslot] = some {}) ∧
    (∃ s : State, s.run.isOpen = true ∧ s.mc.locked = true ∧ mayClose s = false) ∧
    (∃ (s : State) (e : Nat), s.run.isOpen = true ∧ s.mc.locked = true ∧ closeTick s = some e ∧ s.mc.tick.toNat < e) ∧
    (∃ s : State, s.run.isOpen = true ∧ s.mc.locked = true ∧ closeTick s = none) ∧
    (∃ s : State, s.run.isOpen = true ∧ s.mc.locked = false ∧ s.mc.fenced = false ∧ s.mc.sNext ≤ s.mc.tick.toNat) ∧
    (∃ (s : State) (e : Nat), mayClose s = true ∧ closeTick s = some e ∧ e ≤ s.mc.tick.toNat ∧ s.adm.closed = true ∧ s.adm.complete = true ∧
      (∀ f : FaceIx, faceClear s f = true) ∧ s.mc.notice.isSome = true) ∧
    (∃ s : State, s.run.isOpen = false ∧ s.mc.start = none) := by
  let s := closing {}
  let m := s.mc
  exact ⟨⟨{ s with progs := Vector.replicate 8 (some {}) }, 0x4000, by decide +kernel⟩, ⟨running {}, by decide +kernel⟩,
    ⟨{ s with mc := { m with tick := 0x3FFF } }, 0x4000, by decide +kernel⟩, ⟨{ s with mc := { m with lates := [1] } }, by decide +kernel⟩,
    ⟨{ s with mc := { m with locked := false } }, by decide +kernel⟩, ⟨{ s with mc := { m with notice := some 0 } }, 0x4000, by decide +kernel⟩,
    State.reset, rfl, rfl⟩

/-- The same crossing with a neighbour whose AGREE word equals the chip's own. -/
theorem test_hyps_agree : ∃ (s : State) (e : Nat), mayClose s = true ∧ closeTick s = some e ∧ agreePorts s ≠ [] ∧
    agreeBad s false (ownWord e (s.mc.step + 1) s) = [] :=
  ⟨{ closing {} with ports := Vector.replicate 6 { st := .up } }, 0x4000, by decide +kernel⟩

theorem test_hyps_assign : (∃ (s : State) (n : CoreIx), s.cores[n].partNext ≠ s.cores[n].part) ∧
    ∃ (s : State) (n : CoreIx), s.cores[n].partNext = s.cores[n].part :=
  ⟨⟨{ State.reset with cores := Vector.replicate 64 { partNext := 0 } }, 63, by decide +kernel⟩, State.reset, 63, by decide +kernel⟩

/-- A face with a batch that waits for its buffer and an entry that waits for its ring. -/
def resultsWait (fs : FaceSt) : State := { State.reset with faces := Vector.replicate 2 fs, rings := [(5, { log2n := 1 })] }

theorem test_hyps_results :
    (∃ (f : FaceIx) (s : State) (b : Batch) (r : List Batch), s.faces[f].waiting = true ∧ s.faces[f].ringOut = [] ∧
      s.faces[f].sealed = b :: r ∧ batchFits s.faces[f] b = true) ∧
    (∃ (n : Fin 16384) (s : State) (e : ResEntry), s.faces[(0 : FaceIx)].ringOut.find? (fun x => x.1 == n.val) = some (n.val, e) ∧
      0 < ringRoom (tabGet {} s.rings n.val)) :=
  ⟨⟨0, resultsWait { waiting := true, sealed := [{}], bufs := Vector.replicate 2 (0, 0x10000) }, {}, [], by decide +kernel⟩,
    5, resultsWait { ringOut := [(5, {})] }, {}, by decide +kernel⟩

theorem test_hyps_replay :
    (∃ (f : StepFault) (s : State), f.src ≠ 7 ∧ s.err.fatal = none ∧ replayOk s f = true) ∧
    (∃ (f : StepFault) (s : State), f.src ≠ 7 ∧ s.run.isOpen = true ∧ s.err.fatal = none ∧ replayOk s f = false ∧ s.run.acted < 5) :=
  ⟨⟨{ src := 1, word := 0, cycle := 0, core := 0, array := 0, half := true, row := 0 }, running {}, by decide +kernel⟩, { src := 1, word := 0, cycle := 0, core := 0, array := 0, half := true, row := 0 }, running { replayed := true }, by decide +kernel⟩


/-! ### Words of the step program -/

/-- A word with values at bit positions. -/
def wordOf (l : List (Nat × Nat)) : IWord := BitVec.ofNat 128 (l.map (fun x => x.2 * 2 ^ x.1)).sum

/-- A running step with words in a queue, one row, one segment of rank 1 and one request with a context page. -/
def wordRun (q : Nat) (ws : List IWord) : Run :=
  { segmented := true, checked := true, segs := [{ count := 1, version := 1, rank := 1 }], rowList := [0], tags := [mkTag 0 1 0 0 true true],
    rcc := [{ version := 1, rows := [0], fresh := [(0, 0)] }],
    prog := some { issuers := [{ count := ws.length, queue := q }], words := ws, plan := [{ maxRows := 1, rmax := 32, cln := 1 }] } }

/-- The chip at that step: a resident adapter with one layer, its cores and partition 0. -/
def wordState (r : Run) : State :=
  { running r with
    slots := [(0, { st := .resident, tmask := 0xFFFF, rank := 1, version := 1, train := true })], vrecs := [(0, { st := .published, version := 1 })],
    epoch := some { targets := Vector.replicate 16 { din := 32, dout := 128, en := true }, atts := Vector.replicate 8 { ken := true, ven := true, kvh := 1, qpk := 1, en := true } }, hbm := [(6, 1), (0x45, 1), (0x4A, 64)],
    recs := [(0, { st := .running, grad := true, topk := 1 })], cores := Vector.replicate 64 { part := 0, partNext := 0, partLast := 0 },
    parts := Vector.replicate 16 { st := .keyed } }

/-- One word in a queue. -/
def atWord (q : Nat) (l : List (Nat × Nat)) : State := wordState (wordRun q [wordOf l])

/-- The same with the clusters in RETAIN. -/
def asleep (s : State) : State := { s with pw := { s.pw with islands := Vector.replicate 20 { st := .retain } } }

theorem test_hyps_wait (q : Nat) : readyWord State.reset q = none ∧ noFlight State.reset q := ⟨rfl, fun _ h => nomatch h⟩

theorem test_hyps_plain :
    (∃ (q : QueueIx) (s : State) (i : Nat) (w : IWord), readyWord s q.val = some (i, w) ∧ wOp w = 0) ∧
    (∃ (q : QueueIx) (s : State) (i : Nat) (w : IWord), readyWord s q.val = some (i, w) ∧ wOp w = 1 ∧ fld w 56 10 ≤ tabGet 0 s.run.tokens (fld w 46 10)) ∧
    (∃ (q : QueueIx) (s : State) (i : Nat) (w : IWord), readyWord s q.val = some (i, w) ∧ wOp w = 1 ∧ tabGet 0 s.run.tokens (fld w 46 10) < fld w 56 10) :=
  ⟨⟨0, atWord 0 [], 0, wordOf [], by decide +kernel⟩, ⟨215, atWord 215 [(0, 1)], 0, wordOf [(0, 1)], by decide +kernel⟩,
    215, atWord 215 [(0, 1), (56, 1)], 0, wordOf [(0, 1), (56, 1)], by decide +kernel⟩

/-- The hypotheses of a rule of the vector units: a word that issues, and one of a cluster in RETAIN. -/
def VectorHyps (core : CoreIx) (sel : IWord → Prop) (dst : IWord → Nat) (bytes : (Nat → Bool) → CoreSt → IWord → List Byte) : Prop :=
  (∃ (s : State) (i : Nat) (w : IWord), sel w ∧ WordReady s (64 + core.val) (clusterDown s (clusterOf core)) i w ∧
    Memory.wf s.cores[core].store = true ∧ dst w * 128 + (bytes (unitPoison s i) s.cores[core] w).length ≤ Config.coreStoreBytes) ∧
  ∃ (s : State) (i : Nat) (w : IWord), sel w ∧ readyWord s (64 + core.val) = some (i, w) ∧ clusterDown s (clusterOf core) = true

/-- A vector word of the last core, DST at line 1. -/
def vecAt (op : Nat) : List (Nat × Nat) := [(0, 0x50), (46, op), (50, 1), (65, 2), (80, 3), (95, 4), (110, 1)]

theorem vector_hyps (l : List (Nat × Nat)) (sel : IWord → Prop) (dst : IWord → Nat) (bytes : (Nat → Bool) → CoreSt → IWord → List Byte) (a : sel (wordOf l))
    (b : readyWord (atWord 127 l) 127 = some (0, wordOf l)) (e : dst (wordOf l) = 1) (c : ∀ p k w, (bytes p k w).length ≤ 2 ^ 21) :
    VectorHyps 63 sel dst bytes :=
  ⟨⟨atWord 127 l, 0, wordOf l, a, ⟨b, rfl⟩, rfl, by rw [e]; exact Nat.le_trans (Nat.add_le_add_left (c _ _ _) _) (by decide)⟩,
    asleep (atWord 127 l), 0, wordOf l, a, b, rfl⟩

theorem f32Bytes_length (l : List F32) : (f32Bytes l).length = 4 * l.length := by
  induction l with
  | nil => rfl
  | cons x l ih => rw [f32Bytes, List.flatMap_cons, List.length_append, ← f32Bytes, ih, List.length_cons]; simp [leBytes]; omega

theorem vecLoad_length (c : CoreSt) (a n : Nat) : (vecLoad c a n).length = n := by
  rw [vecLoad, List.length_map]
  generalize memRead c.store (a * 128) (4 * n) = m
  induction n generalizing m with
  | zero => rfl
  | succ n ih => rw [chunk, List.length_cons, ih]

theorem test_hyps_lanes : ∀ f : IWord → F32 → F32 → F32 → F32 × Nat, ∀ op : Fin 7,
    VectorHyps 63 (fun w => wOp w = 0x50 ∧ fld w 46 4 = op.val) (fun w => (vecWord w).dst) (fun p k w => f32Bytes ((laneResults f p k w).map Prod.fst)) := by
  intro f op
  have c : ∀ p k w, (f32Bytes ((laneResults f p k w).map Prod.fst)).length ≤ 2 ^ 21 := by
    intro p k w
    have n : (vecWord w).n ≤ 128 * 2 ^ 12 := Nat.mul_le_mul_left 128 (Nat.le_of_lt (Nat.mod_lt _ (by decide)))
    rw [f32Bytes_length, List.length_map, laneResults, spoilLanes, List.length_map, List.length_zipIdx, List.length_zipWith, List.length_zip, vecLoad_length, vecLoad_length, vecLoad_length]
    omega
  match op with
  | ⟨0, _⟩ => exact vector_hyps (vecAt 0) _ _ _ ⟨rfl, rfl⟩ (by decide +kernel) rfl c
  | ⟨1, _⟩ => exact vector_hyps (vecAt 1) _ _ _ ⟨rfl, rfl⟩ (by decide +kernel) rfl c
  | ⟨2, _⟩ => exact vector_hyps (vecAt 2) _ _ _ ⟨rfl, rfl⟩ (by decide +kernel) rfl c
  | ⟨3, _⟩ => exact vector_hyps (vecAt 3) _ _ _ ⟨rfl, rfl⟩ (by decide +kernel) rfl c
  | ⟨4, _⟩ => exact vector_hyps (vecAt 4) _ _ _ ⟨rfl, rfl⟩ (by decide +kernel) rfl c
  | ⟨5, _⟩ => exact vector_hyps (vecAt 5) _ _ _ ⟨rfl, rfl⟩ (by decide +kernel) rfl c
  | ⟨6, _⟩ => exact vector_hyps (vecAt 6) _ _ _ ⟨rfl, rfl⟩ (by decide +kernel) rfl c

theorem test_hyps_groups : ∀ bytes : (Nat → Bool) → CoreSt → IWord → List Byte, (∀ p k w, (bytes p k w).length ≤ 2 ^ 21) →
    VectorHyps 63 (fun w => wOp w = 0x50 ∧ fld w 46 4 = 7) (fun w => (vecWord w).dst) bytes ∧
    VectorHyps 63 (fun w => wOp w = 0x50 ∧ fld w 46 4 = 8) (fun w => (vecWord w).dst) bytes ∧
    VectorHyps 63 (fun w => wOp w = 0x50 ∧ fld w 46 4 = 9) (fun w => (vecWord w).dst) bytes ∧
    VectorHyps 63 (fun w => wOp w = 0x51) (fun w => fld w 56 15) bytes :=
  fun bytes h => ⟨vector_hyps (vecAt 7) _ _ _ ⟨rfl, rfl⟩ (by decide +kernel) rfl h, vector_hyps (vecAt 8) _ _ _ ⟨rfl, rfl⟩ (by decide +kernel) rfl h,
    vector_hyps (vecAt 9) _ _ _ ⟨rfl, rfl⟩ (by decide +kernel) rfl h, vector_hyps [(0, 0x51), (56, 1), (86, 1)] _ _ _ rfl (by decide +kernel) rfl h⟩

theorem test_hyps_arrays :
    (∃ (s : State) (i : Nat) (w : IWord) (rs : GroupRows), WordReady s 0 (clusterDown s (clusterOf 0)) i w ∧ wOp w = 0x20 ∧
      streamRows s 0 w = some rs ∧ groupLoaded s 0 (groupWords s 0 8 1) = true) ∧
    (∃ (s : State) (i : Nat) (w : IWord), WordReady s 0 (clusterDown s (clusterOf 0)) i w ∧ wOp w = 0x20 ∧ streamRows s 0 w = none) ∧
    (∃ (s : State) (i : Nat) (w : IWord) (rs : GroupRows), WordReady s 0 (clusterDown s (clusterOf 0)) i w ∧ wOp w = 0x20 ∧
      streamRows s 0 w = some rs ∧ 0 < rs.listed ∧ groupLoaded s 0 (groupWords s 0 8 1) = false) ∧
    (∃ (s : State) (i : Nat) (w : IWord), WordReady s 0 (clusterDown s (clusterOf 0)) i w ∧ wOp w = 0x21 ∧ groupLoaded s 0 (groupWords s 0 8 1) = true) ∧
    (∃ (s : State) (i : Nat) (w : IWord), WordReady s 0 (clusterDown s (clusterOf 0)) i w ∧ wOp w = 0x21 ∧ 0 < (convRows s 0 w).listed ∧
      groupLoaded s 0 (groupWords s 0 8 1) = false) := by
  let mul : List (Nat × Nat) := [(0, 0x30)]
  let two : List (Nat × Nat) → State := fun h => wordState (wordRun 0 [wordOf h, wordOf mul])
  refine ⟨⟨atWord 0 [(0, 0x20), (46, 1), (76, 1)], 0, wordOf [(0, 0x20), (46, 1), (76, 1)], _, ⟨?_, ?_⟩, ?_, rfl, ?_⟩,
    ⟨atWord 0 [(0, 0x20), (46, 2)], 0, wordOf [(0, 0x20), (46, 2)], ⟨?_, ?_⟩, ?_, rfl⟩,
    ⟨two [(0, 0x20), (46, 1), (76, 1)], 0, wordOf [(0, 0x20), (46, 1), (76, 1)], _, ⟨?_, ?_⟩, ?_, rfl, ?_⟩, ⟨atWord 0 [(0, 0x21)], 0, wordOf [(0, 0x21)], ⟨?_, ?_⟩, ?_, ?_⟩,
    two [(0, 0x21), (70, 1)], 0, wordOf [(0, 0x21), (70, 1)], ⟨?_, ?_⟩, ?_, ?_⟩ <;> decide +kernel

theorem test_hyps_multiply : ∃ (n : CoreIx) (a : ArrayWord) (r : StreamRow) (s : State), a.acc < 2 ∧ a.final = false ∧
    Memory.wf s.cores[n].store = true ∧
    a.accAddr * 128 + r.k * fullLanes a.shape (a.op == 0x31) * 4 + 4 * fullLanes a.shape (a.op == 0x31) ≤ Config.coreStoreBytes ∧
    0 < (wordLanes (s.cores[n].byp.getD a.array {}) a).length :=
  ⟨5, arrayWord (wordOf [(0, 0x30), (10, 2)]), { k := 1, pos := 1, row := 1, fetch := fun _ n => List.replicate n 0x38 }, atWord 0 [],
    by decide +kernel⟩

theorem test_hyps_hfill :
    (∃ (s : State) (i : Nat) (w : IWord), WordReady s 192 (clusterDown s 0) i w ∧ wOp w = 0x11 ∧ s.run.segs.length ≤ fld w 73 12) ∧
    (∃ (s : State) (i k : Nat) (w : IWord), WordReady s 192 (clusterDown s 0) i w ∧ wOp w = 0x11 ∧ fld w 73 12 < s.run.segs.length ∧
      bitAt (slotOf s (s.run.segs.getD (fld w 73 12) {}).slot).tmask (fld w 85 4) = true ∧
      servingRec s (s.run.segs.getD (fld w 73 12) {}).slot (s.run.segs.getD (fld w 73 12) {}).version = some k ∧
      ∀ c : ClusterIx, tabWf {} s.clusters[c].regions = true) := by
  refine ⟨⟨atWord 192 [(0, 0x11), (73, 1)], 0, wordOf [(0, 0x11), (73, 1)], ⟨?_, ?_⟩, ?_⟩,
    atWord 192 [(0, 0x11), (46, 1)], 0, 0, wordOf [(0, 0x11), (46, 1)], ⟨?_, ?_⟩, ?_⟩ <;> decide +kernel

/-- The lines that a fill reads, of a partition. -/
def linesOf (p : Part) : Tab CacheLine := (List.range 16).map (fun j => (j, { valid := true, part := p, bytes := List.replicate 64 1 }))

theorem test_hyps_tfill : ∀ p : Fin 2, ∃ (n : CoreIx) (s : State) (i : Nat) (w : IWord), WordReady s (128 + n.val) (clusterDown s (clusterOf n)) i w ∧
    wOp w = 0x10 ∧ loadAwaited s n (8 * fld w 46 2 + fld w 48 3) = false ∧ bitAt w 54 = false ∧ fld w 74 12 < s.run.segs.length ∧
    bitAt (slotOf s (s.run.segs.getD (fld w 74 12) {}).slot).tmask (fld w 86 4) = true ∧
    ∀ l ∈ (List.range 16).map (fun j => tabGet {} s.clusters[clusterOf n].lines (fld w 55 19 + j)), l.valid = true ∧
      (l.part.val = s.cores[n].part ↔ p = 0) := by
  intro p
  refine ⟨3, { atWord 131 [(0, 0x10)] with clusters := Vector.replicate 8 { lines := linesOf (p.castLE (by decide)) } }, 0, wordOf [(0, 0x10)], ?_⟩
  match p with
  | 0 | 1 => refine ⟨⟨?_, ?_⟩, ?_⟩ <;> decide +kernel

/-- A fill whose entry holds a tile that a word of the core has yet to load. -/
def twoQueues : State :=
  let s := wordState { wordRun 131 [wordOf [(0, 0x10)], wordOf [(0, 0x30)]] with
    prog := some { issuers := [{ count := 1, queue := 131 }, { first := 1, count := 1, queue := 3 }], words := [wordOf [(0, 0x10)], wordOf [(0, 0x30)]],
                   plan := [{ maxRows := 1, rmax := 32, cln := 1 }] } }
  { s with cores := s.cores.map (fun c => { c with staging := Vector.replicate 32 (some {}) }) }

theorem test_hyps_tfill_waits : ∃ (n : CoreIx) (s : State) (i : Nat) (w : IWord), WordReady s (128 + n.val) (clusterDown s (clusterOf n)) i w ∧
    wOp w = 0x10 ∧ loadAwaited s n (8 * fld w 46 2 + fld w 48 3) = true :=
  ⟨3, twoQueues, 0, wordOf [(0, 0x10)], ⟨by decide +kernel, by decide +kernel⟩, by decide +kernel⟩

/-- A cluster with a rank vector of the row drained. -/
def reduced (dest : Nat) : State :=
  { atWord 192 [(0, 0x40), (52, 1), (68, dest), (70, 1), (108, 1)] with clusters := Vector.replicate 8 { reds := [(0, [{ lanes := List.replicate 32 0x3F800000 }])] } }

theorem test_hyps_reduce :
    (∀ dest : Fin 4, ∃ (s : State) (i : Nat) (w : IWord) (x : Nat × Nat × Nat × List F32 × List (Nat × Nat)),
      WordReady s 192 (clusterDown s 0) i w ∧ noFlight s 192 ∧ wOp w = 0x40 ∧ (reduceWord w).dest = dest.val ∧ (reduceWord w).seg < s.run.segs.length ∧
      bitAt (slotOf s (s.run.segs.getD (reduceWord w).seg {}).slot).tmask (reduceWord w).target = true ∧
      redAll s 0 i (reduceWord w) (s.run.segs.getD (reduceWord w).seg {}) = some [x] ∧ x.2.2.2.1 ≠ [] ∧
      (∀ j : Fin 8, tabWf {} s.cores[coreOf 0 j.val].feed = true) ∧ tabWf [] s.clusters[(0 : ClusterIx)].uvals = true ∧ tabWf [] s.clusters[(0 : ClusterIx)].reds = true ∧
      Memory.wf s.cores[coreOf 0 (reduceWord w).vc].store = true ∧ tagGrad (tagOf s x.2.2.1) = true ∧
      (reduceWord w).addr * 128 + 8 * (128 * cdiv (reduceWord w).count 128) * (if (planRow s (reduceWord w).seg).rmax ≤ 128 then 128 else 256) ≤ Config.coreStoreBytes ∧
      0 < (reduceWord w).count) ∧
    (∀ dest : Fin 4, ∃ (s : State) (i : Nat) (w : IWord), WordReady s 192 (clusterDown s 0) i w ∧ noFlight s 192 ∧ wOp w = 0x40 ∧ (reduceWord w).dest = dest.val ∧
      (reduceWord w).seg < s.run.segs.length ∧ bitAt (slotOf s (s.run.segs.getD (reduceWord w).seg {}).slot).tmask (reduceWord w).target = true ∧
      redAll s 0 i (reduceWord w) (s.run.segs.getD (reduceWord w).seg {}) = none) := by
  refine ⟨fun dest => ⟨reduced dest.val, 0, wordOf [(0, 0x40), (52, 1), (68, dest.val), (70, 1), (108, 1)], (0, 0, 0, [0x3F800000], []), ?_⟩,
    fun dest => ⟨atWord 192 [(0, 0x40), (52, 1), (68, dest.val), (70, 1), (108, 1)], 0, wordOf [(0, 0x40), (52, 1), (68, dest.val), (70, 1), (108, 1)], ?_⟩⟩
  all_goals
    match dest with
    | 0 | 1 | 2 | 3 => refine ⟨⟨?_, ?_⟩, (fun _ h => nomatch h), ?_⟩ <;> (repeat' apply And.intro) <;> first | decide +kernel | rfl

/-- A REDUCE of a segment that the batch lacks. -/
theorem test_hyps_reduce_skipped : ∀ dest : Fin 4, ∃ (s : State) (i : Nat) (w : IWord), WordReady s 192 (clusterDown s 0) i w ∧
    noFlight s 192 ∧ wOp w = 0x40 ∧ (reduceWord w).dest = dest.val ∧ s.run.segs.length ≤ (reduceWord w).seg := by
  intro dest
  refine ⟨atWord 192 [(0, 0x40), (68, dest.val), (78, 1)], 0, wordOf [(0, 0x40), (68, dest.val), (78, 1)], ?_⟩
  match dest with
  | 0 | 1 | 2 | 3 => refine ⟨⟨?_, ?_⟩, (fun _ h => nomatch h), ?_⟩ <;> decide +kernel

/-- A REDUCE that has issued, its block sum drained since. -/
def inFlight (dest : Nat) : State := { reduced dest with run := { (reduced dest).run with flight := [(192, 0)], ptr := [(192, 1)] } }

theorem test_hyps_flight : ∀ dest : Fin 4, ∃ (s : State) (i : Nat) (p : Program)
    (l : List (Nat × Nat × Nat × List F32 × List (Nat × Nat))), issueOpen s = true ∧ s.run.prog = some p ∧ s.run.flight = [(192, i)] ∧
      tabWf [] s.clusters[(0 : ClusterIx)].reds = true ∧ wOp (p.words.getD i 0) = 0x40 ∧ (reduceWord (p.words.getD i 0)).dest = dest.val ∧
      (reduceWord (p.words.getD i 0)).seg < s.run.segs.length ∧
      bitAt (slotOf s (s.run.segs.getD (reduceWord (p.words.getD i 0)).seg {}).slot).tmask (reduceWord (p.words.getD i 0)).target = true ∧
      redAll s 0 i (reduceWord (p.words.getD i 0)) (s.run.segs.getD (reduceWord (p.words.getD i 0)).seg {}) = some l := by
  intro dest
  refine ⟨inFlight dest.val, 0, _, [(0, 0, 0, [0x3F800000], [])], ?_, rfl, rfl, ?_⟩
  all_goals
    match dest with
    | 0 | 1 | 2 | 3 => (repeat' apply And.intro) <;> first | decide +kernel | rfl

/-- Entry 1 of Table ARITH-11, its bytes as the chapter spells them. -/
theorem test_segment_entry : segEntry { slot := 0x220, part := 3, off := 20, count := 12, version := 7, rank := 16 } =
    [0x20, 0x02, 0x03, 0x00, 0x14, 0x00, 0x00, 0x00, 0x0C, 0x00, 0x00, 0x00, 0x07, 0x00, 0x10, 0x00] := by decide +kernel

/-! ### The request faces and the context cache -/

/-- An incoming word of a KIND for target 0, one core of cluster 0. -/
def inWord (kind : Nat) (more : List (Nat × Nat)) : List (Nat × Nat) := [(0, 0x60), (46, kind), (72, 1)] ++ more

/-- The face's own queue of words coming in, or of words going out. -/
def atFace (q : Nat) (l : List (Nat × Nat)) : State := atWord q l

theorem test_hyps_blocks :
    (∃ (f : FaceIx) (b : List Byte) (s : State) (i : Nat) (w : IWord), FaceReady s f 0 i w ∧
      (blockTaken s i b).length ≠ (faceRows s f).length * (targetOf s (fld w 50 4)).din) ∧
    (∀ split : Fin 2, ∃ (f : FaceIx) (b : List Byte) (s : State) (i : Nat) (w : IWord), FaceReady s f 0 i w ∧
      (blockTaken s i b).length = (faceRows s f).length * (targetOf s (fld w 50 4)).din ∧ faceRows s f = [] ++ [0] ∧
      rowPlace s 0 = some (0, 0) ∧ bitAt w 107 = false ∧ bitAt w 106 = (split == 1) ∧ (rowCores (faceWord w) (placeOf (planRow s 0) 0).1) = [0, 7] ∧
      coresOwned s (rowCores (faceWord w) (placeOf (planRow s 0) 0).1) (tagPart (tagOf s 0)) = true ∧
      (planRow s 0).abase * 128 + (placeOf (planRow s 0) 0).2 * (planRow s 0).astr * 128 + (targetOf s (fld w 50 4)).din ≤ Config.coreStoreBytes ∧
      (∀ n ∈ rowCores (faceWord w) (placeOf (planRow s 0) 0).1, Memory.wf s.cores[n].store = true) ∧
      (rowCores (faceWord w) (placeOf (planRow s 0) 0).1).Nodup) ∧
    (∃ (f : FaceIx) (b : List Byte) (s : State) (i : Nat) (w : IWord), FaceReady s f 0 i w ∧
      (blockTaken s i b).length = (faceRows s f).length * (targetOf s (fld w 50 4)).din ∧ faceRows s f = [] ++ [0] ∧
      rowPlace s 0 = some (0, 0) ∧ bitAt w 107 = false ∧
      coresOwned s (rowCores (faceWord w) (placeOf (planRow s 0) 0).1) (tagPart (tagOf s 0)) = false) := by
  have r : ∀ q l, readyWord (atFace q l) q = some (0, wordOf l) → readyWord (atFace q l) q = some (0, wordOf l) := fun _ _ h => h
  refine ⟨⟨0, [], atFace 200 (inWord 0 []), 0, wordOf (inWord 0 []), ⟨?_, ?_, ?_⟩, ?_⟩,
    fun p => ⟨0, List.replicate 32 1, atFace 200 (inWord 0 [(79, 1), (106, p.val)]), 0, wordOf (inWord 0 [(79, 1), (106, p.val)]), ?_⟩,
    ⟨0, List.replicate 32 1, { atFace 200 (inWord 0 []) with cores := Vector.replicate 64 {} }, 0, wordOf (inWord 0 []), ⟨?_, ?_, ?_⟩, ?_⟩⟩
  case refine_5 => match p with | 0 | 1 => refine ⟨⟨?_, ?_, ?_⟩, ?_⟩ <;> decide +kernel
  all_goals decide +kernel

/-- A row with a place, or to be routed whole, in a block of the wrong length. -/
theorem test_hyps_blocks_refused : ∀ route : Fin 2, ∃ (f : FaceIx) (b : List Byte) (s : State) (i : Nat) (w : IWord), FaceReady s f 0 i w ∧
    (blockTaken s i b).length ≠ (faceRows s f).length * (targetOf s (fld w 50 4)).din ∧ faceRows s f = [0] ∧ rowPlace s 0 = some (0, 0) ∧
    bitAt w 107 = (route == 1) := by
  intro k
  refine ⟨0, [], atFace 200 (inWord 0 [(107, k.val)]), 0, wordOf (inWord 0 [(107, k.val)]), ?_⟩
  match k with | 0 | 1 => refine ⟨⟨?_, ?_, ?_⟩, ?_⟩ <;> decide +kernel

theorem test_hyps_gradients :
    (∃ (f : FaceIx) (b : List Byte) (s : State) (i : Nat) (w : IWord), FaceReady s f 1 i w ∧
      (blockTaken s i b).length ≠ ((faceRows s f).filter (fun r => tagGrad (tagOf s r))).length * (targetOf s (fld w 50 4)).dout * 2) ∧
    (∃ (f : FaceIx) (b : List Byte) (s : State) (i : Nat) (w : IWord), FaceReady s f 1 i w ∧
      (blockTaken s i b).length = ((faceRows s f).filter (fun r => tagGrad (tagOf s r))).length * (targetOf s (fld w 50 4)).dout * 2 ∧
      (faceRows s f).filter (fun r => tagGrad (tagOf s r)) = [] ++ [0] ∧ bitAt w 107 = true ∧
      rowCores (faceWord w) 0 ≠ [] ∧ coresOwned s (rowCores (faceWord w) 0) (tagPart (tagOf s 0)) = true ∧
      fld w 80 15 * 128 + (targetOf s (fld w 50 4)).dout ≤ Config.coreStoreBytes ∧ ∀ n ∈ rowCores (faceWord w) 0, Memory.wf s.cores[n].store = true) ∧
    (∃ (f : FaceIx) (b : List Byte) (s : State) (i : Nat) (w : IWord), FaceReady s f 1 i w ∧
      (blockTaken s i b).length = ((faceRows s f).filter (fun r => tagGrad (tagOf s r))).length * (targetOf s (fld w 50 4)).dout * 2 ∧
      (faceRows s f).filter (fun r => tagGrad (tagOf s r)) = [] ++ [0] ∧ bitAt w 107 = true ∧
      coresOwned s (rowCores (faceWord w) 0) (tagPart (tagOf s 0)) = false) := by
  let l := inWord 1 [(64, 1), (107, 1)]
  refine ⟨⟨0, [], atFace 200 l, 0, wordOf l, ⟨?_, ?_, ?_⟩, ?_⟩, ⟨0, List.replicate 256 1, atFace 200 l, 0, wordOf l, ⟨?_, ?_, ?_⟩, ?_⟩,
    ⟨0, List.replicate 256 1, { atFace 200 l with cores := Vector.replicate 64 {} }, 0, wordOf l, ⟨?_, ?_, ?_⟩, ?_⟩⟩ <;> decide +kernel

theorem test_hyps_kept :
    (∃ (s : State) (i : Nat) (w : IWord), FaceReady s 0 4 i w ∧ (((faceRows s 0).filter (fun r => decide (0 < rowTopk s r))).map
      (fun r => (targetOf s (fld w 50 4)).dout * deltaWidth s (tagPart (tagOf s r)) 0)).sum = 256) ∧
    (∃ (s : State) (i : Nat) (w : IWord), FaceReady s 0 2 i w ∧ s.run.checked = true ∧
      ((faceContext s 0).map (qrySize s (attWith s true (fld w 50 4)))).sum = 64) ∧
    (∃ (s : State) (i : Nat) (w : IWord), FaceReady s 0 3 i w ∧ s.run.checked = true ∧
      ((faceContext s 0).map (probSize s (attWith s false (fld w 50 4)))).sum = 2) := by
  refine ⟨⟨atFace 200 (inWord 4 []), 0, wordOf (inWord 4 []), ⟨?_, ?_, ?_⟩, ?_⟩, ⟨atFace 200 (inWord 2 []), 0, wordOf (inWord 2 []), ⟨?_, ?_, ?_⟩, ?_⟩,
    atFace 200 (inWord 3 []), 0, wordOf (inWord 3 []), ⟨?_, ?_, ?_⟩, ?_⟩ <;> decide +kernel

/-- A LOGIT block whose row is routed to a core of no partition. -/
theorem test_hyps_kept_foreign : ∃ (s : State) (i : Nat) (w : IWord) (b : List Byte), FaceReady s 0 4 i w ∧ (((faceRows s 0).filter (fun r => decide (0 < rowTopk s r))).map
    (fun r => (targetOf s (fld w 50 4)).dout * deltaWidth s (tagPart (tagOf s r)) 0)).sum = (blockTaken s i b).length ∧ bitAt w 107 = true ∧
    0 ∈ faceRows s 0 ∧ 0 < rowTopk s 0 ∧ coresOwned s (rowCores (faceWord w) 0) (tagPart (tagOf s 0)) = false := by
  let l := inWord 4 [(64, 1), (107, 1)]
  refine ⟨{ atFace 200 l with cores := Vector.replicate 64 {} }, 0, wordOf l, List.replicate 256 1, ⟨?_, ?_, ?_⟩, ?_⟩ <;> decide +kernel

/-- A FACEOUT word of a KIND. -/
def outWord (kind : Nat) : List (Nat × Nat) := [(0, 0x61), (46, kind)]

theorem test_hyps_out : ∀ kind ∈ [8, 9, 0xA, 0xB, 0xC, 0xD], ∃ (f : FaceIx) (s : State) (i : Nat) (w : IWord), FaceDue s f kind i w ∧
    s.run.blocks = [] ∧ s.run.made = [] := by
  intro k h
  refine ⟨1, atFace 203 (outWord k), 0, wordOf (outWord k), ?_⟩
  fin_cases h <;> (refine ⟨⟨?_, ?_, ?_⟩, ?_⟩ <;> decide +kernel)

/-- A BITMAP of a program with a pass, before the hand-over check. -/
theorem test_hyps_bitmap_waits : ∃ (f : FaceIx) (s : State) (i : Nat) (w : IWord), FaceDue s f 8 i w ∧ s.run.checked = false ∧
    progWords s (fun w => wOp w == 0x90 && fld w 46 4 != 0) ≠ [] := by
  let r := wordRun 203 [wordOf (outWord 8), wordOf [(0, 0x90), (46, 1)]]
  exact ⟨1, wordState { r with checked := false }, 0, wordOf (outWord 8), ⟨by decide +kernel, by decide +kernel, by decide +kernel⟩, by decide +kernel⟩

/-- A LOGIT block of the wrong length, its row routed or placed. -/
theorem test_hyps_logit_refused : ∃ (s : State) (i : Nat) (w : IWord), FaceReady s 0 4 i w ∧ (blockTaken s i []).length ≠
    (((faceRows s 0).filter (fun r => decide (0 < rowTopk s r))).map (fun r => (targetOf s (fld w 50 4)).dout * deltaWidth s (tagPart (tagOf s r)) 0)).sum ∧
    0 ∈ faceRows s 0 ∧ 0 < rowTopk s 0 ∧ bitAt w 107 = true := by
  let l := inWord 4 [(107, 1)]
  exact ⟨atFace 200 l, 0, wordOf l, ⟨by decide +kernel, by decide +kernel, by decide +kernel⟩, by decide +kernel⟩

theorem test_hyps_topk : ∀ mine : Bool, ∃ (f : FaceIx) (s : State) (i : Nat) (w : IWord) (x : InBlock) (bytes : List Byte), FaceDue s f 0xD i w ∧
    rowCores { faceWord w with route := true } 0 ≠ [] ∧ coresOwned s (rowCores { faceWord w with route := true } 0) (tagPart (tagOf s 0)) = mine ∧
    s.run.blocks.find? (fun (x : InBlock) => x.kind == 4 && decide (x.face = f) && x.target == fld w 50 4 &&
      x.addr == fld w 80 15 && x.route) = some x ∧
    x.bytes = some bytes ∧ (faceRows s f).filter (fun r => decide (0 < rowTopk s r)) = [0] ∧ isPoisoned s f 0 = false := by
  intro k
  let l := outWord 0xD ++ [(64, 1), (72, 1)]
  let s := atFace 202 l
  refine ⟨0, { s with run := { s.run with blocks := [{ kind := 4, route := true, bytes := some (List.replicate 256 0) }] },
                      cores := if k then s.cores else Vector.replicate 64 {} }, 0, wordOf l,
    { kind := 4, route := true, bytes := some (List.replicate 256 0) }, List.replicate 256 0, ?_⟩
  cases k <;> (refine ⟨⟨?_, ?_, ?_⟩, ?_, ?_, ?_, rfl, ?_⟩) <;> decide +kernel

theorem test_hyps_order : ∃ l : List (F32 × Nat), (l.map Prod.snd).Nodup ∧ (topN 2 l).map Prod.snd = [9, 4] :=
  ⟨[(0x80000000, 3), (0x3F800000, 4), (0x7FC00000, 9)], by decide +kernel⟩

/-- An RCC word. -/
def rccWord (op : Nat) : List (Nat × Nat) := [(0, 0x90), (46, op), (64, 1)]

/-- A rank vector delivered for the row. -/
def withU (s : State) : State := { s with clusters := Vector.replicate 8 { uvals := [(0, [0x3F800000])] } }

theorem test_hyps_context :
    (∃ (s : State) (i : Nat) (w : IWord), readyWord s 204 = some (i, w) ∧ noFlight s 204 ∧ wOp w = 0x90 ∧ fld w 46 4 = 0 ∧ s.run.checked = false) ∧
    (∃ (s : State) (i : Nat) (w : IWord), readyWord s 204 = some (i, w) ∧ noFlight s 204 ∧ wOp w = 0x90 ∧ fld w 46 4 = 0 ∧
      ∃ r ∈ (contextList s).filter (fun r => bitAt (slotOf s r.slot).tmask (fld w 60 4)), ∃ row ∈ r.rows, deliveredU s (fld w 64 8) (fld w 72 6) row = none) ∧
    (∃ (s : State) (i : Nat) (w : IWord) (r : RccReq) (row : Nat) (u : List F32) (a o : Nat), readyWord s 204 = some (i, w) ∧ noFlight s 204 ∧ wOp w = 0x90 ∧ fld w 46 4 = 0 ∧
      s.run.checked = true ∧ (contextList s).filter (fun r => bitAt (slotOf s r.slot).tmask (fld w 60 4)) = [r] ∧ r.rows = [row] ∧
      deliveredU s (fld w 64 8) (fld w 72 6) row = some u ∧ pageAt s r (r.clen / 256) = some (a, false, true) ∧
      sectionOff s r false (fld w 50 10) (fld w 60 4) = some o ∧ isPoisoned s (recOf s r.req).face row = false ∧
      (∀ x ∈ u, f32Finite x = true) ∧ u ≠ [] ∧ Memory.wf s.hbm = true) := by
  let s := atWord 204 (rccWord 0)
  let w := wordOf (rccWord 0)
  let r : RccReq := { version := 1, rows := [0], fresh := [(0, 0)] }
  refine ⟨⟨{ s with run := { s.run with checked := false } }, 0, w, ?_, (fun _ h => nomatch h), ?_, ?_, rfl⟩,
    ⟨s, 0, w, ?_, (fun _ h => nomatch h), ?_, ?_, r, ?_, 0, ?_, ?_⟩,
    ⟨withU s, 0, w, r, 0, [0x3F800000], 0, 0, ?_, (fun _ h => nomatch h), ?_, ?_, rfl, ?_, rfl, ?_, ?_, ?_, ?_, fun x h => List.mem_singleton.1 h ▸ rfl, ?_, ?_⟩⟩ <;> decide +kernel

/-- A context pass with the block of its request, or with a block refused. -/
def passOf (op kind : Nat) (b : Option (List Byte)) : State :=
  let s := atWord 204 (rccWord op)
  { s with run := { s.run with blocks := [{ kind, bytes := b }] } }

theorem test_hyps_pass : ∀ x ∈ [(true, 1, 2), (false, 2, 3)], ∀ b : Bool, ∃ (s : State) (i : Nat) (w : IWord) (r : RccReq),
    readyWord s 204 = some (i, w) ∧ noFlight s 204 ∧ wOp w = 0x90 ∧ fld w 46 4 = x.2.1 ∧ s.run.checked = true ∧ contextList s = [r] ∧
    (let d := attOf s (fld w 72 3)
     let g := if x.1 = true then d.ktgt else d.vtgt
     (passBlock s r x.2.2 g (fld w 50 10)).isSome = true ∧ ((passBlock s r x.2.2 g (fld w 50 10)).bind (·.bytes) = none ↔ b = false) ∧
     bitAt (slotOf s r.slot).tmask g = true ∧ ∀ row ∈ r.rows, isPoisoned s (recOf s r.req).face row = false) := by
  intro x h b
  fin_cases h <;> cases b
  · exact ⟨passOf 1 2 none, 0, wordOf (rccWord 1), { version := 1, rows := [0], fresh := [(0, 0)] }, by decide +kernel⟩
  · exact ⟨passOf 1 2 (some []), 0, wordOf (rccWord 1), { version := 1, rows := [0], fresh := [(0, 0)] }, by decide +kernel⟩
  · exact ⟨passOf 2 3 none, 0, wordOf (rccWord 2), { version := 1, rows := [0], fresh := [(0, 0)] }, by decide +kernel⟩
  · exact ⟨passOf 2 3 (some []), 0, wordOf (rccWord 2), { version := 1, rows := [0], fresh := [(0, 0)] }, by decide +kernel⟩

theorem test_hyps_pass_waits : ∀ op ∈ [1, 2], ∃ (s : State) (i : Nat) (w : IWord), readyWord s 204 = some (i, w) ∧ noFlight s 204 ∧ wOp w = 0x90 ∧ fld w 46 4 = op ∧
    s.run.checked = true ∧ (contextList s).length = 1 ∧ s.run.blocks = [] := by
  intro op h
  exact ⟨atWord 204 (rccWord op), 0, wordOf (rccWord op), by fin_cases h <;> decide +kernel⟩

theorem test_hyps_made : ∀ kind ∈ [0xB, 0xC], ∃ (f : FaceIx) (s : State) (i : Nat) (w : IWord) (m : MadeBlock), FaceDue s f kind i w ∧
    s.run.made.find? (fun (m : MadeBlock) => m.kind == kind && m.desc == fld w 50 4 && m.layer == fld w 54 10) = some m := by
  intro k h
  let s := atFace 202 (outWord k)
  refine ⟨0, { s with run := { s.run with made := [{ kind := k, vals := [[0]] }] } }, 0, wordOf (outWord k), { kind := k, vals := [[0]] }, ?_⟩
  fin_cases h <;> (refine ⟨⟨?_, ?_, ?_⟩, ?_⟩ <;> decide +kernel)


/-! ### Training words -/

/-- A MACC word of one tile of matrix A, FP32 contributions. -/
def maccWord : List (Nat × Nat) := [(0, 0x80), (46, 2), (95, 1)]

/-- A tensor of 32 elements, ACTIVE, with its work at 0x1000 on. -/
def tensor0 : Tensor := { st := .active, version := 1, nlayers := 1, master := 0x1000, moments := 0x2000, acc := 0x3000, work := 0, touched := true }

theorem test_hyps_macc :
    (∃ (s : State) (i : Nat) (w : IWord), WordReady s 64 (clusterDown s 0) i w ∧ wOp w = 0x80 ∧ s.run.segs.length ≤ fld w 48 12) ∧
    (∃ (s : State) (i : Nat) (w : IWord), WordReady s 64 (clusterDown s 0) i w ∧ wOp w = 0x80 ∧ fld w 48 12 < s.run.segs.length ∧
      bitAt (slotOf s (s.run.segs.getD (fld w 48 12) {}).slot).tmask (fld w 60 4) = true ∧ segTrains s (s.run.segs.getD (fld w 48 12) {}) = false) ∧
    (∀ l : Fin 2, ∃ (s : State) (i : Nat) (w : IWord), WordReady s 64 (clusterDown s 0) i w ∧ wOp w = 0x80 ∧ fld w 48 12 < s.run.segs.length ∧
      bitAt (slotOf s (s.run.segs.getD (fld w 48 12) {}).slot).tmask (fld w 60 4) = true ∧ segTrains s (s.run.segs.getD (fld w 48 12) {}) = true ∧ fld w 95 16 = 1 ∧
      findTensor s (s.run.segs.getD (fld w 48 12) {}).part (s.run.segs.getD (fld w 48 12) {}).slot (s.run.segs.getD (fld w 48 12) {}).version (fld w 60 4) (bitAt w 64)
        = (if l = 0 then none else some 5) ∧
      (l = 1 → tabGet {} s.tensors 5 = tensor0 ∧ tensor0.repset = 0xFFF ∧ Memory.wf s.hbm = true ∧ tabWf {} s.tensors = true ∧
        tensorElems s tensor0 = 32 ∧ badRead s tensor0.master 128 = false ∧ badRead s tensor0.moments 256 = false ∧ badRead s tensor0.acc 512 = false ∧
        (∃ k, ((tileElems (targetOf s 0) false 1 0).map Prod.fst).head? = some (some k) ∧ k < 32))) := by
  let s := atWord 64 maccWord
  refine ⟨⟨atWord 64 (maccWord ++ [(48, 1)]), 0, wordOf (maccWord ++ [(48, 1)]), ⟨?_, ?_⟩, ?_⟩,
    ⟨{ s with slots := [(0, { st := .resident, tmask := 0xFFFF, rank := 1, version := 1 })] }, 0, wordOf maccWord, ⟨?_, ?_⟩, ?_⟩,
    fun l => ⟨{ s with tensors := if l = 0 then [] else [(5, tensor0)] }, 0, wordOf maccWord, ?_⟩⟩
  case refine_7 =>
    match l with
    | 0 => refine ⟨⟨?_, ?_⟩, ?_, ?_, ?_, ?_, ?_, ?_, ?_⟩ <;> first | decide +kernel | (intro h; exact absurd h (by decide))
    | 1 => exact ⟨⟨by decide +kernel, by decide +kernel⟩, by decide +kernel, by decide +kernel, by decide +kernel, by decide +kernel, by decide +kernel, by decide +kernel,
        fun _ => ⟨by decide +kernel, by decide +kernel, by decide +kernel, by decide +kernel, by decide +kernel, by decide +kernel, by decide +kernel, by decide +kernel, 0, by decide +kernel⟩⟩
  all_goals decide +kernel

/-- A word of the update units for tensor 5. -/
def updWord (op : Nat) : List (Nat × Nat) := [(0, op), (46, 5), (64, 1)]

/-- The chip at that word, its tensor touched, after action 1, with a parameter set. -/
def atUpdate (op acted : Nat) (h : HpSet) : State :=
  let s := atWord 211 (updWord op)
  { s with tensors := [(5, tensor0)], run := { s.run with acted }, parts := Vector.replicate 16 { st := .keyed, hps := [(0, h)] } }

theorem test_hyps_update :
    (∃ (s : State) (i : Nat) (w : IWord), readyWord s 211 = some (i, w) ∧ wOp w = 0x81 ∧ s.run.acted < 2 ∧
      ∃ p : Part, (summaryNow s).getLsbD (16 + p.val) = true ∧ s.run.skipParts.getLsbD p.val = false) ∧
    (∃ (s : State) (i : Nat) (w : IWord), readyWord s 211 = some (i, w) ∧ wOp w = 0x81 ∧ s.run.acted < 2 ∧ bitAt w 82 = false ∧
      s.tensors = [(5, tensor0)] ∧ lacksSet s tensor0 = true ∧ Memory.wf s.hbm = true ∧ s.run.skipParts.getLsbD 0 = false ∧ (tensor0.part : Part) = 0) ∧
    (∀ v : Bool, ∃ (s : State) (i : Nat) (w : IWord), readyWord s 211 = some (i, w) ∧ wOp w = 0x81 ∧ 2 ≤ s.run.acted ∧ wordTensors s w = [5] ∧
      bitAt w 82 = false ∧ tabGet {} s.tensors 5 = tensor0 ∧ tensor0.st = .active ∧ tensor0.touched = true ∧ tensor0.stepped = false ∧
      s.parts[tensor0.part].presetPend = none ∧ (slotOf s tensor0.slot).frozen = false ∧ s.run.summary.getLsbD (16 + tensor0.part.val) = false ∧
      Memory.wf s.hbm = true ∧ tabWf {} s.tensors = true ∧ tensorElems s tensor0 = 32 ∧ badRead s tensor0.master 128 = false ∧
      badRead s tensor0.moments 256 = false ∧ badRead s tensor0.acc 512 = false ∧
      (tabGet {} s.parts[tensor0.part].hps tensor0.hset).valid = v ∧ s.run.skipParts.getLsbD tensor0.part.val = false) ∧
    (∃ (s : State) (i : Nat) (w : IWord), readyWord s 211 = some (i, w) ∧ wOp w = 0x82 ∧ wordTensors s w = [5] ∧ tabGet {} s.tensors 5 = tensor0 ∧
      tensor0.st ≠ .empty ∧ s.parts[tensor0.part].presetPend = none ∧ tensor0.nlayers * tensorTpl s tensor0 = 1 ∧ Memory.wf s.hbm = true ∧
      (∀ x ∈ tileElems (targetOf s tensor0.target) tensor0.matB (tensorRank s tensor0) 0, x.2 < (workDir s tensor0).tbytes) ∧
      (workDir s tensor0).codes + (workDir s tensor0).tbytes ≤ (workDir s tensor0).scales) := by
  refine ⟨⟨{ atUpdate 0x81 0 {} with tensors := [(5, { tensor0 with stepNan := true })] }, 0, wordOf (updWord 0x81), ?_, ?_, ?_, 0, ?_⟩,
    ⟨atUpdate 0x81 0 {}, 0, wordOf (updWord 0x81), ?_⟩, fun v => ⟨atUpdate 0x81 2 { valid := v, lr := 0x3F800000 }, 0, wordOf (updWord 0x81), ?_⟩, ⟨atUpdate 0x82 0 {}, 0, wordOf (updWord 0x82), ?_⟩⟩
  case refine_6 => cases v <;> decide +kernel
  all_goals decide +kernel


/-! ### Exchange -/

/-- The bits of an exchange word with the other chip, of a KIND, on core 0. -/
def xBits (op kind : Nat) : List (Nat × Nat) := [(0, op), (48, kind), (52, 1), (91, 1), (103, 5)]

/-- The chip with such a word on port 0's queue and a reduction of it in cluster 0, the peer reached by port 0, a shard set and a
replica set that name the peer, and messages that have come. -/
def atExchange (op kind : Nat) (inbox : List InMsg) : State :=
  let r := wordRun 205 [wordOf (xBits op kind)]
  let s := wordState { r with inbox, digests := [(0, 1, 7)], prog := r.prog.map (fun p => { p with
    issuers := p.issuers ++ [{ first := 1, count := 1, queue := 192 }], words := p.words ++ [wordOf [(0, 0x40), (52, 1), (108, 1)]] }) }
  { s with plane := { s.plane with rtNormal := [(1, 0)] }, tensors := [(0, { st := .active, version := 1, repset := 0 })],
           vrecs := [(0, { st := .published, version := 1, shset := 0 }), (4, { st := .building, mirror := true, owner := 1, version := 1 })],
           parts := Vector.replicate 16 { st := .keyed, shards := [(0, BitVec.ofNat 512 (1 + 2 ^ 30 + 2 ^ 60))], repsets := [(0, BitVec.ofNat 256 (1 + 2 ^ 8))] } }

/-- A message of the peer for that word. -/
def came (kind : Nat) (b : List Byte) : InMsg := { src := 1, kind, msg := 5, body := b }

/-- The same, its source lost. -/
def lost (s : State) : State := { s with run := { s.run with noSource := [1] } }

theorem test_hyps_xmessages :
    (∀ k : Fin 6, ∃ (m : Msg) (s : State), mKind m = k.val ∧ s.run.isOpen = true ∧ MsgAwaited m s) ∧
    (∀ k : Fin 6, ∃ (m : Msg) (s : State), mKind m = k.val ∧ s.run.isOpen = true ∧ MsgChecked m s ∧ xrecvWord s (mSrc m) (mKind m) (mMsg m) = none) ∧
    (∃ (m : Msg) (s : State), MsgChecked m s ∧ mKind m = 4 ∧ s.run.isOpen = false ∧ portOf s (mSrc m) = some 0) ∧
    (∃ (m : Msg) (s : State), MsgChecked m s ∧ mKind m = 9 ∧ s.slots ≠ [] ∧ ∀ x ∈ s.slots, x.2.frozen = false) := by
  refine ⟨fun k => ⟨fromPeer (atExchange 0x71 k.val []) k.val 5 0 [1], atExchange 0x71 k.val [], ?_, rfl, ?_, ?_, wordOf (xBits 0x71 k.val), ?_⟩,
    fun k => ⟨fromPeer (running {}) k.val 5 0 [1], running {}, ?_, rfl, ?_, rfl⟩,
    ⟨fromPeer (inSlice { st := .up }) 4 5 0 [1], inSlice { st := .up }, ?_, ?_, rfl, ?_⟩, ⟨fromPeer (atWord 0 []) 9 0 0 [1], atWord 0 [], ?_, ?_, ?_, ?_⟩⟩
  case refine_2 => match k with | 0 | 1 | 2 | 3 | 4 | 5 => apply checked_of _ _ plan2 rfl <;> decide +kernel
  case refine_6 => match k with | 0 | 1 | 2 | 3 | 4 | 5 => apply checked_of _ _ plan2 rfl <;> decide +kernel
  case refine_1 | refine_3 | refine_4 | refine_5 => match k with | 0 | 1 | 2 | 3 | 4 | 5 => decide +kernel
  case refine_7 | refine_10 => apply checked_of _ _ plan2 rfl <;> decide +kernel
  all_goals decide +kernel

theorem test_hyps_xsend :
    (∀ k : Fin 6, ∃ (port : PortIx) (s : State) (i : Nat) (w : IWord) (q : PortIx), readyWord s (205 + port.val) = some (i, w) ∧ wOp w = 0x70 ∧
      (xWord w).kind = k.val ∧ s.run.sentWords.contains i = false ∧ routeEntry s false (xWord w).peer = q.val ∧ portCarries s q (xWord w).vc = true ∧
      portOf s (xWord w).peer = some q) ∧
    (∃ (port : PortIx) (s : State) (i : Nat) (w : IWord), readyWord s (205 + port.val) = some (i, w) ∧ wOp w = 0x70 ∧ s.run.sentWords.contains i = true) ∧
    (∃ (port : PortIx) (s : State) (i : Nat) (w : IWord), readyWord s (205 + port.val) = some (i, w) ∧ wOp w = 0x70 ∧ peerLost s (xWord w) = true) ∧
    (∃ (port : PortIx) (s : State) (i : Nat) (w : IWord) (pl : Plan), readyWord s (205 + port.val) = some (i, w) ∧ wOp w = 0x70 ∧
      s.run.sentWords.contains i = false ∧ s.plane.plan = some pl ∧ inBox pl (xWord w).peer = false) := by
  let w := fun k => wordOf (xBits 0x70 k)
  let far := atWord 205 [(0, 0x70), (52, 7)]
  refine ⟨fun k => ⟨0, atExchange 0x70 k.val [], 0, w k.val, 0, ?_⟩,
    ⟨0, { atExchange 0x70 0 [] with run := { (atExchange 0x70 0 []).run with sentWords := [0] } }, 0, w 0, ?_⟩,
    ⟨0, { atExchange 0x70 0 [] with plane := { (atExchange 0x70 0 []).plane with rtNormal := [] } }, 0, w 0, ?_⟩,
    ⟨0, far, 0, wordOf [(0, 0x70), (52, 7)], plan2, ?_⟩⟩
  case refine_1 => match k with | 0 | 1 | 2 | 3 | 4 | 5 => decide +kernel
  all_goals decide +kernel

/-- The XRECV word of a KIND issues. -/
abbrev RecvHyps (kind : Nat) (s : State) (i : Nat) (w : IWord) : Prop :=
  readyWord s 205 = some (i, w) ∧ noFlight s 205 ∧ wOp w = 0x71 ∧ (xWord w).kind = kind

/-- Its message. -/
abbrev theMsg (s : State) (w : IWord) : Option InMsg :=
  s.run.inbox.find? (fun (m : InMsg) => m.src == (xWord w).peer && m.kind == (xWord w).kind && m.msg == (xWord w).msg)

theorem recv_hyps (k : Fin 6) (l : List InMsg) : RecvHyps k.val (atExchange 0x71 k.val l) 0 (wordOf (xBits 0x71 k.val)) ∧
    corePart (atExchange 0x71 k.val l) (xCore (wordOf (xBits 0x71 k.val))) = some 0 := by
  have h : ∀ j : Fin 6, (readyWord (atExchange 0x71 j.val []) 205 = some (0, wordOf (xBits 0x71 j.val)) ∧ noFlight (atExchange 0x71 j.val []) 205 ∧
      wOp (wordOf (xBits 0x71 j.val)) = 0x71 ∧ (xWord (wordOf (xBits 0x71 j.val))).kind = j.val) ∧
      corePart (atExchange 0x71 j.val []) (xCore (wordOf (xBits 0x71 j.val))) = some 0 := by decide +kernel
  exact h k

theorem test_hyps_xrecv_waits : ∀ k : Fin 6, ∃ (s : State) (i : Nat) (w : IWord), RecvHyps k.val s i w ∧ theMsg s w = none ∧
    lostSource s (xWord w).peer = false := by
  intro k
  exact ⟨atExchange 0x71 k.val [], 0, _, (recv_hyps k []).1, rfl, by match k with | 0 | 1 | 2 | 3 | 4 | 5 => decide +kernel⟩

/-- A payload longer than the window of those words. -/
def tooLong : List Byte := List.replicate 129 0

theorem test_hyps_xrecv_lost :
    (∀ k : Fin 6, ∃ (s : State) (i : Nat) (w : IWord), RecvHyps k.val s i w ∧ theMsg s w = none ∧ lostSource s (xWord w).peer = true ∧
      s.run.hw.any (fun f => faultHits s.run f.1 i) = false ∧ corePart s (xWord w).core = some 0) ∧
    (∀ k : Fin 4, ∃ (s : State) (i : Nat) (w : IWord) (m : InMsg), RecvHyps k.val s i w ∧ theMsg s w = some m ∧
      (xWord w).len < (blockTaken s i m.body).length ∧ s.run.hw.any (fun f => faultHits s.run f.1 i) = false ∧ corePart s (xWord w).core = some 0) ∧
    (∃ (s : State) (i : Nat) (w : IWord) (r : ReduceWord) (node : Nat × Nat), RecvHyps 0 s i w ∧ theMsg s w = none ∧
      lostSource s (xWord w).peer = true ∧ psumReduce s (xWord w) = some r ∧ shardNode s (s.run.segs.getD r.seg {}) (xWord w).peer = some node ∧
      tabGet [] s.clusters[clusterOf (xWord w).core].reds (xWord w).rid = [] ∧ tabWf [] s.clusters[clusterOf (xWord w).core].reds = true) := by
  refine ⟨fun k => ⟨lost (atExchange 0x71 k.val []), 0, _, (recv_hyps k []).1, rfl, ?_, rfl, ?_⟩,
    fun k => ⟨atExchange 0x71 k.val [came k.val tooLong], 0, _, came k.val tooLong, (recv_hyps (k.castLE (by decide)) _).1, ?_⟩,
    lost (atExchange 0x71 0 []), 0, _, reduceWord (wordOf [(0, 0x40), (52, 1), (108, 1)]), (0, 0), (recv_hyps 0 []).1, rfl, by decide +kernel, by decide +kernel, by decide +kernel, by decide +kernel, rfl⟩
  case refine_3 => match k with | 0 | 1 | 2 | 3 => decide +kernel
  all_goals match k with | 0 | 1 | 2 | 3 | 4 | 5 => decide +kernel

/-- A ROWS tile for the mirror: version 1, matrix A of target 0, tile 0. -/
def rowsTile : List Byte := [0, 0, 1, 0] ++ List.replicate 60 0

/-- The chip with that mirror's tiles asked of the peer. -/
def asking (l : List InMsg) : State :=
  let s := atExchange 0x71 2 l
  { s with hbm := [(6, 1), (0x45, 1), (0x48, 1), (0x4A, 64)], run := { s.run with asked := [(0, 1, 0, 1, 1)] } }

/-- The same words in a core that no partition holds. -/
def unassigned (s : State) : State := { s with cores := Vector.replicate 64 {} }

/-- A record of a message's word, with its bytes. -/
def RecvGot (kind : Nat) (c : State → Nat → IWord → List Byte → Prop) : Prop :=
  ∃ (s : State) (i : Nat) (w : IWord) (m : InMsg), RecvHyps kind s i w ∧ theMsg s w = some m ∧ c s i w (blockTaken s i m.body)

theorem test_hyps_xrecv :
    RecvGot 1 (fun s _ w b => b.length ≤ (xWord w).len ∧ Memory.wf s.cores[(xWord w).core].store = true ∧ (xWord w).addr + b.length ≤ Config.coreStoreBytes) ∧
    RecvGot 4 (fun s _ w _ => portOf s (xWord w).peer = some 0) ∧
    RecvGot 3 (fun s _ w b => corePart s (xWord w).core = some 0 ∧ b.length ≤ (xWord w).len ∧ b.length < 8) ∧
    RecvGot 3 (fun s _ w b => corePart s (xWord w).core = some 0 ∧ b.length ≤ (xWord w).len ∧ 8 ≤ b.length ∧ (slotOf s (leAt b 0 2)).rank = 0) ∧
    RecvGot 2 (fun s _ w b => corePart s (xWord w).core = some 0 ∧ b.length ≤ (xWord w).len ∧ b.length < 16) ∧
    RecvGot 2 (fun s _ w b => corePart s (xWord w).core = some 0 ∧ b.length ≤ (xWord w).len ∧ Memory.wf s.hbm = true ∧ leAt b 0 8 / 2 ^ 52 % 4 = 0 ∧
      ∃ y, askingMirrors s (xWord w).peer 0 { rowAsk b with tile := leAt b 0 8 / 2 ^ 37 % 2 ^ 15 } = [y] ∧
        let a : RowAsk := { rowAsk b with tile := leAt b 0 8 / 2 ^ 37 % 2 ^ 15 }
        let k := 2 * a.target + b2n a.matB
        let e := dirEnt s.hbm y.2.area a.target a.matB
        (k, a.tile) ∉ y.2.arrived ∧ (y.2.mirNo, k, a.tile) ∉ s.run.rowsGot ∧ a.tile < recLayers s y.2 * e.tpl ∧
        askedTileLen s (xWord w).peer a b.length = b.length ∧ rowsTileLen e.tbytes = b.length ∧ e.codes + (a.tile + 1) * e.tbytes ≤ e.scales) ∧
    RecvGot 5 (fun s _ w b => corePart s (xWord w).core = some 0 ∧ sharedDigests s 0 (xWord w).peer ≠ [] ∧
      ∀ d ∈ sharedDigests s 0 (xWord w).peer, (d.2.1, (slotOf s d.1).tag.toNat, d.2.2.toNat) ∈
        (chunk 16 (b.length / 16) b).map (fun e => (leAt e 2 2, leAt e 4 4, leAt e 8 8))) ∧
    RecvGot 5 (fun s _ w b => corePart s (xWord w).core = some 0 ∧ ∃ d, sharedDigests s 0 (xWord w).peer = [d] ∧
      (d.2.1, (slotOf s d.1).tag.toNat, d.2.2.toNat) ∉ (chunk 16 (b.length / 16) b).map (fun e => (leAt e 2 2, leAt e 4 4, leAt e 8 8)) ∧
      tabWf {} s.slots = true) := by
  let at1 := fun (k : Nat) (b : List Byte) => atExchange 0x71 k [came k b]
  let dig : List Byte := [0, 0, 1, 0, 0, 0, 0, 0, 7, 0, 0, 0, 0, 0, 0, 0]
  refine ⟨⟨at1 1 [9], 0, _, came 1 [9], (recv_hyps 1 _).1, ?_⟩, ⟨at1 4 [9], 0, _, came 4 [9], (recv_hyps 4 _).1, ?_⟩,
    ⟨at1 3 [9], 0, _, came 3 [9], (recv_hyps 3 _).1, ?_⟩, ⟨at1 3 (9 :: List.replicate 7 0), 0, _, came 3 (9 :: List.replicate 7 0), (recv_hyps 3 _).1, ?_⟩,
    ⟨at1 2 [9], 0, _, came 2 [9], (recv_hyps 2 _).1, ?_⟩,
    ⟨asking [came 2 rowsTile], 0, wordOf (xBits 0x71 2), came 2 rowsTile, ⟨by decide +kernel, by decide +kernel, rfl, rfl⟩, ?_, ?_, ?_, ?_, ?_,
      (4, { st := .building, mirror := true, owner := 1, version := 1 }), ?_⟩,
    ⟨at1 5 dig, 0, _, came 5 dig, (recv_hyps 5 _).1, ?_⟩,
    ⟨at1 5 [], 0, _, came 5 [], (recv_hyps 5 _).1, ?_, ?_, (0, 1, 7), ?_⟩⟩ <;> decide +kernel

theorem test_hyps_xrecv_unassigned : ∀ k : Fin 3, ∃ (s : State) (i : Nat) (w : IWord) (m : InMsg),
    RecvHyps (if k = 0 then 2 else if k = 1 then 3 else 5) s i w ∧ theMsg s w = some m ∧ (blockTaken s i m.body).length ≤ (xWord w).len ∧
    corePart s (xWord w).core = none := by
  intro k
  match k with
  | 0 => exact ⟨unassigned (atExchange 0x71 2 [came 2 [9]]), 0, wordOf (xBits 0x71 2), came 2 [9], by decide +kernel⟩
  | 1 => exact ⟨unassigned (atExchange 0x71 3 [came 3 [9]]), 0, wordOf (xBits 0x71 3), came 3 [9], by decide +kernel⟩
  | 2 => exact ⟨unassigned (atExchange 0x71 5 [came 5 [9]]), 0, wordOf (xBits 0x71 5), came 5 [9], by decide +kernel⟩

/-- A PSUM payload of the peer's shard, of a VERSION. -/
def psum (version : Nat) : List Byte := leBytes 16 (version + 2 ^ 39) ++ leBytes 4 0x3F800000

theorem test_hyps_psum : ∀ v : Fin 2, ∃ (s : State) (i : Nat) (w : IWord) (m : InMsg) (r : ReduceWord) (node : Nat × Nat),
    RecvHyps 0 s i w ∧ theMsg s w = some m ∧ (blockTaken s i m.body).length ≤ (xWord w).len ∧ s.run.hw.any (fun f => faultHits s.run f.1 i) = false ∧
    tabWf 0 s.run.status = true ∧ psumReduce s (xWord w) = some r ∧ r.seg < s.run.segs.length ∧
    shardNode s (s.run.segs.getD r.seg {}) (xWord w).peer = some node ∧ tabWf [] s.clusters[clusterOf (xWord w).core].reds = true ∧
    tabGet [] s.clusters[clusterOf (xWord w).core].reds (xWord w).rid = [] ∧
    let sg := s.run.segs.getD r.seg {}
    let parts := psumParts sg.rank (rankGroups sg.rank) (blockTaken s i m.body)
    (psumAgrees node sg.version parts = true ↔ v = 1) ∧
    (v = 1 → parts.flatMap (psumNodes sg.rank (clusterFirst (planRow s r.seg) (clusterOf (xWord w).core).val)) ≠ []) := by
  intro v
  refine ⟨atExchange 0x71 0 [came 0 (psum v.val)], 0, _, came 0 (psum v.val), reduceWord (wordOf [(0, 0x40), (52, 1), (108, 1)]), (0, 0), (recv_hyps 0 _).1, ?_⟩
  match v with | 0 | 1 => decide +kernel

theorem test_hyps_psum_passed :
    (∃ (s : State) (i : Nat) (w : IWord) (m : InMsg), RecvHyps 0 s i w ∧ theMsg s w = some m ∧ (blockTaken s i m.body).length ≤ (xWord w).len ∧
      s.run.hw.any (fun f => faultHits s.run f.1 i) = false ∧ tabWf 0 s.run.status = true ∧ psumReduce s (xWord w) = none) ∧
    (∃ (s : State) (i : Nat) (w : IWord) (m : InMsg) (r : ReduceWord), RecvHyps 0 s i w ∧ theMsg s w = some m ∧
      (blockTaken s i m.body).length ≤ (xWord w).len ∧ s.run.hw.any (fun f => faultHits s.run f.1 i) = false ∧ tabWf 0 s.run.status = true ∧
      psumReduce s (xWord w) = some r ∧ s.run.segs.length ≤ r.seg) := by
  let l := [came 0 [9]]
  let s0 : State := let s := atWord 205 (xBits 0x71 0); { s with run := { s.run with inbox := l } }
  let s1 : State := let s := atExchange 0x71 0 l; { s with run := { s.run with segs := [] } }
  exact ⟨⟨s0, 0, wordOf (xBits 0x71 0), came 0 [9], by decide +kernel⟩,
    s1, 0, wordOf (xBits 0x71 0), came 0 [9], reduceWord (wordOf [(0, 0x40), (52, 1), (108, 1)]), by decide +kernel⟩

/-! ### Admission and requests -/

/-- A step that runs, the admission of the next one open. -/
def admitting (closed : Bool) : State :=
  let s := running { segmented := true }
  { s with adm := { closed } }

/-- An ADMIT body with no descriptor and no candidate for a step, the last or not. -/
def admitBody (step last : Nat) : List Byte := leBytes 32 (step + last * 2 ^ 93)

theorem test_hyps_close :
    (∃ s : State, s.run.isOpen = true ∧ s.run.segmented = true ∧ s.adm.closed = false ∧ nbReached s (closeCycle s) = true ∧ admits s = true ∧ manyChips s = true) ∧
    (∃ s : State, s.run.isOpen = true ∧ s.run.segmented = true ∧ s.adm.closed = false ∧ nbReached s (closeCycle s) = true ∧ admits s = false ∧ manyChips s = false) ∧
    (∃ s : State, s.run.isOpen = true ∧ s.run.segmented = true ∧ s.adm.closed = false ∧ nbReached s (closeCycle s) = true ∧ admits s = false ∧
      s.adm.complete = false ∧ manyChips s = true ∧ admitComplete s.adm.input = true) ∧
    (∃ s : State, s.run.isOpen = false) ∧ (∃ s : State, s.run.segmented = false) ∧ (∃ s : State, s.adm.closed = true) ∧
    (∃ s : State, nbReached s (closeCycle s) = false) := by
  let s := admitting false
  exact ⟨⟨s, by decide +kernel⟩, ⟨{ s with plane := {} }, by decide +kernel⟩,
    ⟨{ s with mc := { s.mc with admitter := false }, adm := { s.adm with input := [(0, true, admitBody 1 1)] } }, by decide +kernel⟩, ⟨State.reset, rfl⟩, ⟨State.reset, rfl⟩, ⟨admitting true, rfl⟩,
    State.reset, by decide +kernel⟩

/-- The admission has something to admit: a QUEUED request of partition 0 that fits. -/
theorem test_hyps_admit : ∃ (s : State) (lists : Vector (List Nat) 16), (admitAll s lists).length = 1 ∧ ∃ f : FaceIx,
    (admitAll s lists).filter (fun a => decide (a.face = f) && !a.ringEn) ≠ [] :=
  ⟨{ partsAs { st := .keyed } with recs := [(0, { st := .queued, pleft := 1 })] }, (Vector.replicate 16 []).set 0 [0], by decide +kernel⟩

/-- A chip that is not the admitting one, its admission open or closed. -/
def apart (closed : Bool) : State := { running {} with mc := { (running {}).mc with admitter := false }, adm := { closed } }

theorem test_hyps_admit_messages : ∀ last closed : Fin 2, ∃ (m : Msg) (s : State), MsgChecked m s ∧ mKind m = 7 ∧ admits s = false ∧ s.adm.complete = false ∧
    (s.adm.closed = true ↔ closed = 1) ∧
    leAt m.body 0 8 = (nextStep s).toNat ∧
    admitComplete (s.adm.input ++ [(mMsg m, nfld (leAt m.body 0 32) 93 1 == 1, m.body)]) = (last == 1) := by
  intro last closed
  refine ⟨fromPeer (apart (closed == 1)) 7 0 0 (admitBody 1 last.val), apart (closed == 1), ?_, ?_⟩
  · match last, closed with | 0, 0 | 0, 1 | 1, 0 | 1, 1 => apply checked_of _ _ plan2 rfl <;> decide +kernel
  · match last, closed with | 0, 0 | 0, 1 | 1, 0 | 1, 1 => decide +kernel

/-- A descriptor of its bits. -/
def descOf (l : List (Nat × Nat)) : Desc := BitVec.ofNat 512 (l.map (fun x => x.2 * 2 ^ x.1)).sum

/-- The admitting chip with partitions alike, nothing running. -/
def serving (q : PartSt) (recs : Tab ReqRec) : State :=
  { inSlice { st := .up } with parts := Vector.replicate 16 q, recs }

/-- A keyed partition with 4 requests. -/
def keyedPart : PartSt := { st := .keyed, win := { reqCount := 4 } }

theorem test_hyps_refused : ∀ k ∈ [1, 2, 3, 4, 5, 6],
    (∃ (p : Part) (d : Desc), dKind d = k ∧ dPart d ≠ p) ∧
    (∃ (d : Desc) (s : State), dKind d = k ∧ admits s = false) ∧
    (∃ (d : Desc) (s : State), dKind d = k ∧ admits s = true ∧ s.parts[dPart d].st ≠ .keyed) ∧
    (∃ (d : Desc) (s : State), dKind d = k ∧ admits s = true ∧ s.parts[dPart d].st = .keyed ∧ s.parts[dPart d].presetPend ≠ none) ∧
    (∃ (f : FaceIx) (d : Desc) (s : State), dKind d = k ∧ admits s = true ∧ s.parts[dPart d].st = .keyed ∧ s.parts[dPart d].presetPend = none ∧ s.parts[dPart d].dqCred[f] = 0) := by
  intro k h
  refine ⟨⟨1, descOf [(0, k)], ?_⟩, ⟨descOf [(0, k)], State.reset, ?_⟩, ⟨descOf [(0, k)], serving {} [], ?_⟩,
    ⟨descOf [(0, k)], serving { keyedPart with presetPend := some true } [], ?_⟩, 0, descOf [(0, k)], serving { keyedPart with dqCred := Vector.replicate 2 0 } [], ?_⟩ <;>
    fin_cases h <;> decide +kernel

theorem test_hyps_fields : ∀ k ∈ [2, 3, 4, 5, 6], ∃ (f : FaceIx) (d : Desc) (s : State), dKind d = k ∧ descBounds d = true ∧
    s.parts[dPart d].dqCred[f] ≠ 0 ∧ admits s = true ∧ s.parts[dPart d].st = .keyed ∧ s.parts[dPart d].presetPend = none := by
  intro k h
  refine ⟨0, descOf [(0, k), (32, 7), (160, 0x1FFFFF)], serving keyedPart [], ?_⟩
  fin_cases h <;> decide +kernel

/-- The NEW of one token, one of output, REP 1.0. -/
def newBits (seq : Nat) : List (Nat × Nat) := [(0, 1), (16, 0xFFFF), (32, seq), (160, 1), (192, 1), (208, 1), (320, 0x3F800000)]

theorem taken_of (k : Nat) (f : FaceIx) (l : List (Nat × Nat)) (s : State)
    (h : dKind (descOf l) = k ∧ s.parts[dPart (descOf l)].dqCred[f] ≠ 0 ∧ admits s = true ∧ s.parts[dPart (descOf l)].st = .keyed ∧
      s.parts[dPart (descOf l)].presetPend = none ∧ descBounds (descOf l) = false) : DescTaken s f (descOf l) k :=
  ⟨h.1, h.2.1, h.2.2.1, h.2.2.2.1, h.2.2.2.2.1, fun _ => h.2.2.2.2.2⟩

theorem test_hyps_new :
    (∃ (f : FaceIx) (d : Desc) (s : State), DescTaken s f d 1 ∧ (dSeq d).toNat + 2 ^ 20 ≤ s.parts[dPart d].seqHigh.toNat) ∧
    (∃ (f : FaceIx) (d : Desc) (s : State) (c : Compl), DescTaken s f d 1 ∧ s.parts[dPart d].seqHigh.toNat < (dSeq d).toNat + 2 ^ 20 ∧ complOf s.parts[dPart d] (dSeq d) = some c) ∧
    (∃ (f : FaceIx) (d : Desc) (s : State), DescTaken s f d 1 ∧ s.parts[dPart d].seqHigh.toNat < (dSeq d).toNat + 2 ^ 20 ∧ complOf s.parts[dPart d] (dSeq d) = none ∧ newBounds s d = true) ∧
    (∃ (f : FaceIx) (d : Desc) (s : State) (req : Nat), DescTaken s f d 1 ∧ s.parts[dPart d].seqHigh.toNat < (dSeq d).toNat + 2 ^ 20 ∧ complOf s.parts[dPart d] (dSeq d) = none ∧
      newBounds s d = false ∧ dFork d = false ∧ dPfx d = 0 ∧ freeReq s s.parts[dPart d] = some req) := by
  refine ⟨⟨0, descOf (newBits 1), serving { keyedPart with seqHigh := 0x100001 } [], taken_of _ _ _ _ ?_, ?_⟩,
    ⟨0, descOf (newBits 1), serving { keyedPart with seqHigh := 0x100000, compl := [(1, { seq := 1, st := .live })] } [], { seq := 1, st := .live }, taken_of _ _ _ _ ?_, ?_⟩,
    ⟨0, descOf (newBits 0), serving keyedPart [], ⟨?_, ?_, ?_, ?_, ?_, fun h => absurd rfl h⟩, ?_⟩,
    ⟨0, descOf (newBits 1), serving keyedPart [], 0, taken_of _ _ _ _ ?_, ?_⟩⟩ <;> decide +kernel

/-- A running request 0 with SEQ 7. -/
def oneReq : Tab ReqRec := [(0, { st := .running, seq := 7 })]

/-- Its partition. -/
def livePart : PartSt := { keyedPart with compl := [(7, { seq := 7, st := .live })], holds := [(2, { st := .held, seq := 7 })], handles := [(5, 9)] }

/-- The chip where that SEQ has a completion record, and no record of a request. -/
def withCompl (c : Compl) : State := serving { livePart with compl := [(7, c)] } []

/-- A completion that a CANCEL gave. -/
def endedCompl (x : Fin 2) : Compl := if x = 0 then { seq := 7, st := .cancelled } else { seq := 7, st := .expired, byCancel := true }

theorem test_hyps_kinds :
    (∃ (f : FaceIx) (d : Desc) (s : State), DescTaken s f d 2 ∧ complOf s.parts[dPart d] (dRef d) = none) ∧
    (∃ (f : FaceIx) (d : Desc) (s : State) (req : Nat), DescTaken s f d 2 ∧ liveReq s (dPart d) (dRef d) = some req ∧
      (recOf s req).st = .running ∧ pendingEnd s req = false ∧ pastClose s = false ∧ s.run.acted < 4) ∧
    (∃ (f : FaceIx) (d : Desc) (s : State) (c : Compl), DescTaken s f d 2 ∧ complOf s.parts[dPart d] (dRef d) = some c ∧ c.st = .held ∧
      (holdOf s.parts[dPart d] (fld c.when_ 0 16)).st = .held ∧ (holdOf s.parts[dPart d] (fld c.when_ 0 16)).cancelled = false ∧
      holdBusy s (dPart d) (dRef d) = false) ∧
    (∀ x : Fin 2, ∃ (f : FaceIx) (d : Desc) (s : State) (c : Compl), DescTaken s f d 2 ∧ complOf s.parts[dPart d] (dRef d) = some c ∧
      if x = 0 then c.st = .cancelled else c.st = .expired ∧ c.byCancel = true) ∧
    (∃ (f : FaceIx) (d : Desc) (s : State), DescTaken s f d 3 ∧ liveReq s (dPart d) (dRef d) = none ∧ dTtl d ≤ s.parts[dPart d].force.ttlMax) ∧
    (∃ (f : FaceIx) (d : Desc) (s : State), DescTaken s f d 3 ∧ s.parts[dPart d].force.ttlMax < dTtl d) ∧
    (∃ (f : FaceIx) (d : Desc) (s : State) (req h : Nat), DescTaken s f d 3 ∧ dTtl d ≤ s.parts[dPart d].force.ttlMax ∧ liveReq s (dPart d) (dRef d) = some req ∧
      (recOf s req).st = .running ∧ (recOf s req).pleft = 0 ∧ admOf s req = none ∧ pendingEnd s req = false ∧ freeHold s.parts[dPart d] = some h) ∧
    (∃ (f : FaceIx) (d : Desc) (s : State), DescTaken s f d 4 ∧ (holdOf s.parts[dPart d] (fld (dRef d) 0 16)).st ≠ .held ∧ complOf s.parts[dPart d] (dSeq d) = none) ∧
    (∃ (f : FaceIx) (d : Desc) (s : State) (req : Nat), DescTaken s f d 4 ∧ (holdOf s.parts[dPart d] (fld (dRef d) 0 16)).st = .held ∧
      handleOf (fld (dRef d) 0 16) (holdOf s.parts[dPart d] (fld (dRef d) 0 16)) = dRef d ∧ (holdOf s.parts[dPart d] (fld (dRef d) 0 16)).seq = dSeq d ∧
      holdBusy s (dPart d) (dSeq d) = false ∧ freeReq s s.parts[dPart d] = some req) ∧
    (∃ (f : FaceIx) (d : Desc) (s : State), DescTaken s f d 5 ∧ liveReq s (dPart d) (dRef d) = none) ∧
    (∃ (f : FaceIx) (d : Desc) (s : State) (req : Nat), DescTaken s f d 5 ∧ liveReq s (dPart d) (dRef d) = some req ∧ (recOf s req).st = .running ∧
      ∀ y ∈ s.adm.taken, ¬ (y.ok = true ∧ y.req = req ∧ dKind y.desc = 5 ∧ y.step = takenStep (pastClose s) s)) ∧
    (∃ (f : FaceIx) (d : Desc) (s : State), DescTaken s f d 6 ∧ tabGet 0 s.parts[dPart d].handles (dPfx d) = 0) ∧
    (∃ (f : FaceIx) (d : Desc) (s : State), DescTaken s f d 6 ∧ dPfx d ≠ 0 ∧ tabGet 0 s.parts[dPart d].handles (dPfx d) ≠ 0 ∧
      ∀ y ∈ s.adm.taken, ¬ (y.ok = true ∧ dPart y.desc = dPart d ∧ dKind y.desc = 6 ∧ dPfx y.desc = dPfx d)) := by
  let s := serving livePart oneReq
  let d : Nat → Nat → Desc := fun k ref => descOf [(0, k), (32, 7), (96, ref)]
  refine ⟨⟨0, d 2 8, s, taken_of _ _ _ _ ?_, ?_⟩, ⟨0, d 2 7, s, 0, taken_of _ _ _ _ ?_, ?_⟩,
    ⟨0, d 2 7, withCompl { seq := 7, st := .held, when_ := 2 }, { seq := 7, st := .held, when_ := 2 }, taken_of _ _ _ _ ?_, ?_⟩,
    fun x => match x with
      | 0 => ⟨0, d 2 7, withCompl (endedCompl 0), endedCompl 0, taken_of _ _ _ _ ?_, ?_⟩
      | 1 => ⟨0, d 2 7, withCompl (endedCompl 1), endedCompl 1, taken_of _ _ _ _ ?_, ?_⟩, ⟨0, d 3 8, s, taken_of _ _ _ _ ?_, ?_⟩,
    ⟨0, descOf [(0, 3), (32, 7), (352, 1)], serving { livePart with force := { ttlMax := 0 } } oneReq, taken_of _ _ _ _ ?_, ?_⟩,
    ⟨0, d 3 7, s, 0, 0, taken_of _ _ _ _ ?_, ?_⟩, ⟨0, descOf [(0, 4), (32, 8), (96, 3)], s, taken_of _ _ _ _ ?_, ?_⟩, ⟨0, d 4 2, s, 1, taken_of _ _ _ _ ?_, ?_⟩,
    ⟨0, d 5 8, s, taken_of _ _ _ _ ?_, ?_⟩, ⟨0, d 5 7, s, 0, taken_of _ _ _ _ ?_, ?_⟩, ⟨0, d 6 0, s, taken_of _ _ _ _ ?_, ?_⟩,
    ⟨0, descOf [(0, 6), (32, 7), (240, 5)], s, taken_of _ _ _ _ ?_, ?_⟩⟩ <;> decide +kernel

/-- A step with an admission of request 0 that generates, and a report for it. -/
def reporting (reps : List Nat) : State :=
  { running { segmented := true, adms := [{ req := 0, rows := 1, gen := true, decode := true }] } with recs := [(0, { st := .running, maxNew := 9 })], adm := { reps := reps } }

/-- A report of request 0 with K rows. -/
def reportOf (k : Nat) : TokenReport := { hdr := BitVec.ofNat 128 (k * 2 ^ 22 + 2 ^ 28), toks := List.replicate 16 0 }

theorem test_hyps_reports :
    (∃ (r : TokenReport) (s : State), ((s.adm.reps.contains (tReq r) && tStep r == s.mc.step.setWidth 32) || (s.adm.prevReps.contains (tReq r) && tStep r == s.mc.step.setWidth 32 - 1)) = true) ∧
    (∃ s : State, s.run.void ≠ 0) ∧
    (∃ (r : TokenReport) (s : State) (a : Adm), ((s.adm.reps.contains (tReq r) && tStep r == s.mc.step.setWidth 32) || (s.adm.prevReps.contains (tReq r) && tStep r == s.mc.step.setWidth 32 - 1)) = false ∧
      s.run.void = 0 ∧ s.run.isOpen = true ∧ admOf s (tReq r) = some a ∧ reportOk s a r = true ∧ s.run.acted < 4) ∧
    (∃ (r : TokenReport) (s : State) (a : Adm), ((s.adm.reps.contains (tReq r) && tStep r == s.mc.step.setWidth 32) || (s.adm.prevReps.contains (tReq r) && tStep r == s.mc.step.setWidth 32 - 1)) = false ∧
      s.run.void = 0 ∧ admOf s (tReq r) = some a ∧ reportOk s a r = false) ∧
    (∃ (r : TokenReport) (s : State), ((s.adm.reps.contains (tReq r) && tStep r == s.mc.step.setWidth 32) || (s.adm.prevReps.contains (tReq r) && tStep r == s.mc.step.setWidth 32 - 1)) = false ∧
      s.run.void = 0 ∧ s.run.isOpen = false) :=
  ⟨⟨reportOf 1, reporting [0], by decide +kernel⟩, ⟨running { void := 1 }, by decide +kernel⟩,
    ⟨reportOf 1, reporting [], { req := 0, rows := 1, gen := true, decode := true }, by decide +kernel⟩,
    ⟨reportOf 2, reporting [], { req := 0, rows := 1, gen := true, decode := true }, by decide +kernel⟩, reportOf 1, State.reset, by decide +kernel⟩

/-- A partition with hold 3 in a state. -/
def holding (h : Hold) : State := { running {} with parts := Vector.replicate 16 { keyedPart with holds := [(3, h)] } }

theorem test_hyps_holds :
    (∃ (p : Part) (i : Fin 65536) (s : State), (holdOf s.parts[p] i.val).st = .moving ∧
      (∀ e ∈ namedPages (reqList s (holdOf s.parts[p] i.val).req), (pdesc s.parts[p] e.1).st = 2 ∨ ((pdesc s.parts[p] e.1).st = 1 ∧ 1 < (pdesc s.parts[p] e.1).ref)) ∧
      tabWf {} s.recs = true) ∧
    (∃ (p : Part) (i : Fin 65536) (s : State), (holdOf s.parts[p] i.val).st = .held ∧ s.run.isOpen = true ∧ (holdOf s.parts[p] i.val).expiry < s.run.openTick) ∧
    (∃ (p : Part) (i : Fin 65536) (s : State), (holdOf s.parts[p] i.val).st = .held ∧ s.run.isOpen = true ∧ s.run.openTick = (holdOf s.parts[p] i.val).expiry) ∧
    (∃ (p : Part) (i : Fin 65536) (s : State) (obj plain : List Byte), (holdOf s.parts[p] i.val).st = .restoring ∧
      (∀ e ∈ namedPages (holdOf s.parts[p] i.val).pages, (pdesc s.parts[p] e.1).st ≠ 3) ∧ openObject s.parts[p] p 2 i.val (holdOf s.parts[p] i.val).gen (holdOf s.parts[p] i.val).cold obj = some plain ∧
      tabWf {} s.parts[p].holds = true) ∧
    (∃ (p : Part) (i : Fin 65536) (s : State) (obj : List Byte), (holdOf s.parts[p] i.val).st = .restoring ∧
      (∀ e ∈ namedPages (holdOf s.parts[p] i.val).pages, (pdesc s.parts[p] e.1).st ≠ 3) ∧ openObject s.parts[p] p 2 i.val (holdOf s.parts[p] i.val).gen (holdOf s.parts[p] i.val).cold obj = none) := by
  let q : PartSt := { keyedPart with holds := [(3, { st := .restoring })] }
  exact ⟨⟨0, 3, holding { st := .moving }, by decide +kernel⟩, ⟨0, 3, holding { st := .held, expiry := 0xFFF }, by decide +kernel⟩,
    ⟨0, 3, holding { st := .held, expiry := 0x1000 }, by decide +kernel⟩,
    ⟨0, 3, holding { st := .restoring }, sealObject q 0 2 3 0 0 [], [], by decide +kernel⟩, 0, 3, holding { st := .restoring }, [], by decide +kernel⟩


/-! ### Residency -/

/-- A keyed partition with windows and one command at the front of its ring. -/
def resPart (l : List ResCmd) : PartSt :=
  { st := .keyed, win := { hbmCount := 1, coldCount := 1, slotCount := 4, tensCount := 4, reqCount := 4 }, akeys := Vector.replicate 64 (some 5),
    ckey := some 3, ikey := some 4, resq := { log2n := 4, ents := l } }

/-- The chip with that command, slots and records. -/
def cmdState (l : List ResCmd) (slots : Tab SlotEnt) (vrecs : Tab VRec) : State := { partsAs (resPart l) with slots, vrecs }

theorem front_of (c : ResCmd) (slots : Tab SlotEnt) (vrecs : Tab VRec) (h : ∀ x ∈ vrecs, x.2.sealing = false) :
    CmdFront (cmdState [c] slots vrecs) 0 c :=
  ⟨rfl, by
    have h2 : (cmdState [c] slots vrecs).parts[(0 : Part)].cold = [] := rfl
    have h3 : vrecs.any (fun x => x.2.sealing && decide ((slotOf (cmdState [c] slots vrecs) (x.1 / 4)).part = 0)) = false := by
      rw [List.any_eq_false]; intro x hx; rw [h x hx]; simp
    rw [cmdBusy, h2]; exact h3, [], rfl, by intro b x h; cases h⟩

/-- Every command, for a slot. -/
def commands (n : Nat) : List (ResCmd × Instr) :=
  [(.load n 1 0 0 848 0xFFF, .load 0), (.shload n 1 0 0 848 0xFFF, .shload 0), (.shrows n 1 0 0 848 0xFFF, .shrows 0), (.seal n, .seal 0),
    (.publish n, .publish 0), (.drop n, .drop 0), (.save n 1 0 0, .save 0), (.evict n false 0 0, .evict 0), (.mirror n 1 0 0 0 4 0 0 0, .mirror 0),
    (.setattr n true 9, .setattr 0), (.keep n, .keep 0), (.discard n, .discard 0)]

theorem test_hyps_commands :
    (∀ c ∈ commands 4, ∃ s : State, CmdFront s 0 c.1 ∧ slotIn s.parts[(0 : Part)] 4 = false) ∧
    (∀ c ∈ commands 3, ∃ (s : State) (d : ResCmd), s.parts[(0 : Part)].resq.ents.head? = some d ∧ d.ctorIdx ≠ c.1.ctorIdx) ∧
    (∃ (p : Part) (s : State), s.parts[p].st ≠ .keyed) ∧ (∃ (p : Part) (s : State), cmdBusy s p = true) := by
  refine ⟨fun c _ => ⟨cmdState [c.1] [] [], front_of c.1 [] [] (fun x h => by cases h), rfl⟩, ?_, ⟨0, State.reset, by decide⟩,
    0, cmdState [] [] [(0, { sealing := true })], by decide +kernel⟩
  intro c h
  exact ⟨cmdState [.hpset 0 0 0 0 0 0] [] [], .hpset 0 0 0 0 0 0, rfl, by fin_cases h <;> decide⟩

/-- A resident slot. -/
def residentSlot : SlotEnt := { st := .resident, rank := 4, version := 1 }

theorem test_hyps_reads : ∀ c ∈ (commands 0).take 3, ∀ slots ∈ [[], [(0, residentSlot)]], ∃ s : State, CmdFront s 0 c.1 ∧
    readOperandsOk s 0 0 1 0 0 848 0xFFF = true ∧ s.slots = slots ∧ shadowRec s 0 = none ∧ anyRec s 0 1 = none := by
  intro c hc sl hs
  refine ⟨cmdState [c.1] sl [], front_of _ _ _ (fun x h => by cases h), ?_, rfl, rfl, rfl⟩
  fin_cases hc <;> fin_cases hs <;> decide +kernel

/-- A resident slot with a record of version 1 to take a build by rows, into an area inside the HBM window and outside it. -/
theorem test_hyps_shrows : ∀ inside : Bool, ∃ (s : State) (a j : Nat), CmdFront s 0 (.shrows 0 2 a 0 848 0xFFF) ∧ readOperandsOk s 0 0 2 a 0 848 0xFFF = true ∧
    (slotOf s 0).st = .resident ∧ shadowRec s 0 = none ∧ anyRec s 0 2 = none ∧ pubRec s 0 = some j ∧
    hbmIn s.parts[(0 : Part)] a (vrecOf s 0 j).alen = inside := by
  intro b
  refine ⟨cmdState [.shrows 0 2 (if b then 0 else Config.hbmUnit - 0x400) 0 848 0xFFF] [(0, residentSlot)] [(0, { st := .published, version := 1, alen := 0x800 })],
    if b then 0 else Config.hbmUnit - 0x400, 0, front_of _ _ _ (fun x h => by rcases List.mem_singleton.1 h with rfl; rfl), ?_⟩
  cases b <;> decide +kernel

/-- A published record of version 1 and one more. -/
def twoRecs (r : VRec) : Tab VRec := [(0, { st := .published, version := 1, alen := 0x300 }), (1, r)]

theorem front_two (c : ResCmd) (sl : SlotEnt) (r : VRec) (h : r.sealing = false) : CmdFront (cmdState [c] [(0, sl)] (twoRecs r)) 0 c :=
  front_of _ _ _ (fun x hx => by rcases List.mem_cons.1 hx with rfl | hx; rfl; rcases List.mem_singleton.1 hx with rfl; exact h)

theorem test_hyps_slots :
    (∃ (s : State) (k : Nat), slotIn s.parts[(0 : Part)] 0 = true ∧ CmdFront s 0 (.seal 0) ∧ recIn s 0 (· == .building) = some k ∧ (vrecOf s 0 k).byRows = true) ∧
    (∃ (s : State) (k : Nat), CmdFront s 0 (.publish 0) ∧ recIn s 0 (· == .sealed) = some k ∧ (slotOf s 0).st = .resident ∧
      ((List.range 4).filter (fun j => (vrecOf s 0 j).st == .retained)).length < 2 ∧ (vrecOf s 0 k).pubPend = false) ∧
    (∃ (s : State) (k : Nat), CmdFront s 0 (.drop 0) ∧ shadowRec s 0 = some k ∧ (slotOf s 0).st = .resident ∧ (slotOf s 0).part = 0 ∧
      (vrecOf s 0 k).pubPend = false ∧ tabWf {} s.vrecs = true) ∧
    (∃ (s : State) (k : Nat), CmdFront s 0 (.save 0 1 63 0) ∧ (s.parts[(0 : Part)].akeys.getD 63 none).isSome = true ∧
      coldIn s.parts[(0 : Part)] 0 (imageLen s 0 (vrecOf s 0 k)) = true ∧ servingRec s 0 1 = some k ∧ (slotOf s 0).st ≠ .free ∧
      activeTensor s 0 (· == 1) = false) ∧
    (∀ sv : Bool, ∃ s : State, CmdFront s 0 (.evict 0 sv 0 0) ∧ (s.parts[(0 : Part)].akeys.getD 0 none).isSome = true ∧ coldIn s.parts[(0 : Part)] 0 0 = true ∧
      (slotOf s 0).st = .resident ∧ (∀ k, k < 4 → (vrecOf s 0 k).pins = 0) ∧ shadowRec s 0 = none ∧ activeTensor s 0 (fun _ => true) = false ∧ s.evictNext = []) ∧
    (∃ s : State, CmdFront s 0 (.mirror 0 1 0 0 0 4 0 0 0) ∧ slotFieldsOk s 4 (BitVec.ofNat 16 0) 0 = true ∧
      hbmIn s.parts[(0 : Part)] 0 (canonDir s 4 (BitVec.ofNat 16 0) (mirrorLayers 0 s).1).2 = true ∧ (slotOf s 0).st = .free) ∧
    (∃ s : State, CmdFront s 0 (.setattr 0 true 9) ∧ (slotOf s 0).st = .resident ∧ (slotOf s 0).pub = false ∧ ∀ k, k < 4 → (vrecOf s 0 k).mirror = false) ∧
    (∃ s : State, CmdFront s 0 (.setattr 0 true 9) ∧ (slotOf s 0).st = .resident ∧ (slotOf s 0).pub = true) := by
  refine ⟨⟨_, 1, ?_, front_two _ residentSlot { st := .building, byRows := true, version := 2 } rfl, ?_⟩,
    ⟨_, 1, front_two _ residentSlot { st := .sealed, version := 2 } rfl, ?_⟩,
    ⟨_, 1, front_two _ residentSlot { st := .sealed, version := 2 } rfl, ?_⟩, ⟨_, 0, front_two _ residentSlot { st := .retained, version := 2 } rfl, ?_⟩,
    fun sv => ⟨_, front_two _ residentSlot { st := .retained, version := 2 } rfl, ?_, ?_, ?_, ?_, ?_, ?_, rfl⟩, ⟨_, front_of _ [] [] (fun x h => by cases h), ?_⟩,
    ⟨_, front_two _ residentSlot { st := .retained, version := 2 } rfl, ?_⟩, ⟨_, front_two _ { residentSlot with pub := true } { st := .retained, version := 2 } rfl, ?_⟩⟩
  case refine_6 | refine_7 | refine_8 | refine_9 | refine_10 | refine_11 => cases sv <;> decide +kernel
  all_goals decide +kernel

/-! An image that opens, made without running the cipher: encryption twice with one counter is the text again. -/

theorem xor_twice (a k : List Byte) (h : a.length ≤ k.length) : xorBytes (xorBytes a k) k = a := by
  induction a generalizing k with
  | nil => rfl
  | cons x a ih => cases k with
    | nil => simp at h
    | cons y k => simp only [xorBytes, List.zipWith_cons_cons]; rw [BitVec.xor_assoc, BitVec.xor_self, BitVec.xor_zero]; exact congrArg _ (ih k (by simpa using h))

theorem xor_length (a k : List Byte) : (xorBytes a k).length = min a.length k.length := List.length_zipWith

/-- The last round key has 16 bytes. -/
def lastKeyOk (key : List Byte) : Bool := match aesKeys key with | [] => false | _ :: ks => (ks.getLastD []).length == 16

theorem aes_length (key b : List Byte) (h : lastKeyOk key = true) : (aesEnc key b).length = 16 := by
  cases e : aesKeys key with
  | nil => rw [lastKeyOk, e] at h; cases h
  | cons k ks =>
    rw [lastKeyOk, e] at h
    rw [aesEnc, e]
    dsimp only at h ⊢
    rw [xor_length, eq_of_beq h, aesShift, List.length_map, List.length_range]; rfl

theorem gctr_nil (key : List Byte) (n c : Nat) : gctr key n c [] = [] := by
  induction n generalizing c with
  | zero => rfl
  | succ n ih => rw [gctr, List.drop_nil, ih]; rfl

theorem gctr_length (key : List Byte) (h : lastKeyOk key = true) (n c : Nat) (l : List Byte) (b : l.length ≤ 16 * n) : (gctr key n c l).length = l.length := by
  induction n generalizing c l with
  | zero => cases l with
    | nil => rfl
    | cons x l => simp at b
  | succ n ih => rw [gctr, List.length_append, ih _ _ (by simp; omega), xor_length, aes_length _ _ h]; simp; omega

theorem gctr_twice (key : List Byte) (h : lastKeyOk key = true) (n c : Nat) (l : List Byte) (b : l.length ≤ 16 * n) :
    gctr key n c (gctr key n c l) = l := by
  induction n generalizing c l with
  | zero => cases l with
    | nil => rfl
    | cons x l => simp at b
  | succ n ih =>
    have xl : (xorBytes (l.take 16) (aesEnc key (beBytes 16 c))).length = min 16 l.length := by
      rw [xor_length, aes_length _ _ h, List.length_take]; omega
    have tw := xor_twice (l.take 16) (aesEnc key (beBytes 16 c)) (by rw [aes_length _ _ h, List.length_take]; omega)
    rcases Nat.lt_or_ge l.length 16 with s | s
    · have dn : l.drop 16 = [] := List.drop_eq_nil_of_le (by omega)
      have tl : l.take 16 = l := List.take_of_length_le (by omega)
      rw [gctr, gctr, dn, gctr_nil, List.append_nil, List.take_of_length_le (by omega), List.drop_eq_nil_of_le (by omega), tw, gctr_nil, List.append_nil, tl]
    · have x16 : (xorBytes (l.take 16) (aesEnc key (beBytes 16 c))).length = 16 := by omega
      have a1 : ∀ y, (xorBytes (l.take 16) (aesEnc key (beBytes 16 c)) ++ y).take 16 = xorBytes (l.take 16) (aesEnc key (beBytes 16 c)) :=
        fun y => List.take_left' x16
      have a2 : ∀ y, (xorBytes (l.take 16) (aesEnc key (beBytes 16 c)) ++ y).drop 16 = y := fun y => List.drop_left' x16
      rw [gctr, gctr, a1, a2, tw, ih _ _ (by simp; omega), List.take_append_drop]

theorem slice_left (a b : List Byte) (o n : Nat) (h : o + n ≤ a.length) : slice (a ++ b) o n = slice a o n := by
  have : ((a ++ b).drop o).take n = (a.drop o).take n := by
    rw [List.drop_append_of_le_length (by omega), List.take_append_of_le_length (by simp; omega)]
  rw [slice, slice, this]

theorem hdr_left (a b : List Byte) (h : a.length = 64) : imgHdr (a ++ b) = imgHdr a := by
  have s : ∀ o n, o + n ≤ 64 → slice (a ++ b) o n = slice a o n := fun o n k => slice_left a b o n (by omega)
  simp only [imgHdr, leAt, s 6 1 (by decide), s 7 1 (by decide), s 8 2 (by decide), s 0xA 2 (by decide), s 0xC 2 (by decide), s 0xE 2 (by decide),
    s 0x10 4 (by decide), s 0x14 1 (by decide), s 0x18 4 (by decide), s 0x20 8 (by decide), s 0x28 12 (by decide), s 0x15 3 (by decide), s 0x1C 4 (by decide), s 0x34 12 (by decide)]

/-- An image sealed under a key of the partition: header, ciphertext, tag. -/
def imageBytes (hdr ct : List Byte) : List Byte :=
  hdr ++ ct ++ gcmTag (keyBytes (5 : BitVec 256)) (slice hdr 0x28 12) hdr ct

/-- Such an image opens. -/
theorem image_opens (q : PartSt) (hdr ct : List Byte) (a : hdr.length = 64)
    (hb : leAt hdr 0 4 = 0x31564150 ∧ leAt hdr 4 2 = 1)
    (hc : (imgHdr hdr).clen = ct.length) (hk : (imgHdr hdr).key ≤ 63) (k : q.akeys.getD (imgHdr hdr).key none = some 5)
    (e : lastKeyOk (keyBytes (5 : BitVec 256)) = true) :
    openImage q (64 + ct.length + 16) (imageBytes hdr ct) = .ok (imgHdr hdr, gcmCrypt (keyBytes (5 : BitVec 256)) (slice hdr 0x28 12) ct) := by
  have be : ∀ n v, (beBytes n v).length = n := by
    intro n v; rw [beBytes, List.length_reverse]
    induction n generalizing v with
    | zero => rfl
    | succ n ih => rw [leBytes, List.length_cons, ih]
  have tl : (gcmTag (keyBytes (5 : BitVec 256)) (slice hdr 0x28 12) hdr ct).length = 16 := by rw [gcmTag, xorBytes, List.length_zipWith, be, aes_length _ _ e]; rfl
  have s1 : slice (imageBytes hdr ct) 64 ct.length = ct := slice_mid hdr ct _ 64 _ a rfl
  have s2 : slice (imageBytes hdr ct) (64 + ct.length) 16 = gcmTag (keyBytes (5 : BitVec 256)) (slice hdr 0x28 12) hdr ct := by
    have := slice_mid (hdr ++ ct) (gcmTag (keyBytes (5 : BitVec 256)) (slice hdr 0x28 12) hdr ct) [] (64 + ct.length) 16 (by simp [a]) tl
    rwa [List.append_nil] at this
  have s3 : (imageBytes hdr ct).take 64 = hdr := by rw [imageBytes, List.append_assoc, ← a, List.take_left]
  have l : ¬ (imageBytes hdr ct).length < 64 := by simp [imageBytes, a]
  have hi : imgHdr (imageBytes hdr ct) = imgHdr hdr := by rw [imageBytes, List.append_assoc]; exact hdr_left _ _ a
  have hb : leAt (imageBytes hdr ct) 0 4 = 0x31564150 ∧ leAt (imageBytes hdr ct) 4 2 = 1 := by
    rw [imageBytes, List.append_assoc, leAt, leAt, slice_left _ _ _ _ (by rw [a]; decide), slice_left _ _ _ _ (by rw [a]; decide)]; exact hb
  have iv : (imgHdr hdr).iv = slice hdr 0x28 12 := rfl
  have n : ¬ (64 + ct.length + 16 ≠ 64 + (imgHdr hdr).clen + 16 ∨ 63 < (imgHdr hdr).key) := by omega
  rw [openImage, if_neg (by simp only [hb.1, hb.2]; simp [l])]
  dsimp only
  rw [hi, if_neg n, k, hc]
  dsimp only
  rw [s1, s2, s3, iv, if_pos rfl]

/-- The header of a variant of version 1, rank 4, no target, one layer: its plaintext is its directory. -/
def imageHead : List Byte :=
  leBytes 4 0x31564150 ++ leBytes 2 1 ++ [0, 0] ++ leBytes 2 1 ++ leBytes 2 4 ++ leBytes 2 0 ++ leBytes 2 1 ++ leBytes 4 0x3F800000 ++ [0, 0, 0, 0] ++ leBytes 4 9 ++
    leBytes 4 0 ++ leBytes 8 768 ++ List.replicate 24 0

/-- Its plaintext for slot 0, and its ciphertext. -/
def imageBody : List Byte := dirBytes State.reset 1 0 4 0 1

def imageCipher : List Byte := gcmCrypt (keyBytes (5 : BitVec 256)) (slice imageHead 0x28 12) imageBody

/-- The chip that checks it. -/
def checking (len : Nat) : State :=
  { partsAs { resPart [] with cold := [.read 0 0 0 1 0 0 len 0xFFF] } with slots := [(0, { st := .loading })] }

theorem test_hyps_image_check :
    (∃ (img : List Byte) (s : State) (len : Nat) (st : CplStatus), s.parts[(0 : Part)].cold = [.read 0 0 0 1 0 0 len 0xFFF] ∧ s.parts[(0 : Part)].resq.ents = [] ∧
      tabWf {} s.slots = true ∧ openImage s.parts[(0 : Part)] len (img.take len) = .error st) ∧
    (∃ (img : List Byte) (s : State) (len : Nat) (h : ImgHdr) (plain : List Byte), s.parts[(0 : Part)].cold = [.read 0 0 0 1 0 0 len 0xFFF] ∧ s.parts[(0 : Part)].resq.ents = [] ∧
      tabWf {} s.slots = true ∧ openImage s.parts[(0 : Part)] len (img.take len) = .ok (h, plain) ∧ h.version = 1 ∧ h.kind = 0 ∧
      variantOk s 0 0 0 h plain = true) := by
  have e : lastKeyOk (keyBytes (5 : BitVec 256)) = true := by decide +kernel
  have bl : imageBody.length = 768 := by decide +kernel
  have len : imageCipher.length = 768 := by
    rw [imageCipher, gcmCrypt, bl, gctr_length _ e _ _ _ (by rw [bl]; decide), bl]
  have o := image_opens (checking 848).parts[(0 : Part)] imageHead imageCipher (by decide +kernel) (by decide +kernel)
    (by rw [len]; decide +kernel) (by decide +kernel) (by decide +kernel) e
  have p : gcmCrypt (keyBytes (5 : BitVec 256)) (slice imageHead 0x28 12) imageCipher = imageBody := by
    rw [gcmCrypt, len, imageCipher, gcmCrypt, bl, gctr_twice _ e _ _ _ (by rw [bl]; decide)]
  rw [len, p] at o
  have l : (imageBytes imageHead imageCipher).length ≤ 848 := by
    rw [imageBytes, List.length_append, List.length_append, len, show imageHead.length = 64 by decide +kernel, gcmTag, xorBytes, List.length_zipWith, aes_length _ _ e]
    exact Nat.add_le_add_left (Nat.min_le_right _ _) _
  refine ⟨⟨[], checking 848, 848, .integrity, rfl, rfl, by decide +kernel, rfl⟩, imageBytes imageHead imageCipher, checking 848, 848, imgHdr imageHead, imageBody, rfl, rfl,
    by decide +kernel, ?_, ?_, ?_, ?_⟩
  · rw [List.take_of_length_le l]; exact o
  all_goals decide +kernel

theorem test_hyps_work :
    (∃ (p : Part) (s : State), s.parts[p].cold = [.write 0 0 1 0 0 true false []] ∧ s.parts[p].resq.ents = []) ∧
    (∃ (p : Part) (s : State) (f : FreeReq), s.parts[p].freeing = [f] ∧ (slotOf s f.slot).st ≠ .evicting) ∧
    (∃ (p : Part) (s : State) (slot k : Nat), (slotOf s slot).part = p ∧ recIn s slot (· == .building) = some k ∧ (vrecOf s slot k).sealing = true ∧
      s.parts[p].resq.ents = [] ∧ touchedTiles s slot (vrecOf s slot k) = []) ∧
    (∃ (s : State) (slot j k : Nat), tabWf {} s.vrecs = true ∧ slot < 65536 ∧ j < 4 ∧ k < 4 ∧ s.residentNext = [] ∧ pubRec s slot = some j ∧
      (vrecOf s slot k).st = .sealed ∧ (vrecOf s slot k).pubPend = true ∧ ∀ i, i < 4 → i ≠ k → (vrecOf s slot i).pubPend = false) :=
  ⟨⟨0, partsAs { resPart [] with cold := [.write 0 0 1 0 0 true false []] }, rfl, rfl⟩,
    ⟨0, partsAs { resPart [] with freeing := [{ slot := 0, area := 256, len := 768 }] }, _, rfl, by decide +kernel⟩,
    ⟨0, cmdState [] [(0, residentSlot)] [(1, { st := .building, byRows := true, sealing := true })], 0, 1, by decide +kernel⟩,
    cmdState [] [(0, residentSlot)] (twoRecs { st := .sealed, version := 2, pubPend := true }), 0, 0, 1, by decide +kernel⟩


/-! ### Tensors and pages -/

/-- A tensor of the image, ACTIVE on slot 0 of rank 4, target 0, version 1, work areas in the window. -/
def tensorBits : BitVec 512 :=
  BitVec.ofNat 512 (1 + 2 ^ 32 + 2 ^ 64 + 0x3F800000 * 2 ^ 128 + 0x3F800000 * 2 ^ 160 + 0x10000 * 2 ^ 192 + 0x20000 * 2 ^ 240 + 0x30000 * 2 ^ 288 + 0x40000 * 2 ^ 336 + 0xFFF * 2 ^ 384)

/-- The chip with a tensor command and a parameter set. -/
def tensorState (c : ResCmd) (e : SlotEnt) : State :=
  { cmdState [c] [(0, e)] [(0, { st := .published, version := 1 })] with
    parts := Vector.replicate 16 { resPart [c] with hps := [(0, { valid := true })] }, epoch := some { targets := Vector.replicate 16 { din := 32, dout := 128, en := true } } }

theorem tensor_front (c : ResCmd) (e : SlotEnt) : CmdFront (tensorState c e) 0 c := ⟨rfl, rfl, [], rfl, by intro b x h; cases h⟩

theorem test_hyps_tensors :
    (∃ s : State, CmdFront s 0 (.twrite 0 0 tensorBits) ∧ (twriteCheck s 0 0 0 tensorBits).1 = .ok ∧ fld tensorBits 0 2 = 1) ∧
    (∃ s : State, CmdFront s 0 (.twrite 9 0 tensorBits) ∧ (twriteCheck s 0 9 0 tensorBits).1 ≠ .ok) ∧
    (∀ b : Bool, ∀ c ∈ [ResCmd.keep 0, .discard 0], ∃ s : State, CmdFront s 0 c ∧ slotIn s.parts[(0 : Part)] 0 = true ∧ (slotOf s 0).frozen = b) ∧
    (∃ s : State, CmdFront s 0 (.hpset 255 0 0 0 1 0) ∧ hpsetOk 255 0 0 0 1 0 = true) ∧
    (∃ s : State, CmdFront s 0 (.hpset 0 0 0x3F800000 0 1 0) ∧ hpsetOk 0 0 0x3F800000 0 1 0 = false) := by
  refine ⟨⟨_, tensor_front _ residentSlot, ?_⟩, ⟨_, tensor_front _ residentSlot, ?_⟩, fun b c _ => ⟨_, tensor_front c { residentSlot with frozen := b }, rfl, rfl⟩,
    ⟨_, tensor_front _ residentSlot, ?_⟩, ⟨_, tensor_front _ residentSlot, ?_⟩⟩ <;> decide +kernel

/-- A page command: CMD, the address of a list, DESC, COUNT. -/
def pageCmd (cmd desc count : Nat) : BitVec 256 := BitVec.ofNat 256 (cmd + desc * 2 ^ 64 + count * 2 ^ 101)

/-- The chip with that command and a page in a state, with a reference count; list 0 names the page. -/
def pageState (l : List (BitVec 256)) (st ref : Nat) : State :=
  partsAs { resPart [] with
    rccq := { log2n := 4, ents := l }, pdescs := [(1, { st, ref, addr := 0x1000, gen := 255 })], plists := [(0, { npages := 1, ents := [(1, 0)] })],
    regs := { rccdCount := 2 }, force := { rccdCount := 2 } }

theorem page_front (k c n st ref : Nat) (h : pcCmd (pageCmd k c n) = k) : PageFront (pageState [pageCmd k c n] st ref) 0 k (pageCmd k c n) :=
  ⟨rfl, h, fun d _ e => (by cases e), [], rfl, fun x y e => (by cases e)⟩

theorem test_hyps_pages :
    (∀ k ∈ [1, 2, 3, 4, 5], ∃ (s : State) (e : BitVec 256), PageFront s 0 k e ∧ pcBounds s.parts[(0 : Part)] e = false) ∧
    (∀ k ∈ [1, 2, 3, 4, 5], ∃ (s : State) (e : BitVec 256), s.parts[(0 : Part)].rccq.ents.head? = some e ∧ pcCmd e ≠ k) ∧
    (∃ (s : State) (e : BitVec 256), s.parts[(0 : Part)].rccq.ents.head? = some e ∧ s.parts[(0 : Part)].st ≠ .keyed) ∧
    (∃ (s : State) (e : BitVec 256), s.parts[(0 : Part)].rccq.ents.head? = some e ∧ ∃ d ∈ pcTouches s.parts[(0 : Part)] e, d ∈ stepPages s 0) ∧
    (∃ (s : State) (e : BitVec 256), PageFront s 0 1 e ∧ pcBounds s.parts[(0 : Part)] e = true ∧ pcTouches s.parts[(0 : Part)] e = [1] ∧
      (pdesc s.parts[(0 : Part)] 1).st = 1 ∧ (pdesc s.parts[(0 : Part)] 1).ref + 1 = 65534) ∧
    (∃ (s : State) (e : BitVec 256), PageFront s 0 1 e ∧ pcBounds s.parts[(0 : Part)] e = true ∧ pcTouches s.parts[(0 : Part)] e = [1] ∧
      65534 < (pdesc s.parts[(0 : Part)] 1).ref + 1) ∧
    (∃ (s : State) (e : BitVec 256), PageFront s 0 2 e ∧ pcBounds s.parts[(0 : Part)] e = true ∧ pcTouches s.parts[(0 : Part)] e = [1] ∧
      1 < (pdesc s.parts[(0 : Part)] 1).ref) ∧
    (∃ (s : State) (e : BitVec 256), PageFront s 0 2 e ∧ pcBounds s.parts[(0 : Part)] e = true ∧ pcTouches s.parts[(0 : Part)] e = [1] ∧
      (pdesc s.parts[(0 : Part)] 1).ref = 1 ∧ (pdesc s.parts[(0 : Part)] 1).st = 1 ∧ tabWf {} s.parts[(0 : Part)].pdescs = true) ∧
    (∀ x ∈ [(3, 1, 1), (3, 2, 1), (3, 1, 2), (4, 2, 1), (4, 1, 1), (5, 1, 1), (5, 0, 0), (5, 1, 2), (5, 3, 1)], ∃ (s : State) (e : BitVec 256), PageFront s 0 x.1 e ∧
      pcBounds s.parts[(0 : Part)] e = true ∧ (pdesc s.parts[(0 : Part)] (pcDesc e)).st = x.2.1 ∧ (pdesc s.parts[(0 : Part)] (pcDesc e)).ref = x.2.2 ∧
      tabWf {} s.parts[(0 : Part)].pdescs = true) := by
  refine ⟨fun k h => ⟨pageState [pageCmd k 2 0] 1 1, _, page_front k 2 0 1 1 ?_, ?_⟩, fun k h => ⟨pageState [pageCmd 0 2 0] 1 1, _, rfl, ?_⟩,
    ⟨{ State.reset with parts := Vector.replicate 16 { rccq := { ents := [0] } } }, 0, rfl, by decide⟩,
    ⟨{ pageState [pageCmd 5 1 0] 1 1 with run := { isOpen := true, rccTaken := [(0, 1)] } }, _, rfl, 1, ?_⟩,
    ⟨_, _, page_front 1 0 1 1 65533 rfl, ?_⟩, ⟨_, _, page_front 1 0 1 1 65534 rfl, ?_⟩, ⟨_, _, page_front 2 0 1 1 2 rfl, ?_⟩, ⟨_, _, page_front 2 0 1 1 1 rfl, ?_⟩,
    fun x h => ⟨pageState [pageCmd x.1 1 0] x.2.1 x.2.2, _, page_front x.1 1 0 x.2.1 x.2.2 ?_, ?_⟩⟩
  case refine_1 | refine_2 | refine_3 | refine_9 | refine_10 => fin_cases h <;> decide +kernel
  all_goals decide +kernel

/-- The chip with a move of page 1 under way. -/
def moveState (hold : Bool) : State :=
  let s := pageState [] 3 1
  { s with parts := Vector.replicate 16 { s.parts[(0 : Part)] with moves := [{ desc := 1, hold }] } }

theorem test_hyps_moves :
    (∃ (s : State) (m : PageMove), s.parts[(0 : Part)].moves.find? (fun m => m.desc == 1) = some m ∧ (pdesc s.parts[(0 : Part)] 1).ref ≠ 0 ∧ m.hold = true) ∧
    (∃ (s : State) (m : PageMove) (obj plain : List Byte), s.parts[(0 : Part)].moves.find? (fun m => m.desc == 1) = some m ∧ (pdesc s.parts[(0 : Part)] 1).ref ≠ 0 ∧
      m.hold = false ∧ openObject s.parts[(0 : Part)] 0 1 1 (pdesc s.parts[(0 : Part)] 1).gen (pdesc s.parts[(0 : Part)] 1).addr obj = some plain ∧ Memory.wf s.hbm = true) ∧
    (∃ (s : State) (m : PageMove) (obj : List Byte), s.parts[(0 : Part)].moves.find? (fun m => m.desc == 1) = some m ∧ (pdesc s.parts[(0 : Part)] 1).ref ≠ 0 ∧
      m.hold = false ∧ openObject s.parts[(0 : Part)] 0 1 1 (pdesc s.parts[(0 : Part)] 1).gen (pdesc s.parts[(0 : Part)] 1).addr obj = none) := by
  let m : Bool → PageMove := fun hold => { desc := 1, hold }
  exact ⟨⟨moveState true, m true, by decide +kernel⟩,
    ⟨moveState false, m false, sealObject (moveState false).parts[(0 : Part)] 0 1 1 255 0x1000 [], [], by decide +kernel⟩,
    moveState false, m false, [], by decide +kernel⟩

theorem test_hyps_handover :
    (∃ s : State, s.run.isOpen = true ∧ s.run.segmented = true ∧ s.run.checked = false ∧ s.run.void ≠ 0) ∧
    (∃ s : State, s.run.isOpen = true ∧ s.run.segmented = true ∧ s.run.checked = false ∧ s.run.void = 0 ∧ s.run.rcc = [] ∧ checkList s = [(0, [0])]) ∧
    (∃ s : State, s.run.checked = true) := by
  let s := atWord 0 []
  exact ⟨⟨running { segmented := true, void := 1 }, by decide⟩,
    ⟨{ s with run := { s.run with checked := false, rcc := [] }, epoch := some { targets := Vector.replicate 16 { typ := 1, en := true } } }, by decide +kernel⟩, s, rfl⟩


/-! ### Sessions, SPDM and MCTP -/

/-- A session of the owner of the partitions, alike. -/
def owner0 : Session := { digest := [7], mutualOk := true, established := true }

/-- A chip in use with that session as session 3. -/
def inSession (q : PartSt) (open_ : Bool) : State :=
  { inUse with sec := { wiping := false, negotiated := true, sessions := (Vector.replicate 8 none).set 3 (some owner0) }, parts := Vector.replicate 16 q, run := { isOpen := open_ } }

/-- A partition of the session's owner in a state. -/
def owned (st : PState) (key : Option (BitVec 256)) : PartSt := { st, owner := some [7], pkey := some 5, akeys := Vector.replicate 64 key }

theorem test_hyps_sessions :
    (∃ (n : Fin 8) (s : State), sessionOf s n = none) ∧
    (∃ (n : Fin 8) (s : State) (x : Session) (part : Byte) (body : List Byte), sessionOf s n = some x ∧ (decide (part.toNat < 16) && body.length == 4) = false) ∧
    (∃ (n : Fin 8) (s : State) (x : Session) (p : Part), sessionOf s n = some x ∧ (x.mutualOk = false ∨ (s.parts[p].owner == some x.digest) = false)) ∧
    (∃ (n : Fin 8) (s : State) (x : Session) (p : Part), sessionOf s n = some x ∧ x.mutualOk = true ∧ (s.parts[p].owner == some x.digest) = true ∧ s.nv.lc = .operational) ∧
    (∃ slot : Byte, decide (slot.toNat < 64) = false) ∧ (∃ body : List Byte, body.length = 4 ∧ decide (leNat body < 4) = false) ∧
    (∃ s : State, s.nv.lc ≠ .operational) :=
  ⟨⟨0, inSession {} false, rfl⟩, ⟨3, inSession {} false, owner0, 16, [], by decide +kernel⟩, ⟨3, inSession {} false, owner0, 0, by decide +kernel⟩,
    ⟨3, inSession (owned .keyed none) false, owner0, 15, by decide +kernel⟩, ⟨64, rfl⟩, ⟨[4, 0, 0, 0], rfl, rfl⟩, State.reset, by decide⟩

theorem test_hyps_effects :
    (∀ st ∈ [PState.configured, .claimed, .keyed], ∀ o : Bool, ∃ (s : State) (x : Session), sessionOf s 3 = some x ∧ x.mutualOk = true ∧ s.nv.lc = .operational ∧
      s.parts[(0 : Part)].owner = some x.digest ∧ s.parts[(0 : Part)].st = st ∧ s.parts[(0 : Part)].presetPend = none ∧ s.run.isOpen = o) ∧
    (∃ (s : State) (x : Session), sessionOf s 3 = some x ∧ x.mutualOk = true ∧ s.nv.lc = .operational ∧ s.parts[(0 : Part)].owner ≠ some x.digest) ∧
    (∃ (s : State) (k : BitVec 256) (body : List Byte), body.length = 40 ∧ s.parts[(0 : Part)].st = .keyed ∧ s.parts[(0 : Part)].akeys.getD 63 none = none ∧
      keyNamed s.parts[(0 : Part)] s 0 63 = false ∧ s.parts[(0 : Part)].pkey = some k) ∧
    (∃ s : State, s.parts[(0 : Part)].st = .keyed ∧ (s.parts[(0 : Part)].akeys.getD 63 none).isSome = true ∧ keyNamed s.parts[(0 : Part)] s 0 63 = false) ∧
    (∀ st : SliceSt, ∃ (s : State) (x : Session) (pl : Plan), sessionOf s 3 = some x ∧ x.mutualOk = true ∧ s.nv.lc = .operational ∧ s.plane.plan = some pl ∧
      pl.slowner = x.digest ∧ s.plane.st = st) := by
  refine ⟨fun st h o => ⟨inSession (owned st none) o, owner0, ?_⟩, ⟨inSession {} false, owner0, by decide +kernel⟩,
    ⟨inSession (owned .keyed none) false, 5, List.replicate 40 0, rfl, rfl, rfl, rfl, rfl⟩,
    ⟨inSession (owned .keyed (some 0)) false, by decide +kernel⟩,
    fun st => ⟨{ inSession {} false with plane := { plan := some { plan2 with slowner := [7] }, st := st } }, owner0, { plan2 with slowner := [7] }, rfl, rfl, rfl, rfl, rfl, rfl⟩⟩
  fin_cases h <;> cases o <;> decide +kernel

theorem test_hyps_part_work :
    (∃ (p : Part) (s : State), s.parts[p].st = .keying) ∧
    (∀ o i : Bool, ∃ (s : State) (p : Part), s.parts[p].st = .resetting ∧ s.parts[p].ready = false ∧ s.parts[p].presetPend = none ∧ s.run.isOpen = o ∧
      s.parts[p].toIdle = i ∧ s.cc.pendCmd = some (0x46, 1, .preset p)) ∧
    (∃ (p : Part) (s : State), s.parts[p].st ≠ .resetting ∧ s.parts[p].st ≠ .keying) ∧ (∃ (p : Part) (s : State), s.parts[p].ready = true) ∧
    (∃ (p : Part) (s : State), s.parts[p].presetPend.isSome = true) :=
  ⟨⟨0, partsAs { st := .keying }, rfl⟩,
    fun o i => ⟨{ inSession { st := .resetting, toIdle := i } o with cc := { bootph := 8, pendCmd := some (0x46, 1, .preset 5) } }, 5, rfl, rfl, rfl, rfl, rfl, rfl⟩,
    ⟨0, State.reset, by decide⟩, ⟨0, partsAs { ready := true }, rfl⟩, 0, partsAs { presetPend := some true }, rfl⟩

theorem test_hyps_spdm :
    (∃ s : State, 4 ≤ s.cc.bootph ∧ s.cc.bootph ≤ 8 ∧ spdmOpen s = false) ∧
    (∃ (s : State) (k : BitVec 384), spdmOpen s = true ∧ s.sec.negotiated = true ∧ s.nv.idkey = some k) ∧
    (∀ i ∈ [1, 2, 3, 4, 5, 16, 31], ∃ (s : State) (b : List Byte), spdmOpen s = true ∧ measurement s i = some b) ∧
    (∃ s : State, spdmOpen s = true ∧ s.sec.negotiated = true ∧ ∀ n : Fin 8, s.sec.sessions[n].isSome = true) ∧
    (∃ (s : State) (n : Fin 8), spdmOpen s = true ∧ s.sec.negotiated = true ∧ s.sec.sessions[n] = none ∧ ∀ m : Fin 8, m < n → s.sec.sessions[m].isSome = true) ∧
    (∃ (s : State) (n : Fin 8) (x : Session), spdmOpen s = true ∧ s.sec.sessions[n] = some x) ∧
    (∃ s : State, mctpOpen s = true) ∧ (∃ s : State, mctpOpen s = false) := by
  let s := inSession {} false
  refine ⟨⟨atPhase 4, by decide⟩, ⟨s, 1, by decide +kernel⟩, fun i h => ⟨s, ?_⟩,
    ⟨{ s with sec := { s.sec with sessions := Vector.replicate 8 (some owner0) } }, by decide +kernel⟩, ⟨s, 0, rfl, rfl, rfl, by decide⟩, ⟨s, 3, owner0, by decide +kernel⟩,
    ⟨atPhase 2, by decide⟩, State.reset, by decide⟩
  fin_cases h <;> exact ⟨_, rfl, rfl⟩


/-! ### Management commands -/

/-- A chip in use that answers management commands, in a life-cycle state. -/
def managed (lc : LifeCycle) : State := { inUse with nv := { inUse.nv with lc }, sec := { wiping := false } }

theorem fresh_managed (s : State) (h : cmdOpen s = true) (l : s.cc.lastSeq = 0) : MgmtFresh 1 s := ⟨h, by decide, by rw [l]; decide⟩

/-- The chip in a slice under management, its partitions alike. -/
def sliced (st : SliceSt) (q : PartSt) : State :=
  { managed .operational with parts := Vector.replicate 16 q, plane := { st, plan := some plan2, coordOk := true, grant := some (0, 8) } }

theorem test_hyps_mgmt_requests :
    (∃ s : State, cmdOpen s = false) ∧ (∃ s : State, cmdOpen s = true ∧ s.cc.lastSeq ≠ 0) ∧ (∃ (q : BitVec 16) (s : State), MgmtFresh q s ∧ s.cc.pendCmd.isSome = true) :=
  ⟨⟨State.reset, rfl⟩, ⟨{ managed .blank with cc := { bootph := 8, lastSeq := 9 } }, by decide +kernel⟩,
    1, { managed .blank with cc := { bootph := 8, pendCmd := some (0x12, 3, .fwEnd) } }, fresh_managed _ rfl rfl, rfl⟩

theorem test_hyps_mgmt_refused :
    (∃ (s : State) (l : List Byte), MgmtFresh 1 s ∧ l.length ≠ 48) ∧ (∃ (s : State) (l : List Byte), MgmtFresh 1 s ∧ l.length = 48 ∧ s.nv.lc = .retired ∧ s.cc.slotImage = none) ∧
    (∃ s : State, MgmtFresh 1 s ∧ s.cc.slotSt = .staging ∧ s.cc.slotLen < 0 + 1) ∧ (∃ s : State, MgmtFresh 1 s ∧ (s.plane.plan.isNone || s.plane.st == .drained || s.mc.fenced) = false) ∧
    (∃ s : State, MgmtFresh 1 s ∧ s.parts.toList.all (fun p => p.st == .idle) = false) ∧
    (∃ (s : State) (x y : BitVec 64), MgmtFresh 1 s ∧ notOperational s = false ∧ mayStart s x y = false ∧ s.plane.plan.isNone = true ∧ s.epochPend.isNone = true) ∧
    (∃ (s : State) (n : Nat), MgmtFresh 1 s ∧ n ≤ 7 ∧ notOperational s = false ∧ slotSelected s n = true) ∧ (∃ s : State, MgmtFresh 1 s ∧ notOperational s = true) ∧
    (∃ (s : State) (n : Nat) (win : Windows), MgmtFresh 1 s ∧ (List.finRange 16).any (fun p => decide (p ≠ Fin.ofNat 16 n) && windowsMeet win s.parts[p].win) = true) ∧
    (∃ (s : State) (n : Nat) (win : Windows), MgmtFresh 1 s ∧ (List.finRange 16).any (fun p => decide (p ≠ Fin.ofNat 16 n) && windowsMeet win s.parts[p].winNext) = true) ∧
    (∃ win : Windows, 0 < win.coldCount ∧ win.coldBase = 0) ∧ (∃ win : Windows, win.slotCount = 0xFFFF) ∧
    (∃ s : State, MgmtFresh 1 s ∧ notOperational s = false ∧ s.plane.plan.isNone = false ∧ s.plane.leaving = true) ∧
    (∃ s : State, MgmtFresh 1 s ∧ notOperational s = false ∧ (s.parts.getD 15 {}).st = .keyed ∧ (s.parts.getD 15 {}).presetPend.isSome = true) ∧
    (∃ s : State, MgmtFresh 1 s ∧ notOperational s = false ∧ (s.parts.getD 15 {}).st = .keyed ∧ ringRoom (s.parts.getD 15 {}).resq = 0) ∧
    (∃ s : State, MgmtFresh 1 s ∧ (sliceActive s && !mayWipe s) = true) ∧ (∃ s : State, MgmtFresh 1 s ∧ (s.nv.lc != .service) = true) ∧
    (∀ lc ∈ [LifeCycle.blank, .provisioned, .operational, .service, .retired], ∃ s : State, MgmtFresh 1 s ∧ s.cc.pendCmd = none ∧ s.nv.lc = lc) ∧
    (∃ s : State, MgmtFresh 1 s ∧ s.cc.pendCmd = none ∧ s.nv.lc = .operational ∧ mayWipe s = false) ∧
    (∃ (s : State) (x y : BitVec 64), MgmtFresh 1 s ∧ notOperational s = false ∧ s.plane.plan.isSome = true ∧ y.toNat = 448 ∧ Config.coldUnit < x.toNat + y.toNat) :=
  ⟨⟨managed .blank, [], fresh_managed _ rfl rfl, by decide⟩, ⟨managed .retired, List.replicate 48 0, fresh_managed _ rfl rfl, rfl, rfl, rfl⟩,
    ⟨{ managed .blank with cc := { bootph := 8, slotSt := .staging } }, fresh_managed _ rfl rfl, by decide +kernel⟩, ⟨sliced .active {}, fresh_managed _ rfl rfl, rfl⟩,
    ⟨sliced .forming { st := .configured }, fresh_managed _ rfl rfl, by decide +kernel⟩, ⟨managed .operational, 0, 0, fresh_managed _ rfl rfl, rfl, rfl, rfl, rfl⟩,
    ⟨{ managed .operational with run := { isOpen := true, pslot := 7 } }, 7, fresh_managed _ rfl rfl, by decide, rfl, rfl⟩, ⟨managed .blank, fresh_managed _ rfl rfl, rfl⟩,
    ⟨sliced .forming { win := { reqBase := 0, reqCount := 8 } }, 15, { reqBase := 7, reqCount := 1 }, fresh_managed _ rfl rfl, by decide +kernel⟩,
    ⟨sliced .forming { winNext := { reqBase := 0, reqCount := 8 } }, 15, { reqBase := 7, reqCount := 1 }, fresh_managed _ rfl rfl, by decide +kernel⟩,
    ⟨{ coldCount := 1 }, by decide⟩, ⟨{ slotCount := 0xFFFF }, rfl⟩,
    ⟨{ sliced .active {} with plane := { (sliced .active {}).plane with leaving := true } }, fresh_managed _ rfl rfl, rfl, rfl, rfl⟩,
    ⟨sliced .active { st := .keyed, presetPend := some true }, fresh_managed _ rfl rfl, rfl, rfl, rfl⟩, ⟨sliced .forming { st := .keyed }, fresh_managed _ rfl rfl, rfl, rfl, rfl⟩, ⟨sliced .draining {}, fresh_managed _ rfl rfl, by decide +kernel⟩,
    ⟨managed .blank, fresh_managed _ rfl rfl, rfl⟩, fun lc _ => ⟨managed lc, fresh_managed _ rfl rfl, rfl, rfl⟩, ⟨sliced .split {}, fresh_managed _ rfl rfl, rfl, rfl, by decide +kernel⟩,
    sliced .active {}, BitVec.ofNat 64 Config.coldUnit, 448, fresh_managed _ rfl rfl, rfl, rfl, rfl, by decide +kernel⟩

theorem test_hyps_queries :
    (∃ s : State, 2 ≤ s.cc.bootph) ∧ (∃ s : State, 9 ≤ s.cc.bootph) ∧ (∃ s : State, wipeRuns s = true) ∧ (∃ s : State, cmdOpen s = true ∧ rwlOpen s = true ∧ s.plane.st = .none) ∧
    mgmtReads (managed .blank) 0x0E 0x20 0 = false ∧ mgmtReads (managed .blank) 0 0xFFC 0 = true ∧
    (∃ (s : State) (o : Nat) (b : List Byte), cmdOpen s = true ∧ b.length = 1024 ∧ s.nv.lc ≠ .retired ∧ s.cc.slotSt = .staging ∧ o + b.length ≤ s.cc.slotLen ∧ s.cc.pendCmd = none ∧
      Memory.wf s.cc.slotBytes = true) ∧
    (∃ (s : State) (f : FwImage), cmdOpen s = true ∧ s.cc.slotImage = some f ∧ s.nv.lc ≠ .retired ∧ s.cc.bootph = 8 ∧ outOfSlice s = true) ∧
    (∃ (s : State) (f g : FwImage) (e : Epoch) (z n : BitVec 64), cmdOpen s = true ∧ s.cc.slotImage = some f ∧ s.nv.lc ≠ .retired ∧ s.cc.bootph = 8 ∧ n ≠ 0 ∧
      s.plane.plan.isSome = true ∧ s.epochPend = some (e, z) ∧ e.num = n ∧ s.cc.image = some g ∧ g.abi = f.abi) :=
  ⟨⟨atPhase 2, by decide⟩, ⟨atPhase 10, by decide⟩, ⟨{ atPhase 4 with sec := { wiping := true } }, rfl⟩, ⟨managed .provisioned, rfl, rfl, rfl⟩, rfl, rfl,
    ⟨{ managed .blank with cc := { bootph := 8, slotSt := .staging, slotLen := 1024 } }, 0, List.replicate 1024 0, rfl, List.length_replicate, by decide, rfl, by decide +kernel, rfl, rfl⟩,
    ⟨{ managed .blank with cc := { bootph := 8, slotImage := some {} } }, {}, rfl, rfl, by decide, rfl, rfl⟩,
    { sliced .active {} with cc := { bootph := 8, slotImage := some {}, image := some {} }, epochPend := some ({ num := 1 }, 7) }, {}, {}, { num := 1 }, 7, 1, rfl, rfl, by decide, rfl,
    by decide, rfl, rfl, rfl, rfl, rfl⟩

theorem test_hyps_slices :
    (∃ s : State, MgmtFresh 1 s ∧ notOperational s = false ∧ ∀ p : Part, s.parts[p].st = .idle) ∧
    (∃ (s : State) (c l : BitVec 64), MgmtFresh 1 s ∧ notOperational s = false ∧ s.cc.pendCmd = none ∧ stagingBad c l = false ∧ c.toNat + l.toNat = Config.coldUnit ∧ mayWipe s = true ∧
      s.plane.grant.isSome = true) ∧
    (∀ o f : Bool, ∃ s : State, MgmtFresh 1 s ∧ notOperational s = false ∧ s.plane.plan.isSome = true ∧ s.plane.leaving = false ∧ s.run.isOpen = o ∧ s.mc.fenced = f) ∧
    (∃ (s : State) (n t : BitVec 64), MgmtFresh 1 s ∧ notOperational s = false ∧ mayStart s n t = true) ∧
    (∃ (s : State) (i : PortIx), MgmtFresh 1 s ∧ s.plane.plan.isSome = true ∧ s.ports[i].en = true ∧ s.ports[i].st = .down) ∧
    (∃ s : State, MgmtFresh 1 s ∧ s.plane.plan.isSome = true ∧ s.epochPend.isSome = true) ∧
    (∃ s : State, sliceActive s = true ∧ mayWipe s = true) ∧ (∃ s : State, sliceActive s = false) := by
  refine ⟨⟨managed .operational, fresh_managed _ rfl rfl, rfl, by decide +kernel⟩,
    ⟨{ managed .operational with plane := { grant := some (0, 1) } }, BitVec.ofNat 64 (Config.coldUnit - 448), 448, fresh_managed _ rfl rfl, rfl, rfl, by decide +kernel, by decide +kernel, rfl, rfl⟩,
    fun o f => ⟨{ sliced .active {} with run := { isOpen := o }, mc := { fenced := f } }, fresh_managed _ rfl rfl, rfl, rfl, rfl, rfl, rfl⟩,
    ⟨{ sliced .forming {} with mc := { locked := true }, epochPend := some ({ num := 5 }, 0), progs := Vector.replicate 8 (some { epoch := 5 }), ports := Vector.replicate 6 { st := .held } },
      0, 1000000, fresh_managed _ rfl rfl, rfl, by decide +kernel⟩,
    ⟨{ sliced .active {} with ports := Vector.replicate 6 { st := .down, en := true } }, 5, fresh_managed _ rfl rfl, rfl, rfl, rfl⟩,
    ⟨{ sliced .active {} with epochPend := some ({}, 9) }, fresh_managed _ rfl rfl, rfl, rfl⟩,
    ⟨{ sliced .split {} with mc := { fenced := true } }, by decide +kernel⟩, State.reset, rfl⟩

/-- The bytes of a plan of two chips in a row, whose identities are 48 bytes of 1 and of 3. -/
def rowPlan : List Byte :=
  leBytes 8 0x1314C5050 ++ leBytes 8 1 ++ leBytes 16 0x1042 ++ leBytes 24 0x500000000000000007 ++ leBytes 8 0x1000 ++ List.replicate 48 2
    ++ List.replicate 144 0 ++ List.replicate 48 1 ++ List.replicate 16 0 ++ List.replicate 48 3 ++ List.replicate 16 0

/-- A chip with an identity, whose admission by those bytes is being decided. -/
def planning (id : Byte) : State :=
  { managed .operational with nv := { (managed .operational).nv with iddig := List.replicate 48 id }, cc := { bootph := 8, pendCmd := some (0x31, 1, .sliceAdmit 384 (sha384 rowPlan)) } }

theorem test_plan_admitted : planStatus (planning 1) (sha384 rowPlan) rowPlan = 0 ∧ planStatus (planning 3) (sha384 rowPlan) rowPlan = 0 := by decide +kernel
theorem test_plan_refused : planStatus (planning 1) [] rowPlan = 4 := by decide +kernel
theorem test_hyps_plan :
    let pl := planOf rowPlan
    rootOf pl = planCoord (planning 3) pl ∧ rootOf pl ≠ planCoord (planning 1) pl ∧ (planning 1).plane.plan = none ∧ boxNeigh pl (planCoord (planning 1) pl) 5 = none ∧
    (List.finRange 6).any (fun i => match boxNeigh pl (planCoord (planning 1) pl) i with | some n => (planAt pl n).isSome && (planAt pl (planCoord (planning 1) pl)).isSome | none => false) = true := by
  decide +kernel

/-- The bytes of an epoch block without enabled descriptors. -/
def emptyEpoch : List Byte := leBytes 8 0x000131504550 ++ leBytes 8 9 ++ leBytes 8 65534 ++ List.replicate 424 0

theorem test_hyps_epoch :
    (∃ (s : State) (c l n : BitVec 64) (d : List Byte), MgmtFresh 1 s ∧ notOperational s = false ∧ s.plane.plan.isSome = true ∧ s.plane.grant.isSome = true ∧ stagingBad c l = false ∧
      l.toNat = 448 ∧ emptyEpoch.length = 448 ∧ leAt emptyEpoch 0 4 = 0x31504550 ∧ leAt emptyEpoch 4 2 = 1 ∧ sha384 emptyEpoch = d ∧
      epochFits (mgmtHeard s) (epochOf emptyEpoch) = true ∧ s.mc.eLast.isSome = true ∧ s.mc.step.toNat < n.toNat) ∧
    (∃ s : State, s.mc.eLast.isSome = false) ∧ (∃ (s : State) (i : PortIx), s.sec.lkey.isSome = true ∧ s.ports[i].keys ≠ [] ∧ ∀ x ∈ s.ports[i].keys.take 1, x.epoch ≠ (epochOf emptyEpoch).num.toNat) :=
  ⟨⟨{ sliced .active {} with mc := { eLast := some 0 } }, 0, 448, 1, _, fresh_managed _ rfl rfl, rfl, rfl, rfl, by decide +kernel, rfl, by decide +kernel, by decide +kernel, by decide +kernel, rfl,
    by decide +kernel, rfl, by decide⟩, ⟨State.reset, rfl⟩, { inSlice { keys := [{ txKey := 1 }] } with sec := { lkey := some 1 } }, 5, rfl, by decide, by decide +kernel⟩

/-- The bytes of the smallest program: one segment of one END word, of epoch 5. -/
def endProgram : List Byte :=
  leBytes 256 (0x31454150 + 2 ^ 32 + 0xB0 * 2 ^ 48 + 5 * 2 ^ 64 + 2 ^ 128 + 2 ^ 160 + 100000 * 2 ^ 192 + 256 * 2 ^ 1024 + 512 * 2 ^ 1088 + 512 * 2 ^ 1152 + 512 * 2 ^ 1216)
    ++ leBytes 256 (2 ^ 20 + 215 * 2 ^ 41) ++ leBytes 64 (2 + 0x3FF * 2 ^ 36)

theorem test_program_loads :
    loadStatus { State.reset with epoch := some { num := 5, guard := 0x1000 } } (sha384 endProgram) endProgram = 0 := by decide +kernel
theorem test_program_refused : loadStatus { State.reset with epoch := some { num := 6, guard := 0x1000 } } (sha384 endProgram) endProgram = 6 := by decide +kernel

theorem test_hyps_programs :
    (∃ (s : State) (k : PSlot) (c l : BitVec 64), MgmtFresh 1 s ∧ notOperational s = false ∧ s.cc.pendCmd = none ∧ stagingBad c l = false ∧ l.toNat = 25165824 ∧
      s.plane.grant.isSome = true ∧ slotSelected s k.val = false) ∧
    (∀ o : Bool, ∃ (s : State) (k : PSlot) (d : List Byte), MgmtFresh 1 s ∧ notOperational s = false ∧ s.cc.pendCmd = some (0x38, 1, .progLoad k 576 d) ∧ slotSelected s k.val = o ∧
      loadStatus s d [] ≠ 0 ∧ loadStatus s d [] ≠ 7) ∧
    (∃ (s : State) (c l : BitVec 64), MgmtFresh 1 s ∧ notOperational s = false ∧ s.cc.pendCmd = none ∧ stagingBad c l = false ∧ 25165824 < l.toNat) ∧
    (∃ (s : State) (k : PSlot) (c l : BitVec 64), MgmtFresh 1 s ∧ notOperational s = false ∧ s.cc.pendCmd = none ∧ stagingBad c l = false ∧ l.toNat ≤ 25165824 ∧
      s.plane.grant.isSome = true ∧ slotSelected s k.val = true) :=
  ⟨⟨sliced .active {}, 7, 0, 25165824, fresh_managed _ rfl rfl, rfl, rfl, by decide +kernel, rfl, rfl, rfl⟩,
    fun o => ⟨{ sliced .active {} with cc := { bootph := 8, pendCmd := some (0x38, 1, .progLoad 0 576 []) }, run := { isOpen := o } }, 0, [], fresh_managed _ rfl rfl, rfl, rfl,
      by cases o <;> rfl, by cases o <;> decide +kernel, by cases o <;> decide +kernel⟩,
    ⟨sliced .active {}, 0, 25165825, fresh_managed _ rfl rfl, rfl, rfl, by decide +kernel, by decide⟩,
    { sliced .active {} with run := { isOpen := true } }, 0, 0, 576, fresh_managed _ rfl rfl, rfl, rfl, by decide +kernel, by decide, rfl, rfl⟩

theorem test_hyps_operator :
    (∃ (s : State) (w : Windows), MgmtFresh 1 s ∧ notOperational s = false ∧ s.plane.plan.isSome = true ∧ s.parts[(3 : Part)].st = .idle ∧ windowsIn ((s.plane.grant.map Prod.snd).getD 0) w = true ∧
      (∀ o : Part, o ≠ 3 → windowsMeet w s.parts[o].win = false ∧ windowsMeet w s.parts[o].winNext = false)) ∧
    (∀ st ∈ [PState.configured, .claimed, .keyed], ∀ o : Bool, ∃ s : State, MgmtFresh 1 s ∧ notOperational s = false ∧ s.parts[(3 : Part)].st = st ∧ s.parts[(3 : Part)].presetPend = none ∧
      s.cc.pendCmd = none ∧ s.run.isOpen = o) ∧
    (∃ (s : State) (e : ResCmd), MgmtFresh 1 s ∧ notOperational s = false ∧ s.parts[(3 : Part)].st = .keyed ∧ s.parts[(3 : Part)].presetPend = none ∧ s.parts[(3 : Part)].resq.log2n ≠ 0 ∧
      s.parts[(3 : Part)].resq.ents.length < 2 ^ s.parts[(3 : Part)].resq.log2n ∧ (∀ x ∈ s.parts[(3 : Part)].resq.ents ++ [e], ∀ b, x ≠ .reserved b)) := by
  refine ⟨⟨sliced .active {}, { hbmBase := 2, hbmCount := 1022, coldBase := 1, coldCount := 7, slotCount := 65534, ringCount := 16384 }, fresh_managed _ rfl rfl, rfl, rfl, rfl, by decide +kernel, by decide +kernel⟩,
    fun st _ o => ⟨{ sliced .active { st } with run := { isOpen := o } }, fresh_managed _ rfl rfl, rfl, rfl, rfl, rfl, rfl⟩,
    ⟨sliced .active { st := .keyed, resq := { log2n := 4, ents := [] } }, .keep 3, fresh_managed _ rfl rfl, rfl, rfl, rfl, ?_, ?_, ?_⟩⟩
  · decide
  · decide
  · intro x h b; have := List.mem_singleton.1 h; subst this; simp

theorem test_hyps_resets :
    (∀ d ∈ [true, false], ∃ s : State, MgmtFresh 1 s ∧ s.cc.bootph = 8 ∧ sliceActive s = d ∧ (d = true → mayWipe s = true)) ∧
    (∃ (s : State) (i : PortIx), MgmtFresh 1 s ∧ s.cc.bootph = 8 ∧ s.ports[i].st ≠ .up ∧ s.ports[i].en = true ∧ s.ports[i].st ≠ .border ∧ s.plane.plan.isSome = true) ∧
    (∃ s : State, MgmtFresh 1 s ∧ s.cc.bootph = 8 ∧ (s.cc.restartSteps.filter (fun x => decide (s.mc.step.toNat < x.toNat + 1000))).length = 3) ∧
    (∃ s : State, MgmtFresh 1 s ∧ s.cc.bootph = 8 ∧ s.nv.lc = .service ∧ s.cc.pendCmd = none) := by
  refine ⟨fun d h => ?_, ⟨{ sliced .active {} with ports := Vector.replicate 6 { st := .down, en := true } }, 5, fresh_managed _ rfl rfl, rfl, by decide, rfl, by decide, rfl⟩,
    ⟨{ managed .blank with cc := { bootph := 8, restartSteps := [1, 2, 3] } }, fresh_managed _ rfl rfl, rfl, by decide +kernel⟩, managed .service, fresh_managed _ rfl rfl, rfl, rfl, rfl⟩
  cases d
  · exact ⟨managed .blank, fresh_managed _ rfl rfl, rfl, rfl, by decide⟩
  · exact ⟨{ sliced .split {} with mc := { fenced := true } }, fresh_managed _ rfl rfl, rfl, by decide +kernel, fun _ => by decide +kernel⟩

/-! ### The register space -/

/-- A chip with its 16 partitions KEYED and alike, whose requesters have selected channel n of every page. -/
def keyedRegs (q : PartSt) (n : Nat) : State :=
  { managed .operational with parts := Vector.replicate 16 { q with st := .keyed },
                              regs := { State.reset.regs with reqs := Vector.replicate 17 { chsel := if n = 0 then [] else (List.range 32).map (fun k => (k, n)) } } }

theorem test_hyps_reg_reads :
    (∃ (r : Requester) (s : State), readRefused s r 0 2 = some .access) ∧ (∃ (r : Requester) (p : Part) (s : State), r.val = p.val + 1 ∧ (17 : Nat) ≠ 16 + p.val ∧ readRefused s r 17 0 = some .partition) ∧
    (∃ (r : Requester) (s : State), readRefused s r 0 0xFFC = none) ∧ pairHi 0x1F 0x238 = some 0x23C ∧ pairHi 0 0 = none ∧
    (∃ (r : Requester) (s : State), readRefused s r 0x1F 0x238 = none ∧ readRefused s r 0x1F 0x23C = none) :=
  ⟨⟨16, State.reset, rfl⟩, ⟨1, 0, State.reset, by decide⟩, ⟨16, State.reset, rfl⟩, rfl, rfl, 16, State.reset, rfl, rfl⟩

theorem test_hyps_write_causes :
    (∃ (r : Requester) (s : State), writeCause s r 0 2 = some .access) ∧ (∃ (r : Requester) (s : State), writeCause s r 0x1F 0x10C = some .partition) ∧
    (∃ (r : Requester) (s : State), writeCause s r 0x10 0x10C = some .state) ∧ configReg 0x10 0x108 = true ∧ indexReg 0x10 0x10C = true ∧
    (∃ s : State, writeCause s 0 1 0x30 = some .state) :=
  ⟨⟨16, State.reset, rfl⟩, ⟨1, keyedRegs {} 0, by decide +kernel⟩, ⟨1, managed .blank, by decide +kernel⟩, rfl, rfl, { managed .blank with sec := { wiping := true } }, by decide +kernel⟩

theorem test_hyps_writes :
    (∃ s : State, ∀ page : Fin 32, writeCause s 0 page.val 0x18 = none ∧ writeCause s 0 page.val 0x10 = none ∧ 0 < channels page.val) ∧
    fld (0xFFFF : Word) 0 16 = 65535 ∧ (∃ s : State, writeCause s 1 0 0xA4 = none ∧ writeCause s 1 0xF 0x24 = none ∧ writeCause s 0 1 0x30 = none ∧ writeCause s 0 8 0x28 = none ∧
      s.seg.tagsAddr.toNat + 8 * fld (0x10000 : Word) 0 17 ≤ 2 ^ 29) ∧
    (∀ i ∈ [0, 2, 9, 19], ∃ s : State, writeCause s 0 4 0x80 = none ∧ chanOf s.regs.reqs[(0 : Requester)] 4 = i ∧
      ∀ n : CoreIx, n.val / 8 = i - 2 → s.cores[n].part = 0x1F ∧ s.cores[n].partNext = 0x1F) ∧
    (∃ s : State, writeCause s 0 0xD 0x84 = none ∧ chanOf s.regs.reqs[(0 : Requester)] 0xD = 63 ∧ ∀ a : Fin 4, bypCause (fusedCols s (4 * 63 + a.val)) (bypField 0 a.val) = none) ∧
    (∃ (r : Requester) (s : State), writeCause s r (16 + 15) 0x3C = none ∧ writeCause s r (16 + 15) 0x5C = none ∧ writeCause s r (16 + 15) 0x60 = none ∧ otherCaps s 15 + fld (4096 : Word) 0 13 ≤ 4096) ∧
    (∃ (r : Requester) (s : State), writeCause s r (16 + 15) 0x3C = none ∧ 4096 < otherCaps s 15 + fld (1 : Word) 0 13) ∧
    (∃ v : Word, fld v 8 8 ≤ fld v 0 8 ∧ fld v 0 8 = fld v 16 8 ∧ fld v 16 8 = 64) ∧ fld (65534 : Word) 0 16 = 65534 ∧
    (∃ s : State, ∀ f : FaceIx, pageBusy s (facePage f).val = false) ∧ (∃ (r : Requester) (s : State), writeCause s r 0xE 0x20 = none) := by
  refine ⟨⟨managed .operational, by decide +kernel⟩, by decide, ⟨keyedRegs { win := { tensCount := 1 } } 0, by decide +kernel⟩, fun i h => ?_, ⟨keyedRegs {} 63, ?_⟩, ⟨16, keyedRegs { regs := { segCap := 0 } } 0, by decide +kernel⟩,
    ⟨16, keyedRegs { regs := { segCap := 4096 } } 0, by decide +kernel⟩, ⟨0x404040, by decide⟩, by decide, ⟨managed .blank, by decide +kernel⟩, 0, managed .blank, by decide +kernel⟩
  · fin_cases h
    · exact ⟨keyedRegs {} 0, by decide +kernel⟩
    · exact ⟨keyedRegs {} 2, by decide +kernel⟩
    · exact ⟨keyedRegs {} 9, by decide +kernel⟩
    · exact ⟨keyedRegs {} 19, by decide +kernel⟩
  · exact ⟨by decide +kernel, by decide +kernel, by decide +kernel⟩

theorem test_hyps_rings :
    (∃ (r : Requester) (s : State) (l : List ResCmd), writeCause s r 0x10 0x10C = none ∧ (∀ x ∈ s.parts[(0 : Part)].resq.ents ++ l, ∀ b, x ≠ .reserved b) ∧
      s.parts[(0 : Part)].resq.log2n ≠ 0 ∧ 1 ≤ 2 ^ s.parts[(0 : Part)].resq.log2n ∧ 1 = s.parts[(0 : Part)].resq.ents.length + l.length ∧
      (fld (1 : Word) 0 16 + 65536 - s.parts[(0 : Part)].resq.rd.toNat) % 65536 = 1) ∧
    (∃ (r : Requester) (s : State), writeCause s r 0x10 0x10C = none ∧ s.parts[(0 : Part)].resq.log2n = 0 ∧ 0 < (fld (1 : Word) 0 16 + 65536 - s.parts[(0 : Part)].resq.rd.toNat) % 65536) ∧
    (∃ (r : Requester) (s : State), writeCause s r 0x10 0x10C = none ∧ 2 ^ s.parts[(0 : Part)].resq.log2n < (fld (17 : Word) 0 16 + 65536 - s.parts[(0 : Part)].resq.rd.toNat) % 65536) ∧
    (∃ (r : Requester) (s : State), writeCause s r 0x10 0x1D0 = none ∧ (fld (0 : Word) 0 16 + 65536 - s.parts[(0 : Part)].er.rd.toNat) % 65536 ≤ s.parts[(0 : Part)].er.ents.length ∧ s.parts[(0 : Part)].er.wait = []) ∧
    (∃ (r : Requester) (s : State), writeCause s r 0x10 0x108 = none ∧ s.parts[(0 : Part)].resq.wr ≠ s.parts[(0 : Part)].resq.rd) ∧
    (∃ (r : Requester) (s : State), writeCause s r 0x10 0x108 = none ∧ s.parts[(0 : Part)].resq.wr = s.parts[(0 : Part)].resq.rd ∧ s.parts[(0 : Part)].resq.wait = []) ∧
    fld (3 : Word) 0 5 < 4 ∧ 16 < fld (17 : Word) 0 5 ∧ fld (16 : Word) 0 5 = 16 ∧ configReg 0x10 0x10C = false ∧ indexReg 0x10 0x108 = false := by
  refine ⟨⟨1, keyedRegs { resq := { log2n := 4 } } 0, [.keep 7], by decide +kernel, ?_, by decide, by decide, rfl, by decide⟩, ⟨1, keyedRegs {} 0, by decide +kernel, rfl, by decide⟩,
    ⟨1, keyedRegs { resq := { log2n := 4 } } 0, by decide +kernel, by decide⟩, ⟨1, keyedRegs {} 0, by decide +kernel, by decide, rfl⟩, ⟨1, keyedRegs { resq := { wr := 1 } } 0, by decide +kernel, by decide⟩,
    ⟨1, keyedRegs {} 0, by decide +kernel, rfl, rfl⟩, by decide, by decide, by decide, rfl, rfl⟩
  intro x h b; have := List.mem_singleton.1 h; subst this; simp

/-! ### Number formats, sums, memories: the spec's worked values -/

-- Table FMT-6: FP32 to F8v around the largest code, saturating and not, with the flag.
theorem test_f8v_tie_below : fpConvert fmtF8v true (f32Val 0x43D80000) = (0x7E, 0) := by decide +kernel
theorem test_f8v_tie_at_top : fpConvert fmtF8v false (f32Val 0xC3E80000) = (0xFE, 0) := by decide +kernel
theorem test_f8v_beyond : fpConvert fmtF8v true (f32Val 0x43E80400) = (0x7E, 4) ∧ fpConvert fmtF8v false (f32Val 0x43E80400) = (0x7F, 4) := by decide +kernel
theorem test_f8v_infinite : fpConvert fmtF8v true (f32Val 0x7F800000) = (0x7E, 4) ∧ fpConvert fmtF8v false (f32Val 0xC3FA0000) = (0xFF, 4) := by decide +kernel
-- R69's example: one rounding, not two.
theorem test_f8v_single_rounding : fpConvert fmtF8v true (f32Val 0x3F880008) = (0x39, 0) := by decide +kernel
-- R70: 61,440 overflows F8g, a value below it does not; an infinite input stays infinite without a flag.
theorem test_f8g_top : fpDefault fmtF8g (f32Val 0x47700000) = (0x7C, 4) ∧ fpDefault fmtF8g (f32Val 0x476FFFFF) = (0x7B, 0) ∧ fpDefault fmtF8g (f32Val 0x7F800000) = (0x7C, 0) := by
  decide +kernel
-- Table FMT-9: the grid rounding of four contributions, and the read-out of their sum.
theorem test_grid_rounding :
    [0x4780, 0x3540, 0xC780, 0x3620].map (fun c => (xaQuant (fpDecode fmtB16 c) (-20)).1) = [68719476736, 1, -68719476736, 2] ∧ (xaRead 3 (-20)).1 = 0x36400000 := by decide +kernel

theorem test_hyps_sums :
    (∃ l k : List Val, l.Perm k ∧ l ≠ k) ∧ (∃ l : List Val, l ≠ [] ∧ (∀ v ∈ l, (valRat v).isSome = true) ∧ (l.filterMap valRat).sum = 0) ∧
    (∃ m m' : Nat, (m = 0 ∨ m' = 0) ∧ m' ≠ 0) ∧ (∃ ps qs : List (Val × Val), ps.Perm qs ∧ ps ≠ qs) ∧
    (∃ (l : List Val) (m : Nat) (e : Int), (∀ v ∈ l, (valRat v).isSome = true) ∧ (l.filterMap valRat).sum = -magRat m e) := by
  refine ⟨⟨[.nan, .inf true], [.inf true, .nan], List.Perm.swap _ _ _, by decide⟩, ⟨[.fin false 3 0, .fin true 3 0], by decide, by simp [valRat], by simp [valRat]⟩,
    ⟨0, 1, .inl rfl, by decide⟩, ⟨[(.nan, .nan), (.inf true, .nan)], [(.inf true, .nan), (.nan, .nan)], List.Perm.swap _ _ _, by decide⟩,
    [.fin true 3 4], 3, 4, by simp [valRat], by simp [valRat]⟩

theorem test_hyps_accumulators :
    Memory.wf State.reset.hbm = true ∧ accSum State.reset.hbm (tabGet {} State.reset.tensors 7) 3 = 0 ∧
    (∃ (t : Tensor) (v : Val), t = tabGet {} State.reset.tensors 7 ∧ (xaQuant v t.wForce).1 = xaMax ∧ (-(2 ^ 127 : Int) ≤ 0 + xaMax) ∧ 0 + xaMax < 2 ^ 127) ∧
    (∃ l k : List Val, l.length ≤ 2 ^ 32 ∧ l.Perm k ∧ l ≠ k) ∧ (3 : Nat) ≠ 4 :=
  ⟨rfl, by decide +kernel, ⟨_, .inf false, rfl, rfl, by decide, by decide⟩, ⟨[.nan, .inf true], [.inf true, .nan], by decide, List.Perm.swap _ _ _, by decide⟩, by decide⟩

theorem test_hyps_step : ∃ s t : State, MemOk s ∧ step s = .next t := ⟨State.reset, _, ⟨rfl, rfl, by decide +kernel⟩, rfl⟩

/-! ### Well-formedness: an ill-formed term for each check, and a well-formed one -/

theorem smoke_digest : (Instr.keyExchange { digest := [1], mutualOk := true }).wf = false ∧ (Instr.fwBegin 1 4096 (List.replicate 49 0)).wf = false := by decide
theorem smoke_message : (Instr.gradMsg { hdr := 0, body := [0] }).wf = false := by decide +kernel
theorem smoke_flit : (Instr.dataFlitRx 0 { bytes := List.replicate 255 0, fecOk := true }).wf = false := by decide +kernel
theorem smoke_report : (Instr.tokenReport 0 { hdr := 0, toks := [1] }).wf = false := by decide
theorem smoke_telemetry : (Instr.telemetryRefresh { total := 0, stackPower := 0, vin := 0, energy := 0, islands := [1] }).wf = false := by decide
/-- A fault of a source, at a word. -/
def faultAt (src word : Nat) : StepFault := { src, word, cycle := 0, core := 0, array := 0, half := false, row := 0 }

theorem smoke_fault : (Instr.stepReplay (faultAt 0x10 0)).wf = false ∧ (Instr.stepReplay (faultAt 0 0)).wf = false ∧ (Instr.stepReplay (faultAt 1 1048575)).wf = false := by decide
theorem smoke_hello : (Instr.helloRx 0 (List.replicate 447 0)).wf = false := by decide +kernel
theorem smoke_scrub : (Instr.patrolScrub 0 [(3, 1), (3, 2)]).wf = false ∧ (Instr.patrolScrub 0 [(3, 0)]).wf = false := by decide
theorem smoke_sensors : (Instr.tempSample [20, 20]).wf = false := by decide
theorem smoke_selftest : (Instr.selftestDone [(256, [1])]).wf = false ∧ (Instr.selftestDone [(5, [1, 1])]).wf = false ∧ (Instr.selftestDone [(5, []), (5, [])]).wf = false := by decide
theorem smoke_fatal : (Instr.fatalError 0).wf = false ∧ (Instr.fatalError 256).wf = false := by decide
theorem smoke_slot : (Instr.sealRebuildDone 0 65536).wf = false ∧ (Instr.pcmd 1 0 (.drop 65536)).wf = false := by decide
theorem smoke_ring : (Instr.pcmd 1 0 (.save 1 65536 0 0)).wf = false ∧ (Instr.pcmd 1 0 (.evict 1 true 256 0)).wf = false ∧ (Instr.pcmd 1 0 (.reserved 1)).wf = false ∧
    (Instr.pcmd 1 0 (.keep 1)).wf = true := by decide

/-! ### No word of the table has bits -/

theorem test_no_word : decodeTableWord 64 7 = none ∧ State.reset.withFetchWord 64 7 = State.reset := ⟨rfl, rfl⟩

end Sys2Proof.Tests
end

section
/-!
PROOFS. What a command may change of the one-way store, of the assignment of cores and of the epoch in force: one lemma for each
footprint, one case for each command.
-/

namespace Sys2Proof.Machine

/-! ### The one-way store -/

/-- Of the one-way store a command changes at most SVN_MIN and the reservation of the image counter, which rise (R237, R403), and
the entry of the last FATAL error. -/
structure StoreKept (s t : State) : Prop where
  /-- SVN_MIN. -/
  svn : s.nv.svnMin ≤ t.nv.svnMin
  /-- The reservation of the image counter. -/
  img : s.nv.imgReserved ≤ t.nv.imgReserved
  /-- Everything else. -/
  rest : t.nv = { s.nv with svnMin := t.nv.svnMin, imgReserved := t.nv.imgReserved, lastFatal := t.nv.lastFatal }

theorem StoreKept.of_nv_eq {s t : State} (h : t.nv = s.nv) : StoreKept s t := ⟨by rw [h], by rw [h], by rw [h]⟩

theorem StoreKept.oneWay {s t : State} (h : StoreKept s t) : OneWay s t := by
  obtain ⟨svn, img, rest⟩ := h
  exact ⟨svn, img, by rw [rest], by rw [rest], fun k => by rw [rest]; exact k⟩

theorem StoreKept.lc {s t : State} (h : StoreKept s t) : t.nv.lc = s.nv.lc := by rw [h.rest]

/-! ### What is in force -/

theorem SameAssign.of_cores_eq {s t : State} (h : t.cores = s.cores) : SameAssign s t := fun _ => by rw [h]; exact ⟨rfl, rfl⟩

theorem SameAssign.of_keepAssign {s t u : State} (h : t.cores = keepAssign s u) : SameAssign s t :=
  fun n => by rw [h]; exact ⟨keepAssign_part s u n, keepAssign_byp s u n⟩

/-- An ordinary command keeps the one-way store, and what is in force until a boundary (R17, R24, R29). -/
structure InForce (s t : State) : Prop where
  /-- The one-way store. -/
  store : StoreKept s t
  /-- The assignment of cores and their bypass. -/
  assign : SameAssign s t
  /-- The configuration epoch. -/
  epoch : t.epoch = s.epoch

/-- A command whose footprint has neither the cores, the epoch nor the store. -/
theorem InForce.of_eq {s t : State} (nv : t.nv = s.nv) (cores : t.cores = s.cores) (epoch : t.epoch = s.epoch) : InForce s t :=
  ⟨.of_nv_eq nv, .of_cores_eq cores, epoch⟩

/-- A command whose footprint has of cores all but the assignment. -/
theorem InForce.of_keepAssign {s t u : State} (nv : t.nv = s.nv) (cores : t.cores = keepAssign s u) (epoch : t.epoch = s.epoch) :
    InForce s t := ⟨.of_nv_eq nv, .of_keepAssign cores, epoch⟩

theorem footWord_inForce (s t : State) : InForce s (footWord s t) := .of_keepAssign rfl rfl rfl
theorem footXchg_inForce (s t : State) : InForce s (footXchg s t) := .of_keepAssign rfl rfl rfl
theorem footTail_inForce (s t : State) : InForce s (footTail s t) := .of_keepAssign rfl rfl rfl
theorem footSession_inForce (s t : State) : InForce s (footSession s t) := .of_keepAssign rfl rfl rfl
theorem footReg_inForce (s t : State) : InForce s (footReg s t) := .of_keepAssign rfl rfl rfl
theorem footPage_inForce (s t : State) : InForce s (footPage s t) := .of_eq rfl rfl rfl
theorem footSeg_inForce (s t : State) : InForce s (footSeg s t) := .of_eq rfl rfl rfl
theorem footServe_inForce (s t : State) : InForce s (footServe s t) := .of_eq rfl rfl rfl
theorem footNet_inForce (s t : State) : InForce s (footNet s t) := .of_eq rfl rfl rfl
theorem footSync_inForce (s t : State) : InForce s (footSync s t) := .of_eq rfl rfl rfl
theorem footWipe_inForce (s t : State) : InForce s (footWipe s t) := .of_eq rfl rfl rfl
theorem footSpdm_inForce (s t : State) : InForce s (footSpdm s t) := .of_eq rfl rfl rfl
theorem footRead_inForce (s t : State) : InForce s (footRead s t) := .of_eq rfl rfl rfl
theorem footQuery_inForce (s t : State) : InForce s (footQuery s t) := .of_eq rfl rfl rfl

theorem footPort_inForce (s t : State) : InForce s (footPort s t) := ⟨⟨le_rfl, le_rfl, rfl⟩, .of_cores_eq rfl, rfl⟩

theorem footRes_inForce (s t : State) : InForce s (footRes s t) := ⟨⟨le_rfl, le_max_left _ _, rfl⟩, .of_cores_eq rfl, rfl⟩

theorem footPower_inForce (s t : State) : InForce s (footPower s t) := ⟨⟨le_rfl, le_rfl, rfl⟩, .of_keepAssign rfl, rfl⟩

theorem footBoot_inForce (s t : State) : InForce s (footBoot s t) := ⟨⟨le_max_left _ _, le_rfl, rfl⟩, .of_keepAssign rfl, rfl⟩

theorem footCommand_inForce (s t : State) : InForce s (footCommand s t) :=
  ⟨⟨le_max_left _ _, le_rfl, rfl⟩, .of_keepAssign rfl, rfl⟩

theorem footBoundary_storeKept (s t : State) : StoreKept s (footBoundary s t) := ⟨le_max_left _ _, le_max_left _ _, rfl⟩

/-! ### A hello ends the epoch only where the slice still forms (R357) -/

@[simp] theorem disable_epoch (i : PortIx) (r : Nat) (s : State) : (disable i r s).epoch = s.epoch := by simp [disable]

@[simp] theorem floodLinkev_epoch (typ : Nat) (p : PortIx) (r : Nat) (s : State) : (floodLinkev typ p r s).epoch = s.epoch := by
  unfold floodLinkev
  split
  · rfl
  · simp

@[simp] theorem loseParent_epoch (i : PortIx) (s : State) : (loseParent i s).epoch = s.epoch := by
  unfold loseParent
  split <;> rfl

@[simp] theorem holdPort_epoch (i : PortIx) (s : State) : (holdPort i s).epoch = s.epoch := by
  unfold holdPort
  split
  · simp
  · dsimp only
    split <;> simp

theorem refuseSlice_epoch {i : PortIx} {s : State} (h : s.plane.st ≠ .forming) : (refuseSlice i s).epoch = s.epoch := by
  rw [refuseSlice, if_neg h, disable_epoch]

theorem helloNew_epoch {i : PortIx} {h : List Byte} {s : State} (hf : s.plane.st ≠ .forming) : (helloNew i h s).epoch = s.epoch := by
  have refused (f : PortSt → PortSt) : (refuseSlice i (modPort i f s)).epoch = s.epoch := refuseSlice_epoch hf
  cases hp : s.plane.plan with
  | none => simp [helloNew, hp]
  | some pl =>
    simp only [helloNew, modPort_plane, hp, Option.isNone_some, Bool.false_eq_true, if_false]
    split
    · simp
    split
    · simp
    split
    · simp
    split
    · exact refused _
    split
    · simp
    split <;> simp

theorem helloUp_epoch (i : PortIx) (h : List Byte) (s : State) : (helloUp i h s).epoch = s.epoch := by
  unfold helloUp
  split
  · rfl
  · split <;> simp

theorem helloRx_epoch {i : PortIx} {h : List Byte} {s : State} (hf : s.plane.st ≠ .forming) : (helloRx i h s).epoch = s.epoch := by
  unfold helloRx
  split
  · rfl
  split
  · exact helloNew_epoch hf
  split
  · exact helloUp_epoch i h s
  · rfl

/-! ### Management requests (R406) -/

/-- A management request keeps the one-way store, or leaves it as its command does. -/
theorem mgmt_nv (cmd : Nat) (seq : BitVec 16) (avail pend : Bool) (run : State → Nat × List Byte × State) (s : State) :
    (mgmt cmd seq avail pend run s).nv = s.nv ∨ (mgmt cmd seq avail pend run s).nv = (run (raiseInt 1 0 s)).2.2.nv := by
  unfold mgmt
  dsimp only
  split
  · exact .inl rfl
  split
  · exact .inl rfl
  split
  · exact .inl rfl
  split
  · exact .inl rfl
  · exact .inr rfl

/-- The answer of a command leaves the state as it is, or as the command's effect does. -/
theorem answer_state (checks : List (Bool × Nat)) (act : State → State) (s : State) :
    (answer checks act s).2.2 = s ∨ (answer checks act s).2.2 = act s := by
  unfold answer
  split
  · exact .inl rfl
  · exact .inr rfl

/-! ### The end of the Autumn wipe (R387, R388, R390) -/

@[simp] theorem strapCoord_nv (s : State) : (strapCoord s).nv = s.nv := by
  unfold strapCoord
  split
  · rfl
  split
  · dsimp only
    split <;> rfl
  · rfl

@[simp] theorem setRwl_nv (page : Nat) (v : Word) (s : State) : (setRwl page v s).nv = s.nv := by
  unfold setRwl
  split
  · simp
  · rfl

theorem rwlWriteRun_nv (page off : Nat) (v : Word) (s : State) : (rwlWriteRun page off v s).2.2.nv = s.nv := by
  obtain h | h := answer_state _ (setRwl page v) s
  · exact congrArg State.nv h
  · exact (congrArg State.nv h).trans (setRwl_nv page v s)

theorem rwlWrite_mgmt_nv (cmd : Nat) (seq : BitVec 16) (avail pend : Bool) (page off : Nat) (v : Word) (s : State) :
    (mgmt cmd seq avail pend (rwlWriteRun page off v) s).nv = s.nv := by
  obtain h | h := mgmt_nv cmd seq avail pend (rwlWriteRun page off v) s
  · exact h
  · rw [h, rwlWriteRun_nv, raiseInt_nv]

/-- The writes that waited for the end of the wipe are of the RWL fields, which are no part of the store. -/
theorem wipeAnswered_nv (s : State) : (wipeAnswered s).nv = (wipeEnd s).nv := by
  have held (l : List (BitVec 16 × Byte × BitVec 16 × Word)) (u : State) :
      (l.foldl (fun s x => mgmt 0x04 x.1 (cmdOpen s) false (rwlWriteRun x.2.1.toNat x.2.2.1.toNat x.2.2.2) s) u).nv = u.nv := by
    induction l generalizing u with
    | nil => rfl
    | cons x r ih => rw [List.foldl_cons, ih, rwlWrite_mgmt_nv]
  unfold wipeAnswered
  dsimp only
  split
  · rfl
  · exact held _ _

/-- A transition that commits takes nothing of the store back: it clears the provisioning record or writes a new one, and destroys
the identity key or keeps it. -/
theorem commitLc_oneWay (d : LifeCycle) (s : State) : OneWay s (commitLc d s) := by
  cases d with
  | blank | service => exact ⟨le_rfl, le_rfl, le_rfl, List.prefix_rfl, id⟩
  | retired => exact ⟨le_rfl, le_rfl, le_rfl, List.prefix_rfl, fun _ => rfl⟩
  | provisioned =>
    unfold commitLc
    dsimp only
    split <;> exact ⟨le_rfl, le_rfl, le_rfl, List.prefix_rfl, id⟩
  | operational =>
    unfold commitLc
    dsimp only
    split
    · exact ⟨le_rfl, le_rfl, Nat.le_succ _, List.prefix_rfl, id⟩
    · exact ⟨le_rfl, le_rfl, le_rfl, List.prefix_rfl, id⟩

/-- At its end the wipe counts, and commits the transition that waited for it. -/
theorem wipeEnd_nv (s : State) : ∃ u : State, OneWay s u ∧ u.nv.lc = s.nv.lc ∧
    ((wipeEnd s).nv = u.nv ∨ ∃ d, s.sec.pendLc = some d ∧ (wipeEnd s).nv = (commitLc d u).nv) := by
  unfold wipeEnd
  dsimp only
  split
  · exact ⟨s, (StoreKept.of_nv_eq rfl).oneWay, rfl, .inl rfl⟩
  split
  · next d hd =>
    refine ⟨_, ?_, ?_, .inr ⟨d, hd, (strapCoord_nv _).trans (endPending_nv _ _ _)⟩⟩
    · exact ⟨le_rfl, le_rfl, le_rfl, List.prefix_rfl, id⟩
    · rfl
  · refine ⟨_, ?_, ?_, .inl rfl⟩
    · exact ⟨le_rfl, le_rfl, le_rfl, List.prefix_rfl, id⟩
    · rfl

theorem OneWay.trans {s t u : State} (h : OneWay s t) (k : OneWay t u) : OneWay s u :=
  ⟨h.svn.trans k.svn, h.img.trans k.img, h.prov.trans k.prov, h.fuses.trans k.fuses, k.key ∘ h.key⟩

/-- The rule is about the store alone. -/
theorem OneWay.congr_right {s t u : State} (h : OneWay s t) (e : u.nv = t.nv) : OneWay s u :=
  h.trans (StoreKept.of_nv_eq e).oneWay

theorem wipeAnswered_oneWay (s : State) : OneWay s (wipeAnswered s) := by
  obtain ⟨u, ow, -, h | ⟨d, -, h⟩⟩ := wipeEnd_nv s
  · exact ow.congr_right ((wipeAnswered_nv s).trans h)
  · exact (ow.trans (commitLc_oneWay d u)).congr_right ((wipeAnswered_nv s).trans h)

/-- With no transition under way the life-cycle state stays (R388). -/
theorem wipeAnswered_lc {s : State} (hp : s.sec.pendLc = none) : (wipeAnswered s).nv.lc = s.nv.lc := by
  obtain ⟨u, -, lc, h | ⟨d, hd, -⟩⟩ := wipeEnd_nv s
  · rw [wipeAnswered_nv, h, lc]
  · rw [hp] at hd
    cases hd

/-! ### Fuses (R110) -/

/-- Of the store a fuse command changes the blown fuses only, to which it may add one. -/
theorem blowFuse_bypass (core array column : Nat) (s : State) : s.nv.bypass <+: (blowFuse core array column s).nv.bypass := by
  unfold blowFuse
  dsimp only
  split
  · exact List.prefix_rfl
  · exact List.prefix_append _ _

theorem fuseBypassRun_bypass (core array column : Nat) (s : State) :
    s.nv.bypass <+: (fuseBypassRun core array column s).2.2.nv.bypass := by
  obtain h | h := answer_state _ (blowFuse core array column) s
  · rw [fuseBypassRun, h]
  · rw [fuseBypassRun, h]
    exact blowFuse_bypass core array column s

theorem fuseBypass_mgmt_bypass (cmd : Nat) (seq : BitVec 16) (avail pend : Bool) (core array column : Nat) (s : State) :
    s.nv.bypass <+: (mgmt cmd seq avail pend (fuseBypassRun core array column) s).nv.bypass := by
  obtain h | h := mgmt_nv cmd seq avail pend (fuseBypassRun core array column) s
  · rw [h]
  · rw [h]
    exact fuseBypassRun_bypass core array column (raiseInt 1 0 s)

/-! ### Every command -/

/-- What a command does to the one-way store and to what is in force: an ordinary command keeps both; a wipe of cores, the boundary,
the fuse load and a hello keep the store; the end of the Autumn wipe and a fuse command change it one way. -/
inductive Effect (s t : State) : Instr → Prop
  | ordinary {c} (kept : InForce s t) : Effect s t c
  | coreWipe {c} (wipes : wipesCores c = true) (store : StoreKept s t) : Effect s t c
  | boundary (store : StoreKept s t) : Effect s t .boundary
  | fuseLoad {straps} (store : StoreKept s t) (epoch : t.epoch = s.epoch) : Effect s t (.fuseLoadDone straps)
  | hello {port h} (store : StoreKept s t) (assign : SameAssign s t) (epoch : s.plane.st ≠ .forming → t.epoch = s.epoch) :
      Effect s t (.helloRx port h)
  | wipeEnd (oneWay : OneWay s t) (lc : s.sec.pendLc = none → t.nv.lc = s.nv.lc) (assign : SameAssign s t)
      (epoch : t.epoch = s.epoch) : Effect s t .autumnWipeDone
  | blowFuse {q core array column} (oneWay : OneWay s t) (lc : t.nv.lc = s.nv.lc) (assign : SameAssign s t)
      (epoch : t.epoch = s.epoch) : Effect s t (.fuseBypass q core array column)

/-- Every command goes on, with its effect. -/
theorem exec_effect (c : Instr) (s : State) : ∃ t, exec c s = .next t ∧ Effect s t c := by
  cases c with
  | nop | wait | hfill | tfill | stream | conv | reduceQ | reduceRcc | reduceU | reducePart | cvt | macc | mopt | mregen | rccUwrite
  | rccKpass | rccVpass | vecAdd | vecSub | vecMul | vecFma | vecMax | vecMin | vecScale2 | vecExpmax | vecCmp | vecSelect | faceinAct
  | faceinGrad | faceinQry | faceinProb | faceinLogit | faceoutBitmap | faceoutDelta | faceoutIgrad | faceoutScore | faceoutVdelta
  | faceoutTopk => exact ⟨_, rfl, .ordinary (footWord_inForce s _)⟩
  | xsend | xrecv | psumMsg | rowreqMsg | rowsMsg | gradMsg | agreeMsg | digestMsg | tdigMsg =>
    exact ⟨_, rfl, .ordinary (footXchg_inForce s _)⟩
  | linkevMsg => exact ⟨_, rfl, .ordinary (footNet_inForce s _)⟩
  | stepSyncEdge | march | marchDeadline | lateMsg | doneMsg | syncMsg | noticeMsg | tsyncMsg | syncExchange | holdoverExpiry =>
    exact ⟨_, rfl, .ordinary (footSync_inForce s _)⟩
  | svcDrain | drainComplete | msgForward | flitTx | dataFlitRx | ctrlFlitRx | nakRx | nakTimeout | pmdTrainingDone | helloTx
  | discoveryTimeout | linkDown | retrainTimer => exact ⟨_, rfl, .ordinary (footPort_inForce s _)⟩
  | pllLockDone | hbmTrainingDone | watchdogExpiry | restartComplete | checkpointComplete | fatalError | imageVerifyDone
  | controlCoreFault | bootRomMeasured | firmwareStartDone => exact ⟨_, rfl, .ordinary (footBoot_inForce s _)⟩
  | pwrWarnAssert | pwrWarnRelease | patrolScrub | tempSample | telemetryRefresh | selftestDone | islandStateReached =>
    exact ⟨_, rfl, .ordinary (footPower_inForce s _)⟩
  | segmentationDone => exact ⟨_, rfl, .ordinary (footSeg_inForce s _)⟩
  | tailCommit => exact ⟨_, rfl, .ordinary (footTail_inForce s _)⟩
  | handoverCheckDone | share | release | hold | restore | wipe | pageMoveDone => exact ⟨_, rfl, .ordinary (footPage_inForce s _)⟩
  | holdExpiry | new | cancel | pause | resume | repin | pfxdrop | tokenReport | holdComplete | resumeComplete =>
    exact ⟨_, rfl, .ordinary (footServe_inForce s _)⟩
  | getPinfo | claim | putPkey | putKey | delKey | setPolicy | putLinkkey => exact ⟨_, rfl, .ordinary (footSession_inForce s _)⟩
  | keyedClearDone | partitionWipeDone => exact ⟨_, rfl, .ordinary (footWipe_inForce s _)⟩
  | getVersion | getCapabilities | negotiateAlgorithms | getDigests | getCertificate | challenge | getMeasurements | keyExchange
  | finish | heartbeat | keyUpdate | endSession | setEndpointId | getEndpointId | getEndpointUuid | getMctpVersionSupport
  | getMessageTypeSupport | getVendorDefinedMsgSupport => exact ⟨_, rfl, .ordinary (footSpdm_inForce s _)⟩
  | getIdent | getStatus | regRead | fwBegin | fwData | fwEnd | sliceAdmit | selftest =>
    exact ⟨_, rfl, .ordinary (footQuery_inForce s _)⟩
  | rwlWrite | fwActivate | coldGrant | sliceStart | epochPend | epochAbort | progLoad | progLoadDone | progDrop | configure
  | coreAssign | pcmd | resetPort | resetRestart => exact ⟨_, rfl, .ordinary (footCommand_inForce s _)⟩
  | chselWrite | intStatusClear | idAstatClear | uuTflagClear | kick | rbAck | ringIndexWrite | ringConfigWrite | coreBypWrite
  | pwIslReq | sgNextWrite | segcapWrite | lscaleWrite | registerWrite => exact ⟨_, rfl, .ordinary (footReg_inForce s _)⟩
  | pairLoRead | registerRead => exact ⟨_, rfl, .ordinary (footRead_inForce s _)⟩
  | admissionClose | admitMsg | resultRelease | ringWrite | closureTimeout | sessionExpiry =>
    exact ⟨_, rfl, .ordinary (.of_eq rfl rfl rfl)⟩
  | stepReplay => exact ⟨_, rfl, .ordinary (.of_keepAssign rfl rfl rfl)⟩
  | provision | commission | deprovision | enterService | returnCmd | reprovision | retire | sliceAdmitDone | sliceLeave | unconfigure
  | preset | presetSession | coldReset => exact ⟨_, rfl, .coreWipe rfl (.of_nv_eq rfl)⟩
  | resetCold =>
    refine ⟨_, rfl, .coreWipe rfl (.of_nv_eq ?_)⟩
    split <;> rfl
  | boundary => exact ⟨_, rfl, .boundary (footBoundary_storeKept s _)⟩
  | fuseLoadDone => exact ⟨_, rfl, .fuseLoad (.of_nv_eq rfl) rfl⟩
  | helloRx => exact ⟨_, rfl, .hello ⟨le_rfl, le_rfl, rfl⟩ (.of_cores_eq rfl) helloRx_epoch⟩
  | autumnWipeDone => exact ⟨_, rfl, .wipeEnd ((wipeAnswered_oneWay s).congr_right rfl) wipeAnswered_lc (.of_cores_eq rfl) rfl⟩
  | fuseBypass _ core array column =>
    exact ⟨_, rfl, .blowFuse ⟨le_rfl, le_rfl, le_rfl, fuseBypass_mgmt_bypass _ _ _ _ core array column s, id⟩ rfl
      (.of_keepAssign rfl) rfl⟩
  -- the residency and tensor commands; the one left over is SEAL, whose constructor's name is a word of Lean
  | load | shload | shrows | sealRebuildDone | publish | drop | save | evict | mirror | setattr | imageCheckDone | areaFreed
  | twrite | keep | discard | hpset | imageWriteDone | _ => exact ⟨_, rfl, .ordinary (footRes_inForce s _)⟩

/-- What a step that went on did. -/
theorem effect_of_exec {c : Instr} {s t : State} (h : exec c s = .next t) : Effect s t c := by
  obtain ⟨u, hu, eff⟩ := exec_effect c s
  rw [h] at hu
  cases hu
  exact eff

theorem exec_oneWay {c : Instr} {s t : State} (h : exec c s = .next t) : OneWay s t := by
  cases effect_of_exec h with
  | ordinary kept => exact kept.store.oneWay
  | coreWipe _ store | boundary store | fuseLoad store | hello store => exact store.oneWay
  | wipeEnd oneWay | blowFuse oneWay => exact oneWay

/-- No edge of Table SEC-10 leads out of RETIRED. -/
theorem not_lifeEdge_retired (d : LifeCycle) : ¬ lifeEdge .retired d := by
  simp [lifeEdge]

theorem LifeOk.pendLc_of_retired {s : State} (ok : LifeOk s) (r : s.nv.lc = .retired) : s.sec.pendLc = none := by
  cases hp : s.sec.pendLc with
  | none => rfl
  | some d => exact absurd (r ▸ ok.edge d hp) (not_lifeEdge_retired d)

theorem exec_lc_of_pendLc_none {c : Instr} {s t : State} (hp : s.sec.pendLc = none) (h : exec c s = .next t) :
    t.nv.lc = s.nv.lc := by
  cases effect_of_exec h with
  | ordinary kept => exact kept.store.lc
  | coreWipe _ store | boundary store | fuseLoad store | hello store => exact store.lc
  | wipeEnd _ lc => exact lc hp
  | blowFuse _ lc => exact lc

theorem exec_sameAssign {c : Instr} {s t : State} (hb : c ≠ .boundary) (hf : ∀ x, c ≠ .fuseLoadDone x) (hw : wipesCores c = false)
    (h : exec c s = .next t) : SameAssign s t := by
  cases effect_of_exec h with
  | ordinary kept => exact kept.assign
  | coreWipe wipes => exact absurd (hw.symm.trans wipes) Bool.false_ne_true
  | boundary => exact absurd rfl hb
  | fuseLoad => exact absurd rfl (hf _)
  | hello _ assign | wipeEnd _ _ assign | blowFuse _ _ assign => exact assign

theorem exec_epoch {c : Instr} {s t : State} (hb : c ≠ .boundary) (hw : wipesCores c = false)
    (hh : ∀ p h, c = .helloRx p h → s.plane.st ≠ .forming) (h : exec c s = .next t) : t.epoch = s.epoch := by
  cases effect_of_exec h with
  | ordinary kept => exact kept.epoch
  | coreWipe wipes => exact absurd (hw.symm.trans wipes) Bool.false_ne_true
  | boundary => exact absurd rfl hb
  | hello _ _ epoch => exact epoch (hh _ _ rfl)
  | fuseLoad _ epoch | wipeEnd _ _ _ epoch | blowFuse _ _ _ epoch => exact epoch

/-- Settles O4: by the effect of each command, which its footprint bounds. -/
theorem nothingGoesBackOrChangesEarly : Obligations.NothingGoesBackOrChangesEarly := by
  unfold Obligations.NothingGoesBackOrChangesEarly
  refine ⟨fun c s t => exec_oneWay, fun c s t ok r h => ?_, fun c s t => exec_sameAssign, fun c s t => exec_epoch⟩
  exact ⟨(exec_lc_of_pendLc_none (ok.pendLc_of_retired r) h).trans r, (exec_oneWay h).key (ok.dead r).1⟩

end Sys2Proof.Machine
end

section
/-!
PROOFS. A register write that is refused: the order of its causes, and the record that is all it leaves (R464).
-/

namespace Sys2Proof.Machine

/-- The refusal of a write lies in the footprint of the register writes. -/
theorem footReg_refuseWrite (r : Requester) (page off : Nat) (c : Cause) (s : State) :
    footReg s (refuseWrite r page off c s) = refuseWrite r page off c s := by
  have kept : keepAssign s (refuseWrite r page off c s) = s.cores := keepAssign_cores s _ rfl
  rw [footReg, kept]
  rfl

/-- A write with a cause does no more than be refused, whatever firmware stored before it. -/
theorem footReg_writeReg_refused {r : Requester} {page : Fin 32} {off : Nat} {c : Cause} {s : State}
    (h : writeCause s r page off = some c) (v : Word) (x : Along) :
    footReg s (writeReg r page off v x s) = refuseWrite r page off c s := by
  rw [writeReg, h]
  exact footReg_refuseWrite r page off c s

/-- The record of a refusal, which is all that it changes: ID_ASTAT of the requester and the count of ID_AREF (R464). -/
def OnlyRecorded (r : Requester) (page off : Nat) (c : Cause) (s t : State) : Prop :=
  t = { s with regs := t.regs } ∧ t.regs.pages = s.regs.pages ∧ t.regs.aref = min 0xFFFE (s.regs.aref + 1) ∧
    t.regs.reqs[r] = { s.regs.reqs[r] with astat := some (page, off, causeCode c) } ∧
    ∀ q : Requester, q ≠ r → t.regs.reqs[q] = s.regs.reqs[q]

theorem refuseWrite_onlyRecorded (r : Requester) (page off : Nat) (c : Cause) (s : State) :
    OnlyRecorded r page off c s (refuseWrite r page off c s) :=
  ⟨rfl, rfl, rfl, vmod_same _ r _, fun q hq => vmod_other _ r _ q q.isLt fun e => hq (Fin.ext e.symm)⟩

/-- A command that writes a register, where the write has a cause. -/
theorem onlyRecorded_of_writeCause {i : Instr} {r : Requester} {page : Fin 32} {off : Nat} {v : Word} {x : Along} {c : Cause} {s : State}
    (hc : writeCause s r page off = some c) (hw : exec i s = .next (footReg s (writeReg r page off v x s))) :
    ∃ t, exec i s = .next t ∧ OnlyRecorded r page off c s t :=
  ⟨_, by rw [hw, footReg_writeReg_refused hc], refuseWrite_onlyRecorded r page off c s⟩

theorem exec_ringConfigWrite {r : Requester} {page : Fin 32} {off : BitVec 12} (hr : configReg page.val off.toNat = true) (v : Word)
    (s : State) : exec (.ringConfigWrite r page off v) s = .next (footReg s (writeReg r page off.toNat v {} s)) := by
  change Host.Outcome.next (footReg s (if _ then _ else _)) = _
  rw [if_pos hr]

theorem exec_ringIndexWrite {r : Requester} {page : Fin 32} {off : BitVec 12} (hr : indexReg page.val off.toNat = true) (v : Word)
    (e : RingEnts) (l : List FwStore) (s : State) :
    exec (.ringIndexWrite r page off v e l) s = .next (footReg s (writeReg r page off.toNat v { ents := e, stores := l } s)) := by
  change Host.Outcome.next (footReg s (if _ then _ else _)) = _
  rw [if_pos hr]

/-- The causes of Table REGS-5 for a write, in their order: the alignment, the partition, the state (R455, R458, R464). -/
theorem writeCause_eq (s : State) (r : Requester) (page off : Nat) :
    writeCause s r page off = if off % 4 ≠ 0 then some .access
      else match reqPart r with
        | none => if pageBusy s page = true then some .state else none
        | some p => if ownReg page off = false ∧ (foreign s p s.regs.reqs[r] page (chanOf s.regs.reqs[r] page) off = true ∨
              rootOnly page off = true) then some .partition
          else if s.parts[p].st ≠ .keyed ∨ s.parts[p].presetPend ≠ none ∨ pageBusy s page = true then some .state else none := by
  unfold writeCause
  dsimp only
  split
  · rfl
  cases reqPart r with
  | none => rfl
  | some p =>
    simp only [Bool.and_eq_true, Bool.or_eq_true, Bool.not_eq_true', Option.isSome_iff_ne_none, ite_or]

/-- Settles O51: by the order of the causes, and the record that a refusal leaves. -/
theorem registerWritesChecked : Obligations.RegisterWritesChecked := by
  unfold Obligations.RegisterWritesChecked
  intro r page off v e l s
  refine ⟨writeCause_eq s r page off.toNat, fun c hc x hx => ?_⟩
  simp only [List.mem_append, List.mem_ite_nil_right, List.mem_singleton] at hx
  -- one case for each command of the list, in its order
  obtain (((((((rfl | ⟨rfl, rfl⟩) | ⟨rfl, rfl⟩) | ⟨⟨rfl, rfl⟩, rfl⟩) | ⟨⟨rfl, rfl⟩, rfl⟩) | ⟨⟨rfl, rfl⟩, rfl⟩) | ⟨⟨rfl, rfl⟩, rfl⟩) |
    ⟨hr, rfl⟩) | ⟨hr, rfl⟩ := hx
  case inr => exact onlyRecorded_of_writeCause hc (exec_ringIndexWrite hr v e l s)
  case inl.inr => exact onlyRecorded_of_writeCause hc (exec_ringConfigWrite hr v s)
  all_goals exact onlyRecorded_of_writeCause hc rfl

end Sys2Proof.Machine
end

section
/-!
PROOFS. Management requests that are carried out, and what they do to the configuration epoch and the step programs (R128, R310,
R406, R408).
-/

namespace Sys2Proof.Machine

/-! ### A management request that is carried out (R406, R407) -/

/-- A state that keeps what no management command changes lies in the footprint as it is. -/
theorem footCommand_eq_self {s t : State} (pending : t.pending = s.pending) (nv : t.nv = s.nv) (sec : t.sec = s.sec)
    (cores : t.cores = s.cores) (epoch : t.epoch = s.epoch) : footCommand s t = t := by
  have hsec : keepLc s t = t.sec := keepLc_sec s t (by rw [sec])
  rw [footCommand, hsec, keepAssign_cores s t cores, nv, max_self, ← nv, ← pending, ← cores, ← epoch]

/-- A fresh request is heard, carried out and answered; one that may be answered PENDING needs that none is. -/
theorem mgmt_of_fresh {cmd : Nat} {seq : BitVec 16} {pend : Bool} {run : State → Nat × List Byte × State} {s : State}
    (h : MgmtFresh seq s) (hp : pend = false ∨ s.cc.pendCmd = none) :
    mgmt cmd seq (cmdOpen s) pend run s =
      mgmtSaid cmd seq (run (mgmtHeard s)).1 (run (mgmtHeard s)).2.1 (run (mgmtHeard s)).2.2 := by
  have busy : (pend && (mgmtHeard s).cc.pendCmd.isSome) = false := by
    obtain rfl | hp := hp
    · rfl
    · rw [mgmtHeard, raiseInt_cc, hp]
      exact Bool.and_false pend
  rw [mgmt, if_neg (by rw [h.phase]; decide)]
  dsimp only
  rw [if_neg h.seq0, raiseInt_cc, if_neg h.new, ← raiseInt_cc 1 0 s]
  change send _ { (ite _ _ _ : Nat × List Byte × State).2.2 with cc := _ } = _
  rw [show raiseInt 1 0 s = mgmtHeard s from rfl, busy]
  rfl

/-- The outcome of a fresh request whose command keeps what no management command changes. -/
theorem next_mgmt {cmd st : Nat} {q : BitVec 16} {pend : Bool} {body : List Byte} {run : State → Nat × List Byte × State}
    {s t : State} (fresh : MgmtFresh q s) (hp : pend = false ∨ s.cc.pendCmd = none) (hr : run (mgmtHeard s) = (st, body, t))
    (pending : t.pending = s.pending) (nv : t.nv = s.nv) (sec : t.sec = s.sec) (cores : t.cores = s.cores)
    (epoch : t.epoch = s.epoch) :
    (Host.Outcome.next (footCommand s (mgmt cmd q (cmdOpen s) pend run s)) : Host.Outcome State Fault Refusal) =
      .next (mgmtSaid cmd q st body t) := by
  rw [mgmt_of_fresh fresh hp, hr]
  exact congrArg _ (footCommand_eq_self pending nv sec cores epoch)

/-- With no check that fails a command has its effect. -/
theorem answer_of_checks_false {checks : List (Bool × Nat)} (h : ∀ c ∈ checks, c.1 = false) (act : State → State) (s : State) :
    answer checks act s = (0, [], act s) := by
  rw [answer, List.find?_eq_none.mpr (by simpa using h)]

/-! ### The keys of a pending epoch (R340) -/

/-- The keys of a port once those of an epoch are derived: a port that holds none, or holds that epoch's, keeps what it has. -/
def keysWith (k : BitVec 256) (epoch : Nat) (s : State) (i : PortIx) : List LinkKey :=
  if s.ports[i].keys = [] ∨ s.ports[i].keys.any (fun x => x.epoch == epoch) = true then s.ports[i].keys
  else s.ports[i].keys ++ [linkKey s k i s.ports[i].keyNonces epoch]

/-- Ports with the keys of each replaced. -/
def rekey (v : Vector PortSt 6) (keys : PortIx → List LinkKey) : Vector PortSt 6 :=
  Vector.ofFn fun i => { v[i] with keys := keys i }

@[simp] theorem rekey_at (v : Vector PortSt 6) (keys : PortIx → List LinkKey) (i : PortIx) :
    (rekey v keys)[i] = { v[i] with keys := keys i } := by simp [rekey]

theorem rekey_frame (v : Vector PortSt 6) (keys : PortIx → List LinkKey) (i : PortIx) :
    (rekey v keys)[i] = { v[i] with keys := (rekey v keys)[i].keys } := by rw [rekey_at]

/-- Ports that differ in their keys only. -/
theorem eq_rekey {v w : Vector PortSt 6} {keys : PortIx → List LinkKey} (h : ∀ i : PortIx, w[i] = { v[i] with keys := keys i }) :
    w = rekey v keys :=
  Vector.ext fun i hi => (h ⟨i, hi⟩).trans (rekey_at v keys ⟨i, hi⟩).symm

theorem rekey_self (v : Vector PortSt 6) : rekey v (fun i => v[i].keys) = v := (eq_rekey fun _ => rfl).symm

theorem rekey_rekey (v : Vector PortSt 6) (f g : PortIx → List LinkKey) : rekey (rekey v f) g = rekey v g :=
  eq_rekey fun i => (rekey_at (rekey v f) g i).trans (by rw [rekey_at])

/-- The keys of one port derived. -/
def deriveKeys (k : BitVec 256) (epoch : Nat) (s : State) (i : PortIx) : State :=
  { s with ports := rekey s.ports fun j => if j = i then keysWith k epoch s i else s.ports[j].keys }

theorem foldl_deriveKeys (k : BitVec 256) (epoch : Nat) (l : List PortIx) (s : State) (nodup : l.Nodup) :
    l.foldl (deriveKeys k epoch) s =
      { s with ports := rekey s.ports fun i => if i ∈ l then keysWith k epoch s i else s.ports[i].keys } := by
  induction l generalizing s with
  | nil =>
    have same : rekey s.ports (fun i => if i ∈ ([] : List PortIx) then keysWith k epoch s i else s.ports[i].keys) = s.ports :=
      .trans (congrArg _ (funext fun i => if_neg List.not_mem_nil)) (rekey_self s.ports)
    rw [same]
    rfl
  | cons a r ih =>
    obtain ⟨ha, hr⟩ := List.nodup_cons.mp nodup
    rw [List.foldl_cons, ih _ hr]
    suffices h : rekey (deriveKeys k epoch s a).ports (fun i => if i ∈ r then keysWith k epoch (deriveKeys k epoch s a) i else
        (deriveKeys k epoch s a).ports[i].keys) = rekey s.ports fun i => if i ∈ a :: r then keysWith k epoch s i else s.ports[i].keys by
      rw [h]
      rfl
    refine (rekey_rekey _ _ _).trans (congrArg _ (funext fun i => ?_))
    have port : (deriveKeys k epoch s a).ports[i] =
        { s.ports[i] with keys := if i = a then keysWith k epoch s a else s.ports[i].keys } := rekey_at _ _ i
    rw [keysWith, port]
    by_cases e : i = a
    · subst e
      simp [ha]
    · simp only [e, if_false, List.mem_cons, false_or]
      rfl

/-- The keys of a port derived, as the model does it: a port that takes none leaves the machine alone. -/
def deriveStep (k : BitVec 256) (epoch : Nat) (s : State) (i : PortIx) : State :=
  if s.ports[i].keys = [] ∨ s.ports[i].keys.any (fun x => x.epoch == epoch) = true then s
  else modPort i (fun q => { q with keys := q.keys ++ [linkKey s k i q.keyNonces epoch] }) s

theorem deriveStep_eq : deriveStep = deriveKeys := by
  funext k epoch s i
  unfold deriveStep deriveKeys keysWith
  split
  · have same : rekey s.ports (fun j => if j = i then s.ports[i].keys else s.ports[j].keys) = s.ports := by
      refine .trans (congrArg _ (funext fun j => ?_)) (rekey_self s.ports)
      split
      · next e => rw [e]
      · rfl
    rw [same]
  · refine congrArg (fun v => { s with ports := v }) (eq_rekey fun j => ?_)
    by_cases e : j = i
    · subst e
      rw [if_pos rfl]
      exact vmod_same _ _ _
    · rw [if_neg e]
      exact vmod_other _ i _ j j.isLt fun h => e (Fin.ext h.symm)

/-- The keys of a port with an epoch pending: of those it had the first, and the epoch's where the port derives them. -/
def pendKeys (e : Epoch) (s : State) (i : PortIx) : List LinkKey :=
  match s.sec.lkey with
  | some k => keysWith k e.num.toNat (dropEpoch s) i
  | none => s.ports[i].keys.take 1

/-- The keys of an epoch derived on every port, where the slice has a key to derive them from. -/
def deriveAll (epoch : Nat) (s : State) : State :=
  match s.sec.lkey with
  | some k => (List.finRange 6).foldl (deriveStep k epoch) s
  | none => s

theorem pendEpoch_def (e : Epoch) (step : BitVec 64) (s : State) :
    pendEpoch e step s = (let t := deriveAll e.num.toNat (dropEpoch s)
      { t with epochPend := some (e, step), mc := { t.mc with guardNext := e.guard } }) := rfl

theorem dropEpoch_ports (s : State) : (dropEpoch s).ports = rekey s.ports fun i => s.ports[i].keys.take 1 :=
  eq_rekey fun i => by simp [dropEpoch]

theorem deriveAll_dropEpoch (e : Epoch) (s : State) :
    deriveAll e.num.toNat (dropEpoch s) = { dropEpoch s with ports := rekey s.ports (pendKeys e s) } := by
  unfold deriveAll pendKeys
  rw [show (dropEpoch s).sec = s.sec from rfl]
  cases s.sec.lkey with
  | none =>
    dsimp only
    rw [← dropEpoch_ports]
  | some k =>
    dsimp only
    rw [deriveStep_eq]
    simp only [foldl_deriveKeys k e.num.toNat _ (dropEpoch s) (List.nodup_finRange 6), List.mem_finRange, if_true]
    rw [dropEpoch_ports, rekey_rekey]

theorem pendEpoch_eq (e : Epoch) (step : BitVec 64) (s : State) :
    pendEpoch e step s = { s with
      epochPend := some (e, step), cc := { s.cc with activateAt := none }, mc := { s.mc with guardNext := e.guard },
      ports := rekey s.ports (pendKeys e s) } := by
  rw [pendEpoch_def, deriveAll_dropEpoch]
  rfl

theorem take_pendKeys (e : Epoch) (s : State) (i : PortIx) : (pendKeys e s i).take 1 = s.ports[i].keys.take 1 := by
  have kept : (s.ports[i].keys.take 1).take 1 = s.ports[i].keys.take 1 := by simp
  have port : (dropEpoch s).ports[i].keys = s.ports[i].keys.take 1 := by rw [dropEpoch_ports, rekey_at]
  unfold pendKeys keysWith
  rw [port]
  split
  · split
    · exact kept
    · next h => rw [List.take_append_of_le_length (by cases hk : s.ports[i].keys <;> simp_all), kept]
  · exact kept

/-- A port with keys of another epoch holds those of the pending one besides. -/
theorem length_pendKeys {e : Epoch} {s : State} {i : PortIx} {k : BitVec 256} (hl : s.sec.lkey = some k) (hk : s.ports[i].keys ≠ [])
    (he : ∀ x ∈ s.ports[i].keys.take 1, x.epoch ≠ e.num.toNat) : (pendKeys e s i).length = 2 := by
  have port : (dropEpoch s).ports[i].keys = s.ports[i].keys.take 1 := by rw [dropEpoch_ports, rekey_at]
  have one : (s.ports[i].keys.take 1).length = 1 := by
    have := List.length_pos_iff.mpr hk
    rw [List.length_take]
    omega
  have derives : ¬ (s.ports[i].keys.take 1 = [] ∨ (s.ports[i].keys.take 1).any (fun x => x.epoch == e.num.toNat) = true) := by
    rintro (h | h)
    · rw [h] at one
      cases one
    · obtain ⟨x, hx, hex⟩ := List.any_eq_true.mp h
      exact he x hx (beq_iff_eq.mp hex)
  rw [pendKeys, hl]
  dsimp only
  rw [keysWith, port, if_neg derives, List.length_append, one]
  rfl

/-! ### The commands of epochs and step programs -/

/-- A block that passes every check of EPOCH_PEND pends its epoch. -/
theorem epochPendRun_of_fits {c l n : BitVec 64} {d b : List Byte} {s : State} (op : notOperational s = false)
    (plan : s.plane.plan.isSome = true) (grant : s.plane.grant.isSome = true) (hs : stagingBad c l = false) (hl : l.toNat = 448)
    (hb : b.length = 448) (magic : leAt b 0 4 = 0x31504550) (version : leAt b 4 2 = 1) (digest : sha384 b = d)
    (fits : epochFits s (epochOf b) = true) (later : s.mc.eLast.isSome = false ∨ s.mc.step.toNat < n.toNat) :
    epochPendRun c l d n b s = (0, [], pendEpoch (epochOf b) n s) := by
  have step : (s.mc.eLast.isSome && decide (n.toNat ≤ s.mc.step.toNat)) = false := by
    rcases later with h | h
    · rw [h]; rfl
    · rw [decide_eq_false (by omega), Bool.and_false]
  have passed := answer_of_checks_false (checks := [(stagingBad c l || decide (l.toNat ≠ epochBlockBytes), 2),
      (notOperational s || s.plane.plan.isNone || s.plane.grant.isNone, 1),
      (decide (leAt b 0 4 ≠ 0x31504550 ∨ leAt b 4 2 ≠ 1), 5), (decide (sha384 b ≠ d), 4),
      (decide (b.length ≠ epochBlockBytes) || !epochFits s (epochOf b), 2),
      (s.mc.eLast.isSome && decide (n.toNat ≤ s.mc.step.toNat), 2)])
    (by
      rw [step]
      simp [hs, hl, hb, op, magic, version, digest, fits, epochBlockBytes, ← Option.not_isSome, plan, grant])
    (pendEpoch (epochOf b) n) s
  rw [epochPendRun, passed]
  rfl

/-- A pending epoch of a slice is dropped. -/
theorem epochAbortRun_of_pending {s : State} (op : notOperational s = false) (plan : s.plane.plan.isSome = true)
    (pending : s.epochPend.isSome = true) : epochAbortRun s = (0, [], dropEpoch s) :=
  answer_of_checks_false (by simp [op, ← Option.not_isSome, plan, pending]) dropEpoch s

/-- A container of Table ISA-18 for a slot that is not selected is to be read. -/
theorem progLoadRun_pending {q : BitVec 16} {k : PSlot} {c l : BitVec 64} {d : List Byte} {s : State} (op : notOperational s = false)
    (grant : s.plane.grant.isSome = true) (hs : stagingBad c l = false) (hl : l.toNat ≤ containerMax) (free : slotSelected s k.val = false) :
    progLoadRun q k.val c l d s = (0xB, [], pendNoted 0x38 q (.progLoad k l.toNat d) s) := by
  have checks : [(decide (7 < k.val) || stagingBad c l || decide (containerMax < l.toNat), 2),
      (notOperational s || s.plane.grant.isNone, 1), (slotSelected s k.val, 7)].find? (fun c => c.1) = none := by
    simp [op, ← Option.not_isSome, grant, hs, hl, free]
    omega
  rw [progLoadRun, answerPending, checks, Fin.ofNat_eq_cast, Fin.cast_val_eq_self]
  rfl

/-- A slot of the chip set by its number. -/
theorem setIfInBounds_eq_vmod {α : Type} {n : Nat} (v : Vector α n) (i : Fin n) (x : α) :
    v.setIfInBounds i.val x = vmod v i (fun _ => x) := by
  refine Vector.ext fun j hj => ?_
  rw [vmod_at, Vector.getElem_setIfInBounds]

/-- A load whose container is too long, or whose slot is selected, empties the slot (R128). -/
theorem progLoadRun_refused {q : BitVec 16} {k : PSlot} {c l : BitVec 64} {d : List Byte} {s : State} (op : notOperational s = false)
    (hs : stagingBad c l = false) (bad : containerMax < l.toNat ∨ (s.plane.grant.isSome = true ∧ slotSelected s k.val = true)) :
    progLoadRun q k.val c l d s = (if containerMax < l.toNat then 2 else 7, [], { s with progs := vmod s.progs k (fun _ => none) }) := by
  have short : ¬ 7 < k.val := by omega
  rw [progLoadRun, setIfInBounds_eq_vmod]
  by_cases long : containerMax < l.toNat
  · simp [answerPending, long, hs]
  · obtain ⟨grant, sel⟩ := bad.resolve_left long
    simp [answerPending, long, hs, op, ← Option.not_isSome, grant, sel, short]

theorem progDropRun_of_free {k : PSlot} {s : State} (op : notOperational s = false) (free : slotSelected s k.val = false) :
    progDropRun k.val s = (0, [], { s with progs := vmod s.progs k (fun _ => none) }) := by
  rw [← setIfInBounds_eq_vmod]
  exact answer_of_checks_false (by simp [op, free]; omega) _ s

/-- The status with which a load of a container ends. -/
def loadEnds (k : PSlot) (d b : List Byte) (s : State) : Nat := if slotSelected s k.val = true then 7 else loadStatus s d b

theorem progLoaded_of_pending {k : PSlot} {c len : Nat} {m : BitVec 16} {d b : List Byte} {s : State}
    (h : s.cc.pendCmd = some (c, m, .progLoad k len d)) :
    progLoaded b s = { s with
      cc := { s.cc with pendCmd := none, pendLast := (c, m, loadEnds k d b s) },
      progs := vmod s.progs k (fun _ => if loadEnds k d b s = 0 then some (containerOf b) else none) } := by
  rw [progLoaded, h]
  dsimp only
  rw [endPending]
  dsimp only
  rw [h]
  rfl

/-- Settles O48: by what each command does with a fresh request that passes its checks, and with a container that has been read. -/
theorem epochsAndProgramsLoaded : Obligations.EpochsAndProgramsLoaded := by
  unfold Obligations.EpochsAndProgramsLoaded
  intro s q fresh op
  refine ⟨fun c l n d b plan grant hs hl hb magic version digest fits later => ?_, fun plan pending => ?_,
    fun k c l d idle hs hl grant free => ?_, fun k free => ?_, fun k c len m d b pending => ?_, fun k c l d idle hs bad => ?_⟩
  · have run := epochPendRun_of_fits (n := n) (s := mgmtHeard s) op plan grant hs hl hb magic version digest fits later
    rw [pendEpoch_eq] at run
    refine ⟨_, next_mgmt fresh (.inl rfl) run rfl rfl rfl rfl rfl, rfl, rfl, rfl, rfl, fun i => ?_⟩
    have keys := congrArg PortSt.keys (rekey_at s.ports (pendKeys (epochOf b) (mgmtHeard s)) i)
    exact ⟨rekey_frame s.ports _ i, (congrArg _ keys).trans (take_pendKeys _ (mgmtHeard s) i),
      fun k hk hne hnew => (congrArg _ keys).trans (length_pendKeys (s := mgmtHeard s) hk hne hnew)⟩
  · exact next_mgmt fresh (.inl rfl) (epochAbortRun_of_pending op plan pending) rfl rfl rfl rfl rfl
  · exact next_mgmt fresh (.inr idle) (progLoadRun_pending op grant hs hl free) rfl rfl rfl rfl rfl
  · exact next_mgmt fresh (.inl rfl) (progDropRun_of_free op free) rfl rfl rfl rfl rfl
  · refine ⟨_, congrArg Host.Outcome.next ((congrArg _ (progLoaded_of_pending pending)).trans (footCommand_eq_self rfl rfl rfl rfl rfl)),
      rfl, fun j hj => vmod_other _ k _ j j.isLt fun e => hj (Fin.ext e.symm), fun h => ?_, fun h => ?_⟩
    · exact (vmod_same _ k _).trans (if_pos h)
    · exact (vmod_same _ k _).trans (if_neg h)
  · exact next_mgmt fresh (.inr idle) (progLoadRun_refused op hs bad) rfl rfl rfl rfl rfl

end Sys2Proof.Machine
end

section
/-!
PROOFS. Words of the step program that issue: the blocks that leave by the request faces (R52 to R55, R152, R153, R201).
-/

namespace Sys2Proof.Machine

/-! ### The issue of a word -/

/-- A change of the running step alone lies in the footprint of a word. -/
theorem footWord_eq_self {s t : State} (h : t = { s with out := t.out, run := t.run }) : footWord s t = t := by
  have cores : keepAssign s t = s.cores := keepAssign_cores s t (by rw [h])
  rw [footWord, cores]
  conv_rhs => rw [h]
  rw [h]

theorem issueWord_done {q i : Nat} {w : IWord} {sel : IWord → Bool} {down : State → Bool}
    {work : Nat → IWord → State → Option State} {s t : State} (ready : readyWord s q = some (i, w)) (hsel : sel w = true)
    (awake : down s = false) (hw : work i w s = some t) : issueWord q sel down work s = finishWord q 1 w t := by
  rw [issueWord, ready]
  dsimp only
  rw [if_pos hsel, awake, hw]
  rfl

theorem issueWord_held {q i : Nat} {w : IWord} {sel : IWord → Bool} {down : State → Bool}
    {work : Nat → IWord → State → Option State} {s : State} (ready : readyWord s q = some (i, w)) (hsel : sel w = true)
    (awake : down s = false) (hw : work i w s = none) : issueWord q sel down work s = s := by
  rw [issueWord, ready]
  dsimp only
  rw [if_pos hsel, awake, hw]
  rfl

/-! ### What the end of a word notes in the running step -/

/-- A change of the running step that leaves the place of its queues and the words that have sent. -/
structure Noted (s t : State) : Prop where
  /-- Nothing but the running step. -/
  rest : t = { s with run := t.run }
  /-- The queues. -/
  ptr : t.run.ptr = s.run.ptr
  /-- The words that have sent. -/
  sent : t.run.sentWords = s.run.sentWords

theorem Noted.refl (s : State) : Noted s s := ⟨rfl, rfl, rfl⟩

theorem Noted.trans {s t u : State} (h : Noted s t) (k : Noted t u) : Noted s u :=
  ⟨by rw [k.rest, h.rest], k.ptr.trans h.ptr, k.sent.trans h.sent⟩

theorem noted_setStatus (i code : Nat) (half : Bool) (s : State) : Noted s (setStatus i code half s) := ⟨rfl, rfl, rfl⟩

theorem noted_wordErr (i : Nat) (p : Option Part) (e : ErrEntry) (s : State) : Noted s (wordErr i p e s) := by
  cases p with
  | none => exact .refl s
  | some p => exact ⟨rfl, rfl, rfl⟩

theorem noted_foldl {α : Type} {f : State → α → State} (h : ∀ s x, Noted s (f s x)) (l : List α) (s : State) :
    Noted s (l.foldl f s) := by
  induction l generalizing s with
  | nil => exact .refl s
  | cons x r ih => exact (h s x).trans (ih (f s x))

theorem noted_facePartTag (i : Nat) (failed : List Nat) (s : State) : Noted s (facePartTag i failed s) := by
  unfold facePartTag
  split
  · exact noted_setStatus i 0 false s
  · exact (noted_foldl (fun s p => noted_wordErr i (some p) _ s) _ s).trans (noted_setStatus i 3 false _)

/-! ### A block leaves (Table REL-8) -/

/-- What follows where a word of a face sends a block, notes its end and is over. -/
structure BlockLeft (f : FaceIx) (i : Nat) (o : Out) (s t : State) : Prop where
  /-- Nothing else changes. -/
  rest : t = { s with out := t.out, run := t.run }
  /-- The queue goes on. -/
  passed : wordPassed s t (202 + f.val)
  /-- The block is sent, once. -/
  out : t.out = if s.run.sentWords.contains i = true then s.out else s.out ++ [o]
  /-- The word has sent. -/
  sent : i ∈ t.run.sentWords

theorem sendOnce_rest (i : Nat) (o : Out) (s : State) :
    sendOnce i o s = { s with out := (sendOnce i o s).out, run := (sendOnce i o s).run } := by
  unfold sendOnce
  split <;> rfl

theorem sendOnce_ptr (i : Nat) (o : Out) (s : State) : (sendOnce i o s).run.ptr = s.run.ptr := by
  unfold sendOnce
  split <;> rfl

theorem sendOnce_out (i : Nat) (o : Out) (s : State) :
    (sendOnce i o s).out = if s.run.sentWords.contains i = true then s.out else s.out ++ [o] := by
  unfold sendOnce
  split <;> rfl

theorem mem_sentWords_sendOnce (i : Nat) (o : Out) (s : State) : i ∈ (sendOnce i o s).run.sentWords := by
  unfold sendOnce
  split
  · next h => exact List.contains_iff_mem.mp h
  · exact List.mem_append_right _ List.mem_cons_self

theorem issueOut_blockLeft {f : FaceIx} {kind i : Nat} {w : IWord} {work : Nat → IWord → State → Option State} {o : Out} {s u : State}
    (due : FaceDue s f kind i w) (hw : work i w s = some u) (noted : Noted (sendOnce i o s) u) :
    BlockLeft f i o s (issueOut f kind work s) := by
  have ended : issueOut f kind work s = footWord s (finishWord (202 + f.val) 1 w u) := by
    rw [issueOut, issuePlain, issueWord_done due.next (by rw [due.op, due.kind]; simp) rfl hw]
  have rest : u = { s with out := u.out, run := u.run } := by
    rw [noted.rest]
    conv_lhs => rw [sendOnce_rest i o s]
  have kept : finishWord (202 + f.val) 1 w u =
      { s with out := (finishWord (202 + f.val) 1 w u).out, run := (finishWord (202 + f.val) 1 w u).run } := by
    conv_lhs => rw [rest]
    rfl
  rw [ended, footWord_eq_self kept]
  refine ⟨kept, ?_, ?_, ?_⟩
  · change tabMod 0 u.run.ptr _ _ = _
    rw [noted.ptr, sendOnce_ptr]
  · rw [finishWord_out, ← sendOnce_out, noted.rest]
  · change i ∈ u.run.sentWords
    rw [noted.sent]
    exact mem_sentWords_sendOnce i o s

/-! ### The blocks -/

/-- The BITMAP of a program without passes, or with its hand-over check done (R185). -/
theorem bitmapWork_ready {f : FaceIx} {s : State} (h : s.run.checked = true ∨
    progWords s (fun w => wOp w == 0x90 && fld w 46 4 != 0) = []) (i : Nat) (w : IWord) :
    bitmapWork f i w s = some (setStatus i 0 false (sendOnce i (.face f 0x8 0 0 (bitmapBytes s f)) s)) := by
  rw [bitmapWork, if_neg]
  rintro ⟨unchecked, passes⟩
  rcases h with h | h
  · rw [h] at unchecked
    cases unchecked
  · exact passes h

/-- The bytes of one row of a DELTA block (R52 to R54, R152, R153). -/
def deltaRow (s : State) (f : FaceIx) (w : FaceWord) (row : Nat) : List Byte :=
  let g := targetOf s w.target
  let wd := deltaWidth s (tagPart (tagOf s row)) f
  if isPoisoned s f row = true then nanRow wd g.dout
  else if zeroRow s w.target row = true ∨ (g.typ = 3 ∧ 0 < rowTopk s row) then List.replicate (g.dout * wd) 0
  else (gatherRow s w false (g.dout * wd) row).getD (nanRow wd g.dout)

theorem deltaWork_eq (f : FaceIx) (i : Nat) (w : IWord) (s : State) : ∃ failed, deltaWork f i w s =
    some (facePartTag i failed
      (sendOnce i (.face f 9 (fld w 50 4) (fld w 54 10) ((faceRows s f).flatMap (deltaRow s f (faceWord w)))) s)) := by
  refine ⟨_, congrArg (fun b => some (facePartTag i _ (sendOnce i (.face f 9 (fld w 50 4) (fld w 54 10) b) s))) ?_⟩
  rw [List.flatMap_map]
  refine congrArg (List.flatMap · (faceRows s f)) (funext fun row => ?_)
  simp only [deltaRow, Bool.or_eq_true, Bool.and_eq_true, beq_iff_eq, decide_eq_true_eq]
  by_cases poisoned : isPoisoned s f row = true
  · simp only [if_pos poisoned]
  by_cases zero : zeroRow s (faceWord w).target row = true ∨ ((targetOf s (faceWord w).target).typ = 3 ∧ 0 < rowTopk s row)
  · simp only [if_neg poisoned, if_pos zero]
  · simp only [if_neg poisoned, if_neg zero]
    cases gatherRow _ _ _ _ _ <;> rfl

/-- A row of an IGRAD block (R201): FP32 values joined from the cores, without the loss scale and rounded to B16. -/
def igradRow (s : State) (f : FaceIx) (w : FaceWord) (row : Nat) : List Byte :=
  let g := targetOf s w.target
  if s.run.gradRefused.contains (f, w.target, w.layer) = true ∨ isPoisoned s f row = true then nanRow 2 g.din
  else if zeroRow s w.target row = true then List.replicate (2 * g.din) 0
  else ((gatherRow s w true (g.din * 4) row).map (fun b => (chunk 4 g.din b).flatMap (fun x => leBytes 2
    (fpConvert fmtB16 false (f32Val (f32Scale (BitVec.ofNat 32 (leNat x)) (-s.parts[tagPart (tagOf s row)].loss.ls)).1)).1))).getD
      (nanRow 2 g.din)

theorem igradWork_eq (f : FaceIx) (i : Nat) (w : IWord) (s : State) : ∃ failed, igradWork f i w s =
    some (facePartTag i failed (sendOnce i (.face f 0xA (fld w 50 4) (fld w 54 10)
      (((faceRows s f).filter (fun r => tagGrad (tagOf s r))).flatMap (igradRow s f (faceWord w)))) s)) := by
  refine ⟨_, congrArg (fun b => some (facePartTag i _ (sendOnce i (.face f 0xA (fld w 50 4) (fld w 54 10) b) s))) ?_⟩
  rw [List.flatMap_map]
  refine congrArg (List.flatMap · _) (funext fun row => ?_)
  simp only [igradRow, Bool.or_eq_true]
  by_cases refused : s.run.gradRefused.contains (f, (faceWord w).target, (faceWord w).layer) = true ∨ isPoisoned s f row = true
  · simp only [if_pos refused]
  by_cases zero : zeroRow s (faceWord w).target row = true
  · simp only [if_neg refused, if_pos zero]
  · simp only [if_neg refused, if_neg zero]
    cases gatherRow _ _ _ _ _ <;> rfl

/-- Settles O25: by the bytes of each block, and what follows when a word of a face sends one. -/
theorem faceBlocksSent : Obligations.FaceBlocksSent := by
  unfold Obligations.FaceBlocksSent
  intro f s i w
  refine ⟨fun due unchecked passes => ?_, fun due ready => ?_, fun due => ?_, fun due => ?_⟩
  · have held : bitmapWork f i w s = none := if_pos ⟨unchecked, passes⟩
    have same : issueOut f 8 (bitmapWork f) s = s := by
      rw [issueOut, issuePlain, issueWord_held due.next (by rw [due.op, due.kind]; simp) rfl held]
      exact footWord_eq_self rfl
    exact congrArg Host.Outcome.next same
  · obtain ⟨rest, passed, out, -⟩ := issueOut_blockLeft due (bitmapWork_ready ready i w) (noted_setStatus i 0 false _)
    exact ⟨_, rfl, rest, passed, out⟩
  · obtain ⟨failed, hw⟩ := deltaWork_eq f i w s
    obtain ⟨rest, passed, out, sent⟩ := issueOut_blockLeft due hw (noted_facePartTag i failed _)
    exact ⟨_, rfl, rest, passed, out, sent⟩
  · obtain ⟨failed, hw⟩ := igradWork_eq f i w s
    obtain ⟨rest, passed, out, sent⟩ := issueOut_blockLeft due hw (noted_facePartTag i failed _)
    exact ⟨_, rfl, rest, passed, out, sent⟩

end Sys2Proof.Machine
end

section
/-!
PROOFS. The reductions over the cores of a cluster: what each DEST receives, and what a reduction leaves alone (R48, R49, R114, R119,
R148, R170, R206, R247).
-/

namespace Sys2Proof.Machine

/-! ### Words that may wait in flight (R119) -/

theorem landFlight_eq_none {s : State} {q : Nat} (h : noFlight s q) (sel : IWord → Bool) (work : Nat → IWord → State → Option State) :
    landFlight q sel work s = none := by
  unfold landFlight
  split
  · rfl
  · exact List.findSome?_eq_none_iff.mpr fun x hx => if_neg fun e => h x hx e.1

theorem issueOpen_of_ready {s : State} {q : Nat} {x : Nat × IWord} (h : readyWord s q = some x) : issueOpen s = true := by
  unfold readyWord at h
  split at h
  · assumption
  · cases h

section

variable {q i : Nat} {w : IWord} {sel : IWord → Bool} {down : State → Bool} {work : Nat → IWord → State → Option State} {s : State}

theorem issueFlight_done {t : State} (ready : readyWord s q = some (i, w)) (idle : noFlight s q) (hsel : sel w = true)
    (awake : down s = false) (hw : work i w s = some t) : issueFlight q sel down work s = finishWord q 1 w t := by
  rw [issueFlight, if_neg (by rw [issueOpen_of_ready ready]; decide), landFlight_eq_none idle, ready]
  dsimp only
  rw [if_pos hsel, awake, hw]
  rfl

theorem issueFlight_waits (ready : readyWord s q = some (i, w)) (idle : noFlight s q) (hsel : sel w = true)
    (awake : down s = false) (hw : work i w s = none) : issueFlight q sel down work s = departWord q i s := by
  rw [issueFlight, if_neg (by rw [issueOpen_of_ready ready]; decide), landFlight_eq_none idle, ready]
  dsimp only
  rw [if_pos hsel, awake, hw]
  rfl

end

theorem finishWord_setStatus (q i code : Nat) (w : IWord) (s : State) :
    finishWord q 1 w (setStatus i code false s) = { s with run := wordOver q i code w s.run } := rfl

/-! ### Events of a vector unit (R114) -/

/-- A change of the latches of one core alone. -/
structure Latched (n : CoreIx) (s t : State) : Prop where
  /-- Nothing but cores. -/
  rest : t = { s with cores := t.cores }
  /-- The other cores. -/
  others : ∀ m : CoreIx, m ≠ n → t.cores[m] = s.cores[m]
  /-- The core but for its latches. -/
  core : t.cores[n] = { s.cores[n] with latches := t.cores[n].latches }

theorem Latched.refl (n : CoreIx) (s : State) : Latched n s s := ⟨rfl, fun _ _ => rfl, rfl⟩

theorem Latched.trans {n : CoreIx} {s t u : State} (h : Latched n s t) (k : Latched n t u) : Latched n s u :=
  ⟨by rw [k.rest, h.rest], fun m hm => (k.others m hm).trans (h.others m hm), by rw [k.core, h.core]⟩

theorem latched_modCore (n : CoreIx) (g : CoreSt → Vector Latch 9) (s : State) :
    Latched n s (modCore n (fun k => { k with latches := g k }) s) := by
  have core : (modCore n (fun k => { k with latches := g k }) s).cores[n] = { s.cores[n] with latches := g s.cores[n] } :=
    vmod_same _ n _
  exact ⟨rfl, fun m hm => vmod_other _ n _ m m.isLt fun e => hm (Fin.ext e.symm), by rw [core]⟩

theorem latched_foldl {α : Type} {n : CoreIx} {f : State → α → State} (h : ∀ s x, Latched n s (f s x)) (l : List α) (s : State) :
    Latched n s (l.foldl f s) := by
  induction l generalizing s with
  | nil => exact .refl n s
  | cons x r ih => exact (h s x).trans (ih (f s x))

theorem latched_coreEvent (n : CoreIx) (latch : Fin 9) (kind flag elem col row instr : Nat) (s : State) :
    Latched n s (coreEvent n latch kind flag elem col row instr s) := by
  unfold coreEvent
  split
  · exact .refl n s
  · exact latched_modCore n _ s

theorem latched_redEvents (n : CoreIx) (i row : Nat) (evs : List (Nat × Nat)) (s : State) : Latched n s (redEvents n i row evs s) :=
  latched_foldl (fun s _ => latched_coreEvent n 8 _ _ _ _ _ _ s) evs s

/-- A field of a core other than its latches. -/
theorem Latched.field {β : Type} {n : CoreIx} {s t : State} (h : Latched n s t) {g : CoreSt → β}
    (hg : ∀ k l, g { k with latches := l } = g k) (m : CoreIx) : g t.cores[m] = g s.cores[m] := by
  by_cases e : m = n
  · rw [e, h.core, hg]
  · rw [h.others m e]

theorem Latched.feed {n : CoreIx} {s t : State} (h : Latched n s t) (m : CoreIx) : t.cores[m].feed = s.cores[m].feed :=
  h.field (fun _ _ => rfl) m

theorem Latched.store {n : CoreIx} {s t : State} (h : Latched n s t) (m : CoreIx) : t.cores[m].store = s.cores[m].store :=
  h.field (fun _ _ => rfl) m

theorem Latched.clusters {n : CoreIx} {s t : State} (h : Latched n s t) : t.clusters = s.clusters := by rw [h.rest]

/-! ### A reduction that has all its block sums -/

/-- The vectors of a REDUCE: block position, position, batch row, u and its events. -/
abbrev RedVectors := List (Nat × Nat × Nat × List F32 × List (Nat × Nat))

/-- The block sums of a REDUCE are spent. -/
def spendSums (c : ClusterIx) (r : ReduceWord) (s : State) : State :=
  modCluster c (fun k => { k with reds := tabSet [] k.reds r.rid [] }) s

/-- The machine when a REDUCE gives its vectors on: the events of the tree latched in its vector unit. -/
def treeEvents (vc : CoreIx) (i : Nat) (l : RedVectors) (s : State) : State :=
  l.foldl (fun s x => redEvents vc i x.2.2.1 x.2.2.2.2 s) (modCore vc (fun k => { k with latches := vset k.latches 8 {} }) s)

theorem latched_treeEvents (vc : CoreIx) (i : Nat) (l : RedVectors) (s : State) : Latched vc s (treeEvents vc i l s) := by
  have cleared := latched_modCore vc (fun k => vset k.latches 8 {}) s
  have events := latched_foldl (f := fun s x => redEvents vc i x.2.2.1 x.2.2.2.2 s) (fun s x => latched_redEvents vc i _ _ s) l
    (modCore vc (fun k => { k with latches := vset k.latches 8 {} }) s)
  exact cleared.trans events

/-- A REDUCE with every block sum gives its vectors on, between events of its vector unit, and spends the sums. -/
theorem reduceWork_done {c : ClusterIx} {dest i : Nat} {w : IWord} {s : State} {l : RedVectors}
    {give : Nat → ReduceWord → Seg → CoreIx → RedVectors → State → State} (hd : (reduceWord w).dest = dest)
    (seg : (reduceWord w).seg < s.run.segs.length)
    (target : bitAt (slotOf s (s.run.segs.getD (reduceWord w).seg {}).slot).tmask (reduceWord w).target = true)
    (all : redAll s c i (reduceWord w) (s.run.segs.getD (reduceWord w).seg {}) = some l) :
    ∃ code ≤ 1, ∃ s₁ u, Latched (coreOf c (reduceWord w).vc) s s₁ ∧
      Latched (coreOf c (reduceWord w).vc) (spendSums c (reduceWord w)
        (give i (reduceWord w) (s.run.segs.getD (reduceWord w).seg {}) (coreOf c (reduceWord w).vc) l s₁)) u ∧
      reduceWork c dest give i w s = some (setStatus i code false u) := by
  have present : ¬ (s.run.segs.length ≤ (reduceWord w).seg ∨
      bitAt (slotOf s (s.run.segs.getD (reduceWord w).seg {}).slot).tmask (reduceWord w).target = false) := by
    rw [target]
    simpa using seg
  rw [reduceWork, if_neg (not_not.mpr hd), if_neg present, all]
  refine ⟨_, ?_, treeEvents _ i l s, _, latched_treeEvents _ i l s, latched_modCore _ _ _, rfl⟩
  unfold vuStatus
  split <;> decide

/-- What a REDUCE leaves that has given its vectors on from the state s₁: its cluster and cores as the giving leaves them, but for
latches, and its word over. -/
structure Reduced (c : ClusterIx) (i code : Nat) (w : IWord) (give : State → State) (s s₁ t : State) : Prop where
  /-- Events before the vectors are given on. -/
  start : Latched (coreOf c (reduceWord w).vc) s s₁
  /-- Nothing but cores, clusters and the running step changes. -/
  rest : t = { s with cores := t.cores, clusters := t.clusters, run := wordOver (192 + c.val) i code w s.run }
  /-- The block sums are spent. -/
  clusters : t.clusters = vmod (give s₁).clusters c (fun k => { k with reds := tabSet [] k.reds (reduceWord w).rid [] })
  /-- The feeder queues. -/
  feed : ∀ m : CoreIx, t.cores[m].feed = (give s₁).cores[m].feed
  /-- The core stores. -/
  store : ∀ m : CoreIx, t.cores[m].store = (give s₁).cores[m].store
  /-- A core other than VC that the giving leaves alone. -/
  others : ∀ m : CoreIx, m ≠ coreOf c (reduceWord w).vc → (give s₁).cores[m] = s₁.cores[m] → t.cores[m] = s.cores[m]

/-- A change of cores and clusters. -/
def UnitsOnly (s t : State) : Prop := t = { s with cores := t.cores, clusters := t.clusters }

/-- The word of a REDUCE command carried out. -/
def reduceRun (c : ClusterIx) (dest : Nat) (give : Nat → ReduceWord → Seg → CoreIx → RedVectors → State → State) (s : State) : State :=
  footWord s (issueFlight (192 + c.val) (fun w => wOp w == 0x40 && fld w 68 2 == dest) (fun s => clusterDown s c)
    (reduceWork c dest give) s)

section

variable {c : ClusterIx} {dest i : Nat} {w : IWord} {s : State} {give : Nat → ReduceWord → Seg → CoreIx → RedVectors → State → State}
  (ready : WordReady s (192 + c.val) (clusterDown s c) i w) (op : wOp w = 0x40) (idle : noFlight s (192 + c.val))
  (hd : (reduceWord w).dest = dest)

include ready op idle hd

theorem reduceRun_done {code : Nat} {u : State} (hw : reduceWork c dest give i w s = some (setStatus i code false u)) :
    reduceRun c dest give s = footWord s { u with run := wordOver (192 + c.val) i code w u.run } := by
  have sel : (wOp w == 0x40 && fld w 68 2 == dest) = true := by
    rw [op, ← hd]
    simp [reduceWord]
  rw [reduceRun, issueFlight_done ready.next idle sel ready.awake hw, finishWord_setStatus]

theorem reduceRun_waits (hw : reduceWork c dest give i w s = none) :
    reduceRun c dest give s = departWord (192 + c.val) i s := by
  have sel : (wOp w == 0x40 && fld w 68 2 == dest) = true := by
    rw [op, ← hd]
    simp [reduceWord]
  rw [reduceRun, issueFlight_waits ready.next idle sel ready.awake hw]
  exact footWord_eq_self rfl

/-- A word whose segment or target is absent is SKIPPED. -/
theorem reduceRun_skips (absent : s.run.segs.length ≤ (reduceWord w).seg ∨
    bitAt (slotOf s (s.run.segs.getD (reduceWord w).seg {}).slot).tmask (reduceWord w).target = false) :
    reduceRun c dest give s =
      footWord s { passSkip c (reduceWord w) s with
        run := wordOver (192 + c.val) i 4 w (passSkip c (reduceWord w) s).run } := by
  refine reduceRun_done ready op idle hd ?_
  rw [reduceWork, if_neg (not_not.mpr hd), if_pos absent]

/-- A word with every block sum completes, its status 0 or 1 by the events of its vector unit. -/
theorem reduceRun_reduced {l : RedVectors} (seg : (reduceWord w).seg < s.run.segs.length)
    (target : bitAt (slotOf s (s.run.segs.getD (reduceWord w).seg {}).slot).tmask (reduceWord w).target = true)
    (all : redAll s c i (reduceWord w) (s.run.segs.getD (reduceWord w).seg {}) = some l)
    (units : ∀ s₁, UnitsOnly s₁
      (give i (reduceWord w) (s.run.segs.getD (reduceWord w).seg {}) (coreOf c (reduceWord w).vc) l s₁)) :
    ∃ code ≤ 1, ∃ s₁, Reduced c i code w
      (give i (reduceWord w) (s.run.segs.getD (reduceWord w).seg {}) (coreOf c (reduceWord w).vc) l) s s₁ (reduceRun c dest give s) := by
  obtain ⟨code, hc, s₁, u, start, done, hw⟩ := reduceWork_done (give := give) hd seg target all
  have given := units s₁
  generalize give i (reduceWord w) (s.run.segs.getD (reduceWord w).seg {}) (coreOf c (reduceWord w).vc) l = g at *
  have cores (m : CoreIx) : (reduceRun c dest give s).cores[m] = { u.cores[m] with part := s.cores[m].part, byp := s.cores[m].byp } := by
    rw [reduceRun_done ready op idle hd hw]
    exact keepAssign_at s _ m m.isLt
  have rest : u = { s with cores := u.cores, clusters := u.clusters } := by
    rw [done.rest, spendSums, given, start.rest]
    rfl
  refine ⟨code, hc, s₁, start, ?_, ?_, fun m => ?_, fun m => ?_, fun m hm same => ?_⟩
  · rw [reduceRun_done ready op idle hd hw, rest]
    rfl
  · rw [reduceRun_done ready op idle hd hw]
    exact done.clusters
  · rw [cores m]
    exact done.feed m
  · rw [cores m]
    exact done.store m
  · have kept : u.cores[m] = s.cores[m] := (done.others m hm).trans (same.trans (start.others m hm))
    rw [cores m, kept]

end

/-! ### The cores of a mask -/

theorem mem_maskBits {mask n j : Nat} : j ∈ maskBits mask n ↔ j < n ∧ mask.testBit j = true := by
  simp [maskBits, nfld, Nat.testBit, Nat.one_and_eq_mod_two]

theorem nodup_maskBits (mask n : Nat) : (maskBits mask n).Nodup := List.nodup_range.filter _

theorem coreOf_injective {c : ClusterIx} {i j : Nat} (hi : i < 8) (hj : j < 8) (h : coreOf c i = coreOf c j) : i = j := by
  have := congrArg Fin.val h
  simp only [coreOf] at this
  omega

/-- The cores of a cluster named by a list changed alike. -/
def modCores (c : ClusterIx) (l : List Nat) (f : CoreSt → CoreSt) (s : State) : State := l.foldl (fun s j => modCore (coreOf c j) f s) s

theorem modCores_rest (c : ClusterIx) (l : List Nat) (f : CoreSt → CoreSt) (s : State) :
    modCores c l f s = { s with cores := (modCores c l f s).cores } := by
  unfold modCores
  induction l generalizing s with
  | nil => rfl
  | cons j r ih => exact ih (modCore (coreOf c j) f s)

theorem modCores_core {c : ClusterIx} {l : List Nat} (nodup : l.Nodup) (lt : ∀ j ∈ l, j < 8) (f : CoreSt → CoreSt) (s : State) {j : Nat}
    (hj : j < 8) :
    (modCores c l f s).cores[coreOf c j] = if j ∈ l then f s.cores[coreOf c j] else s.cores[coreOf c j] := by
  unfold modCores
  induction l generalizing s with
  | nil => rfl
  | cons a r ih =>
    obtain ⟨ha, hr⟩ := List.nodup_cons.mp nodup
    rw [List.foldl_cons, ih hr fun j hj => lt j (List.mem_cons_of_mem a hj)]
    by_cases e : j = a
    · subst e
      rw [if_neg ha, if_pos List.mem_cons_self]
      exact vmod_same _ _ _
    · have core : (modCore (coreOf c a) f s).cores[coreOf c j] = s.cores[coreOf c j] :=
        vmod_other _ _ _ _ _ fun h => e (coreOf_injective hj (lt a List.mem_cons_self) (Fin.ext h.symm))
      rw [core]
      simp only [List.mem_cons, e, false_or]

/-! ### A table filled from a list -/

/-- An entry of a table filled from a list, where all that is written to its key is one value. -/
theorem tabGet_foldl_tabSet {α β : Type} [DecidableEq α] {d v : α} {key : β → Nat} {val : β → α} {k : Nat} {l : List β} {t : Tab α}
    (wf : tabWf d t = true) (hv : ∀ y ∈ l, key y = k → val y = v) (hk : (∃ y ∈ l, key y = k) ∨ tabGet d t k = v) :
    tabGet d (l.foldl (fun t y => tabSet d t (key y) (val y)) t) k = v := by
  induction l generalizing t with
  | nil => simpa using hk
  | cons a r ih =>
    refine ih (tabWf_tabSet d _ t _ wf) (fun y hy => hv y (List.mem_cons_of_mem a hy)) ?_
    by_cases e : key a = k
    · right
      rw [← e, tabGet_tabSet_wf d _ t _ 0 wf]
      exact hv a List.mem_cons_self e
    · rw [tabGet_tabSet_other d _ t _ _ (Ne.symm e)]
      simpa [e] using hk

/-! ### The positions of a reduction -/

/-- The vector of one position put before those of the others, unless the row is zero; none while a block sum is missing. -/
def redStep (s : State) (c : ClusterIx) (i : Nat) (r : ReduceWord) (sg : Seg) (x : Nat × Nat) (acc : Option RedVectors) :
    Option RedVectors :=
  let row := rowAt s sg x.2
  if zeroRow s r.target row then acc else
  match acc, redVector (tabGet [] s.clusters[c].reds r.rid) r sg.rank x.2 with
  | some l, some (u, e) => some ((x.1, x.2, row, (if unitPoison s i row then (u.map (fun _ => f32Nan), []) else (u, e))) :: l)
  | _, _ => none

theorem redAll_eq (s : State) (c : ClusterIx) (i : Nat) (r : ReduceWord) (sg : Seg) :
    redAll s c i r sg = (redPositions s c r sg).foldr (redStep s c i r sg) (some []) := rfl

theorem redStep_cases {s : State} {c : ClusterIx} {i : Nat} {r : ReduceWord} {sg : Seg} {x : Nat × Nat} {acc : Option RedVectors}
    {l : RedVectors} (h : redStep s c i r sg x acc = some l) : acc = some l ∨ ∃ y m, acc = some m ∧ l = (x.1, x.2, y) :: m := by
  unfold redStep at h
  dsimp only at h
  split at h
  · exact .inl h
  · split at h
    · exact .inr ⟨_, _, rfl, (Option.some.inj h).symm⟩
    · cases h

/-- The vectors stand in the order of the positions, each at most once. -/
theorem sublist_of_redStep {s : State} {c : ClusterIx} {i : Nat} {r : ReduceWord} {sg : Seg} {ps : List (Nat × Nat)} {l : RedVectors}
    (h : ps.foldr (redStep s c i r sg) (some []) = some l) : (l.map (fun x => x.2.1)).Sublist (ps.map Prod.snd) := by
  induction ps generalizing l with
  | nil =>
    cases h
    exact .slnil
  | cons p ps ih =>
    obtain h | ⟨y, m, hm, rfl⟩ := redStep_cases h
    · exact (ih h).cons _
    · exact (ih hm).cons_cons _

theorem nodup_redPositions (s : State) (c : ClusterIx) (r : ReduceWord) (sg : Seg) :
    ((redPositions s c r sg).map Prod.snd).Nodup := by
  rw [redPositions, List.map_map]
  exact List.nodup_range.map fun a b h => Nat.add_left_cancel h

theorem nodup_redAll {s : State} {c : ClusterIx} {i : Nat} {r : ReduceWord} {sg : Seg} {l : RedVectors}
    (h : redAll s c i r sg = some l) : (l.map (fun x => x.2.1)).Nodup := by
  rw [redAll_eq] at h
  exact (nodup_redPositions s c r sg).sublist (sublist_of_redStep h)

end Sys2Proof.Machine
end

section
/-!
PROOFS. What a reduction gives to each DEST: feeder queues, the RCC unit, u in a core store, the partial sums (R48, R49, R148, R170,
R206).
-/

namespace Sys2Proof.Machine

/-! ### A word that is skipped, a word that waits -/

/-- The segment of a skipped word's NET groups, named in each of its cores. -/
theorem passSkip_eq_modCores {c : ClusterIx} {r : ReduceWord} {s : State} (h : r.dest = 0) :
    passSkip c r s = modCores c (maskBits r.cores 8) (fun k => { k with feedSeg := tabSet 0 k.feedSeg r.rid (r.seg + 1) }) s := by
  rw [passSkip, if_pos h, modCores]

/-- The feeder queues are in the footprint of a word. -/
theorem footWord_feed (s t : State) (m : CoreIx) : (footWord s t).cores[m].feed = t.cores[m].feed := by
  have core : (footWord s t).cores[m] = { t.cores[m] with part := s.cores[m].part, byp := s.cores[m].byp } :=
    keepAssign_at s t m m.isLt
  rw [core]

theorem lt_of_mem_maskBits {mask n j : Nat} (h : j ∈ maskBits mask n) : j < n := (mem_maskBits.mp h).1

section

variable {c : ClusterIx} {dest i : Nat} {w : IWord} {s : State} {give : Nat → ReduceWord → Seg → CoreIx → RedVectors → State → State}
  (ready : WordReady s (192 + c.val) (clusterDown s c) i w) (op : wOp w = 0x40) (idle : noFlight s (192 + c.val))
  (hd : (reduceWord w).dest = dest)

include ready op idle hd

/-- A skipped word of no feeder queue changes the step alone. -/
theorem reduceRun_skips_others (h : dest ≠ 0) (absent : s.run.segs.length ≤ (reduceWord w).seg ∨
    bitAt (slotOf s (s.run.segs.getD (reduceWord w).seg {}).slot).tmask (reduceWord w).target = false) :
    reduceRun c dest give s = { s with run := wordOver (192 + c.val) i 4 w s.run } := by
  have kept : passSkip c (reduceWord w) s = s := if_neg (hd ▸ h)
  rw [reduceRun_skips ready op idle hd absent, kept]
  exact footWord_eq_self rfl

/-- A skipped word of the feeder queues leaves them as they are. -/
theorem reduceRun_skips_feed (h : dest = 0) (absent : s.run.segs.length ≤ (reduceWord w).seg ∨
    bitAt (slotOf s (s.run.segs.getD (reduceWord w).seg {}).slot).tmask (reduceWord w).target = false) :
    reduceRun c dest give s = { s with
      cores := (reduceRun c dest give s).cores
      run := wordOver (192 + c.val) i 4 w s.run } ∧
    ∀ j : Fin 8, (reduceRun c dest give s).cores[coreOf c j.val].feed = s.cores[coreOf c j.val].feed := by
  have rest := modCores_rest c (maskBits (reduceWord w).cores 8)
    (fun k => { k with feedSeg := tabSet 0 k.feedSeg (reduceWord w).rid ((reduceWord w).seg + 1) }) s
  have core (j : Fin 8) := modCores_core (c := c) (nodup_maskBits (reduceWord w).cores 8) (fun _ => lt_of_mem_maskBits)
    (fun k => { k with feedSeg := tabSet 0 k.feedSeg (reduceWord w).rid ((reduceWord w).seg + 1) }) s j.isLt
  rw [← passSkip_eq_modCores (hd.trans h)] at rest core
  rw [reduceRun_skips ready op idle hd absent]
  generalize passSkip c (reduceWord w) s = p at rest core
  constructor
  · rw [rest]
    rfl
  · intro j
    have kept : (footWord s { p with run := wordOver (192 + c.val) i 4 w p.run }).cores[coreOf c j.val].feed =
        p.cores[coreOf c j.val].feed := footWord_feed s _ _
    rw [kept, core]
    split <;> rfl

/-- A word with a block sum missing has issued and waits. -/
theorem reduceRun_lacks (seg : (reduceWord w).seg < s.run.segs.length)
    (target : bitAt (slotOf s (s.run.segs.getD (reduceWord w).seg {}).slot).tmask (reduceWord w).target = true)
    (lacks : redAll s c i (reduceWord w) (s.run.segs.getD (reduceWord w).seg {}) = none) :
    reduceRun c dest give s = departWord (192 + c.val) i s := by
  have present : ¬ (s.run.segs.length ≤ (reduceWord w).seg ∨
      bitAt (slotOf s (s.run.segs.getD (reduceWord w).seg {}).slot).tmask (reduceWord w).target = false) := by
    rw [target]
    simpa using seg
  refine reduceRun_waits ready op idle hd ?_
  rw [reduceWork, if_neg (not_not.mpr hd), if_neg present, lacks]

end

/-! ### DEST Q: the feeder queues (R48, R49, R148) -/

/-- The rows of a REDUCE for the feeder queues: position, batch row, and the quantised row with its events. -/
def quantRows (r : ReduceWord) (scale : F32) (l : RedVectors) : List (Nat × Nat × QRow × List (Nat × Nat × Nat)) :=
  l.map (fun x => (x.2.1, x.2.2.1, quantRow r.seg scale x.2.2.2.1))

/-- The events of R49 of the quantised rows. -/
def quantEvents (vc : CoreIx) (i : Nat) (qs : List (Nat × Nat × QRow × List (Nat × Nat × Nat))) (s : State) : State :=
  qs.foldl (fun s q => q.2.2.2.foldl (fun s e => coreEvent vc 8 e.1 e.2.1 0x3F (e.2.2 % 128) q.2.1 i s) s) s

/-- Quantised rows entered in a core's feeder queue. -/
def feedRows (r : ReduceWord) (qs : List (Nat × Nat × QRow × List (Nat × Nat × Nat))) (k : CoreSt) : CoreSt :=
  { k with
    feed := qs.foldl (fun t q => tabSet {} t (r.rid * 65536 + q.1) q.2.2.1) k.feed
    feedSeg := tabSet 0 k.feedSeg r.rid (r.seg + 1) }

theorem giveQ_eq (c : ClusterIx) (i : Nat) (r : ReduceWord) (sg : Seg) (vc : CoreIx) (l : RedVectors) (s : State) :
    giveQ c i r sg vc l s = modCores c (maskBits r.cores 8) (feedRows r (quantRows r (slotOf s sg.slot).scale l))
      (quantEvents vc i (quantRows r (slotOf s sg.slot).scale l) s) := rfl

theorem latched_quantEvents (vc : CoreIx) (i : Nat) (qs : List (Nat × Nat × QRow × List (Nat × Nat × Nat))) (s : State) :
    Latched vc s (quantEvents vc i qs s) := by
  refine latched_foldl (f := fun s q => q.2.2.2.foldl (fun s e => coreEvent vc 8 e.1 e.2.1 0x3F (e.2.2 % 128) q.2.1 i s) s) ?_ qs s
  intro s q
  exact latched_foldl (f := fun s e => coreEvent vc 8 e.1 e.2.1 0x3F (e.2.2 % 128) q.2.1 i s)
    (fun s e => latched_coreEvent vc 8 _ _ _ _ _ _ s) q.2.2.2 s

theorem giveQ_rest (c : ClusterIx) (i : Nat) (r : ReduceWord) (sg : Seg) (vc : CoreIx) (l : RedVectors) (s : State) :
    giveQ c i r sg vc l s = { s with cores := (giveQ c i r sg vc l s).cores } := by
  rw [giveQ_eq, modCores_rest, (latched_quantEvents vc i _ s).rest]

/-- The entry of a feeder queue of CORES at a position that has a vector. -/
theorem giveQ_feed {c : ClusterIx} {i : Nat} {r : ReduceWord} {sg : Seg} {vc : CoreIx} {l : RedVectors} {s : State}
    (nodup : (l.map (fun x => x.2.1)).Nodup) {j : Nat} (hj : j < 8) (wf : tabWf {} s.cores[coreOf c j].feed = true)
    (named : r.cores.testBit j = true) {x : Nat × Nat × Nat × List F32 × List (Nat × Nat)} (hx : x ∈ l) :
    tabGet {} (giveQ c i r sg vc l s).cores[coreOf c j].feed (r.rid * 65536 + x.2.1) =
      (quantRow r.seg (slotOf s sg.slot).scale x.2.2.2.1).1 := by
  rw [giveQ_eq, modCores_core (nodup_maskBits _ _) (fun _ => lt_of_mem_maskBits) _ _ hj, if_pos (mem_maskBits.mpr ⟨hj, named⟩)]
  refine tabGet_foldl_tabSet (key := fun q : Nat × Nat × QRow × List (Nat × Nat × Nat) => r.rid * 65536 + q.1)
    (val := fun q => q.2.2.1) ?_ ?_ (.inl ?_)
  · rwa [(latched_quantEvents vc i _ s).feed]
  · intro q hq hk
    obtain ⟨y, hy, rfl⟩ := List.mem_map.mp hq
    have same : y = x := List.inj_on_of_nodup_map nodup hy hx (Nat.add_left_cancel hk)
    rw [same]
  · exact ⟨_, List.mem_map_of_mem hx, rfl⟩

/-! ### DEST RCC: the vectors of the RCC unit (R170) -/

theorem giveRcc_uvals {c : ClusterIx} {i : Nat} {r : ReduceWord} {sg : Seg} {vc : CoreIx} {l : RedVectors} {s : State}
    (wf : tabWf [] s.clusters[c].uvals = true) {x : Nat × Nat × Nat × List F32 × List (Nat × Nat)} (hx : x ∈ l)
    (single : ∀ y ∈ l, y.2.2.1 = x.2.2.1 → y = x) :
    tabGet [] (giveRcc c i r sg vc l s).clusters[c].uvals (r.rid * 65536 + x.2.2.1) = x.2.2.2.1 := by
  have uvals : (giveRcc c i r sg vc l s).clusters[c].uvals =
      l.foldl (fun t x => tabSet [] t (r.rid * 65536 + x.2.2.1) x.2.2.2.1) s.clusters[c].uvals :=
    congrArg ClusterSt.uvals (vmod_same _ c _)
  rw [uvals]
  refine tabGet_foldl_tabSet (key := fun x => r.rid * 65536 + x.2.2.1) (val := fun x => x.2.2.2.1) wf ?_ (.inl ⟨x, hx, rfl⟩)
  intro y hy hk
  rw [single y hy (Nat.add_left_cancel hk)]

/-! ### Numbers in bytes -/

theorem leBytes_length (n v : Nat) : (leBytes n v).length = n := by
  induction n generalizing v with
  | zero => rfl
  | succ n ih => rw [leBytes, List.length_cons, ih]

theorem leNat_leBytes (n v : Nat) (h : v < 256 ^ n) : leNat (leBytes n v) = v := by
  induction n generalizing v with
  | zero =>
    rw [Nat.lt_one_iff.mp h]
    rfl
  | succ n ih =>
    have high : v / 256 < 256 ^ n := Nat.div_lt_of_lt_mul (by rwa [Nat.pow_succ, Nat.mul_comm] at h)
    rw [leBytes, leNat, ih _ high, BitVec.toNat_ofNat]
    exact Nat.mod_add_div v 256

theorem memRead_eq_of_bytes {m : Memory} {a : Nat} {l : List Byte} (h : ∀ j (hj : j < l.length), memByte m (a + j) = l[j]) :
    memRead m a l.length = l := by
  induction l generalizing a with
  | nil => rfl
  | cons b r ih =>
    rw [List.length_cons, memRead, ih fun j hj => ?_]
    · rw [← Nat.add_zero a, h 0 (Nat.zero_lt_succ _)]
      rfl
    · rw [Nat.add_assoc, Nat.add_comm 1 j, h (j + 1) (Nat.succ_lt_succ hj)]
      rfl

theorem memNat_eq_leNat (m : Memory) (a n : Nat) : memNat m a n = leNat (memRead m a n) := by
  rw [memNat]
  induction memRead m a n with
  | nil => rfl
  | cons b r ih => rw [List.foldr_cons, ih, leNat]

/-- An FP32 value whose bytes stand in a core store. -/
theorem storeF32_eq_of_bytes {k : CoreSt} {a : Nat} {v : F32} (h : ∀ j < 4, some (memByte k.store (a + j)) = (leBytes 4 v.toNat)[j]?) :
    storeF32 k a = v := by
  have read := memRead_eq_of_bytes (m := k.store) (a := a) (l := leBytes 4 v.toNat) fun j hj =>
    (Option.some.inj ((h j (leBytes_length 4 _ ▸ hj)).trans (List.getElem?_eq_getElem hj)))
  rw [leBytes_length] at read
  rw [storeF32, memNat_eq_leNat, read, leNat_leBytes 4 _ v.isLt, BitVec.ofNat_toNat, BitVec.setWidth_eq]

/-- An element of pieces of one length laid end to end. -/
theorem getElem?_flatMap_uniform {α β : Type} {f : α → List β} {n : Nat} (hf : ∀ x, (f x).length = n) (l : List α) (i j : Nat)
    (hj : j < n) : (l.flatMap f)[n * i + j]? = l[i]?.bind (fun x => (f x)[j]?) := by
  induction l generalizing i with
  | nil => rfl
  | cons x r ih =>
    rw [List.flatMap_cons]
    cases i with
    | zero => rw [Nat.mul_zero, Nat.zero_add, List.getElem?_append_left (by rw [hf]; exact hj)]; rfl
    | succ i =>
      rw [List.getElem?_append_right (by rw [hf, Nat.mul_succ]; omega), hf, Nat.mul_succ, show n * i + n + j - n = n * i + j by omega,
        ih]
      rfl

theorem length_flatMap_uniform {α β : Type} {f : α → List β} {n : Nat} (hf : ∀ x, (f x).length = n) (l : List α) :
    (l.flatMap f).length = n * l.length := by
  induction l with
  | nil => rfl
  | cons x r ih => rw [List.flatMap_cons, List.length_append, hf, ih, List.length_cons, Nat.mul_succ, Nat.add_comm]

theorem f32Bytes_length (l : List F32) : (f32Bytes l).length = 4 * l.length := length_flatMap_uniform (fun _ => leBytes_length 4 _) l

theorem f32Bytes_getElem? (l : List F32) (i j : Nat) (hj : j < 4) :
    (f32Bytes l)[4 * i + j]? = l[i]?.bind (fun x => (leBytes 4 x.toNat)[j]?) :=
  getElem?_flatMap_uniform (fun _ => leBytes_length 4 _) l i j hj

/-! ### A write to a core store -/

theorem storeWrite_store (n : CoreIx) (a : Nat) (b : List Byte) (s : State) :
    (storeWrite n a b s).cores[n].store = memWrite s.cores[n].store a (b.take (Config.coreStoreBytes - a)) :=
  congrArg CoreSt.store (vmod_same _ n _)

theorem storeWrite_others (n m : CoreIx) (h : m ≠ n) (a : Nat) (b : List Byte) (s : State) :
    (storeWrite n a b s).cores[m] = s.cores[m] :=
  vmod_other _ n _ m m.isLt fun e => h (Fin.ext e.symm)

theorem memByte_storeWrite_below (n : CoreIx) (a : Nat) (b : List Byte) (s : State) {x : Nat} (h : x < a) :
    memByte (storeWrite n a b s).cores[n].store x = memByte s.cores[n].store x := by
  rw [storeWrite_store]
  exact memByte_memWrite_outside _ _ _ _ (.inl h)

theorem memByte_storeWrite_inside {n : CoreIx} {a : Nat} {b : List Byte} {s : State} (wf : Memory.wf s.cores[n].store = true) {k : Nat}
    (hk : k < b.length) (fits : a + k < Config.coreStoreBytes) :
    some (memByte (storeWrite n a b s).cores[n].store (a + k)) = b[k]? := by
  have hk' : k < (b.take (Config.coreStoreBytes - a)).length := by
    rw [List.length_take]
    omega
  rw [storeWrite_store, memByte_memWrite_inside _ _ _ _ wf hk', List.getElem_take, List.getElem?_eq_getElem hk]

/-! ### DEST U: u in FP32 at the core VC (R206) -/

/-- The value of u that a batch row has at a position and a rank, +0 where R206 says. -/
def rankValue (s : State) (sg : Seg) (l : RedVectors) (p k : Nat) : F32 :=
  match l.find? (fun x => x.1 == p) with
  | some x => if tagGrad (tagOf s x.2.2.1) && decide (k < sg.rank) then x.2.2.2.1.getD k 0 else 0
  | none => 0

/-- The ranks to a position of u. -/
def uRanks (s : State) (r : ReduceWord) : Nat := if (planRow s r.seg).rmax ≤ 128 then 128 else 256

/-- u position-major. -/
def uByPosition (s : State) (r : ReduceWord) (sg : Seg) (l : RedVectors) : List Byte :=
  (List.range (128 * cdiv r.count 128)).flatMap (fun p => f32Bytes ((List.range (uRanks s r)).map (rankValue s sg l p)))

/-- u rank-major. -/
def uByRank (s : State) (r : ReduceWord) (sg : Seg) (l : RedVectors) : List Byte :=
  (List.range (uRanks s r)).flatMap (fun k => f32Bytes ((List.range (128 * cdiv r.count 128)).map (fun p => rankValue s sg l p k)))

theorem giveU_eq (c : ClusterIx) (i : Nat) (r : ReduceWord) (sg : Seg) (vc : CoreIx) (l : RedVectors) (s : State) :
    giveU c i r sg vc l s = storeWrite vc (r.addr * 128 + 128 * cdiv r.count 128 * uRanks s r * 4) (uByRank s r sg l)
      (storeWrite vc (r.addr * 128) (uByPosition s r sg l) s) := rfl

theorem uByPosition_getElem? {s : State} {r : ReduceWord} {sg : Seg} {l : RedVectors} {p k j : Nat} (hp : p < 128 * cdiv r.count 128)
    (hk : k < uRanks s r) (hj : j < 4) :
    (uByPosition s r sg l)[4 * (p * uRanks s r + k) + j]? = (leBytes 4 (rankValue s sg l p k).toNat)[j]? := by
  have length (p : Nat) : (f32Bytes ((List.range (uRanks s r)).map (rankValue s sg l p))).length = 4 * uRanks s r := by
    rw [f32Bytes_length, List.length_map, List.length_range]
  have index : 4 * (p * uRanks s r + k) + j = 4 * uRanks s r * p + (4 * k + j) := by ring
  rw [index, uByPosition, getElem?_flatMap_uniform length _ _ _ (by omega), List.getElem?_range hp, Option.bind_some,
    f32Bytes_getElem? _ _ _ hj, List.getElem?_map, List.getElem?_range hk]
  rfl

theorem uByPosition_length (s : State) (r : ReduceWord) (sg : Seg) (l : RedVectors) :
    (uByPosition s r sg l).length = 4 * uRanks s r * (128 * cdiv r.count 128) := by
  rw [uByPosition, length_flatMap_uniform (n := 4 * uRanks s r), List.length_range]
  intro p
  rw [f32Bytes_length, List.length_map, List.length_range]

theorem le_cdiv_mul (n : Nat) : n ≤ 128 * cdiv n 128 := by
  rw [cdiv]
  omega

theorem giveU_value {c : ClusterIx} {i : Nat} {r : ReduceWord} {sg : Seg} {vc : CoreIx} {l : RedVectors} {s : State}
    (wf : Memory.wf s.cores[vc].store = true)
    (fits : r.addr * 128 + 8 * (128 * cdiv r.count 128) * uRanks s r ≤ Config.coreStoreBytes) {p k : Nat} (hp : p < r.count)
    (hk : k < uRanks s r) :
    storeF32 (giveU c i r sg vc l s).cores[vc] (r.addr * 128 + 4 * (p * uRanks s r + k)) = rankValue s sg l p k := by
  have hp' : p < 128 * cdiv r.count 128 := hp.trans_le (le_cdiv_mul _)
  have inside : p * uRanks s r + k < 128 * cdiv r.count 128 * uRanks s r := by
    calc p * uRanks s r + k < p * uRanks s r + uRanks s r := Nat.add_lt_add_left hk _
      _ = (p + 1) * uRanks s r := (Nat.succ_mul _ _).symm
      _ ≤ 128 * cdiv r.count 128 * uRanks s r := Nat.mul_le_mul_right _ hp'
  refine storeF32_eq_of_bytes fun j hj => ?_
  rw [← uByPosition_getElem? hp' hk hj, giveU_eq, memByte_storeWrite_below _ _ _ _ (by omega), Nat.add_assoc]
  refine memByte_storeWrite_inside wf ?_ ?_
  · rw [uByPosition_length, Nat.mul_comm (4 * _), ← Nat.mul_assoc, Nat.mul_right_comm]
    omega
  · rw [Nat.mul_assoc] at fits
    omega

end Sys2Proof.Machine
end

section
/-!
PROOFS. The reductions: each command with each of its outcomes (R48, R49, R114, R119, R136, R148, R170, R206, R247).
-/

namespace Sys2Proof.Machine

section

variable {c : ClusterIx} {i code : Nat} {w : IWord} {sg : Seg} {l : RedVectors} {s s₁ t : State}

theorem Reduced.cluster {give : State → State} (h : Reduced c i code w give s s₁ t) :
    t.clusters[c] = { (give s₁).clusters[c] with reds := tabSet [] (give s₁).clusters[c].reds (reduceWord w).rid [] } := by
  rw [h.clusters]
  exact vmod_same _ c _

theorem Reduced.sums_spent {give : State → State} (h : Reduced c i code w give s s₁ t) (keep : (give s₁).clusters = s₁.clusters)
    (wf : tabWf [] s.clusters[c].reds = true) : tabGet [] t.clusters[c].reds (reduceWord w).rid = [] := by
  have reds : t.clusters[c].reds = tabSet [] s.clusters[c].reds (reduceWord w).rid [] := by
    rw [h.cluster, keep, h.start.clusters]
  rw [reds]
  exact tabGet_tabSet_wf [] _ _ _ 0 wf

/-- The vectors of the RCC unit stay when the sums are spent. -/
theorem Reduced.uvals {give : State → State} (h : Reduced c i code w give s s₁ t) :
    t.clusters[c].uvals = (give s₁).clusters[c].uvals := by
  rw [h.cluster]

/-- DEST Q: the entry of each core of CORES at each position that has a vector. -/
theorem Reduced.feed_entry {vc : CoreIx} (h : Reduced c i code w (giveQ c i (reduceWord w) sg vc l) s s₁ t)
    (nodup : (l.map (fun x => x.2.1)).Nodup) (wf : ∀ j : Fin 8, tabWf {} s.cores[coreOf c j.val].feed = true) (j : Fin 8)
    (named : (reduceWord w).cores.testBit j.val = true) {x : Nat × Nat × Nat × List F32 × List (Nat × Nat)} (hx : x ∈ l) :
    tabGet {} t.cores[coreOf c j.val].feed ((reduceWord w).rid * 65536 + x.2.1) =
      (quantRow (reduceWord w).seg (slotOf s sg.slot).scale x.2.2.2.1).1 := by
  have slot : slotOf s₁ sg.slot = slotOf s sg.slot := by
    rw [h.start.rest]
    rfl
  rw [h.feed, ← slot]
  exact giveQ_feed nodup j.isLt (by rw [h.start.feed]; exact wf j) named hx

/-- DEST RCC: the vector of a batch row that stands once in the list. -/
theorem Reduced.uval_entry {vc : CoreIx} (h : Reduced c i code w (giveRcc c i (reduceWord w) sg vc l) s s₁ t)
    (wf : tabWf [] s.clusters[c].uvals = true) {x : Nat × Nat × Nat × List F32 × List (Nat × Nat)} (hx : x ∈ l)
    (single : ∀ y ∈ l, y.2.2.1 = x.2.2.1 → y = x) :
    tabGet [] t.clusters[c].uvals ((reduceWord w).rid * 65536 + x.2.2.1) = x.2.2.2.1 := by
  rw [h.uvals]
  refine giveRcc_uvals ?_ hx single
  rw [h.start.clusters]
  exact wf

/-- DEST U: each value of u, position-major. -/
theorem Reduced.u_value (h : Reduced c i code w (giveU c i (reduceWord w) sg (coreOf c (reduceWord w).vc) l) s s₁ t)
    (wf : Memory.wf s.cores[coreOf c (reduceWord w).vc].store = true)
    (fits : (reduceWord w).addr * 128 + 8 * (128 * cdiv (reduceWord w).count 128) * uRanks s (reduceWord w) ≤ Config.coreStoreBytes)
    {p k : Nat} (hp : p < (reduceWord w).count) (hk : k < uRanks s (reduceWord w)) :
    storeF32 t.cores[coreOf c (reduceWord w).vc] ((reduceWord w).addr * 128 + 4 * (p * uRanks s (reduceWord w) + k)) =
      rankValue s sg l p k := by
  have ranks : uRanks s₁ (reduceWord w) = uRanks s (reduceWord w) := by
    rw [h.start.rest]
    rfl
  have value : rankValue s₁ sg l p k = rankValue s sg l p k := by
    rw [h.start.rest]
    rfl
  rw [← value]
  rw [← ranks] at fits hk ⊢
  rw [storeF32, h.store]
  exact giveU_value (by rw [h.start.store]; exact wf) fits hp hk

/-- DEST PART: the bytes of the core VC below ADDR stay. -/
theorem Reduced.below_part (h : Reduced c i code w (givePart c i (reduceWord w) sg (coreOf c (reduceWord w).vc) l) s s₁ t) {x : Nat}
    (hx : x < (reduceWord w).addr * 128) :
    memByte t.cores[coreOf c (reduceWord w).vc].store x = memByte s.cores[coreOf c (reduceWord w).vc].store x := by
  rw [h.store, ← h.start.store]
  exact memByte_storeWrite_below _ _ _ _ hx

end

/-! ### The commands -/

theorem exec_reduceQ (c : ClusterIx) (s : State) : exec (.reduceQ c) s = .next (reduceRun c 0 (giveQ c) s) := rfl

theorem exec_reduceRcc (c : ClusterIx) (s : State) : exec (.reduceRcc c) s = .next (reduceRun c 1 (giveRcc c) s) := rfl

theorem exec_reduceU (c : ClusterIx) (s : State) : exec (.reduceU c) s = .next (reduceRun c 2 (giveU c) s) := rfl

theorem exec_reducePart (c : ClusterIx) (s : State) : exec (.reducePart c) s = .next (reduceRun c 3 (givePart c) s) := rfl

/-- What a REDUCE gives on, by DEST. -/
def giveOf (c : ClusterIx) : Nat → Nat → ReduceWord → Seg → CoreIx → RedVectors → State → State
  | 0 => giveQ c
  | 1 => giveRcc c
  | 2 => giveU c
  | _ => givePart c

theorem unitsOnly_giveOf (c : ClusterIx) (dest i : Nat) (r : ReduceWord) (sg : Seg) (vc : CoreIx) (l : RedVectors) (s : State) :
    UnitsOnly s (giveOf c dest i r sg vc l s) := by
  match dest with
  | 0 =>
    rw [giveOf, giveQ_rest]
    rfl
  | 1 => rfl
  | 2 => rfl
  | _ + 3 => rfl

/-- Settles O23: each outcome of the word is one of the run of a REDUCE, and each DEST says what its vectors write. -/
theorem reductionsCompute : Obligations.ReductionsCompute := by
  intro c s i w ready op r sg idle
  refine ⟨fun absent p hp hd => ?_, fun absent hd => ?_, fun seg target lacks p hp hd => ?_, fun l seg target all => ?_⟩
  · simp only [List.mem_cons, List.not_mem_nil, or_false] at hp
    rcases hp with rfl | rfl | rfl
    · rw [exec_reduceRcc, reduceRun_skips_others ready op idle hd (Nat.succ_ne_zero _) absent]
    · rw [exec_reduceU, reduceRun_skips_others ready op idle hd (Nat.succ_ne_zero _) absent]
    · rw [exec_reducePart, reduceRun_skips_others ready op idle hd (Nat.succ_ne_zero _) absent]
  · exact ⟨_, exec_reduceQ c s, reduceRun_skips_feed ready op idle hd rfl absent⟩
  · simp only [List.mem_cons, List.not_mem_nil, or_false] at hp
    rcases hp with rfl | rfl | rfl | rfl
    · rw [exec_reduceQ, reduceRun_lacks ready op idle hd seg target lacks]
    · rw [exec_reduceRcc, reduceRun_lacks ready op idle hd seg target lacks]
    · rw [exec_reduceU, reduceRun_lacks ready op idle hd seg target lacks]
    · rw [exec_reducePart, reduceRun_lacks ready op idle hd seg target lacks]
  · obtain ⟨code, hc, s₁, h⟩ : ∃ code ≤ 1, ∃ s₁,
        Reduced c i code w (giveOf c r.dest i r sg (coreOf c r.vc) l) s s₁ (reduceRun c r.dest (giveOf c r.dest) s) :=
      reduceRun_reduced ready op idle rfl seg target all (unitsOnly_giveOf c r.dest i r sg (coreOf c r.vc) l)
    refine ⟨code, hc, fun hd reds feed => ?_, fun hd uvals => ?_, fun hd => ?_, fun hd => ?_⟩
    · rw [hd] at h
      refine ⟨_, exec_reduceQ c s, h.rest, ?_, fun j named x hx => h.feed_entry (nodup_redAll all) feed j named hx⟩
      exact h.sums_spent (by rw [giveOf, giveQ_rest]) reds
    · rw [hd] at h
      exact ⟨_, exec_reduceRcc c s, h.rest, fun x hx single => Reduced.uval_entry (sg := sg) (vc := coreOf c r.vc) h uvals hx single,
        fun m => (h.store m).trans (h.start.store m)⟩
    · rw [hd] at h
      refine ⟨_, exec_reduceU c s, h.rest, fun m hm => ?_, fun wf fits p k hp hk => ?_⟩
      · refine h.others m hm ?_
        rw [giveOf, giveU_eq, storeWrite_others _ _ hm, storeWrite_others _ _ hm]
      · refine (h.u_value wf fits hp hk).trans ?_
        rw [rankValue]
        cases l.find? (fun x => x.1 == p) with
        | none => rfl
        | some x => simp only [Bool.and_eq_true, decide_eq_true_eq]
    · rw [hd] at h
      refine ⟨_, exec_reducePart c s, h.rest, fun m hm => ?_, fun x hx => h.below_part hx⟩
      exact h.others m hm (storeWrite_others _ _ hm _ _ _)

end Sys2Proof.Machine
end

section
/-!
PROOFS. A register write that is taken: the register that each offset names, and the effect of the write on it (R464, chapter REGS).
-/

namespace Sys2Proof.Machine

/-! ### A write that its register takes or refuses -/

/-- A change of what a register write may change, which leaves the assignment and the bypass of every core, lies in the footprint. -/
theorem footReg_eq_self {s t : State} (assign : SameAssign s t)
    (rest : { s with
      out := t.out, cc := t.cc, regs := t.regs, mc := t.mc, plane := t.plane, ports := t.ports, cores := t.cores,
      tensors := t.tensors, parts := t.parts, rings := t.rings, faces := t.faces, seg := t.seg, err := t.err, pw := t.pw } = t) :
    footReg s t = t := by
  rw [footReg, keepAssign_same s t assign]
  exact rest

/-- A change of one core that leaves its assignment and its bypass in force. -/
theorem sameAssign_modCore {n : CoreIx} {f : CoreSt → CoreSt} (hf : ∀ k : CoreSt, (f k).part = k.part ∧ (f k).byp = k.byp)
    (s : State) : SameAssign s (modCore n f s) := by
  intro m
  rw [modCore, Fin.getElem_fin, vmod_at]
  split
  · exact hf _
  · exact ⟨rfl, rfl⟩

/-- The outcome of a write without a cause that its register takes. -/
theorem next_write {r : Requester} {page : Fin 32} {off : Nat} {v : Word} {x : Along} {s t : State}
    (free : writeCause s r page off = none) (takes : setReg r page off v x s = .ok t) (foot : footReg s t = t) :
    (Host.Outcome.next (footReg s (writeReg r page off v x s)) : Host.Outcome State Fault Refusal) = .next t := by
  rw [writeReg, free]
  dsimp only
  rw [takes]
  exact congrArg _ foot

/-- A write without a cause that its register refuses leaves no more than the record of the refusal. -/
theorem refused_of_setReg {i : Instr} {r : Requester} {page : Fin 32} {off : Nat} {v : Word} {x : Along} {c : Cause} {s : State}
    (free : writeCause s r page off = none) (refuses : setReg r page off v x s = .error c)
    (hw : exec i s = .next (footReg s (writeReg r page off v x s))) :
    ∃ t, exec i s = .next t ∧ t = { s with regs := t.regs } ∧
      t.regs.reqs[r] = { s.regs.reqs[r] with astat := some (page, off, causeCode c) } := by
  have done : writeReg r page off v x s = refuseWrite r page off c s := by
    rw [writeReg, free]
    dsimp only
    rw [refuses]
  rw [done, footReg_refuseWrite] at hw
  obtain ⟨rest, -, -, record, -⟩ := refuseWrite_onlyRecorded r page off c s
  exact ⟨_, hw, rest, record⟩

theorem within_true {ok : Bool} (h : ok = true) (s : State) : within ok s = .ok s := if_pos h

theorem within_false {ok : Bool} (h : ok = false) (s : State) : within ok s = .error .bounds := by rw [within, h]; rfl

/-! ### The register that an offset names -/

theorem setReg_own {page : Fin 32} {off : Nat} (h : ownReg page off = true) (r : Requester) (v : Word) (x : Along) (s : State) :
    setReg r page off v x s = setOwn r page off v s := if_pos h

theorem setReg_hdr {page : Fin 32} {off : Nat} (h : ownReg page off = false) (low : off < 0x20) (r : Requester) (v : Word) (x : Along)
    (s : State) : setReg r page off v x s = .ok (setHdr page off v s) := by
  rw [setReg]
  rw [if_neg (by simp [h]), if_pos low]

theorem setReg_core {page : Fin 32} {off : Nat} (h : ownReg page off = false) (high : 0x20 ≤ off) (hp : page.val < 0xA) (r : Requester)
    (v : Word) (x : Along) (s : State) :
    setReg r page off v x s = setCorePages page (chanOf s.regs.reqs[r] page) off v x s := by
  rw [setReg]
  rw [if_neg (by simp [h]), if_neg (by omega), if_pos hp]

theorem setReg_pm {p : Part} {off : Nat} (h : ownReg (16 + p.val) off = false) (high : 0x20 ≤ off) (r : Requester) (v : Word) (x : Along)
    (s : State) : setReg r (pmPage p) off v x s = setPm r p off v x s := by
  have part : pagePart (pmPage p).val = p := Fin.ext (by simp [pagePart, pmPage])
  have page : 16 ≤ (pmPage p).val := Nat.le_add_right 16 p.val
  have other : ownReg (pmPage p).val off = false := h
  rw [setReg, if_neg (by simp [other]), if_neg (by omega), if_neg (by omega), part]
  split
  case h_7 => rfl
  all_goals omega

theorem setReg_byp (r : Requester) (v : Word) (x : Along) (s : State) :
    setReg r 0xD 0x84 v x s = setByp (chanOf s.regs.reqs[r] 0xD) v s := rfl

theorem setReg_tflag (r : Requester) (v : Word) (x : Along) (s : State) :
    setReg r 0xF 0x24 v x s = .ok (clearFlags s.regs.reqs[r].uuTidx.toNat v s) := rfl

/-! ### The effect of each register -/

/-- CHSEL of a page (R461). -/
theorem setReg_chsel (r : Requester) (page : Fin 32) (v : Word) (s : State) :
    setReg r page 0x18 v {} s = within (decide (fld v 0 16 < channels page))
      (modReqCopy r (fun x => { x with chsel := tabSet 0 x.chsel page.val (fld v 0 16) }) s) :=
  (setReg_own (by simp [ownReg]) r v {} s).trans rfl

theorem setReg_intStatus (r : Requester) (page : Fin 32) (v : Word) (s : State) :
    setReg r page 0x10 v {} s = .ok (setHdr page 0x10 v s) := setReg_hdr (by simp [ownReg]) (by decide) r v {} s

/-- SG_NEXT (R474). -/
theorem setReg_sgNext (r : Requester) (v : Word) (tags : List RowTag) (s : State) :
    setReg r 8 0x28 v { tags := some tags } s =
      within (decide (fld v 0 17 ≤ 65536 ∧ s.seg.tagsAddr.toNat + 8 * fld v 0 17 ≤ coreRegionBytes))
        { s with seg := { s.seg with rows := fld v 0 17, pslot := Fin.ofNat 8 (fld v 17 3), valid := bitAt v 20, tagArray := tags } } := rfl

theorem setReg_island (r : Requester) (v : Word) (s : State) :
    setReg r 4 0x80 v {} s = setIsland (chanOf s.regs.reqs[r] 4) v s := rfl

/-- SEG_CAP of a partition (R38). -/
theorem setReg_segCap (r : Requester) (p : Part) (v : Word) (s : State) :
    setReg r (pmPage p) 0x3C v {} s = within (decide (fld v 0 13 ≤ 4096 ∧ otherCaps s p + fld v 0 13 ≤ 4096))
      (modRegs p (fun r => { r with segCap := fld v 0 13 }) s) :=
  setReg_pm (by simp [ownReg]; omega) (by decide) r v {} s

theorem setReg_lscale (r : Requester) (p : Part) (v : Word) (s : State) :
    setReg r (pmPage p) 0x5C v {} s = setLscale p v s := setReg_pm (by simp [ownReg]) (by decide) r v {} s

/-- LS_RUN (R202). -/
theorem setReg_lsRun (r : Requester) (p : Part) (v : Word) (s : State) :
    setReg r (pmPage p) 0x60 v {} s = within (decide (1 ≤ fld v 0 16 ∧ fld v 0 16 ≤ 65534))
      (modRegs p (fun r => { r with lsRun := fld v 0 16 }) s) := setReg_pm (by simp [ownReg]) (by decide) r v {} s

theorem getD_of_lt {α : Type} {n i : Nat} (v : Vector α n) (h : i < n) (d : α) : v.getD i d = v[i] := by simp [Vector.getD, h]

/-- A request that no power island may take: 0b01 of Table REL-17, or of an island that is no cluster's. -/
theorem setIsland_bounds {ch : Nat} {v : Word} (h : fld v 0 2 = 1 ∨ (fld v 0 2 ≠ 0 ∧ ¬ (2 ≤ ch ∧ ch < 10))) (s : State) :
    setIsland ch v s = .error .bounds := by
  rw [setIsland, if_pos]
  exact h.imp_right (And.imp_right decide_eq_false)

/-- RETAIN or OFF for a cluster whose cores have no partition and get none (R442). -/
theorem setIsland_cluster {i : Fin 20} {v : Word} {s : State} (hv : 2 ≤ fld v 0 2) (lo : 2 ≤ i.val) (hi : i.val < 10)
    (unused : ∀ n : CoreIx, n.val / 8 = i.val - 2 → s.cores[n].part = 0x1F ∧ s.cores[n].partNext = 0x1F) :
    setIsland i.val v s = .ok { s with pw := { s.pw with
      islands := vmod s.pw.islands i (fun x => { x with req := if fld v 0 2 = 2 then .retain else .off }) } } := by
  have small : fld v 0 2 < 4 := Nat.mod_lt _ (by decide)
  have free : (List.range 8).any (fun j => let c := s.cores.getD (8 * (i.val - 2) + j) {}; c.part != 0x1F || c.partNext != 0x1F) =
      false := by
    refine List.any_eq_false.mpr fun j hj => ?_
    have hj : j < 8 := List.mem_range.mp hj
    have hn : 8 * (i.val - 2) + j < 64 := by omega
    obtain ⟨now, next⟩ := unused ⟨8 * (i.val - 2) + j, hn⟩ (show (8 * (i.val - 2) + j) / 8 = i.val - 2 by omega)
    have core : s.cores.getD (8 * (i.val - 2) + j) {} = s.cores[8 * (i.val - 2) + j] := getD_of_lt s.cores hn _
    dsimp only
    rw [core]
    simpa using ⟨now, next⟩
  have request : (if fld v 0 2 = 2 then IslSt.retain else if fld v 0 2 = 3 then IslSt.off else IslSt.active) =
      if fld v 0 2 = 2 then .retain else .off := by
    split
    · rfl
    · rw [if_pos (by omega)]
  have islands : Vector.ofFn (fun k : Fin 20 => if k.val = i.val ∧ decide (2 ≤ i.val ∧ i.val < 10) = true then
      { s.pw.islands[k] with req := if fld v 0 2 = 2 then IslSt.retain else .off } else s.pw.islands[k]) =
      vmod s.pw.islands i (fun x => { x with req := if fld v 0 2 = 2 then .retain else .off }) := by
    refine Vector.ext fun k hk => ?_
    rw [vmod_at]
    simp [lo, hi, eq_comm]
  rw [setIsland]
  dsimp only
  rw [if_neg (by simp [lo, hi]; omega), if_neg (by rw [free]; simp), request, islands]

/-- CORE_BYP of a core whose arrays all take their fields (R475). -/
theorem setByp_fits {n : CoreIx} {v : Word} {s : State}
    (fits : ∀ a : Fin 4, bypCause (fusedCols s (4 * n.val + a.val)) (bypField v a.val) = none) :
    setByp n.val v s = .ok (modCore n (fun k => { k with bypNext := Vector.ofFn (fun a => bypField v a.val) }) s) := by
  have none_refuses : (List.range 4).findSome? (fun a => bypCause (fusedCols s (4 * n.val + a)) (bypField v a)) = none :=
    List.findSome?_eq_none_iff.mpr fun a ha => fits ⟨a, List.mem_range.mp ha⟩
  have core : s.cores.getD n.val {} = s.cores[n] := getD_of_lt s.cores n.isLt _
  rw [setByp, none_refuses]
  dsimp only
  rw [core, setIfInBounds_eq_vmod]
  rfl

/-- Settles O52: by the register that each write names, what the register takes, and the record of what it refuses. -/
theorem registersWritten : Obligations.RegistersWritten := by
  unfold Obligations.RegistersWritten
  intro r v s
  dsimp only
  refine ⟨?chsel, ?chselRefused, ?intStatus, ?idAstat, ?tflag, ?kick, ?sgNext, ?island, ?byp, ?segCap, ?segCapRefused, ?lscale, ?lsRun,
    ?rbAck, ?noRegister⟩
  case chsel =>
    intro page free fits
    exact next_write free ((setReg_chsel r page v s).trans (within_true (by simpa using fits) _)) (footReg_eq_self (.of_cores_eq rfl) rfl)
  case chselRefused =>
    intro page free outside
    exact refused_of_setReg free ((setReg_chsel r page v s).trans (within_false (by simpa using outside) _)) rfl
  case intStatus =>
    intro page free
    exact next_write free (setReg_intStatus r page v s) (footReg_eq_self (.of_cores_eq rfl) rfl)
  case idAstat =>
    intro free
    refine next_write free rfl ?_
    split <;> exact footReg_eq_self (.of_cores_eq rfl) rfl
  case tflag =>
    intro free
    exact next_write free (setReg_tflag r v {} s) (footReg_eq_self (.of_cores_eq rfl) rfl)
  case kick =>
    intro free
    exact next_write free rfl (footReg_eq_self (.of_cores_eq rfl) rfl)
  case sgNext =>
    intro tags free rows area
    exact next_write free ((setReg_sgNext r v tags s).trans (within_true (decide_eq_true ⟨rows, area⟩) _))
      (footReg_eq_self (.of_cores_eq rfl) rfl)
  case island =>
    intro i free hi
    refine ⟨fun bad => ?_, fun hv lo up unused => ?_⟩
    · exact refused_of_setReg free ((setReg_island r v s).trans (setIsland_bounds (by rw [hi]; exact bad) s)) rfl
    · have takes : setReg r 4 0x80 v {} s = _ := (setReg_island r v s).trans (hi ▸ setIsland_cluster hv lo up unused)
      exact ⟨_, next_write free takes (footReg_eq_self (.of_cores_eq rfl) rfl), rfl, vmod_same _ i _,
        fun j hj => vmod_other _ i _ j j.isLt fun e => hj (Fin.ext e.symm)⟩
  case byp =>
    intro n free hn fits
    have takes : setReg r 0xD 0x84 v {} s = _ := (setReg_byp r v {} s).trans (hn ▸ setByp_fits fits)
    refine ⟨_, next_write free takes (footReg_eq_self (sameAssign_modCore ?_ s) rfl), rfl, vmod_same _ n _,
      fun m hm => vmod_other _ n _ m m.isLt fun e => hm (Fin.ext e.symm)⟩
    exact fun _ => ⟨rfl, rfl⟩
  case segCap =>
    intro p free fits
    exact next_write free ((setReg_segCap r p v s).trans (within_true (decide_eq_true fits) _)) (footReg_eq_self (.of_cores_eq rfl) rfl)
  case segCapRefused =>
    intro p free outside
    exact refused_of_setReg free ((setReg_segCap r p v s).trans (within_false (decide_eq_false (by omega)) _)) rfl
  case lscale =>
    intro p free lo up top
    exact next_write free ((setReg_lscale r p v s).trans (within_true (decide_eq_true ⟨lo, up, top⟩) _))
      (footReg_eq_self (.of_cores_eq rfl) rfl)
  case lsRun =>
    intro p free lo up
    exact next_write free ((setReg_lsRun r p v s).trans (within_true (decide_eq_true ⟨lo, up⟩) _)) (footReg_eq_self (.of_cores_eq rfl) rfl)
  case rbAck =>
    intro f idle
    have acked : execRbAck f v s = .next (ackBuf f v s) := by
      rw [execRbAck, idle]
      exact congrArg _ (footReg_eq_self (.of_cores_eq rfl) rfl)
    have face : (ackBuf f v s).faces[f] = { s.faces[f] with acks := vmod s.faces[f].acks (Fin.ofNat 2 (fld v 0 1)) fun _ => true } :=
      vmod_same _ f _
    refine ⟨_, acked, rfl, ?_, by rw [face], fun g hg => vmod_other _ f _ g g.isLt fun e => hg (Fin.ext e.symm)⟩
    rw [face]
    exact vmod_same _ _ _
  case noRegister =>
    intro off free high
    have page : setReg r 0xE off.toNat v {} s = .ok s := by
      rw [setReg, if_neg (by simp [ownReg]; omega), if_neg (by omega)]
      rfl
    exact next_write free page (footReg_eq_self (.of_cores_eq rfl) rfl)

end Sys2Proof.Machine
end

section
/-!
PROOFS. Codes of the number formats: what each code is worth, and rounding to the nearest one (R58 to R61, R68, R70).
-/

namespace Sys2Proof.Machine

/-! ### The nearest integer -/

/-- The natural number k is nearest to y, and even where another one is equally near. -/
def RoundsTo (k : Nat) (y : ℚ) : Prop := |y - k| ≤ 1 / 2 ∧ (|y - k| = 1 / 2 → k % 2 = 0)

theorem roundsTo_natCast (k : Nat) : RoundsTo k k := by
  rw [RoundsTo, sub_self, abs_zero]
  norm_num

theorem roundsTo_rne (m k : Nat) : RoundsTo (rne m k) (m / 2 ^ k) := by
  have hpos : (0 : ℚ) < 2 ^ k := by positivity
  have value : (m : ℚ) / 2 ^ k = (m / 2 ^ k : Nat) + ((m % 2 ^ k : Nat) : ℚ) / 2 ^ k := by
    field_simp
    exact_mod_cast (Nat.div_add_mod m (2 ^ k)).symm
  have hr : ((m % 2 ^ k : Nat) : ℚ) / 2 ^ k < 1 := by
    rw [div_lt_one hpos]
    exact_mod_cast Nat.mod_lt m (by positivity)
  have hr0 : 0 ≤ ((m % 2 ^ k : Nat) : ℚ) / 2 ^ k := by positivity
  have half : (1 / 2 < ((m % 2 ^ k : Nat) : ℚ) / 2 ^ k ↔ 2 ^ k < 2 * (m % 2 ^ k)) ∧
      (((m % 2 ^ k : Nat) : ℚ) / 2 ^ k = 1 / 2 ↔ 2 * (m % 2 ^ k) = 2 ^ k) := by
    rw [div_lt_div_iff₀ two_pos hpos, div_eq_div_iff hpos.ne' two_ne_zero]
    constructor <;> norm_cast <;> omega
  rw [RoundsTo, rne, value, Nat.shiftRight_eq_div_pow]
  generalize ((m % 2 ^ k : Nat) : ℚ) / 2 ^ k = y at *
  split
  case isTrue up =>
    have ge : 1 / 2 ≤ y := up.elim (fun h => (half.1.mpr h).le) fun h => (half.2.mpr h.1).ge
    have dist : |((m / 2 ^ k : Nat) : ℚ) + y - ((m / 2 ^ k + 1 : Nat) : ℚ)| = 1 - y := by
      rw [abs_sub_comm, abs_of_nonneg] <;> push_cast <;> linarith
    rw [dist]
    refine ⟨by linarith, fun e => ?_⟩
    have tie := half.2.mp (by linarith)
    omega
  case isFalse down =>
    have le : y ≤ 1 / 2 := not_lt.mp fun h => down (.inl (half.1.mp h))
    have dist : |((m / 2 ^ k : Nat) : ℚ) + y - ((m / 2 ^ k : Nat) : ℚ)| = y := by
      rw [add_sub_cancel_left, abs_of_nonneg hr0]
    rw [dist]
    refine ⟨le, fun e => ?_⟩
    have tie := half.2.mp e
    omega

/-- The magnitude m × 2^z rounded to an integer: what roundInt and the significand of fpRound share. -/
def magInt (m : Nat) (z : Int) : Nat := if 0 ≤ z then m <<< z.toNat else rne m (-z).toNat

theorem roundsTo_magInt (m : Nat) (z : Int) : RoundsTo (magInt m z) (magRat m z) := by
  rw [magInt, magRat]
  split
  case isTrue hz =>
    lift z to ℕ using hz
    have exact := roundsTo_natCast (m <<< z)
    rwa [Nat.shiftLeft_eq, Nat.cast_mul, Nat.cast_pow, Nat.cast_ofNat, ← Nat.shiftLeft_eq] at exact
  case isFalse hz =>
    obtain ⟨k, rfl⟩ : ∃ k : ℕ, z = -k := ⟨(-z).toNat, by omega⟩
    have rounded := roundsTo_rne m k
    rw [neg_neg, Int.toNat_natCast]
    rwa [div_eq_mul_inv, ← zpow_natCast, ← zpow_neg] at rounded

theorem roundInt_eq (n : Bool) (m : Nat) (z : Int) : roundInt n m z = signed n (magInt m z) := rfl

theorem magRat_nonneg (m : Nat) (e : Int) : 0 ≤ magRat m e := by
  rw [magRat]
  positivity

@[simp] theorem magRat_zero (e : Int) : magRat 0 e = 0 := by rw [magRat, Nat.cast_zero, zero_mul]

theorem magRat_add_exp (m : Nat) (e d : Int) : magRat m (e + d) = magRat m e * 2 ^ d := by
  rw [magRat, magRat, zpow_add₀ two_ne_zero, mul_assoc]

theorem magRat_mul_pow (m k : Nat) (e : Int) : magRat (m * 2 ^ k) e = magRat m (e + k) := by
  rw [magRat_add_exp, magRat, magRat, Nat.cast_mul, Nat.cast_pow, Nat.cast_ofNat, zpow_natCast]
  ring

theorem magRat_succ (m : Nat) (e : Int) : magRat (m + 1) e = magRat m e + 2 ^ e := by
  rw [magRat, magRat, Nat.cast_succ, add_one_mul]

/-! ### What a code is worth -/

/-- The value of a code as its exponent and mantissa fields say, with no code set aside for infinities and NaN. -/
def codeVal (f : Fmt) (c : Nat) : ℚ :=
  magRat (c % 2 ^ (f.prec - 1) + if c / 2 ^ (f.prec - 1) = 0 then 0 else 2 ^ (f.prec - 1)) (f.qmin + (c / 2 ^ (f.prec - 1) - 1 : Nat))

theorem fpDecode_of_le {f : Fmt} {c : Nat} (h : c % 2 ^ (f.width - 1) ≤ f.maxc) :
    ∃ m e, fpDecode f c = .fin (nfld c (f.width - 1) 1 == 1) m e ∧ magRat m e = codeVal f (c % 2 ^ (f.width - 1)) := by
  rw [fpDecode, codeVal]
  dsimp only
  rw [if_pos h]
  split
  case isTrue sub => exact ⟨_, _, rfl, by rw [sub]; simp⟩
  case isFalse => exact ⟨_, _, rfl, rfl⟩

/-- Codes counted from the start of a binade. -/
theorem codeVal_of_binade {f : Fmt} {k m : Nat} (le : m ≤ 2 * 2 ^ (f.prec - 1)) (ge : k = 0 ∨ 2 ^ (f.prec - 1) ≤ m) :
    codeVal f (k * 2 ^ (f.prec - 1) + m) = magRat m (f.qmin + k) := by
  have pos : 0 < 2 ^ (f.prec - 1) := by positivity
  rw [codeVal]
  generalize 2 ^ (f.prec - 1) = h at *
  obtain rfl | lt := le.eq_or_lt
  · rw [show k * h + 2 * h = (k + 2) * h by ring, Nat.mul_mod_left, Nat.mul_div_cancel _ pos, if_neg (by omega), Nat.mul_comm 2 h,
      ← pow_one 2, magRat_mul_pow, Nat.zero_add]
    exact congrArg (magRat h) (by push_cast; ring)
  obtain low | high := lt_or_ge m h
  · obtain rfl : k = 0 := ge.resolve_right (by omega)
    rw [Nat.zero_mul, Nat.zero_add, Nat.mod_eq_of_lt low, Nat.div_eq_of_lt low, if_pos rfl, Nat.add_zero]
  · obtain ⟨j, rfl⟩ := Nat.exists_eq_add_of_le high
    rw [show k * h + (h + j) = j + (k + 1) * h by ring, Nat.add_mul_mod_self_right, Nat.add_mul_div_right _ _ pos,
      Nat.mod_eq_of_lt (by omega), Nat.div_eq_of_lt (by omega), if_neg (by omega), Nat.zero_add, Nat.add_comm j h, Nat.add_sub_cancel]

theorem exists_binade (f : Fmt) (c : Nat) : ∃ k m, c = k * 2 ^ (f.prec - 1) + m ∧ m < 2 * 2 ^ (f.prec - 1) ∧
    (k = 0 ∨ 2 ^ (f.prec - 1) ≤ m) := by
  have pos : 0 < 2 ^ (f.prec - 1) := by positivity
  generalize 2 ^ (f.prec - 1) = h at *
  obtain low | high := lt_or_ge c h
  · exact ⟨0, c, by omega, by omega, .inl rfl⟩
  · have parts := Nat.div_add_mod' (c - h) h
    have := Nat.mod_lt (c - h) pos
    exact ⟨(c - h) / h, (c - h) % h + h, by omega, by omega, .inr (by omega)⟩

theorem codeVal_strictMono (f : Fmt) : StrictMono (codeVal f) := by
  refine strictMono_nat_of_lt_succ fun c => ?_
  obtain ⟨k, m, rfl, lt, ge⟩ := exists_binade f c
  rw [codeVal_of_binade lt.le ge, Nat.add_assoc, codeVal_of_binade lt (ge.imp_right Nat.le_succ_of_le), magRat_succ]
  exact lt_add_of_pos_right _ (by positivity)

/-! ### The nearest code -/

/-- The code c lies nearest to x: x is not beyond the midpoints of c and its neighbours, and on one only where c is even. -/
structure NearestCode (g : Nat → ℚ) (c : Nat) (x : ℚ) : Prop where
  /-- The midpoint above. -/
  above : 2 * x ≤ g c + g (c + 1)
  /-- On it. -/
  tieAbove : 2 * x = g c + g (c + 1) → c % 2 = 0
  /-- The midpoint below. -/
  below : ∀ d, c = d + 1 → g d + g c ≤ 2 * x
  /-- On it. -/
  tieBelow : ∀ d, c = d + 1 → g d + g c = 2 * x → c % 2 = 0

section

variable {g : Nat → ℚ} (mono : StrictMono g) {c : Nat} {x : ℚ}

include mono

/-- No other code is nearer, and one equally near leaves c even. -/
theorem NearestCode.le_dist (h : NearestCode g c x) (d : Nat) :
    |g c - x| ≤ |g d - x| ∧ (d ≠ c → |g c - x| = |g d - x| → c % 2 = 0) := by
  obtain lt | rfl | gt := lt_trichotomy d c
  · obtain ⟨b, rfl⟩ := Nat.exists_eq_succ_of_ne_zero (Nat.ne_zero_of_lt lt)
    have hb : g d ≤ g b := mono.monotone (Nat.lt_succ_iff.mp lt)
    have hc : g b < g (b + 1) := mono (Nat.lt_succ_self b)
    have mid := h.below b rfl
    have far : |g d - x| = x - g d := by
      rw [abs_sub_comm, abs_of_nonneg]
      linarith
    rw [far]
    refine ⟨abs_le.mpr ⟨by linarith, by linarith⟩, fun _ e => h.tieBelow b rfl ?_⟩
    obtain e | e := abs_choice (g (b + 1) - x) <;> rw [Nat.succ_eq_add_one] at * <;> linarith
  · exact ⟨le_rfl, fun ne => absurd rfl ne⟩
  · have hd : g (c + 1) ≤ g d := mono.monotone gt
    have hc : g c < g (c + 1) := mono (Nat.lt_succ_self c)
    have mid := h.above
    have far : |g d - x| = g d - x := by
      rw [abs_of_nonneg]
      linarith
    rw [far]
    refine ⟨abs_le.mpr ⟨by linarith, by linarith⟩, fun _ e => h.tieAbove ?_⟩
    obtain e | e := abs_choice (g c - x) <;> linarith

/-- The code lies beyond a code b where x is beyond the midpoint of b and the next, or on it with b odd. -/
theorem NearestCode.lt_iff (h : NearestCode g c x) (b : Nat) :
    b < c ↔ g b + g (b + 1) < 2 * x ∨ (2 * x = g b + g (b + 1) ∧ b % 2 = 1) := by
  constructor
  · intro lt
    obtain ⟨d, rfl⟩ := Nat.exists_eq_succ_of_ne_zero (Nat.ne_zero_of_lt lt)
    have mid := h.below d rfl
    obtain lt' | rfl := (Nat.lt_succ_iff.mp lt).lt_or_eq
    · have h1 : g b < g d := mono lt'
      have h2 : g (b + 1) < g (d + 1) := mono (Nat.succ_lt_succ lt')
      exact .inl (by linarith)
    · obtain lt' | e := mid.lt_or_eq
      · exact .inl lt'
      · have even := h.tieBelow b rfl e
        exact .inr ⟨e.symm, by omega⟩
  · intro beyond
    by_contra ge
    have mid := h.above
    have h1 : g c ≤ g b := mono.monotone (not_lt.mp ge)
    have h2 : g (c + 1) ≤ g (b + 1) := mono.monotone (Nat.succ_le_succ (not_lt.mp ge))
    obtain lt | ⟨e, odd⟩ := beyond
    · linarith
    · have same : c = b := mono.injective (by linarith)
      have even := h.tieAbove (by linarith)
      omega

theorem NearestCode.unique {c' : Nat} (h : NearestCode g c x) (h' : NearestCode g c' x) : c = c' := by
  obtain lt | rfl | gt := lt_trichotomy c c'
  · have one := (h'.lt_iff mono c).mp lt
    exact absurd ((h.lt_iff mono c).mpr one) (lt_irrefl c)
  · rfl
  · have one := (h.lt_iff mono c').mp gt
    exact absurd ((h'.lt_iff mono c').mpr one) (lt_irrefl c')

end

/-! ### Rounding to a format -/

/-- The exponent of the last place of a magnitude in a format. -/
def roundExp (f : Fmt) (m : Nat) (e : Int) : Int := max (e + (Nat.log2 m + 1 : Nat) - f.prec) f.qmin

theorem fpRound_eq (f : Fmt) {m : Nat} (hm : m ≠ 0) (e : Int) :
    fpRound f m e = (roundExp f m e - f.qmin).toNat * 2 ^ (f.prec - 1) + magInt m (e - roundExp f m e) := by
  rw [fpRound, if_neg hm]
  simp only [roundExp, magInt, sub_nonneg, neg_sub]

theorem roundExp_bounds (f : Fmt) (hp : 1 ≤ f.prec) {m : Nat} (hm : m ≠ 0) (e : Int) :
    magRat m (e - roundExp f m e) < 2 * 2 ^ (f.prec - 1) ∧
      (roundExp f m e = f.qmin ∨ 2 ^ (f.prec - 1) ≤ magRat m (e - roundExp f m e)) := by
  have le : e + (Nat.log2 m + 1 : Nat) - f.prec ≤ roundExp f m e := le_max_left _ _
  have top : (m : ℚ) < 2 ^ ((Nat.log2 m + 1 : Nat) : Int) := by
    rw [zpow_natCast]
    exact_mod_cast Nat.lt_log2_self
  have bot : (2 : ℚ) ^ (Nat.log2 m : Int) ≤ m := by
    rw [zpow_natCast]
    exact_mod_cast Nat.log2_self_le hm
  have pos (z : Int) : (0 : ℚ) < 2 ^ z := by positivity
  have half : (2 : ℚ) ^ (f.prec - 1) = 2 ^ ((f.prec : Int) - 1) := by rw [← zpow_natCast, Nat.cast_pred hp]
  rw [magRat, half]
  constructor
  · calc (m : ℚ) * 2 ^ (e - roundExp f m e)
        < 2 ^ ((Nat.log2 m + 1 : Nat) : Int) * 2 ^ (e - roundExp f m e) := mul_lt_mul_of_pos_right top (pos _)
      _ = 2 ^ (((Nat.log2 m + 1 : Nat) : Int) + (e - roundExp f m e)) := (zpow_add₀ two_ne_zero _ _).symm
      _ ≤ 2 ^ (1 + ((f.prec : Int) - 1)) := zpow_le_zpow_right₀ one_le_two (by omega)
      _ = 2 * 2 ^ ((f.prec : Int) - 1) := zpow_one_add₀ two_ne_zero _
  · obtain eq | eq : roundExp f m e = e + (Nat.log2 m + 1 : Nat) - f.prec ∨ roundExp f m e = f.qmin := max_choice _ _
    · right
      calc (2 : ℚ) ^ ((f.prec : Int) - 1) = 2 ^ ((Nat.log2 m : Int) + (e - roundExp f m e)) := by
            congr 1
            push_cast at eq
            omega
        _ = 2 ^ (Nat.log2 m : Int) * 2 ^ (e - roundExp f m e) := zpow_add₀ two_ne_zero _ _
        _ ≤ m * 2 ^ (e - roundExp f m e) := mul_le_mul_of_nonneg_right bot (pos _).le
    · exact .inl eq

/-- The next code of a binade is at least one unit of its last place above. -/
theorem codeVal_add_unit_le {f : Fmt} {k m : Nat} (le : m ≤ 2 * 2 ^ (f.prec - 1)) (ge : k = 0 ∨ 2 ^ (f.prec - 1) ≤ m) :
    codeVal f (k * 2 ^ (f.prec - 1) + m) + 2 ^ (f.qmin + k) ≤ codeVal f (k * 2 ^ (f.prec - 1) + m + 1) := by
  have pos : 0 < 2 ^ (f.prec - 1) := by positivity
  rw [codeVal_of_binade le ge, ← magRat_succ]
  obtain rfl | lt := le.eq_or_lt
  · have next : k * 2 ^ (f.prec - 1) + 2 * 2 ^ (f.prec - 1) + 1 = (k + 1) * 2 ^ (f.prec - 1) + (2 ^ (f.prec - 1) + 1) := by ring
    have twice : magRat (2 ^ (f.prec - 1) + 1) (f.qmin + (k + 1 : Nat)) = magRat ((2 ^ (f.prec - 1) + 1) * 2 ^ 1) (f.qmin + k) := by
      rw [magRat_mul_pow, Nat.cast_succ, add_assoc, Nat.cast_one]
    rw [next, codeVal_of_binade (by omega) (.inr (Nat.le_succ _)), twice, magRat, magRat]
    exact mul_le_mul_of_nonneg_right (Nat.cast_le.mpr (by omega)) (by positivity)
  · rw [Nat.add_assoc, codeVal_of_binade lt (ge.imp_right Nat.le_succ_of_le)]

/-- A rounded significand m, of a magnitude y in units of its last place, makes the nearest code of its binade. -/
theorem nearestCode_of_binade {f : Fmt} (even : 2 ^ (f.prec - 1) % 2 = 0) {k m : Nat} {y : ℚ} (hm : RoundsTo m y)
    (top : y < 2 * 2 ^ (f.prec - 1)) (bot : k = 0 ∨ 2 ^ (f.prec - 1) ≤ y) :
    NearestCode (codeVal f) (k * 2 ^ (f.prec - 1) + m) (y * 2 ^ (f.qmin + k)) := by
  obtain ⟨dist, tie⟩ := hm
  obtain ⟨lo, hi⟩ := abs_le.mp dist
  have unit : (0 : ℚ) < 2 ^ (f.qmin + k) := by positivity
  have pos : 0 < 2 ^ (f.prec - 1) := by positivity
  have le : m ≤ 2 * 2 ^ (f.prec - 1) := by
    have lt : (m : ℚ) < (2 * 2 ^ (f.prec - 1) + 1 : Nat) := by
      push_cast
      linarith
    exact Nat.lt_succ_iff.mp (by exact_mod_cast lt)
  have ge : k = 0 ∨ 2 ^ (f.prec - 1) ≤ m := bot.imp_right fun h => by
    have lt : ((2 ^ (f.prec - 1) : Nat) : ℚ) < (m + 1 : Nat) := by
      push_cast
      linarith
    exact Nat.lt_succ_iff.mp (by exact_mod_cast lt)
  have parity : m % 2 = 0 → (k * 2 ^ (f.prec - 1) + m) % 2 = 0 := fun h => by
    rw [Nat.add_mod, Nat.mul_mod, even, h, Nat.mul_zero]
  have val : codeVal f (k * 2 ^ (f.prec - 1) + m) = m * 2 ^ (f.qmin + k) := codeVal_of_binade le ge
  have next := codeVal_add_unit_le le ge
  have scaled {a b : ℚ} (h : a ≤ b) : a * 2 ^ (f.qmin + k) ≤ b * 2 ^ (f.qmin + k) := mul_le_mul_of_nonneg_right h unit.le
  have before : ∀ d, k * 2 ^ (f.prec - 1) + m = d + 1 →
      codeVal f d + codeVal f (k * 2 ^ (f.prec - 1) + m) = (2 * m - 1) * 2 ^ (f.qmin + k) ∨
      codeVal f d + codeVal f (k * 2 ^ (f.prec - 1) + m) < 2 * (y * 2 ^ (f.qmin + k)) := by
    intro d hd
    obtain _ | m := m
    · obtain rfl : k = 0 := ge.resolve_right (by omega)
      omega
    obtain rfl : d = k * 2 ^ (f.prec - 1) + m := by omega
    by_cases inside : k = 0 ∨ 2 ^ (f.prec - 1) ≤ m
    · left
      rw [val, codeVal_of_binade (by omega) inside, magRat]
      push_cast
      ring
    · right
      have first : 2 ^ (f.prec - 1) = m + 1 := by omega
      have hy : ((m + 1 : Nat) : ℚ) ≤ y := by
        rw [← first]
        exact_mod_cast bot.resolve_left (by omega)
      have lower : codeVal f (k * 2 ^ (f.prec - 1) + m) < codeVal f (k * 2 ^ (f.prec - 1) + (m + 1)) :=
        codeVal_strictMono f (Nat.lt_succ_self _)
      linarith [scaled hy]
  refine ⟨?_, fun e => parity (tie ?_), fun d hd => ?_, fun d hd e => parity (tie ?_)⟩
  · linarith [scaled hi]
  · have ge : 1 / 2 ≤ y - m := le_of_mul_le_mul_right (by linarith) unit
    rw [abs_of_nonneg (by linarith)]
    linarith
  · obtain eq | lt := before d hd
    · linarith [scaled lo]
    · exact lt.le
  · obtain eq | lt := before d hd
    · have le : y - m ≤ -(1 / 2) := le_of_mul_le_mul_right (by linarith) unit
      rw [abs_of_nonpos (by linarith)]
      linarith
    · exact absurd e lt.ne

/-- Rounding takes the nearest code, and of two the even one (R68). -/
theorem nearestCode_fpRound {f : Fmt} (hp : 2 ≤ f.prec) (m : Nat) (e : Int) :
    NearestCode (codeVal f) (fpRound f m e) (magRat m e) := by
  have even : 2 ^ (f.prec - 1) % 2 = 0 := Nat.mod_eq_zero_of_dvd (dvd_pow_self 2 (by omega))
  by_cases hm : m = 0
  · subst hm
    have zero := nearestCode_of_binade (f := f) even (k := 0) (roundsTo_natCast 0) (by positivity) (.inl rfl)
    rwa [Nat.zero_mul, Nat.cast_zero, zero_mul, ← magRat_zero e] at zero
  · obtain ⟨top, bot⟩ := roundExp_bounds f (by omega) hm e
    have above : f.qmin ≤ roundExp f m e := le_max_right _ _
    have rounded := nearestCode_of_binade even (k := (roundExp f m e - f.qmin).toNat) (roundsTo_magInt m (e - roundExp f m e)) top
      (bot.imp_left (by omega))
    have scale : magRat m (e - roundExp f m e) * 2 ^ (f.qmin + (roundExp f m e - f.qmin).toNat) = magRat m e := by
      rw [← magRat_add_exp]
      congr 1
      omega
    rwa [scale, ← fpRound_eq f hm] at rounded

end Sys2Proof.Machine
end

section
/-!
PROOFS. Rounding to each format, and the value of each 8-bit code (R58 to R61, R68, R70).
-/

namespace Sys2Proof.Machine

/-! ### Every format -/

theorem fpDecode_finite {f : Fmt} (hmax : f.maxc < 2 ^ (f.width - 1)) {c : Nat} (h : c ≤ f.maxc) :
    ∃ m e, fpDecode f c = .fin false m e ∧ magRat m e = codeVal f c := by
  have lt : c < 2 ^ (f.width - 1) := Nat.lt_of_le_of_lt h hmax
  obtain ⟨m, e, decoded, val⟩ := fpDecode_of_le (f := f) (c := c) (by rwa [Nat.mod_eq_of_lt lt])
  rw [nfld, Nat.shiftRight_eq_div_pow, Nat.div_eq_of_lt lt] at decoded
  rw [Nat.mod_eq_of_lt lt] at val
  exact ⟨m, e, decoded, val⟩

/-- What a format rounds to, with t the midpoint of its largest finite value and the next one. -/
theorem fpRound_nearest {f : Fmt} (hp : 2 ≤ f.prec) (hmax : f.maxc < 2 ^ (f.width - 1)) {t : ℚ}
    (ht : codeVal f f.maxc + codeVal f (f.maxc + 1) = 2 * t) (m : Nat) (e : Int) :
    (f.maxc < fpRound f m e ↔ t < magRat m e ∨ (magRat m e = t ∧ f.maxc % 2 = 1)) ∧
    (fpRound f m e ≤ f.maxc → ∃ k j, fpDecode f (fpRound f m e) = .fin false k j ∧ ∀ d k' j', d ≤ f.maxc →
      fpDecode f d = .fin false k' j' → |magRat k j - magRat m e| ≤ |magRat k' j' - magRat m e| ∧
        (d ≠ fpRound f m e → |magRat k j - magRat m e| = |magRat k' j' - magRat m e| → fpRound f m e % 2 = 0)) := by
  have nearest := nearestCode_fpRound hp m e
  constructor
  · rw [nearest.lt_iff (codeVal_strictMono f) f.maxc, ht, mul_lt_mul_iff_right₀ two_pos, mul_right_inj' two_ne_zero]
  · intro le
    obtain ⟨k, j, decoded, val⟩ := fpDecode_finite hmax le
    refine ⟨k, j, decoded, fun d k' j' hd other => ?_⟩
    obtain ⟨_, _, decoded', val'⟩ := fpDecode_finite hmax hd
    obtain ⟨-, rfl, rfl⟩ := Val.fin.inj (other.symm.trans decoded')
    rw [val, val']
    exact nearest.le_dist (codeVal_strictMono f) d

/-- Settles O56: by the nearest code, which strict order of the codes' values makes the only one. -/
theorem roundsToNearestEven : Obligations.RoundsToNearestEven := by
  unfold Obligations.RoundsToNearestEven
  intro x hx m e
  simp only [List.mem_cons, List.not_mem_nil, or_false] at hx
  obtain rfl | rfl | rfl | rfl := hx
  · exact fpRound_nearest (by decide) (by decide) (by norm_num [codeVal, fmtF8v, magRat]) m e
  · exact fpRound_nearest (by decide) (by decide) (by norm_num [codeVal, fmtF8g, magRat]) m e
  · exact fpRound_nearest (by decide) (by decide) (by norm_num [codeVal, fmtB16, magRat]) m e
  · exact fpRound_nearest (by decide) (by decide) (by norm_num [codeVal, fmtF32, magRat]) m e

/-! ### The 8-bit formats -/

/-- A code by its exponent and mantissa fields (R58 to R60). -/
theorem codeVal_eq_fields {f : Fmt} (hp : 1 ≤ f.prec) {E M : Nat} (hM : M < 2 ^ (f.prec - 1)) :
    codeVal f (E * 2 ^ (f.prec - 1) + M) = if E = 0 then (2 : ℚ) ^ (f.qmin + f.prec - 1) * M / 2 ^ (f.prec - 1)
      else 2 ^ ((E : Int) - (2 - f.qmin - f.prec)) * (1 + M / 2 ^ (f.prec - 1)) := by
  have pos : 0 < 2 ^ (f.prec - 1) := by positivity
  have split_exp (z : Int) : (2 : ℚ) ^ (z + f.prec - 1) = 2 ^ z * 2 ^ (f.prec - 1) := by
    rw [← zpow_natCast, ← zpow_add₀ two_ne_zero, Nat.cast_pred hp, add_sub_assoc]
  rw [codeVal, Nat.mul_comm, Nat.mul_add_mod, Nat.mod_eq_of_lt hM, Nat.mul_add_div pos, Nat.div_eq_of_lt hM, Nat.add_zero, magRat]
  split
  case isTrue sub =>
    subst sub
    rw [split_exp]
    field_simp
    simp [mul_comm]
  case isFalse normal =>
    obtain ⟨k, rfl⟩ := Nat.exists_eq_succ_of_ne_zero normal
    have exp : ((k.succ : Nat) : Int) - (2 - f.qmin - f.prec) = f.qmin + k + f.prec - 1 := by
      push_cast
      ring
    rw [exp, split_exp]
    field_simp
    push_cast
    ring

theorem getLsbD_eq_nfld (c : BitVec 8) : (nfld c.toNat 7 1 == 1) = c.getLsbD 7 := by
  rw [BitVec.getLsbD, Nat.testBit_eq_decide_div_mod_eq, nfld, Nat.shiftRight_eq_div_pow]
  rfl

/-- The fields of an 8-bit code whose mantissa has n bits. -/
theorem eight_bit_fields (c : BitVec 8) {n : Nat} (hn : n ≤ 7) : c.toNat % 2 ^ 7 = fld c n (7 - n) * 2 ^ n + fld c 0 n := by
  rw [fld, fld, Nat.shiftRight_eq_div_pow, Nat.shiftRight_zero, ← Nat.mod_mul_right_div_self, ← pow_add, Nat.add_sub_cancel' hn,
    ← Nat.mod_mod_of_dvd c.toNat (pow_dvd_pow 2 hn), Nat.div_add_mod']

/-- The value of a finite code of an 8-bit format. -/
theorem fpDecode_eight_bit {f : Fmt} (hw : f.width = 8) (hp : 1 ≤ f.prec) (hp' : f.prec ≤ 8) (c : BitVec 8)
    (h : fld c (f.prec - 1) (8 - f.prec) * 2 ^ (f.prec - 1) + fld c 0 (f.prec - 1) ≤ f.maxc) :
    ∃ m e, fpDecode f c.toNat = .fin (c.getLsbD 7) m e ∧ magRat m e =
      if fld c (f.prec - 1) (8 - f.prec) = 0 then (2 : ℚ) ^ (f.qmin + f.prec - 1) * fld c 0 (f.prec - 1) / 2 ^ (f.prec - 1)
      else 2 ^ ((fld c (f.prec - 1) (8 - f.prec) : Int) - (2 - f.qmin - f.prec)) * (1 + fld c 0 (f.prec - 1) / 2 ^ (f.prec - 1)) := by
  have fields := eight_bit_fields c (n := f.prec - 1) (by omega)
  rw [show 7 - (f.prec - 1) = 8 - f.prec by omega] at fields
  obtain ⟨m, e, decoded, val⟩ := fpDecode_of_le (f := f) (c := c.toNat) (by rwa [hw, fields])
  rw [hw, getLsbD_eq_nfld] at decoded
  rw [hw, fields, codeVal_eq_fields (E := fld c _ _) hp (M := fld c 0 _) (Nat.mod_lt _ (by positivity))] at val
  exact ⟨m, e, decoded, val⟩

/-- A code beyond the largest finite one. -/
theorem fpDecode_beyond {f : Fmt} {code : Nat} (h : f.maxc < code % 2 ^ (f.width - 1)) :
    fpDecode f code = if f.infc = some (code % 2 ^ (f.width - 1)) then .inf (nfld code (f.width - 1) 1 == 1) else .nan := by
  rw [fpDecode]
  dsimp only
  rw [if_neg (by omega)]

/-- Settles O54: a code is its fields, and only the last one is not finite. -/
theorem f8vValues : Obligations.F8vValues := by
  unfold Obligations.F8vValues
  intro c neg E M
  have fields : c.toNat % 2 ^ 7 = E * 8 + M := eight_bit_fields c (n := 3) (by decide)
  have hE : E < 16 := Nat.mod_lt _ (by decide)
  have hM : M < 8 := Nat.mod_lt _ (by decide)
  refine ⟨fun ⟨top, last⟩ => ?_, fun finite => ?_⟩
  · exact fpDecode_beyond (f := fmtF8v) (by rw [show fmtF8v.width - 1 = 7 from rfl, fields, top, last]; decide)
  · obtain ⟨m, e, decoded, val⟩ := fpDecode_eight_bit (f := fmtF8v) rfl (by decide) (by decide) c (show E * 8 + M ≤ 0x7E by omega)
    exact ⟨m, e, decoded, val.trans (by norm_num [fmtF8v, E, M])⟩

/-- Settles O55: a code is its fields, and those with the largest exponent are not finite. -/
theorem f8gValues : Obligations.F8gValues := by
  unfold Obligations.F8gValues
  intro c neg E M
  have fields : c.toNat % 2 ^ 7 = E * 4 + M := eight_bit_fields c (n := 2) (by decide)
  have hE : E < 32 := Nat.mod_lt _ (by decide)
  have hM : M < 4 := Nat.mod_lt _ (by decide)
  refine ⟨fun top => ?_, fun finite => ?_⟩
  · rw [top] at fields
    have inf : fmtF8g.infc = some (c.toNat % 2 ^ 7) ↔ M = 0 := by
      rw [fields, fmtF8g, Option.some_inj]
      omega
    refine (fpDecode_beyond (f := fmtF8g) (fields.symm ▸ Nat.lt_add_right M (by decide))).trans ?_
    exact if_congr inf (congrArg Val.inf (getLsbD_eq_nfld c)) rfl
  · obtain ⟨m, e, decoded, val⟩ := fpDecode_eight_bit (f := fmtF8g) rfl (by decide) (by decide) c (show E * 4 + M ≤ 0x7B by omega)
    exact ⟨m, e, decoded, val.trans (by norm_num [fmtF8g, E, M])⟩

end Sys2Proof.Machine
end

section
/-!
PROOFS. Sums are exact and rounded once, whatever the order of their terms (R63, R65).
-/

namespace Sys2Proof.Machine

/-! ### Rounding sees the value alone -/

theorem fpRound_congr {f : Fmt} (hp : 2 ≤ f.prec) {m m' : Nat} {e e' : Int} (h : magRat m e = magRat m' e') :
    fpRound f m e = fpRound f m' e' :=
  (nearestCode_fpRound hp m e).unique (codeVal_strictMono f) (h ▸ nearestCode_fpRound hp m' e')

theorem f32Round_congr (n : Bool) {m m' : Nat} {e e' : Int} (h : magRat m e = magRat m' e') : f32Round n m e = f32Round n m' e' := by
  rw [f32Round, fpRound_congr (by decide) h]
  rfl

/-! ### Exact dyadic numbers -/

/-- The value of an exact dyadic number. -/
def dyRat (x : Int × Int) : ℚ := (x.1 : ℚ) * 2 ^ x.2

theorem dyRat_lower (a : Int) {e e' : Int} (h : e ≤ e') : dyRat (a * 2 ^ (e' - e).toNat, e) = dyRat (a, e') := by
  rw [dyRat, dyRat, Int.cast_mul, Int.cast_pow, Int.cast_ofNat, mul_assoc, ← zpow_natCast, ← zpow_add₀ two_ne_zero,
    Int.toNat_of_nonneg (by omega), sub_add_cancel]

theorem dyRat_add_same (a b e : Int) : dyRat (a + b, e) = dyRat (a, e) + dyRat (b, e) := by
  simp only [dyRat, Int.cast_add, add_mul]

theorem dyRat_dyAdd (a b : Int × Int) : dyRat (dyAdd a b) = dyRat a + dyRat b := by
  obtain ⟨a, e⟩ := a
  obtain ⟨b, e'⟩ := b
  rw [dyAdd]
  split
  case isTrue h => rw [dyRat_add_same, dyRat_lower b h]
  case isFalse h => rw [dyRat_add_same, dyRat_lower a (not_le.mp h).le]

theorem dyRat_neg_iff (x : Int × Int) : x.1 < 0 ↔ dyRat x < 0 := by
  have pos : (0 : ℚ) < 2 ^ x.2 := by positivity
  rw [dyRat, mul_neg_iff, Int.cast_lt_zero]
  simp [pos, pos.not_gt]

theorem magRat_natAbs (x : Int × Int) : magRat x.1.natAbs x.2 = |dyRat x| := by
  have pos : (0 : ℚ) < 2 ^ x.2 := by positivity
  rw [dyRat, abs_mul, abs_of_pos pos, magRat, Nat.cast_natAbs, Int.cast_abs]

/-- The rounded code of an exact number, from any dyadic form of its magnitude. -/
theorem f32OfDyadic_eq {x : Int × Int} {m : Nat} {e : Int} (h : magRat m e = |dyRat x|) :
    f32OfDyadic x = f32Round (decide (dyRat x < 0)) m e := by
  rw [f32OfDyadic, f32Round_congr _ (m' := m) (e' := e) ((magRat_natAbs x).trans h.symm)]
  simp only [dyRat_neg_iff]

theorem f32OfDyadic_congr {x y : Int × Int} (h : dyRat x = dyRat y) : f32OfDyadic x = f32OfDyadic y := by
  rw [f32OfDyadic_eq (magRat_natAbs x), f32OfDyadic_eq (m := x.1.natAbs) (e := x.2) (by rw [magRat_natAbs, h]), h]

/-! ### Sums -/

/-- One term added to an exact sum; NaN and infinities add nothing. -/
def addTerm (acc : Int × Int) : Val → Int × Int
  | .fin n m e => dyAdd acc (signed n m, e)
  | _ => acc

/-- The exact sum of the finite terms. -/
def finSum (l : List Val) : ℚ := (l.filterMap valRat).sum

theorem dyRat_signed (n : Bool) (m : Nat) (e : Int) : valRat (.fin n m e) = some (dyRat (signed n m, e)) := by
  cases n <;> simp [valRat, signed, dyRat, magRat]

theorem dyRat_foldl_addTerm (l : List Val) (acc : Int × Int) : dyRat (l.foldl addTerm acc) = dyRat acc + finSum l := by
  induction l generalizing acc with
  | nil => simp [finSum]
  | cons v r ih =>
    rw [List.foldl_cons, ih]
    cases v with
    | fin n m e =>
      rw [addTerm, dyRat_dyAdd, finSum, finSum, List.filterMap_cons_some (dyRat_signed n m e), List.sum_cons, add_assoc]
    | nan => rfl
    | inf n => rfl

/-- A sum, by the terms that decide it. -/
theorem f32Sum_eq (l : List Val) : f32Sum l =
    if .nan ∈ l then (f32Nan, 3) else if .inf false ∈ l ∧ .inf true ∈ l then (f32Nan, 2)
    else if .inf false ∈ l then (f32Inf false, 0) else if .inf true ∈ l then (f32Inf true, 0)
    else f32OfDyadic (l.foldl addTerm (0, 0)) := by
  have listed (x : Val) : l.any (fun v => decide (v = x)) = decide (x ∈ l) := by
    rw [Bool.eq_iff_iff]
    simp
  have nan : f32Sum l = if l.any (fun v => decide (v = .nan)) = true then (f32Nan, 3) else
      if (l.any (fun v => decide (v = .inf false)) && l.any (fun v => decide (v = .inf true))) = true then (f32Nan, 2)
      else if l.any (fun v => decide (v = .inf false)) = true then (f32Inf false, 0)
      else if l.any (fun v => decide (v = .inf true)) = true then (f32Inf true, 0)
      else f32OfDyadic (l.foldl addTerm (0, 0)) := by
    unfold f32Sum
    congr!
    all_goals
      next v => rcases v with _ | ⟨_ | _⟩ | _ <;> rfl
  rw [nan]
  simp only [listed, Bool.and_eq_true, decide_eq_true_eq]

/-- Two lists with the same infinities and NaN and the same exact sum have one sum. -/
theorem f32Sum_congr {l k : List Val} (special : ∀ v, valRat v = none → (v ∈ l ↔ v ∈ k)) (sum : finSum l = finSum k) :
    f32Sum l = f32Sum k := by
  have finite : f32OfDyadic (l.foldl addTerm (0, 0)) = f32OfDyadic (k.foldl addTerm (0, 0)) :=
    f32OfDyadic_congr (by rw [dyRat_foldl_addTerm, dyRat_foldl_addTerm, sum])
  rw [f32Sum_eq, f32Sum_eq, finite]
  simp only [special .nan rfl, special (.inf _) rfl]

theorem f32Sum_perm {l k : List Val} (h : l.Perm k) : f32Sum l = f32Sum k :=
  f32Sum_congr (fun _ _ => h.mem_iff) (h.filterMap valRat).sum_eq

/-- The sum of finite terms is their exact sum rounded. -/
theorem f32Sum_finite {l : List Val} (finite : ∀ v ∈ l, (valRat v).isSome = true) {m : Nat} {e : Int} (h : magRat m e = |finSum l|) :
    f32Sum l = f32Round (decide (finSum l < 0)) m e := by
  have absent {v : Val} (hv : valRat v = none) : v ∉ l := fun mem => by simpa [hv] using finite v mem
  have sum : dyRat (l.foldl addTerm (0, 0)) = finSum l := by
    rw [dyRat_foldl_addTerm, dyRat, Int.cast_zero, zero_mul, zero_add]
  rw [f32Sum_eq, if_neg (absent rfl), if_neg fun h => absent rfl h.1, if_neg (absent rfl), if_neg (absent rfl),
    f32OfDyadic_eq (m := m) (e := e) (by rw [sum, h]), sum]

theorem f32Sum_cons_zero {l : List Val} {v : Val} (hv : valRat v = some 0) : f32Sum (v :: l) = f32Sum l := by
  refine f32Sum_congr (fun x hx => ?_) ?_
  · rw [List.mem_cons, or_iff_right]
    rintro rfl
    cases hx.symm.trans hv
  · rw [finSum, List.filterMap_cons_some hv, List.sum_cons, zero_add, finSum]

/-! ### Columns -/

theorem forall_mem_zipIdx {α : Type} {l : List α} {p : α → Prop} : (∀ x ∈ l.zipIdx, p x.1) ↔ ∀ a ∈ l, p a := by
  conv_rhs => rw [← List.zipIdx_map_fst 0 l]
  rw [List.forall_mem_map]

/-- No event among results listed with their place. -/
theorem events_eq_nil_iff {α β : Type} {l : List α} {kind : α → Nat} {note : α × Nat → β} :
    l.zipIdx.filterMap (fun x => if kind x.1 = 0 then none else some (note x)) = [] ↔ ∀ a ∈ l, kind a = 0 := by
  rw [List.filterMap_eq_nil_iff, ← forall_mem_zipIdx (l := l)]
  simp only [ite_eq_left_iff, reduceCtorEq, imp_false, not_not]

/-- The result of a column: the sum of its products where none of them is an event. -/
theorem columnResult_fst (l : List (Val × Val)) : (columnResult (l.map Prod.fst) (l.map Prod.snd)).1 =
    if ∀ x ∈ l, (valMul x.1 x.2).2 = 0 then (f32Sum (l.map fun x => (valMul x.1 x.2).1)).1 else f32Nan := by
  have products : List.zipWith valMul (l.map Prod.fst) (l.map Prod.snd) = l.map fun x => valMul x.1 x.2 := by
    rw [List.zipWith_map, List.zipWith_self]
  rw [columnResult, products]
  dsimp only
  simp only [events_eq_nil_iff (kind := Prod.snd), List.forall_mem_map, apply_ite Prod.fst, List.map_map]
  rfl

theorem columnResult_perm {ps qs : List (Val × Val)} (h : ps.Perm qs) :
    (columnResult (ps.map Prod.fst) (ps.map Prod.snd)).1 = (columnResult (qs.map Prod.fst) (qs.map Prod.snd)).1 := by
  rw [columnResult_fst, columnResult_fst, f32Sum_perm (h.map _)]
  simp only [h.mem_iff]

/-- Settles O57: a sum depends on the infinities and NaN among its terms and on the exact sum of the others. -/
theorem sumsExactAndOrderFree : Obligations.SumsExactAndOrderFree := by
  unfold Obligations.SumsExactAndOrderFree
  refine ⟨fun _ _ => f32Sum_perm, fun l finite zero => ?_, fun n k m m' e e' l zero => ?_, fun l finite => ?_,
    fun _ _ => columnResult_perm⟩
  · have rounded := f32Sum_finite finite (m := 0) (e := 0) (by rw [magRat_zero, finSum, zero, abs_zero])
    rw [rounded, finSum, zero]
    rfl
  · have product : valRat (valMul (.fin n m e) (.fin k m' e')).1 = some 0 := by
      rw [valMul, Nat.mul_eq_zero.mpr zero]
      simp [valRat]
    exact ⟨rfl, f32Sum_cons_zero product⟩
  · intro x m e h
    refine f32Sum_finite finite ?_
    have abs : |x| = magRat m e := by
      obtain h | h := h <;> rw [h]
      · exact abs_of_nonneg (magRat_nonneg m e)
      · rw [abs_neg, abs_of_nonneg (magRat_nonneg m e)]
    exact abs.symm

end Sys2Proof.Machine
end

section
/-!
PROOFS. Numbers held in memories: what a number reads as after a write, and the accumulators of the update units (R75 to R77).
-/

namespace Sys2Proof.Machine

/-! ### Numbers in a memory -/

theorem memRead_length (m : Memory) (a n : Nat) : (memRead m a n).length = n := by
  induction n generalizing a with
  | zero => rfl
  | succ n ih => rw [memRead, List.length_cons, ih]

theorem memRead_congr {m m' : Memory} {a n : Nat} (h : ∀ x, a ≤ x → x < a + n → memByte m x = memByte m' x) :
    memRead m a n = memRead m' a n := by
  induction n generalizing a with
  | zero => rfl
  | succ n ih => rw [memRead, memRead, h a le_rfl (by omega), ih fun x hx hx' => h x (by omega) (by omega)]

theorem memNat_congr {m m' : Memory} {a n : Nat} (h : ∀ x, a ≤ x → x < a + n → memByte m x = memByte m' x) :
    memNat m a n = memNat m' a n := by
  rw [memNat, memNat, memRead_congr h]

/-- Bytes that are written read as written. -/
theorem memRead_memWrite_same {m : Memory} (wf : Memory.wf m = true) (a : Nat) (b : List Byte) :
    memRead (memWrite m a b) a b.length = b :=
  memRead_eq_of_bytes fun j hj => memByte_memWrite_inside m a b j wf hj

/-- A number that is written reads as written. -/
theorem memNat_memWrite_same {m : Memory} (wf : Memory.wf m = true) (a : Nat) {n v : Nat} (h : v < 256 ^ n) :
    memNat (memWrite m a (leBytes n v)) a n = v := by
  have read := memRead_memWrite_same wf a (leBytes n v)
  rw [leBytes_length] at read
  rw [memNat_eq_leNat, read, leNat_leBytes n v h]

/-- A number apart from what is written. -/
theorem memNat_memWrite_apart {m : Memory} {a c n : Nat} {b : List Byte} (h : c + n ≤ a ∨ a + b.length ≤ c) :
    memNat (memWrite m a b) c n = memNat m c n :=
  memNat_congr fun x _ _ => memByte_memWrite_outside m a b x (by omega)

theorem memNat_memZero_inside {m : Memory} {a k c n : Nat} (lo : a ≤ c) (hi : c + n ≤ a + k) : memNat (memZero m a k) c n = 0 := by
  have zero (n c : Nat) (lo : a ≤ c) (hi : c + n ≤ a + k) : leNat (memRead (memZero m a k) c n) = 0 := by
    induction n generalizing c with
    | zero => rfl
    | succ n ih => rw [memRead, leNat, ih (c + 1) (by omega) (by omega), memByte_memZero, if_pos (by omega)]; rfl
  rw [memNat_eq_leNat, zero n c lo hi]

theorem memNat_memZero_apart {m : Memory} {a k c n : Nat} (h : c + n ≤ a ∨ a + k ≤ c) : memNat (memZero m a k) c n = memNat m c n :=
  memNat_congr fun x _ _ => by rw [memByte_memZero, if_neg (by omega)]

theorem leNat_lt (l : List Byte) : leNat l < 256 ^ l.length := by
  induction l with
  | nil => exact Nat.one_pos
  | cons b r ih =>
    have := b.isLt
    rw [leNat, List.length_cons, Nat.pow_succ]
    omega

theorem leNat_injective {l k : List Byte} (len : l.length = k.length) (h : leNat l = leNat k) : l = k := by
  induction l generalizing k with
  | nil => exact (List.length_eq_zero_iff.mp len.symm).symm
  | cons b r ih =>
    obtain ⟨c, t, rfl⟩ := List.exists_cons_of_length_eq_add_one len.symm
    have := b.isLt
    have := c.isLt
    rw [leNat, leNat] at h
    rw [ih (Nat.succ.inj len) (by omega), BitVec.eq_of_toNat_eq (show b.toNat = c.toNat by omega)]

theorem memByte_eq_of_memRead {m m' : Memory} {a n : Nat} (h : memRead m a n = memRead m' a n) {x : Nat} (lo : a ≤ x) (hi : x < a + n) :
    memByte m x = memByte m' x := by
  induction n generalizing a with
  | zero => omega
  | succ n ih =>
    obtain ⟨first, rest⟩ := List.cons.inj h
    obtain rfl | lt := lo.eq_or_lt
    · exact first
    · exact ih rest lt (by omega)

/-- A number says which bytes hold it. -/
theorem memByte_eq_of_memNat {m m' : Memory} {a n : Nat} (h : memNat m a n = memNat m' a n) {x : Nat} (lo : a ≤ x) (hi : x < a + n) :
    memByte m x = memByte m' x := by
  rw [memNat_eq_leNat, memNat_eq_leNat] at h
  exact memByte_eq_of_memRead (leNat_injective (by rw [memRead_length, memRead_length]) h) lo hi

/-! ### One form for each memory -/

theorem tabWfFrom_cons {α : Type} [DecidableEq α] {d v : α} {n i : Nat} {t : Tab α} :
    tabWfFrom d n ((i, v) :: t) = true ↔ n ≤ i ∧ v ≠ d ∧ tabWfFrom d (i + 1) t = true := by
  simp only [tabWfFrom, Bool.and_eq_true, decide_eq_true_eq, and_assoc]

/-- A table that agrees with one whose first key is i lists a key up to i. -/
theorem first_key_le {α : Type} [DecidableEq α] {d v w : α} {n i j : Nat} {t u : Tab α} (ht : tabWfFrom d n ((i, v) :: t) = true)
    (hu : tabWfFrom d n ((j, w) :: u) = true) (h : ∀ k, tabGet d ((i, v) :: t) k = tabGet d ((j, w) :: u) k) : j ≤ i := by
  obtain ⟨-, hw, hu⟩ := tabWfFrom_cons.mp hu
  by_contra lt
  have below := tabGet_below d ((j, w) :: u) j i (tabWfFrom_cons.mpr ⟨le_rfl, hw, hu⟩) (not_le.mp lt)
  rw [← h i, tabGet, if_pos rfl] at below
  exact (tabWfFrom_cons.mp ht).2.1 below

/-- Tables in canonical form that read alike are one. -/
theorem tab_ext {α : Type} [DecidableEq α] {d : α} {n : Nat} {t u : Tab α} (ht : tabWfFrom d n t = true) (hu : tabWfFrom d n u = true)
    (h : ∀ k, tabGet d t k = tabGet d u k) : t = u := by
  induction t generalizing n u with
  | nil =>
    cases u with
    | nil => rfl
    | cons y r => exact absurd ((h y.1).trans (if_pos rfl)).symm (tabWfFrom_cons.mp hu).2.1
  | cons x t ih =>
    obtain ⟨i, v⟩ := x
    cases u with
    | nil => exact absurd ((if_pos rfl).symm.trans (h i)) (tabWfFrom_cons.mp ht).2.1
    | cons y u =>
      obtain ⟨j, w⟩ := y
      obtain rfl : i = j := le_antisymm (first_key_le hu ht fun k => (h k).symm) (first_key_le ht hu h)
      obtain rfl : v = w := by simpa only [tabGet, if_pos] using h i
      obtain ⟨-, -, ht⟩ := tabWfFrom_cons.mp ht
      obtain ⟨-, -, hu⟩ := tabWfFrom_cons.mp hu
      rw [ih ht hu fun k => ?_]
      obtain lt | le := Nat.lt_or_ge k (i + 1)
      · rw [tabGet_below d t _ k ht lt, tabGet_below d u _ k hu lt]
      · simpa only [tabGet, if_neg (show i ≠ k by omega)] using h k

theorem memory_ext {m m' : Memory} (hm : Memory.wf m = true) (hm' : Memory.wf m' = true) (h : ∀ x, memByte m x = memByte m' x) : m = m' :=
  tab_ext hm hm' h

/-! ### Two's complement -/

theorem sgn_twos (z : Int) : sgn 128 (twos 128 z) = Int.bmod z (2 ^ 128) := by
  rw [sgn, twos, Int.bmod]
  omega

theorem twos_sgn {v : Nat} (h : v < 2 ^ 128) : twos 128 (sgn 128 v) = v := by
  rw [sgn, twos]
  omega

theorem sgn_injective {v w : Nat} (hv : v < 2 ^ 128) (hw : w < 2 ^ 128) (h : sgn 128 v = sgn 128 w) : v = w := by
  rw [← twos_sgn hv, ← twos_sgn hw, h]

theorem bmod_sgn {v : Nat} (h : v < 2 ^ 128) : Int.bmod (sgn 128 v) (2 ^ 128) = sgn 128 v := by
  rw [← sgn_twos, twos_sgn h]

theorem memNat_lt (m : Memory) (a n : Nat) : memNat m a n < 256 ^ n := by
  rw [memNat_eq_leNat]
  exact (leNat_lt _).trans_eq (by rw [memRead_length])

/-! ### A contribution to an element (R75) -/

theorem accSum_congr {m m' : Memory} {t t' : Tensor} {e : Nat} (acc : t'.acc = t.acc)
    (h : ∀ x, t.acc + 16 * e ≤ x → x < t.acc + 16 * e + 16 → memByte m x = memByte m' x) : accSum m t e = accSum m' t' e := by
  rw [accSum, accSum, acc, memNat_congr h]

theorem accSum_memWrite {m : Memory} (wf : Memory.wf m = true) (t : Tensor) (e : Nat) (z : Int) :
    accSum (memWrite m (t.acc + 16 * e) (leBytes 16 (twos 128 z))) t e = Int.bmod z (2 ^ 128) := by
  rw [accSum, memNat_memWrite_same wf _ (by rw [twos]; omega), sgn_twos]

/-- Contributions of an integer sum z to an element of a tensor. -/
structure Contributed (ix e : Nat) (z : Int) (s u : State) : Prop where
  /-- The form of HBM. -/
  wf : Memory.wf u.hbm = true
  /-- The accumulator. -/
  acc : (tabGet {} u.tensors ix).acc = (tabGet {} s.tensors ix).acc
  /-- Its grid. -/
  grid : (tabGet {} u.tensors ix).wForce = (tabGet {} s.tensors ix).wForce
  /-- The sum of the element. -/
  sum : accSum u.hbm (tabGet {} s.tensors ix) e = Int.bmod (accSum s.hbm (tabGet {} s.tensors ix) e + z) (2 ^ 128)
  /-- Every other byte. -/
  outside : ∀ a, (a < (tabGet {} s.tensors ix).acc + 16 * e ∨ (tabGet {} s.tensors ix).acc + 16 * e + 16 ≤ a) →
    memByte u.hbm a = memByte s.hbm a

theorem Contributed.refl {s : State} (wf : Memory.wf s.hbm = true) (ix e : Nat) : Contributed ix e 0 s s :=
  ⟨wf, rfl, rfl, by rw [add_zero, accSum, bmod_sgn (memNat_lt _ _ 16)], fun _ _ => rfl⟩

theorem Contributed.trans {ix e : Nat} {y z : Int} {s t u : State} (h : Contributed ix e y s t) (k : Contributed ix e z t u) :
    Contributed ix e (y + z) s u := by
  have same (m : Memory) : accSum m (tabGet {} t.tensors ix) e = accSum m (tabGet {} s.tensors ix) e :=
    (accSum_congr h.acc.symm fun _ _ _ => rfl)
  refine ⟨k.wf, k.acc.trans h.acc, k.grid.trans h.grid, ?_, fun a ha => ?_⟩
  · rw [← same, k.sum, same, h.sum, Int.bmod_add_bmod, add_assoc]
  · rw [← h.outside a ha]
    exact k.outside a (by rwa [h.acc])

theorem addElem_tensor (ix e : Nat) (v : Val) (s : State) : ∃ n b,
    tabGet {} (addElem ix e v s).tensors ix =
      (let t := tabGet {} s.tensors ix
       let q := xaQuant v t.wForce
       { t with
        touched := true, dirty := true, stepWin := t.stepWin || q.2.1, stepNan := t.stepNan || q.2.2,
        win := t.win || q.2.1, nan := t.nan || q.2.2, outcnt := n, stepSet := b }) :=
  ⟨_, _, tabGet_tabSet_same {} _ _ ix fun h => Bool.noConfusion (congrArg Tensor.touched h)⟩

theorem addElem_hbm (ix e : Nat) (v : Val) (s : State) : (addElem ix e v s).hbm =
    memWrite s.hbm ((tabGet {} s.tensors ix).acc + 16 * e) (leBytes 16 (twos 128
      (accSum s.hbm (tabGet {} s.tensors ix) e + (xaQuant v (tabGet {} s.tensors ix).wForce).1))) := rfl

theorem contributed_addElem {s : State} (wf : Memory.wf s.hbm = true) (ix e : Nat) (v : Val) :
    Contributed ix e (xaQuant v (tabGet {} s.tensors ix).wForce).1 s (addElem ix e v s) := by
  obtain ⟨n, b, tensor⟩ := addElem_tensor ix e v s
  have hbm := addElem_hbm ix e v s
  refine ⟨by rw [hbm]; exact wf_memWrite _ _ _ wf, by rw [tensor], by rw [tensor], by rw [hbm, accSum_memWrite wf], fun a ha => ?_⟩
  rw [hbm]
  exact memByte_memWrite_outside _ _ _ _ (by rwa [leBytes_length])

theorem contributed_foldl {s : State} (wf : Memory.wf s.hbm = true) (ix e : Nat) (l : List Val) :
    Contributed ix e (l.map fun v => (xaQuant v (tabGet {} s.tensors ix).wForce).1).sum s (l.foldl (fun s v => addElem ix e v s) s) := by
  induction l generalizing s with
  | nil => exact .refl wf ix e
  | cons v r ih =>
    have one := contributed_addElem wf ix e v
    have rest := ih one.wf
    rw [one.grid] at rest
    exact one.trans rest

/-! ### A contribution on the grid (R75) -/

theorem roundInt_nearest (n : Bool) (m : Nat) (z : Int) :
    |(if n = true then -1 else 1) * magRat m z - roundInt n m z| ≤ 1 / 2 ∧
      (|(if n = true then -1 else 1) * magRat m z - roundInt n m z| = 1 / 2 → roundInt n m z % 2 = 0) := by
  obtain ⟨dist, tie⟩ := roundsTo_magInt m z
  have same : |(if n = true then -1 else 1) * magRat m z - roundInt n m z| = |magRat m z - magInt m z| := by
    rw [roundInt_eq]
    cases n
    · simp [signed]
    · rw [← abs_neg]
      congr 1
      simp [signed, add_comm, sub_eq_add_neg]
  rw [same]
  refine ⟨dist, fun h => ?_⟩
  have even := tie h
  rw [roundInt_eq, signed]
  split <;> omega

/-- A sum within the range of the accumulator is held as it is. -/
theorem bmod_eq_self {z : Int} (lo : -(2 ^ 127) ≤ z) (hi : z < 2 ^ 127) : Int.bmod z (2 ^ 128) = z :=
  Int.bmod_eq_of_le lo hi

/-- Settles O58: by the nearest integer, and what a contribution leaves of its tensor and of HBM. -/
theorem contributionRoundedAndAdded : Obligations.ContributionRoundedAndAdded := by
  unfold Obligations.ContributionRoundedAndAdded
  refine ⟨fun n m e w => ?_, fun _ _ => rfl, fun _ => rfl, fun s ix e v wf => ?_⟩
  · obtain ⟨dist, tie⟩ := roundInt_nearest n m (e - w)
    exact ⟨dist, tie, rfl⟩
  · intro t q u t' lo hi
    obtain ⟨n, b, tensor⟩ := addElem_tensor ix e v s
    have added := contributed_addElem wf ix e v
    have sum := (accSum_congr added.acc fun _ _ _ => rfl).symm.trans added.sum
    exact ⟨sum.trans (bmod_eq_self lo hi), congrArg Tensor.win tensor, congrArg Tensor.nan tensor, (congrArg Tensor.ovf tensor).trans rfl,
      added.outside⟩

/-! ### The sum of all contributions (R76, R77) -/

theorem xaQuant_bounds (v : Val) (w : Int) : -xaMax ≤ (xaQuant v w).1 ∧ (xaQuant v w).1 ≤ xaMax := by
  have pos : 0 ≤ xaMax := by decide
  cases v with
  | nan => exact ⟨neg_nonpos.mpr pos, pos⟩
  | inf n =>
    rw [xaQuant]
    dsimp only
    split
    · exact ⟨le_rfl, by omega⟩
    · exact ⟨by omega, le_rfl⟩
  | fin n m e =>
    rw [xaQuant]
    split
    · exact ⟨by omega, le_rfl⟩
    · split
      · exact ⟨le_rfl, by omega⟩
      · exact ⟨by omega, by omega⟩

theorem sum_xaQuant_bounds (l : List Val) (w : Int) :
    -(l.length * xaMax) ≤ (l.map fun v => (xaQuant v w).1).sum ∧ (l.map fun v => (xaQuant v w).1).sum ≤ l.length * xaMax := by
  induction l with
  | nil => simp
  | cons v r ih =>
    obtain ⟨lo, hi⟩ := xaQuant_bounds v w
    rw [List.map_cons, List.sum_cons, List.length_cons, Nat.cast_succ, add_one_mul]
    exact ⟨by omega, by omega⟩

/-- Contributions of one sum to one element leave HBM alike. -/
theorem Contributed.hbm_eq {ix e : Nat} {z : Int} {s t u : State} (h : Contributed ix e z s t) (k : Contributed ix e z s u) :
    t.hbm = u.hbm := by
  have number : memNat t.hbm ((tabGet {} s.tensors ix).acc + 16 * e) 16 = memNat u.hbm ((tabGet {} s.tensors ix).acc + 16 * e) 16 :=
    sgn_injective (memNat_lt _ _ 16) (memNat_lt _ _ 16) (h.sum.trans k.sum.symm)
  refine memory_ext h.wf k.wf fun x => ?_
  by_cases outside : x < (tabGet {} s.tensors ix).acc + 16 * e ∨ (tabGet {} s.tensors ix).acc + 16 * e + 16 ≤ x
  · rw [h.outside x outside, k.outside x outside]
  · exact memByte_eq_of_memNat number (by omega) (by omega)

/-- Settles O59: contributions add up modulo 2^128, which so few of them do not reach. -/
theorem accumulatorSumExact : Obligations.AccumulatorSumExact := by
  unfold Obligations.AccumulatorSumExact
  intro s ix e l wf few t u clear
  have all := contributed_foldl wf ix e l
  refine ⟨?_, fun k perm => ?_, fun d hd => ?_⟩
  · obtain ⟨lo, hi⟩ := sum_xaQuant_bounds l (tabGet {} s.tensors ix).wForce
    have sum := (accSum_congr all.acc fun _ _ _ => rfl).symm.trans all.sum
    rw [clear, zero_add] at sum
    refine sum.trans (bmod_eq_self ?_ ?_)
    all_goals
      rw [xaMax] at *
      omega
  · have other := contributed_foldl wf ix e k
    rw [← (perm.map _).sum_eq] at other
    exact other.hbm_eq all
  · refine (accSum_congr (t := t) all.acc fun x lo hi => (all.outside x ?_).symm).symm
    change x < t.acc + 16 * e ∨ t.acc + 16 * e + 16 ≤ x
    omega

end Sys2Proof.Machine
end

section
/-!
PROOFS. Words of the vector units: their result bytes, their status, and what they leave alone (R113, R149, Tables CORE-7, CORE-9).
-/

namespace Sys2Proof.Machine

/-! ### A word that completes on its core store -/

theorem issueWord_down {q i : Nat} {w : IWord} {sel : IWord → Bool} {down : State → Bool}
    {work : Nat → IWord → State → Option State} {s : State} (ready : readyWord s q = some (i, w)) (hsel : sel w = true)
    (asleep : down s = true) : issueWord q sel down work s = { s with run := wordOver q i 4 w s.run } := by
  rw [issueWord, ready]
  dsimp only
  rw [if_pos hsel, if_pos asleep, finishWord_setStatus]

/-- The latches of the array halves, through an event of the vector unit. -/
theorem coreEvent_latches (n : CoreIx) (kind flag elem col row instr : Nat) (s : State) {j : Fin 9} (hj : j.val ≠ 8) :
    (coreEvent n 8 kind flag elem col row instr s).cores[n].latches[j] = s.cores[n].latches[j] := by
  unfold coreEvent
  split
  · rfl
  · exact (congrArg (fun k : CoreSt => k.latches[j]) (vmod_same s.cores n _)).trans (vmod_other _ _ _ _ _ (Ne.symm hj))

/-- The events of a word of a vector unit brought to its latch. -/
def vuEvents (n : CoreIx) (i : Nat) (evs : List (Nat × Nat × Nat)) (s : State) : State :=
  evs.foldl (fun s e => coreEvent n 8 e.1 e.2.1 0x3F (e.2.2 % 128) 0 i s) s

theorem latched_vuEvents (n : CoreIx) (i : Nat) (evs : List (Nat × Nat × Nat)) (s : State) : Latched n s (vuEvents n i evs s) :=
  latched_foldl (fun s _ => latched_coreEvent n 8 _ _ _ _ _ _ s) evs s

theorem vuEvents_latches (n : CoreIx) (i : Nat) (evs : List (Nat × Nat × Nat)) (s : State) {j : Fin 9} (hj : j.val ≠ 8) :
    (vuEvents n i evs s).cores[n].latches[j] = s.cores[n].latches[j] := by
  unfold vuEvents
  induction evs generalizing s with
  | nil => rfl
  | cons e r ih => rw [List.foldl_cons, ih, coreEvent_latches _ _ _ _ _ _ _ _ hj]

theorem storeWrite_core (n : CoreIx) (a : Nat) (b : List Byte) (s : State) : (storeWrite n a b s).cores[n] =
    { s.cores[n] with store := memWrite s.cores[n].store a (b.take (Config.coreStoreBytes - a)) } := vmod_same _ n _

/-- A word that writes bytes to the store of its core and brings events to its vector latch. -/
theorem storeDone_of_write {n : CoreIx} {a : Nat} {b : List Byte} {s : State} (wf : Memory.wf s.cores[n].store = true)
    (fits : a + b.length ≤ Config.coreStoreBytes) (i : Nat) (evs : List (Nat × Nat × Nat)) (r : Run) :
    StoreDone s (footWord s { vuEvents n i evs (storeWrite n a b s) with run := r }) n a b := by
  have events := latched_vuEvents n i evs (storeWrite n a b s)
  have rest : vuEvents n i evs (storeWrite n a b s) = { s with cores := (vuEvents n i evs (storeWrite n a b s)).cores } := by
    rw [events.rest]
    rfl
  have whole : b.take (Config.coreStoreBytes - a) = b := List.take_of_length_le (by omega)
  have others : ∀ m : CoreIx, m ≠ n → (vuEvents n i evs (storeWrite n a b s)).cores[m] = s.cores[m] :=
    fun m hm => (events.others m hm).trans (storeWrite_others n m hm a b s)
  have latches : ∀ j : Fin 9, j.val ≠ 8 → (vuEvents n i evs (storeWrite n a b s)).cores[n].latches[j] = s.cores[n].latches[j] := by
    intro j hj
    rw [vuEvents_latches n i evs _ hj, storeWrite_core]
  have core := events.core
  rw [storeWrite_core, whole] at core
  generalize vuEvents n i evs (storeWrite n a b s) = u at *
  have kept (m : CoreIx) : (footWord s { u with run := r }).cores[m] = { u.cores[m] with part := s.cores[m].part, byp := s.cores[m].byp } :=
    keepAssign_at s _ m m.isLt
  have store : (footWord s { u with run := r }).cores[n].store = memWrite s.cores[n].store a b := by
    rw [kept, core]
  refine ⟨?_, fun m hm => ?_, ?_, fun j hj => ?_, ?_, fun x hx => ?_⟩
  · rw [rest]
    rfl
  · rw [kept, others m hm]
  · rw [kept, core]
  · rw [kept]
    exact latches j hj
  · rw [store, memRead_memWrite_same wf]
  · rw [store, memByte_memWrite_outside _ _ _ _ hx]

/-! ### The rule of a word of a vector unit -/

/-- The work of a word that writes bytes at DST and brings events to the vector latch. -/
def VectorWork (core : CoreIx) (work : Nat → IWord → State → Option State) (dst : IWord → Nat)
    (bytes : (Nat → Bool) → CoreSt → IWord → List Byte) (event : (Nat → Bool) → CoreSt → IWord → Bool) : Prop :=
  ∀ i w s, ∃ evs, (evs = [] ↔ event (unitPoison s i) s.cores[core] w = false) ∧ work i w s =
    some (vuFinish core i evs (storeWrite core (dst w * 128) (bytes (unitPoison s i) s.cores[core] w) s))

/-- A vector command follows the rule where its work does. -/
theorem VectorWork.rule {core : CoreIx} {c : Instr} {work : Nat → IWord → State → Option State} {dst : IWord → Nat}
    {bytes : (Nat → Bool) → CoreSt → IWord → List Byte} {event : (Nat → Bool) → CoreSt → IWord → Bool}
    (h : VectorWork core work dst bytes event) {sel : IWord → Bool} (run : ∀ s, exec c s =
      .next (footWord s (issueWord (64 + core.val) sel (fun s => clusterDown s (clusterOf core)) work s)))
    {p : IWord → Prop} (hsel : ∀ w, p w → sel w = true) : VectorRule core c p dst bytes event := by
  intro s i w hp
  refine ⟨fun ready wf fits => ?_, fun next asleep => ?_⟩
  · obtain ⟨evs, quiet, hw⟩ := h i w s
    have status : (if evs = [] then 0 else 1) = if event (unitPoison s i) s.cores[core] w = true then 1 else 0 := by
      simp only [quiet, Bool.eq_false_iff, ne_eq, ite_not]
    have kept : (vuEvents core i evs (storeWrite core (dst w * 128) (bytes (unitPoison s i) s.cores[core] w) s)).run = s.run := by
      rw [(latched_vuEvents core i evs _).rest]
      rfl
    rw [run, issueWord_done ready.next (hsel w hp) ready.awake hw, vuFinish, finishWord_setStatus, status]
    refine ⟨_, rfl, storeDone_of_write wf fits i evs _, ?_⟩
    exact congrArg (wordOver (64 + core.val) i _ w) kept
  · rw [run, issueWord_down next (hsel w hp) asleep]
    exact congrArg _ (footWord_eq_self rfl)

/-! ### Poisoned granules -/

theorem unitPoison_of_isEmpty {s : State} (h : s.run.hw.isEmpty = true) (i row : Nat) : unitPoison s i row = false := by
  rw [unitPoison, List.isEmpty_iff.mp h, List.any_nil]

theorem laneClean_eq (s : State) (i : Nat) (r : List (F32 × Nat)) : laneClean s i r = spoilLanes (unitPoison s i) r := by
  rw [laneClean, spoilLanes]
  split
  case isTrue none =>
    simp only [unitPoison_of_isEmpty none, Bool.false_eq_true, if_false, List.zipIdx_map_fst]
  case isFalse => rfl

theorem events_eq_nil_iff_any {α : Type} {r : List α} {kind : α → Nat} {note : α × Nat → Nat × Nat × Nat} :
    r.zipIdx.filterMap (fun x => if kind x.1 = 0 then none else some (note x)) = [] ↔ r.any (fun x => kind x != 0) = false := by
  rw [events_eq_nil_iff, List.any_eq_false]
  simp

/-! ### The operations (Table CORE-7, R113, R149) -/

theorem vecLanes_work (core : CoreIx) (f : IWord → F32 → F32 → F32 → F32 × Nat) :
    VectorWork core (fun i w s => vecLanes core (f w) i w s) (fun w => (vecWord w).dst)
      (fun p k w => f32Bytes ((laneResults f p k w).map Prod.fst)) (fun p k w => (laneResults f p k w).any (fun x => x.2 != 0)) := by
  intro i w s
  dsimp only
  rw [vecLanes, laneClean_eq]
  exact ⟨_, events_eq_nil_iff_any, rfl⟩

/-- Results of a VEC EXPMAX word with KIND and flag of their events, those of a poisoned granule replaced. -/
def expMaxResults (p : Nat → Bool) (c : CoreSt) (w : IWord) : List (F32 × Nat × Nat) :=
  ((chunk (max 1 (fld w 95 9)) (cdiv (vecWord w).n (max 1 (fld w 95 9))) (vecLoad c (vecWord w).sa (vecWord w).n)).flatMap
    expMaxGroup).zipIdx.map (fun x => if p (x.2 / 32) = true then (f32Nan, 0, 0) else x.1)

theorem groupResults_eq (p : Nat → Bool) (c : CoreSt) (w : IWord) :
    groupResults p c w = (expMaxResults p c w).map (fun x => (x.1, x.2.1)) := by
  rw [groupResults, spoilLanes, expMaxResults, List.zipIdx_map, List.map_map, List.map_map]
  refine List.map_congr_left fun x _ => ?_
  simp only [Function.comp_apply, Prod.map_fst, Prod.map_snd, id_eq]
  split <;> rfl

theorem expMaxWork_work (core : CoreIx) : VectorWork core (expMaxWork core) (fun w => (vecWord w).dst)
    (fun p k w => f32Bytes ((groupResults p k w).map Prod.fst)) (fun p k w => (groupResults p k w).any (fun x => x.2 != 0)) := by
  intro i w s
  dsimp only
  rw [groupResults_eq, List.any_map, List.map_map]
  exact ⟨_, events_eq_nil_iff_any (kind := fun x : F32 × Nat × Nat => x.2.1), rfl⟩

theorem cmpWork_work (core : CoreIx) : VectorWork core (cmpWork core) (fun w => (vecWord w).dst)
    (fun _ k w => packBits (List.zipWith (f32Cmp (fld w 95 3)) (vecLoad k (vecWord w).sa (vecWord w).n)
      (vecLoad k (vecWord w).sb (vecWord w).n))) (fun _ _ _ => false) :=
  fun _ _ _ => ⟨[], iff_of_true rfl rfl, rfl⟩

theorem selectWork_work (core : CoreIx) : VectorWork core (selectWork core) (fun w => (vecWord w).dst)
    (fun p k w => f32Bytes ((selectResults p k w).map Prod.fst)) (fun _ _ _ => false) := by
  intro i w s
  rw [selectWork, laneClean_eq]
  exact ⟨[], iff_of_true rfl rfl, rfl⟩

theorem cvtWork_work (core : CoreIx) : VectorWork core (cvtWork core) (fun w => fld w 56 15)
    (fun p k w => (cvtCodes p k w).flatMap (fun x => leBytes ((cvtFmt (fld w 50 4)).width / 8) x.1))
    (fun p k w => (cvtCodes p k w).any (fun x => x.2 != 0)) :=
  fun _ _ _ => ⟨_, events_eq_nil_iff_any, rfl⟩

/-- A lane operation that does not look at its word. -/
theorem laneRule {core : CoreIx} {c : Instr} {op : Nat} {f : IWord → F32 → F32 → F32 → F32 × Nat}
    (run : ∀ s, exec c s = .next (issueVec core op (fun i w s => vecLanes core (f w) i w s) s)) : LaneRule core c op f :=
  (vecLanes_work core f).rule run fun w hw => by rw [hw.1, hw.2]; simp

/-- Settles O20: by the work of each operation, which writes its results and latches its events. -/
theorem vectorWordsCompute : Obligations.VectorWordsCompute := by
  unfold Obligations.VectorWordsCompute
  refine ⟨fun core => ⟨?_, ?_, ?_, ?_, ?_, ?_, ?_⟩, fun core => ⟨?_, ?_, ?_, ?_⟩⟩
  iterate 7 exact laneRule fun _ => rfl
  · exact (expMaxWork_work core).rule (fun _ => rfl) fun w hw => by rw [hw.1, hw.2]; rfl
  · exact (cmpWork_work core).rule (fun _ => rfl) fun w hw => by rw [hw.1, hw.2]; rfl
  · exact (selectWork_work core).rule (fun _ => rfl) fun w hw => by rw [hw.1, hw.2]; rfl
  · exact (cvtWork_work core).rule (fun _ => rfl) fun w hw => by rw [hw]; rfl

end Sys2Proof.Machine
end

section
/-!
PROOFS. Array words: a queue whose place is listed twice, in a table that no command of the model makes, is not moved by the length
of its group (R133).
-/

namespace Sys2Proof.Machine

/-- A program of one STREAM word for core 0, of a segment that the batch lacks. -/
def loneStream : Program := { issuers := [{ first := 0, count := 1, queue := 0 }], words := [0x20] }

/-- A step that runs it, with the place of queue 0 listed twice: it reads as 0, and once that entry is gone as 5. -/
def twiceListed : State :=
  { State.reset with
    mc := { State.reset.mc with tick := 100 }
    run := { State.reset.run with isOpen := true, segmented := true, prog := some loneStream, ptr := [(0, 0), (0, 5)] } }

theorem twiceListed_ready : WordReady twiceListed (0 : CoreIx).val (clusterDown twiceListed (clusterOf 0)) 0 0x20 :=
  ⟨by decide, by decide⟩

/-- The group lists no row, so it issues. -/
theorem twiceListed_rows : streamRows twiceListed 0 0x20 = some { seg := some 0, listed := 0, fed := [] } := rfl

theorem twiceListed_words : groupWords twiceListed (0 : CoreIx).val 8 1 = [] := by decide

theorem twiceListed_place {t : State} (h : exec (.stream 0) twiceListed = .next t) : tabGet 0 t.run.ptr (0 : CoreIx).val = 6 := by
  obtain rfl := Host.Outcome.next.inj h
  decide

/-- Refutes O21: the group without array words sets the place of its queue to 0 more than it was, which takes the first of two entries
out of the table and leaves the second to be read. -/
theorem not_arrayWordsCompute : ¬ Obligations.ArrayWordsCompute := by
  unfold Obligations.ArrayWordsCompute
  intro h
  obtain ⟨stream, -⟩ := h.1 0 twiceListed 0 0x20 twiceListed_ready
  obtain ⟨t, ht, -, place, -⟩ := stream _ (by decide) twiceListed_rows (.inl rfl)
  rw [twiceListed_place ht, twiceListed_words] at place
  revert place
  decide

end Sys2Proof.Machine
end

section
/-!
PROOFS. The update units at action 2: what skips, optimizer steps and regeneration may change of the machine (R213 to R220).
-/

namespace Sys2Proof.Machine

/-! ### What training may change -/

/-- A partition's TRAIN_SKIP stays, or counts one more and marks the partition in the step (R215, R216). -/
def SkipCount (p : Part) (s t : State) : Prop :=
  (t.run.skipParts.getLsbD p.val = s.run.skipParts.getLsbD p.val ∧ t.parts[p].counted.trainSkip = s.parts[p].counted.trainSkip) ∨
    (s.run.skipParts.getLsbD p.val = false ∧ t.run.skipParts.getLsbD p.val = true ∧
      t.parts[p].counted.trainSkip = s.parts[p].counted.trainSkip + 1)

theorem SkipCount.trans {p : Part} {s t u : State} (h : SkipCount p s t) (k : SkipCount p t u) : SkipCount p s u := by
  obtain ⟨mark, count⟩ | ⟨clear, mark, count⟩ := h
  · obtain ⟨mark', count'⟩ | ⟨clear', mark', count'⟩ := k
    · exact .inl ⟨mark'.trans mark, count'.trans count⟩
    · exact .inr ⟨mark.symm.trans clear', mark', by rw [count', count]⟩
  · obtain ⟨mark', count'⟩ | ⟨clear', -, -⟩ := k
    · exact .inr ⟨clear, mark'.trans mark, count'.trans count⟩
    · exact absurd (mark.symm.trans clear') Bool.true_eq_false.mp

/-- Nothing changes but the units that training touches. -/
abbrev TrainUnits (s t : State) : Prop :=
  t = { s with hbm := t.hbm, tensors := t.tensors, parts := t.parts, clusters := t.clusters, uuNow := t.uuNow, uuOpt := t.uuOpt,
               run := t.run, err := t.err, regs := t.regs }

/-- What a part of the work of MOPT and MREGEN may change, the summary and the actions of the step apart. -/
structure TrainFrame (s t : State) : Prop where
  /-- The units that training touches. -/
  rest : TrainUnits s t
  /-- The queues of the step. -/
  ptr : t.run.ptr = s.run.ptr
  /-- The actions of the step. -/
  acted : t.run.acted = s.run.acted
  /-- The summary. -/
  summary : t.run.summary = s.run.summary
  /-- The parameter sets, a reset that waits and the loss scale of every partition. -/
  parts : ∀ p : Part, t.parts[p].hps = s.parts[p].hps ∧ t.parts[p].presetPend = s.parts[p].presetPend ∧ t.parts[p].loss = s.parts[p].loss
  /-- The skips counted. -/
  skip : ∀ p : Part, SkipCount p s t

theorem TrainFrame.trans {s t u : State} (h : TrainFrame s t) (k : TrainFrame t u) : TrainFrame s u where
  rest := by rw [k.rest, h.rest]
  ptr := k.ptr.trans h.ptr
  acted := k.acted.trans h.acted
  summary := k.summary.trans h.summary
  parts p := ⟨(k.parts p).1.trans (h.parts p).1, (k.parts p).2.1.trans (h.parts p).2.1, (k.parts p).2.2.trans (h.parts p).2.2⟩
  skip p := (h.skip p).trans (k.skip p)

/-- A change of memories, tensors and units alone. -/
theorem trainFrame_of_units {s t : State}
    (h : t = { s with hbm := t.hbm, tensors := t.tensors, clusters := t.clusters, uuNow := t.uuNow, uuOpt := t.uuOpt, err := t.err }) :
    TrainFrame s t := by
  rw [h]
  exact ⟨rfl, rfl, rfl, rfl, fun _ => ⟨rfl, rfl, rfl⟩, fun _ => .inl ⟨rfl, rfl⟩⟩

theorem TrainFrame.refl (s : State) : TrainFrame s s := trainFrame_of_units rfl

theorem trainFrame_foldl {α : Type} {f : State → α → State} {l : List α} (h : ∀ s, ∀ x ∈ l, TrainFrame s (f s x)) (s : State) :
    TrainFrame s (l.foldl f s) := by
  induction l generalizing s with
  | nil => exact .refl s
  | cons x r ih => exact (h s x List.mem_cons_self).trans (ih (fun s y hy => h s y (List.mem_cons_of_mem x hy)) (f s x))

/-- A field of every partition, through a change of one of them that leaves it. -/
theorem vmod_field {α β : Type} {n : Nat} (v : Vector α n) (i : Fin n) {f : α → α} {g : α → β} (h : ∀ a, g (f a) = g a) (j : Fin n) :
    g (vmod v i f)[j] = g v[j] := by
  simp only [Fin.getElem_fin, vmod_at]
  split
  · exact h _
  · rfl

/-- A change of what errors leave in a partition and in the step. -/
theorem trainFrame_of_errors {s t : State} (rest : t = { s with parts := t.parts, run := t.run, regs := t.regs })
    (run : t.run = { s.run with otherErrs := t.run.otherErrs, errParts := t.run.errParts })
    (parts : ∀ p : Part, t.parts[p] = { s.parts[p] with er := t.parts[p].er, erLost := t.parts[p].erLost }) : TrainFrame s t where
  rest := by
    rw [rest]
  ptr := by rw [run]
  acted := by rw [run]
  summary := by rw [run]
  parts p := by
    rw [parts p]
    exact ⟨rfl, rfl, rfl⟩
  skip p := by
    refine .inl ⟨by rw [run], ?_⟩
    rw [parts p]

theorem trainFrame_raiseInt (page : Fin 32) (bit : Nat) (s : State) : TrainFrame s (raiseInt page bit s) :=
  trainFrame_of_errors rfl rfl fun _ => rfl

/-- A change of the error ring of a partition. -/
theorem trainFrame_modPart (i : Part) {f : PartSt → PartSt} (h : ∀ q, f q = { q with er := (f q).er, erLost := (f q).erLost }) (s : State) :
    TrainFrame s (modPart i f s) := by
  refine trainFrame_of_errors rfl rfl fun p => ?_
  simp only [modPart, Fin.getElem_fin, vmod_at]
  split
  · exact h _
  · rfl

theorem trainFrame_partErr (p : Part) (e : ErrEntry) (s : State) : TrainFrame s (partErr p e s) := by
  have noted (b : BitVec 16) : TrainFrame s (modRun (fun r => { r with errParts := b }) s) := trainFrame_of_errors rfl rfl fun _ => rfl
  unfold partErr
  dsimp only
  split
  · exact (((noted _).trans (trainFrame_modPart p (fun _ => rfl) _)).trans (trainFrame_raiseInt _ 3 _)).trans (trainFrame_raiseInt 3 0 _)
  · exact ((noted _).trans (trainFrame_modPart p (fun _ => rfl) _)).trans (trainFrame_raiseInt _ 4 _)

theorem trainFrame_noteErr (p : Part) (e : ErrEntry) (s : State) : TrainFrame s (noteErr p e s) := by
  unfold noteErr
  split
  · exact trainFrame_of_errors rfl rfl fun _ => rfl
  · exact trainFrame_partErr p _ s

/-! ### Errors of a tensor's areas (Table REL-3) -/

/-- The areas of a tensor in HBM: masters, moments, accumulator. -/
def soundAreas (s : State) (t : Tensor) : Prop :=
  badRead s t.master (4 * tensorElems s t) = false ∧ badRead s t.moments (8 * tensorElems s t) = false ∧
    badRead s t.acc (16 * tensorElems s t) = false

theorem checkTensor_cases (ix : Nat) (s : State) : checkTensor ix s = s ∨ ((tabGet {} s.tensors ix).st = .active ∧
    ¬ soundAreas s (tabGet {} s.tensors ix) ∧ ∃ p e, checkTensor ix s = countContained 0x0E (noteErr p e
      { s with tensors := tabSet {} s.tensors ix { tabGet {} s.tensors ix with st := .held } })) := by
  unfold checkTensor
  dsimp only
  split
  case isFalse => exact .inl rfl
  case isTrue active =>
    split
    case h_2 => exact .inl rfl
    case h_1 a found =>
      refine .inr ⟨active, fun ⟨master, moments, acc⟩ => ?_, _, _, rfl⟩
      obtain ⟨bad, -⟩ := List.find?_eq_some_iff_append.mp found
      have mem := List.mem_of_find?_eq_some found
      simp only [List.mem_cons, List.not_mem_nil, or_false] at mem
      obtain rfl | rfl | rfl := mem
      · exact absurd (bad.symm.trans master) Bool.true_eq_false.mp
      · exact absurd (bad.symm.trans moments) Bool.true_eq_false.mp
      · exact absurd (bad.symm.trans acc) Bool.true_eq_false.mp

theorem checkTensor_of_sound {ix : Nat} {s : State} (h : soundAreas s (tabGet {} s.tensors ix)) : checkTensor ix s = s :=
  (checkTensor_cases ix s).resolve_right fun ⟨_, bad, _⟩ => bad h

theorem trainFrame_checkTensor (ix : Nat) (s : State) : TrainFrame s (checkTensor ix s) := by
  obtain same | ⟨-, -, p, e, held⟩ := checkTensor_cases ix s
  · rw [same]
    exact .refl s
  · rw [held]
    exact ((trainFrame_of_units rfl).trans (trainFrame_noteErr p e _)).trans (trainFrame_of_units rfl)

end Sys2Proof.Machine
end

section
/-!
PROOFS. Action 2 begins: the skips that it counts (R215, R216).
-/

namespace Sys2Proof.Machine

/-! ### TRAIN_SKIP -/

theorem getLsbD_or_part (b : BitVec 16) (p q : Part) :
    (b ||| BitVec.ofNat 16 (2 ^ p.val)).getLsbD q.val = (b.getLsbD q.val || decide (p.val = q.val)) := by
  rw [BitVec.getLsbD_or, BitVec.getLsbD_ofNat, Nat.testBit_two_pow, decide_eq_true q.isLt, Bool.true_and]

/-- A partition with one more skip counted. -/
def oneSkip (q : PartSt) : PartSt := { q with counted := { q.counted with trainSkip := q.counted.trainSkip + 1 } }

theorem countSkip_of_clear {p : Part} {s : State} (h : s.run.skipParts.getLsbD p.val = false) : countSkip p s =
    modRun (fun r => { r with skipParts := r.skipParts ||| BitVec.ofNat 16 (2 ^ p.val), skipped := true })
      (modPart p oneSkip s) :=
  if_neg (by rw [h]; exact Bool.false_ne_true)

theorem countSkip_of_marked {p : Part} {s : State} (h : s.run.skipParts.getLsbD p.val = true) : countSkip p s = s := if_pos h

theorem countSkip_marks (p : Part) (s : State) : (countSkip p s).run.skipParts.getLsbD p.val = true := by
  cases h : s.run.skipParts.getLsbD p.val with
  | true => rw [countSkip_of_marked h, h]
  | false =>
    rw [countSkip_of_clear h]
    exact (getLsbD_or_part _ p p).trans (by rw [decide_eq_true rfl, Bool.or_true])

theorem countSkip_tensors (p : Part) (s : State) : (countSkip p s).tensors = s.tensors := by
  unfold countSkip
  split <;> rfl

theorem countSkip_hbm (p : Part) (s : State) : (countSkip p s).hbm = s.hbm := by
  unfold countSkip
  split <;> rfl

theorem skipCount_countSkip (p q : Part) (s : State) : SkipCount q s (countSkip p s) := by
  cases h : s.run.skipParts.getLsbD p.val with
  | true =>
    rw [countSkip_of_marked h]
    exact .inl ⟨rfl, rfl⟩
  | false =>
    rw [countSkip_of_clear h]
    by_cases e : p = q
    · subst e
      refine .inr ⟨h, (getLsbD_or_part _ p p).trans (by rw [decide_eq_true rfl, Bool.or_true]), ?_⟩
      exact congrArg (fun x : PartSt => x.counted.trainSkip) (vmod_same s.parts p oneSkip)
    · have ne : p.val ≠ q.val := fun h => e (Fin.ext h)
      refine .inl ⟨(getLsbD_or_part _ p q).trans (by rw [decide_eq_false ne, Bool.or_false]; rfl), ?_⟩
      exact congrArg (fun x : PartSt => x.counted.trainSkip) (vmod_other s.parts p oneSkip q q.isLt ne)

theorem trainFrame_countSkip (p : Part) (s : State) : TrainFrame s (countSkip p s) where
  rest := by
    unfold countSkip
    split <;> rfl
  ptr := by
    unfold countSkip
    split <;> rfl
  acted := by
    unfold countSkip
    split <;> rfl
  summary := by
    unfold countSkip
    split <;> rfl
  parts q := by
    unfold countSkip
    split
    · exact ⟨rfl, rfl, rfl⟩
    · exact ⟨vmod_field s.parts p (f := oneSkip) (g := PartSt.hps) (fun _ => rfl) q,
        vmod_field s.parts p (f := oneSkip) (g := PartSt.presetPend) (fun _ => rfl) q,
        vmod_field s.parts p (f := oneSkip) (g := PartSt.loss) (fun _ => rfl) q⟩
  skip q := skipCount_countSkip p q s

/-- A mark stays. -/
theorem TrainFrame.mark {s t : State} (h : TrainFrame s t) {p : Part} (marked : s.run.skipParts.getLsbD p.val = true) :
    t.run.skipParts.getLsbD p.val = true := by
  obtain ⟨same, -⟩ | ⟨-, mark, -⟩ := h.skip p
  · rw [same, marked]
  · exact mark

/-- A partition that one element of a list marks is marked by the whole list. -/
theorem marks_foldl {α : Type} {f : State → α → State} {l : List α} (frame : ∀ s, ∀ x ∈ l, TrainFrame s (f s x)) {s : State} {p : Part}
    {x : α} (hx : x ∈ l) (mark : ∀ t, TrainFrame s t → (f t x).run.skipParts.getLsbD p.val = true) :
    (l.foldl f s).run.skipParts.getLsbD p.val = true := by
  induction l generalizing s with
  | nil => cases hx
  | cons y r ih =>
    have tail : ∀ s, ∀ x ∈ r, TrainFrame s (f s x) := fun s x hx => frame s x (List.mem_cons_of_mem y hx)
    have first := frame s y List.mem_cons_self
    obtain rfl | hx := List.mem_cons.mp hx
    · exact (trainFrame_foldl tail _).mark (mark s (.refl s))
    · exact ih tail hx fun t ht => mark t (first.trans ht)

theorem TrainFrame.lacksSet {s t : State} (h : TrainFrame s t) (T : Tensor) : lacksSet t T = lacksSet s T := by
  rw [Machine.lacksSet, Machine.lacksSet, (h.parts T.part).1]

/-! ### The skipped tensors -/

theorem trainFrame_skipTensor (ix : Nat) (s : State) : TrainFrame s (skipTensor ix s) := trainFrame_of_units rfl

/-- The skips of OVF counted. -/
def countOvf (sum : BitVec 32) (s : State) : State :=
  (List.finRange 16).foldl (fun s p => if sum.getLsbD (16 + p.val) then countSkip p s else s) s

/-- The skips of tensors without a parameter set counted. -/
def countLacking (s : State) : State := s.tensors.foldl (fun s x => if lacksSet s x.2 then countSkip x.2.part s else s) s

/-- The machine once action 2 has its summary and has counted its skips. -/
def countSkips (s : State) : State :=
  countLacking (countOvf (summaryNow s) (modRun (fun r => { r with acted := 2, summary := summaryNow s }) s))

/-- A tensor that action 2 handles as a skipped one. -/
def skipped (sum : BitVec 32) (s : State) (t : Tensor) : Bool :=
  lacksSet s t || (t.st == .active && sum.getLsbD (16 + t.part.val)) || s.parts[t.part].presetPend.isSome

theorem beginAction2_of_acted {s : State} (h : 2 ≤ s.run.acted) : beginAction2 s = s := if_pos h

theorem beginAction2_eq {s : State} (h : s.run.acted < 2) : beginAction2 s =
    (countSkips s).tensors.foldl (fun t x => if skipped (summaryNow s) t x.2 then skipTensor x.1 t else t)
      { countSkips s with uuOpt := Vector.replicate 32 0 } := if_neg (not_le.mpr h)

theorem trainFrame_ite {c : Prop} [Decidable c] {s t : State} (h : TrainFrame s t) : TrainFrame s (if c then t else s) := by
  split
  · exact h
  · exact .refl s

theorem trainFrame_countOvf (sum : BitVec 32) (s : State) : TrainFrame s (countOvf sum s) :=
  trainFrame_foldl (fun s p _ => trainFrame_ite (trainFrame_countSkip p s)) s

theorem trainFrame_countLacking (s : State) : TrainFrame s (countLacking s) :=
  trainFrame_foldl (fun s x _ => trainFrame_ite (trainFrame_countSkip x.2.part s)) s

/-- A part of the machine through a list of changes that leave it. -/
theorem foldl_kept {α β : Type} {f : State → α → State} {g : State → β} (h : ∀ s x, g (f s x) = g s) (l : List α) (s : State) :
    g (l.foldl f s) = g s := by
  induction l generalizing s with
  | nil => rfl
  | cons x r ih => rw [List.foldl_cons, ih, h]

theorem ite_kept {β : Type} {g : State → β} {c : Prop} [Decidable c] {s t : State} (h : g t = g s) : g (if c then t else s) = g s := by
  split
  · exact h
  · rfl

theorem countOvf_tensors (sum : BitVec 32) (s : State) : (countOvf sum s).tensors = s.tensors :=
  foldl_kept (g := State.tensors) (fun s p => ite_kept (countSkip_tensors p s)) _ s

theorem countSkips_tensors (s : State) : (countSkips s).tensors = s.tensors :=
  (foldl_kept (g := State.tensors) (fun s _ => ite_kept (countSkip_tensors _ s)) _ _).trans (countOvf_tensors _ _)

theorem countSkips_hbm (s : State) : (countSkips s).hbm = s.hbm :=
  (foldl_kept (g := State.hbm) (fun s _ => ite_kept (countSkip_hbm _ s)) _ _).trans
    (foldl_kept (g := State.hbm) (fun s p => ite_kept (countSkip_hbm p s)) _ _)

/-- The step with action 2 begun and its summary complete. -/
def summed (s : State) : State := modRun (fun r => { r with acted := 2, summary := summaryNow s }) s

theorem trainFrame_countSkips (s : State) : TrainFrame (summed s) (countSkips s) :=
  (trainFrame_countOvf _ _).trans (trainFrame_countLacking _)

theorem trainFrame_beginAction2 {s : State} (h : s.run.acted < 2) : TrainFrame (summed s) (beginAction2 s) := by
  rw [beginAction2_eq h]
  have cleared : TrainFrame (countSkips s) { countSkips s with uuOpt := Vector.replicate 32 0 } := trainFrame_of_units rfl
  exact ((trainFrame_countSkips s).trans cleared).trans (trainFrame_foldl (fun s x _ => trainFrame_ite (trainFrame_skipTensor x.1 s)) _)

/-- The partitions that action 2 skips: with OVF in the summary, or with an ACTIVE tensor whose set is not VALID (R215, R216). -/
def partSkips (s : State) (p : Part) : Prop :=
  (summaryNow s).getLsbD (16 + p.val) = true ∨ ∃ x ∈ s.tensors, x.2.part = p ∧ lacksSet s x.2 = true

theorem beginAction2_marks {s : State} (h : s.run.acted < 2) {p : Part} (skips : partSkips s p) :
    (beginAction2 s).run.skipParts.getLsbD p.val = true := by
  have marked : (countSkips s).run.skipParts.getLsbD p.val = true := by
    obtain ovf | ⟨x, hx, rfl, lacks⟩ := skips
    · refine (trainFrame_countLacking _).mark ?_
      refine marks_foldl (fun s p _ => trainFrame_ite (trainFrame_countSkip p s)) (List.mem_finRange p) fun t _ => ?_
      rw [if_pos ovf]
      exact countSkip_marks p t
    · have same := trainFrame_countOvf (summaryNow s) (summed s)
      refine marks_foldl (x := x) (fun s x _ => trainFrame_ite (trainFrame_countSkip x.2.part s)) ?_ fun t ht => ?_
      · rw [countOvf_tensors]
        exact hx
      · rw [if_pos ((same.trans ht).lacksSet x.2 |>.trans lacks)]
        exact countSkip_marks x.2.part t
  rw [beginAction2_eq h]
  have cleared : TrainFrame (countSkips s) { countSkips s with uuOpt := Vector.replicate 32 0 } := trainFrame_of_units rfl
  exact (cleared.trans (trainFrame_foldl (fun s x _ => trainFrame_ite (trainFrame_skipTensor x.1 s)) _)).mark marked

end Sys2Proof.Machine
end

section
/-!
PROOFS. The optimizer of one tensor: each element's step in HBM, and the step of the tensor (R217 to R219, Table TRAIN-9).
-/

namespace Sys2Proof.Machine

/-! ### FP32 values in HBM -/

theorem hbmF32_congr {m m' : Memory} {a : Nat} (h : ∀ x, a ≤ x → x < a + 4 → memByte m x = memByte m' x) : hbmF32 m a = hbmF32 m' a := by
  rw [hbmF32, hbmF32, memNat_congr h]

theorem hbmF32_memWrite_same {m : Memory} (wf : Memory.wf m = true) (a : Nat) (v : F32) :
    hbmF32 (memWrite m a (leBytes 4 v.toNat)) a = v := by
  rw [hbmF32, memNat_memWrite_same wf a v.isLt, BitVec.ofNat_toNat, BitVec.setWidth_eq]

theorem hbmF32_memWrite_apart {m : Memory} {a c : Nat} {v : F32} (h : c + 4 ≤ a ∨ a + 4 ≤ c) :
    hbmF32 (memWrite m a (leBytes 4 v.toNat)) c = hbmF32 m c := by
  rw [hbmF32, hbmF32, memNat_memWrite_apart (by rwa [leBytes_length])]

theorem hbmF32_memZero_apart {m : Memory} {a c n : Nat} (h : c + 4 ≤ a ∨ a + n ≤ c) : hbmF32 (memZero m a n) c = hbmF32 m c := by
  rw [hbmF32, hbmF32, memNat_memZero_apart h]

/-- A byte after a write depends on the memory before by that byte alone. -/
theorem memByte_memWrite_congr {m m' : Memory} (wf : Memory.wf m = true) (wf' : Memory.wf m' = true) (a : Nat) (b : List Byte) {x : Nat}
    (h : memByte m x = memByte m' x) : memByte (memWrite m a b) x = memByte (memWrite m' a b) x := by
  by_cases out : x < a ∨ a + b.length ≤ x
  · rw [memByte_memWrite_outside _ _ _ _ out, memByte_memWrite_outside _ _ _ _ out, h]
  · obtain ⟨k, rfl⟩ := Nat.exists_eq_add_of_le (show a ≤ x by omega)
    rw [memByte_memWrite_inside m a b k wf (by omega), memByte_memWrite_inside m' a b k wf' (by omega)]

/-! ### Changes of a memory that lie apart -/

/-- Each change of a list sees and changes its own bytes only, and those of different changes lie apart. -/
structure LocalChanges (f : Memory → Nat → Memory) (own : Nat → Nat → Prop) (n : Nat) : Prop where
  /-- The form of the memory. -/
  wf : ∀ m e, Memory.wf m = true → Memory.wf (f m e) = true
  /-- What a change leaves alone. -/
  outside : ∀ m e x, ¬ own e x → memByte (f m e) x = memByte m x
  /-- What a change sees. -/
  sees : ∀ m m' e, Memory.wf m = true → Memory.wf m' = true → (∀ x, own e x → memByte m x = memByte m' x) →
    ∀ x, own e x → memByte (f m e) x = memByte (f m' e) x
  /-- The changes lie apart. -/
  apart : ∀ d e x, d < n → e < n → own d x → own e x → d = e

namespace LocalChanges

variable {f : Memory → Nat → Memory} {own : Nat → Nat → Prop} {n : Nat}

theorem foldl_outside (h : LocalChanges f own n) {l : List Nat} {x : Nat} (hx : ∀ e ∈ l, ¬ own e x) (m : Memory) :
    memByte (l.foldl f m) x = memByte m x := by
  induction l generalizing m with
  | nil => rfl
  | cons e r ih => rw [List.foldl_cons, ih fun d hd => hx d (List.mem_cons_of_mem e hd), h.outside m e x (hx e List.mem_cons_self)]

/-- The bytes of a change read as it alone leaves them. -/
theorem foldl_own (h : LocalChanges f own n) {l : List Nat} (nodup : l.Nodup) (lt : ∀ e ∈ l, e < n) {k : Nat} (hk : k ∈ l) {m : Memory}
    (wf : Memory.wf m = true) {x : Nat} (hx : own k x) : memByte (l.foldl f m) x = memByte (f m k) x := by
  induction l generalizing m with
  | nil => cases hk
  | cons e r ih =>
    obtain ⟨he, hr⟩ := List.nodup_cons.mp nodup
    have tail : ∀ d ∈ r, d < n := fun d hd => lt d (List.mem_cons_of_mem e hd)
    rw [List.foldl_cons]
    obtain rfl | hk := List.mem_cons.mp hk
    · exact h.foldl_outside (fun d hd own => he (h.apart k d x (lt k List.mem_cons_self) (tail d hd) hx own ▸ hd)) _
    · rw [ih hr tail hk (h.wf m e wf)]
      refine h.sees _ _ k (h.wf m e wf) wf (fun y hy => h.outside m e y fun other => ?_) x hx
      exact he (h.apart k e y (tail k hk) (lt e List.mem_cons_self) hy other ▸ hk)

end LocalChanges

/-! ### One element of an optimizer step -/

/-- The new m, v and w of an element, from what HBM holds. -/
def stepVals (T : Tensor) (total : Nat) (c : OptConst) (h : HpSet) (ls : Nat) (m : Memory) (e : Nat) : F32 × F32 × F32 :=
  optElem c h (f32Scale (xaRead (accSum m T e) T.wForce).1 (-(ls : Int))).1 (hbmF32 m (T.moments + 4 * e))
    (hbmF32 m (T.moments + 4 * total + 4 * e)) (hbmF32 m (T.master + 4 * e))

/-- The new values of an element are finite. -/
def finVals (x : F32 × F32 × F32) : Bool := f32Finite x.1 && f32Finite x.2.1 && f32Finite x.2.2

/-- HBM after the step of an element: its sum cleared, its values written where they are finite. -/
def stepMem (T : Tensor) (total : Nat) (c : OptConst) (h : HpSet) (ls : Nat) (m : Memory) (e : Nat) : Memory :=
  if finVals (stepVals T total c h ls m e) then
    memWrite (memWrite (memWrite (memZero m (T.acc + 16 * e) 16)
      (T.moments + 4 * e) (leBytes 4 (stepVals T total c h ls m e).1.toNat))
      (T.moments + 4 * total + 4 * e) (leBytes 4 (stepVals T total c h ls m e).2.1.toNat))
      (T.master + 4 * e) (leBytes 4 (stepVals T total c h ls m e).2.2.toNat)
  else memZero m (T.acc + 16 * e) 16

/-- The bytes of an element: its sum, its moments, its master. -/
def elemBytes (T : Tensor) (total e x : Nat) : Prop :=
  (T.acc + 16 * e ≤ x ∧ x < T.acc + 16 * e + 16) ∨ (T.moments + 4 * e ≤ x ∧ x < T.moments + 4 * e + 4) ∨
    (T.moments + 4 * total + 4 * e ≤ x ∧ x < T.moments + 4 * total + 4 * e + 4) ∨ (T.master + 4 * e ≤ x ∧ x < T.master + 4 * e + 4)

/-- The areas of a tensor of n elements lie apart. -/
structure AreasApart (T : Tensor) (n : Nat) : Prop where
  /-- Masters and moments. -/
  moments : T.master + 4 * n ≤ T.moments ∨ T.moments + 8 * n ≤ T.master
  /-- Masters and sums. -/
  acc : T.master + 4 * n ≤ T.acc ∨ T.acc + 16 * n ≤ T.master
  /-- Moments and sums. -/
  sums : T.moments + 8 * n ≤ T.acc ∨ T.acc + 16 * n ≤ T.moments

section

variable {T : Tensor} {n : Nat} {c : OptConst} {h : HpSet} {ls : Nat}

theorem stepVals_congr {m m' : Memory} {e : Nat} (same : ∀ x, elemBytes T n e x → memByte m x = memByte m' x) :
    stepVals T n c h ls m e = stepVals T n c h ls m' e := by
  have sum : accSum m T e = accSum m' T e := accSum_congr rfl fun x lo hi => same x (.inl ⟨lo, hi⟩)
  have first : hbmF32 m (T.moments + 4 * e) = hbmF32 m' (T.moments + 4 * e) := hbmF32_congr fun x lo hi => same x (.inr (.inl ⟨lo, hi⟩))
  have second : hbmF32 m (T.moments + 4 * n + 4 * e) = hbmF32 m' (T.moments + 4 * n + 4 * e) :=
    hbmF32_congr fun x lo hi => same x (.inr (.inr (.inl ⟨lo, hi⟩)))
  have master : hbmF32 m (T.master + 4 * e) = hbmF32 m' (T.master + 4 * e) :=
    hbmF32_congr fun x lo hi => same x (.inr (.inr (.inr ⟨lo, hi⟩)))
  rw [stepVals, stepVals, sum, first, second, master]

theorem wf_stepMem {m : Memory} (wf : Memory.wf m = true) (e : Nat) : Memory.wf (stepMem T n c h ls m e) = true := by
  have zero := wf_memZero m (T.acc + 16 * e) 16 wf
  unfold stepMem
  split
  · exact wf_memWrite _ _ _ (wf_memWrite _ _ _ (wf_memWrite _ _ _ zero))
  · exact zero

theorem memByte_stepMem_outside {m : Memory} {e x : Nat} (out : ¬ elemBytes T n e x) :
    memByte (stepMem T n c h ls m e) x = memByte m x := by
  unfold elemBytes at out
  have zero : memByte (memZero m (T.acc + 16 * e) 16) x = memByte m x := by rw [memByte_memZero, if_neg (by omega)]
  unfold stepMem
  split
  · rw [memByte_memWrite_outside _ _ _ _ (by rw [leBytes_length]; omega), memByte_memWrite_outside _ _ _ _ (by rw [leBytes_length]; omega),
      memByte_memWrite_outside _ _ _ _ (by rw [leBytes_length]; omega), zero]
  · exact zero

theorem localChanges_stepMem (apart : AreasApart T n) : LocalChanges (stepMem T n c h ls) (elemBytes T n) n where
  wf _ e wf := wf_stepMem wf e
  outside _ _ _ := memByte_stepMem_outside
  sees m m' e wf wf' same x hx := by
    have vals : stepVals T n c h ls m e = stepVals T n c h ls m' e := stepVals_congr same
    have zero : memByte (memZero m (T.acc + 16 * e) 16) x = memByte (memZero m' (T.acc + 16 * e) 16) x := by
      rw [memByte_memZero, memByte_memZero, same x hx]
    have wfz := wf_memZero m (T.acc + 16 * e) 16 wf
    have wfz' := wf_memZero m' (T.acc + 16 * e) 16 wf'
    rw [stepMem, stepMem, vals]
    split
    · refine memByte_memWrite_congr (wf_memWrite _ _ _ (wf_memWrite _ _ _ wfz)) (wf_memWrite _ _ _ (wf_memWrite _ _ _ wfz')) _ _ ?_
      refine memByte_memWrite_congr (wf_memWrite _ _ _ wfz) (wf_memWrite _ _ _ wfz') _ _ ?_
      exact memByte_memWrite_congr wfz wfz' _ _ zero
    · exact zero
  apart d e x hd he hx hx' := by
    obtain ⟨moments, acc, sums⟩ := apart
    unfold elemBytes at hx hx'
    omega

/-- What the step of an element leaves at its places. -/
theorem stepMem_values (apart : AreasApart T n) {m : Memory} (wf : Memory.wf m = true) {e : Nat} (he : e < n) :
    let r := stepVals T n c h ls m e
    accSum (stepMem T n c h ls m e) T e = 0 ∧
      hbmF32 (stepMem T n c h ls m e) (T.moments + 4 * e) = (if finVals r = true then r.1 else hbmF32 m (T.moments + 4 * e)) ∧
      hbmF32 (stepMem T n c h ls m e) (T.moments + 4 * n + 4 * e) =
        (if finVals r = true then r.2.1 else hbmF32 m (T.moments + 4 * n + 4 * e)) ∧
      hbmF32 (stepMem T n c h ls m e) (T.master + 4 * e) = (if finVals r = true then r.2.2 else hbmF32 m (T.master + 4 * e)) := by
  intro r
  obtain ⟨moments, acc, sums⟩ := apart
  have wfz := wf_memZero m (T.acc + 16 * e) 16 wf
  have wf1 := wf_memWrite _ (T.moments + 4 * e) (leBytes 4 r.1.toNat) wfz
  have wf2 := wf_memWrite _ (T.moments + 4 * n + 4 * e) (leBytes 4 r.2.1.toNat) wf1
  have zero : memNat (memZero m (T.acc + 16 * e) 16) (T.acc + 16 * e) 16 = 0 := memNat_memZero_inside le_rfl le_rfl
  have sum_zero {m' : Memory} (h : memNat m' (T.acc + 16 * e) 16 = 0) : accSum m' T e = 0 := by
    rw [accSum, h]
    rfl
  by_cases fin : finVals r = true
  · have step : stepMem T n c h ls m e = memWrite (memWrite (memWrite (memZero m (T.acc + 16 * e) 16)
        (T.moments + 4 * e) (leBytes 4 r.1.toNat)) (T.moments + 4 * n + 4 * e) (leBytes 4 r.2.1.toNat))
        (T.master + 4 * e) (leBytes 4 r.2.2.toNat) := if_pos fin
    rw [step, if_pos fin, if_pos fin, if_pos fin]
    refine ⟨sum_zero ?_, ?_, ?_, hbmF32_memWrite_same wf2 _ _⟩
    · rw [memNat_memWrite_apart (by rw [leBytes_length]; omega), memNat_memWrite_apart (by rw [leBytes_length]; omega),
        memNat_memWrite_apart (by rw [leBytes_length]; omega), zero]
    · rw [hbmF32_memWrite_apart (by omega), hbmF32_memWrite_apart (by omega), hbmF32_memWrite_same wfz]
    · rw [hbmF32_memWrite_apart (by omega), hbmF32_memWrite_same wf1]
  · have step : stepMem T n c h ls m e = memZero m (T.acc + 16 * e) 16 := if_neg fin
    rw [step, if_neg fin, if_neg fin, if_neg fin]
    exact ⟨sum_zero zero, hbmF32_memZero_apart (by omega), hbmF32_memZero_apart (by omega), hbmF32_memZero_apart (by omega)⟩

end

end Sys2Proof.Machine
end

section
/-!
PROOFS. The word MOPT: skips counted, and one optimizer step of each tensor that it names (R215 to R219).
-/

namespace Sys2Proof.Machine

/-! ### The elements of a tensor -/

/-- The tensor with flags of its elements. -/
def flagged (T : Tensor) (win ovf : Bool) (b : BitVec 3) : Tensor := { T with win := win, ovf := ovf, stepSet := b }

theorem tabGet_tabSet_active {t : Tab Tensor} {ix : Nat} {T : Tensor} (h : T.st ≠ .empty) : tabGet {} (tabSet {} t ix T) ix = T :=
  tabGet_tabSet_same {} T t ix fun e => h (congrArg Tensor.st e)

/-- A state after steps of elements: HBM, the partitions as they were, and the tensor at the index as it was but for flags. -/
structure Stepped (ix : Nat) (m : Memory) (s u : State) : Prop where
  /-- HBM. -/
  hbm : u.hbm = m
  /-- The partitions. -/
  parts : u.parts = s.parts
  /-- The tensor. -/
  tensor : ∃ win ovf b, tabGet {} u.tensors ix = flagged (tabGet {} s.tensors ix) win ovf b

theorem stepped_optStep {ix : Nat} {s : State} (active : (tabGet {} s.tensors ix).st ≠ .empty) (e total : Nat) (c : OptConst) (h : HpSet)
    (ls : Nat) : Stepped ix (stepMem (tabGet {} s.tensors ix) total c h ls s.hbm e) s (optStep ix e total c h ls s) :=
  ⟨rfl, rfl, _, _, _, tabGet_tabSet_active (T := flagged _ _ _ _) active⟩

theorem stepped_foldl {ix : Nat} {s : State} (active : (tabGet {} s.tensors ix).st ≠ .empty) (total : Nat) (c : OptConst) (h : HpSet)
    (p : Part) (l : List Nat) :
    Stepped ix (l.foldl (stepMem (tabGet {} s.tensors ix) total c h s.parts[p].loss.ls) s.hbm) s
      (l.foldl (fun s e => optStep ix e total c h s.parts[p].loss.ls s) s) := by
  induction l generalizing s with
  | nil => exact ⟨rfl, rfl, _, _, _, rfl⟩
  | cons e r ih =>
    have one := stepped_optStep active e total c h s.parts[p].loss.ls
    rw [List.foldl_cons, List.foldl_cons]
    generalize optStep ix e total c h s.parts[p].loss.ls s = u at *
    obtain ⟨hbm, parts, win, ovf, b, tensor⟩ := one
    obtain ⟨hbm', parts', win', ovf', b', tensor'⟩ := ih (s := u) (by rw [tensor]; exact active)
    rw [tensor, hbm, parts] at hbm'
    exact ⟨hbm', parts'.trans parts, win', ovf', b', by rw [tensor', tensor]; rfl⟩

theorem trainFrame_optStep (ix e total : Nat) (c : OptConst) (h : HpSet) (ls : Nat) (s : State) :
    TrainFrame s (optStep ix e total c h ls s) := trainFrame_of_units rfl

/-! ### The step of a tensor -/

/-- A tensor may take its step: ACTIVE, touched and not stepped yet, its partition without a reset and without OVF, its slot not
FROZEN (R217, R225). -/
def mayStep (s : State) (t : Tensor) : Prop :=
  t.st = .active ∧ t.touched = true ∧ t.stepped = false ∧ s.parts[t.part].presetPend = none ∧
    (slotOf s t.slot).frozen = false ∧ s.run.summary.getLsbD (16 + t.part.val) = false

/-- The parameter set of a tensor. -/
def paramSet (s : State) (t : Tensor) : HpSet := tabGet {} s.parts[t.part].hps t.hset

/-- The steps of all elements of a tensor. -/
def stepElems (ix : Nat) (s : State) : State :=
  (List.range (tensorElems s (tabGet {} s.tensors ix))).foldl (fun u e => optStep ix e (tensorElems s (tabGet {} s.tensors ix))
    (optConst (tabGet {} s.tensors ix) (paramSet s (tabGet {} s.tensors ix))) (paramSet s (tabGet {} s.tensors ix))
    u.parts[(tabGet {} s.tensors ix).part].loss.ls u) s

/-- The tensor when its elements have stepped. -/
def afterStep (c : OptConst) (t : Tensor) : Tensor :=
  { t with steps := c.steps, bc1 := c.bc1, bc2 := c.bc2, wForce := t.w, outcnt := 0, dirty := false, stepped := true }

theorem optTensor_step {ix : Nat} {s u : State} (checked : checkTensor ix s = u) (may : mayStep u (tabGet {} u.tensors ix))
    (valid : (paramSet u (tabGet {} u.tensors ix)).valid = true) : optTensor ix s = { stepElems ix u with
      tensors := tabMod {} (stepElems ix u).tensors ix
        (afterStep (optConst (tabGet {} u.tensors ix) (paramSet u (tabGet {} u.tensors ix)))) } := by
  subst checked
  exact (if_pos may).trans (if_pos valid)

/-- A tensor that takes no step. -/
theorem optTensor_idle {ix : Nat} {s u : State} (checked : checkTensor ix s = u)
    (h : mayStep u (tabGet {} u.tensors ix) → (paramSet u (tabGet {} u.tensors ix)).valid = false) : optTensor ix s = u := by
  subst checked
  by_cases may : mayStep (checkTensor ix s) (tabGet {} (checkTensor ix s).tensors ix)
  · exact (if_pos may).trans (if_neg (by rw [← paramSet, h may]; exact Bool.false_ne_true))
  · exact if_neg may

theorem trainFrame_stepElems (ix : Nat) (s : State) : TrainFrame s (stepElems ix s) :=
  trainFrame_foldl (fun s e _ => trainFrame_optStep ix e _ _ _ _ s) s

theorem trainFrame_optTensor (ix : Nat) (s : State) : TrainFrame s (optTensor ix s) := by
  have checked := trainFrame_checkTensor ix s
  generalize hu : checkTensor ix s = u at checked
  by_cases idle : mayStep u (tabGet {} u.tensors ix) → (paramSet u (tabGet {} u.tensors ix)).valid = false
  · rw [optTensor_idle hu idle]
    exact checked
  · obtain ⟨may, valid⟩ := Classical.not_imp.mp idle
    rw [optTensor_step hu may (Bool.eq_true_of_not_eq_false valid)]
    exact (checked.trans (trainFrame_stepElems ix u)).trans (trainFrame_of_units rfl)

end Sys2Proof.Machine
end

section
/-!
PROOFS. Regeneration of working copies: the bytes of a tile, and the region tags dropped (R73, R196, R220).
-/

namespace Sys2Proof.Machine

/-! ### The places of a tile's elements -/

/-- Rows of places, one after the other. -/
theorem nodup_places_by_row (a b : Nat) : ((List.range a).flatMap fun k => (List.range b).map fun j => k * b + j).Nodup := by
  refine List.nodup_flatMap.mpr ⟨fun k _ => List.nodup_range.map fun i j h => Nat.add_left_cancel h, List.nodup_range.imp fun {k k'} ne => ?_⟩
  intro x hx hx'
  obtain ⟨j, hj, rfl⟩ := List.mem_map.mp hx
  obtain ⟨j', hj', same⟩ := List.mem_map.mp hx'
  rw [List.mem_range] at hj hj'
  have row := congrArg (· / b) same
  simp only [Nat.mul_comm _ b, Nat.mul_add_div (Nat.zero_lt_of_lt hj), Nat.div_eq_of_lt hj, Nat.div_eq_of_lt hj', Nat.add_zero] at row
  exact ne row.symm

/-- Columns of places, each across the rows. -/
theorem nodup_places_by_column (a b : Nat) : ((List.range b).flatMap fun k => (List.range a).map fun j => j * b + k).Nodup := by
  refine List.nodup_flatMap.mpr ⟨fun k hk => List.nodup_range.map fun i j h => ?_, List.nodup_range.imp_of_mem fun {k k'} hk hk' ne => ?_⟩
  · rw [List.mem_range] at hk
    exact Nat.eq_of_mul_eq_mul_right (Nat.zero_lt_of_lt hk) (Nat.add_right_cancel h)
  · intro x hx hx'
    obtain ⟨j, -, rfl⟩ := List.mem_map.mp hx
    obtain ⟨j', -, same⟩ := List.mem_map.mp hx'
    rw [List.mem_range] at hk hk'
    have column := congrArg (· % b) same
    simp only [Nat.mul_add_mod', Nat.mod_eq_of_lt hk, Nat.mod_eq_of_lt hk'] at column
    exact ne column.symm

theorem nodup_places (tgt : Target) (matB : Bool) (rank tile : Nat) : ((tileElems tgt matB rank tile).map Prod.snd).Nodup := by
  unfold tileElems
  dsimp only
  split
  · rw [List.map_flatMap]
    simp only [List.map_map, Function.comp_def]
    exact nodup_places_by_row _ _
  · rw [List.map_flatMap]
    simp only [List.map_map, Function.comp_def]
    exact nodup_places_by_column _ _

/-! ### Bytes set one by one -/

theorem memByte_foldl_tabSet_outside {β : Type} {key : β → Nat} {val : β → Byte} {l : List β} {x : Nat} (h : ∀ y ∈ l, key y ≠ x) (m : Memory) :
    memByte (l.foldl (fun m y => tabSet 0 m (key y) (val y)) m) x = memByte m x := by
  induction l generalizing m with
  | nil => rfl
  | cons y r ih =>
    rw [List.foldl_cons, ih fun z hz => h z (List.mem_cons_of_mem y hz)]
    exact tabGet_tabSet_other 0 _ m _ x (h y List.mem_cons_self).symm

theorem wf_foldl_tabSet {β : Type} {key : β → Nat} {val : β → Byte} (l : List β) {m : Memory} (wf : Memory.wf m = true) :
    Memory.wf (l.foldl (fun m y => tabSet 0 m (key y) (val y)) m) = true := by
  induction l generalizing m with
  | nil => exact wf
  | cons y r ih => exact ih (tabWf_tabSet 0 _ m _ wf)

/-! ### One working tile (R73) -/

/-- The values of a tile's elements, unused ranks zero. -/
def tileVals (T : Tensor) (els : List (Option Nat × Nat)) (m : Memory) : List F32 :=
  els.map (fun x => match x.1 with | some k => hbmF32 m (T.master + 4 * k) | none => 0)

theorem quantTile_length (l : List F32) : (quantTile l).2.length = l.length := by
  rw [quantTile, quantVals, List.length_map, List.length_map]

section

variable {T : Tensor} {tgt : Target} {rank : Nat} {d : DirEnt} {m : Memory}

/-- The codes of a tile written. -/
def tileCodes (T : Tensor) (tgt : Target) (rank : Nat) (d : DirEnt) (m : Memory) : Memory :=
  ((tileElems tgt T.matB rank 0).zip (quantTile (tileVals T (tileElems tgt T.matB rank 0) m)).2).foldl
    (fun m x => tabSet 0 m (T.work + d.codes + x.1.2) x.2) m

theorem regenTile_eq : regenTile T tgt rank d 0 m = tabSet 0 (tileCodes T tgt rank d m) (T.work + d.scales)
    (BitVec.ofNat 8 (twos 8 (quantTile (tileVals T (tileElems tgt T.matB rank 0) m)).1)) := by
  rw [regenTile, Nat.zero_mul]
  rfl

theorem wf_tileCodes (wf : Memory.wf m = true) : Memory.wf (tileCodes T tgt rank d m) = true := wf_foldl_tabSet _ wf

theorem memByte_regenTile_scale (wf : Memory.wf m = true) : memByte (regenTile T tgt rank d 0 m) (T.work + d.scales) =
    BitVec.ofNat 8 (twos 8 (quantTile (tileVals T (tileElems tgt T.matB rank 0) m)).1) := by
  rw [regenTile_eq]
  exact tabGet_tabSet_wf 0 _ _ _ 0 (wf_tileCodes wf)

theorem memByte_regenTile_code (wf : Memory.wf m = true) (fits : ∀ x ∈ tileElems tgt T.matB rank 0, x.2 < d.tbytes)
    (room : d.codes + d.tbytes ≤ d.scales) {j : Nat} {e : Option Nat × Nat} (he : (tileElems tgt T.matB rank 0)[j]? = some e) :
    memByte (regenTile T tgt rank d 0 m) (T.work + d.codes + e.2) =
      (quantTile (tileVals T (tileElems tgt T.matB rank 0) m)).2.getD j 0 := by
  have place := fits e (List.mem_of_getElem? he)
  have other : memByte (regenTile T tgt rank d 0 m) (T.work + d.codes + e.2) = memByte (tileCodes T tgt rank d m) (T.work + d.codes + e.2) := by
    rw [regenTile_eq]
    exact tabGet_tabSet_other 0 _ _ _ _ (by omega)
  have nodup := nodup_places tgt T.matB rank 0
  have length : (quantTile (tileVals T (tileElems tgt T.matB rank 0) m)).2.length = (tileElems tgt T.matB rank 0).length := by
    rw [quantTile_length, tileVals, List.length_map]
  rw [other, tileCodes]
  generalize (quantTile (tileVals T (tileElems tgt T.matB rank 0) m)).2 = codes at *
  generalize tileElems tgt T.matB rank 0 = els at *
  obtain ⟨hj, hel⟩ := List.getElem?_eq_some_iff.mp he
  have code : codes.getD j 0 = codes[j] := by rw [List.getD_eq_getElem?_getD, List.getElem?_eq_getElem (by omega), Option.getD_some]
  rw [code]
  refine tabGet_foldl_tabSet (key := fun x : (Option Nat × Nat) × Byte => T.work + d.codes + x.1.2) (val := Prod.snd) wf (fun y hy same => ?_)
    (.inl ⟨(e, codes[j]), ?_, rfl⟩)
  · obtain ⟨i, hi, rfl⟩ := List.mem_iff_getElem.mp hy
    rw [List.getElem_zip] at same ⊢
    rw [List.length_zip] at hi
    have index : i = j := (nodup.getElem_inj_iff (hi := by rw [List.length_map]; omega) (hj := by rw [List.length_map]; omega)).mp
      (by simpa [hel] using same)
    subst index
    rfl
  · refine List.mem_iff_getElem.mpr ⟨j, by rw [List.length_zip]; omega, ?_⟩
    rw [List.getElem_zip, hel]

theorem memByte_regenTile_outside (fits : ∀ x ∈ tileElems tgt T.matB rank 0, x.2 < d.tbytes) {x : Nat} (scale : x ≠ T.work + d.scales)
    (out : x < T.work + d.codes ∨ T.work + d.codes + d.tbytes ≤ x) : memByte (regenTile T tgt rank d 0 m) x = memByte m x := by
  rw [regenTile_eq]
  refine (tabGet_tabSet_other 0 _ _ _ x scale).trans (memByte_foldl_tabSet_outside (fun y hy => ?_) m)
  have place := fits y.1 (List.of_mem_zip hy).1
  omega

end

end Sys2Proof.Machine
end

section
/-!
PROOFS. The words MOPT and MREGEN (R156, R215 to R220).
-/

namespace Sys2Proof.Machine

/-! ### A tensor regenerated -/

/-- The working copy of a tensor rewritten from its masters, in HBM. -/
def regenMem (s : State) (T : Tensor) : Memory :=
  (List.range (T.nlayers * tensorTpl s T)).foldl
    (fun m j => regenTile T (targetOf s T.target) (tensorRank s T) (workDir s T) j m) s.hbm

theorem busyTensor_rest (T : Tensor) (s : State) : busyTensor T s = { s with uuNow := (busyTensor T s).uuNow } := by
  unfold busyTensor
  generalize List.range (tensorElems s T) = l
  induction l generalizing s with
  | nil => rfl
  | cons k r ih =>
    rw [List.foldl_cons, ih]
    rfl

theorem regenTensor_eq (ix : Nat) (s : State) : regenTensor ix s = { s with
    hbm := regenMem s (tabGet {} s.tensors ix)
    clusters := s.clusters.map fun c => { c with regions := c.regions.filter fun r => !(r.2.slot == (tabGet {} s.tensors ix).slot) }
    uuNow := (busyTensor (tabGet {} s.tensors ix) s).uuNow } := by
  unfold regenTensor
  dsimp only
  rw [busyTensor_rest]
  rfl

/-- What regeneration changes: HBM, the units' counts, and region tags, of which some go. -/
structure Regenerated (s t : State) : Prop where
  /-- Nothing else. -/
  rest : t = { s with hbm := t.hbm, clusters := t.clusters, uuNow := t.uuNow }
  /-- No region tag comes. -/
  regions : ∀ c : ClusterIx, t.clusters[c].regions ⊆ s.clusters[c].regions

theorem Regenerated.refl (s : State) : Regenerated s s := ⟨rfl, fun _ => List.Subset.refl _⟩

theorem Regenerated.trans {s t u : State} (h : Regenerated s t) (k : Regenerated t u) : Regenerated s u :=
  ⟨by rw [k.rest, h.rest], fun c => List.Subset.trans (k.regions c) (h.regions c)⟩

theorem Regenerated.frame {s t : State} (h : Regenerated s t) : TrainFrame s t := trainFrame_of_units (by rw [h.rest])

theorem regenTensor_regions (ix : Nat) (s : State) (c : ClusterIx) : (regenTensor ix s).clusters[c].regions =
    s.clusters[c].regions.filter fun r => !(r.2.slot == (tabGet {} s.tensors ix).slot) := by
  rw [regenTensor_eq]
  simp

theorem regenerated_regenTensor (ix : Nat) (s : State) : Regenerated s (regenTensor ix s) := by
  refine ⟨?_, fun c => ?_⟩
  · rw [regenTensor_eq]
  · rw [regenTensor_regions]
    exact List.filter_subset_self _

/-! ### The words -/

/-- What a word of the update units may change lies in the footprint of a word. -/
theorem footWord_of_units {s t : State} (h : TrainUnits s t) : footWord s t = t := by
  have cores : keepAssign s t = s.cores := keepAssign_cores s t (by rw [h])
  rw [footWord, cores]
  conv_rhs => rw [h]
  rw [h]

/-- A word of the update units whose work is done and clean. -/
theorem issuePlain_clean {q i : Nat} {w : IWord} {sel : IWord → Bool} {work : Nat → IWord → State → Option State} {s u : State}
    (ready : readyWord s q = some (i, w)) (hsel : sel w = true) (hw : work i w s = some (setStatus i 0 false u))
    (rest : TrainUnits s u) : footWord s (issuePlain q sel work s) = { u with run := wordOver q i 0 w u.run } := by
  rw [issuePlain, issueWord_done ready hsel rfl hw, finishWord_setStatus]
  exact footWord_of_units (by rw [rest])

/-- One tensor of a MREGEN word. -/
def regenOne (s : State) (ix : Nat) : State :=
  if (tabGet {} s.tensors ix).st = .empty ∨ s.parts[(tabGet {} s.tensors ix).part].presetPend.isSome = true then s else regenTensor ix s

theorem regenerated_regenOne (s : State) (ix : Nat) : Regenerated s (regenOne s ix) := by
  unfold regenOne
  split
  · exact .refl s
  · exact regenerated_regenTensor ix s

theorem regenerated_foldl (l : List Nat) (s : State) : Regenerated s (l.foldl regenOne s) := by
  induction l generalizing s with
  | nil => exact .refl s
  | cons ix r ih => exact (regenerated_regenOne s ix).trans (ih _)

theorem regenOne_of_kept {s : State} {ix : Nat} (st : (tabGet {} s.tensors ix).st ≠ .empty)
    (noReset : s.parts[(tabGet {} s.tensors ix).part].presetPend = none) : regenOne s ix = regenTensor ix s :=
  if_neg (by rw [noReset]; simpa using st)

/-- No cluster keeps a region of the slot of a tensor that is regenerated (R220). -/
theorem regions_foldl_regenOne {l : List Nat} {ix : Nat} (hix : ix ∈ l) {s : State} (st : (tabGet {} s.tensors ix).st ≠ .empty)
    (noReset : s.parts[(tabGet {} s.tensors ix).part].presetPend = none) (c : ClusterIx) :
    ∀ r ∈ (l.foldl regenOne s).clusters[c].regions, r.2.slot ≠ (tabGet {} s.tensors ix).slot := by
  induction l generalizing s with
  | nil => cases hix
  | cons jx l ih =>
    obtain rfl | hix := List.mem_cons.mp hix
    · intro r hr
      have first := (regenerated_foldl l (regenOne s ix)).regions c hr
      rw [regenOne_of_kept st noReset, regenTensor_regions] at first
      simpa using (List.mem_filter.mp first).2
    · have one := regenerated_regenOne s jx
      rw [List.foldl_cons]
      generalize regenOne s jx = u at *
      have tensors : u.tensors = s.tensors := by rw [one.rest]
      have parts : u.parts = s.parts := by rw [one.rest]
      have kept := ih hix (s := u) (by rwa [tensors]) (by simpa only [tensors, parts] using noReset)
      rwa [tensors] at kept

theorem mregenWork_eq (i : Nat) (w : IWord) (s : State) :
    mregenWork i w s = some (setStatus i 0 false ((wordTensors s w).foldl regenOne s)) := rfl

theorem exec_mregen (h : HbmIx) (s : State) :
    exec (.mregen h) s = .next (footWord s (issuePlain (211 + h.val) (fun w => wOp w == 0x82) mregenWork s)) := rfl

theorem exec_mregen_done {h : HbmIx} {s : State} {i : Nat} {w : IWord} (ready : readyWord s (211 + h.val) = some (i, w))
    (op : wOp w = 0x82) : exec (.mregen h) s = .next { (wordTensors s w).foldl regenOne s with
      run := wordOver (211 + h.val) i 0 w ((wordTensors s w).foldl regenOne s).run } := by
  rw [exec_mregen, issuePlain_clean ready (by rw [op]; rfl) (mregenWork_eq i w s) (regenerated_foldl _ s).frame.rest]

end Sys2Proof.Machine
end

section
/-!
PROOFS. What MOPT and MREGEN leave of the tensors that they name (R156, R215 to R220, Table TRAIN-9).
-/

namespace Sys2Proof.Machine

/-! ### All elements of a tensor -/

section

variable {T : Tensor} {n : Nat} {c : OptConst} {h : HpSet} {ls : Nat}

/-- Each element holds what its own step leaves. -/
theorem stepMem_foldl_values (apart : AreasApart T n) {m : Memory} (wf : Memory.wf m = true) {k : Nat} (hk : k < n) :
    let u := (List.range n).foldl (stepMem T n c h ls) m
    let r := stepVals T n c h ls m k
    accSum u T k = 0 ∧
      hbmF32 u (T.moments + 4 * k) = (if finVals r = true then r.1 else hbmF32 m (T.moments + 4 * k)) ∧
      hbmF32 u (T.moments + 4 * n + 4 * k) = (if finVals r = true then r.2.1 else hbmF32 m (T.moments + 4 * n + 4 * k)) ∧
      hbmF32 u (T.master + 4 * k) = (if finVals r = true then r.2.2 else hbmF32 m (T.master + 4 * k)) := by
  intro u r
  have own (x : Nat) (hx : elemBytes T n k x) : memByte u x = memByte (stepMem T n c h ls m k) x :=
    (localChanges_stepMem apart).foldl_own List.nodup_range (fun e he => List.mem_range.mp he) (List.mem_range.mpr hk) wf hx
  obtain ⟨sum, first, second, master⟩ := stepMem_values (c := c) (h := h) (ls := ls) apart wf hk
  rw [← first, ← second, ← master, ← sum]
  exact ⟨accSum_congr rfl fun x lo hi => own x (.inl ⟨lo, hi⟩), hbmF32_congr fun x lo hi => own x (.inr (.inl ⟨lo, hi⟩)),
    hbmF32_congr fun x lo hi => own x (.inr (.inr (.inl ⟨lo, hi⟩))), hbmF32_congr fun x lo hi => own x (.inr (.inr (.inr ⟨lo, hi⟩)))⟩

theorem memByte_stepMem_foldl_outside (apart : AreasApart T n) (m : Memory) {x : Nat} (acc : x < T.acc ∨ T.acc + 16 * n ≤ x)
    (master : x < T.master ∨ T.master + 4 * n ≤ x) (moments : x < T.moments ∨ T.moments + 8 * n ≤ x) :
    memByte ((List.range n).foldl (stepMem T n c h ls) m) x = memByte m x := by
  refine (localChanges_stepMem apart).foldl_outside (fun e he own => ?_) m
  rw [List.mem_range] at he
  unfold elemBytes at own
  omega

end

/-! ### The word MOPT -/

/-- The machine when the tensors of a MOPT word have stepped. -/
def optAll (w : IWord) (s : State) : State := (wordTensors s w).foldl (fun s ix => optTensor ix s) (beginAction2 s)

/-- The machine when a MOPT word is done. -/
def moptDone (w : IWord) (s : State) : State :=
  if bitAt w 82 then
    (wordTensors s w).foldl (fun s ix => if (tabGet {} s.tensors ix).stepped then regenTensor ix s else s) (optAll w s)
  else optAll w s

theorem moptWork_eq (i : Nat) (w : IWord) (s : State) : moptWork i w s = some (setStatus i 0 false (moptDone w s)) := rfl

theorem trainFrame_optAll (w : IWord) (s : State) : TrainFrame (beginAction2 s) (optAll w s) :=
  trainFrame_foldl (fun s ix _ => trainFrame_optTensor ix s) _

theorem trainFrame_moptDone (w : IWord) (s : State) : TrainFrame (beginAction2 s) (moptDone w s) := by
  refine (trainFrame_optAll w s).trans ?_
  unfold moptDone
  split
  · exact trainFrame_foldl (fun s ix _ => trainFrame_ite (regenerated_regenTensor ix s).frame) _
  · exact .refl _

theorem trainUnits_beginAction2 (s : State) : TrainUnits s (beginAction2 s) ∧ (beginAction2 s).run.ptr = s.run.ptr := by
  obtain acted | fresh := Nat.lt_or_ge 1 s.run.acted
  · rw [beginAction2_of_acted acted]
    exact ⟨rfl, rfl⟩
  · have frame := trainFrame_beginAction2 (Nat.lt_succ_of_le fresh)
    exact ⟨by rw [frame.rest]; rfl, frame.ptr⟩

theorem trainUnits_moptDone (w : IWord) (s : State) : TrainUnits s (moptDone w s) ∧ (moptDone w s).run.ptr = s.run.ptr := by
  obtain ⟨rest, ptr⟩ := trainUnits_beginAction2 s
  have frame := trainFrame_moptDone w s
  exact ⟨by rw [frame.rest, rest], frame.ptr.trans ptr⟩

theorem exec_mopt (h : HbmIx) (s : State) :
    exec (.mopt h) s = .next (footWord s (issuePlain (211 + h.val) (fun w => wOp w == 0x81) moptWork s)) := rfl

theorem exec_mopt_done {h : HbmIx} {s : State} {i : Nat} {w : IWord} (ready : readyWord s (211 + h.val) = some (i, w)) (op : wOp w = 0x81) :
    exec (.mopt h) s = .next { moptDone w s with run := wordOver (211 + h.val) i 0 w (moptDone w s).run } := by
  rw [exec_mopt, issuePlain_clean ready (by rw [op]; rfl) (moptWork_eq i w s) (trainUnits_moptDone w s).1]

/-! ### A tensor without a parameter set -/

theorem tensorElems_of_units {s t : State} (h : TrainUnits s t) (T : Tensor) : tensorElems t T = tensorElems s T := by
  rw [h]
  rfl

/-- A check of a tensor's areas changes no more of it than its state, and leaves HBM. -/
theorem checkTensor_keeps (ix : Nat) (s : State) : (checkTensor ix s).hbm = s.hbm ∧
    ∃ st, tabGet {} (checkTensor ix s).tensors ix = { tabGet {} s.tensors ix with st := st } := by
  obtain same | ⟨-, -, p, e, held⟩ := checkTensor_cases ix s
  · rw [same]
    exact ⟨rfl, _, rfl⟩
  · rw [held]
    refine ⟨noteErr_hbm p e _, .held, ?_⟩
    exact (congrArg (tabGet {} · ix) (noteErr_tensors p e _)).trans (tabGet_tabSet_active (T := { tabGet {} s.tensors ix with st := .held }) nofun)

/-- An optimizer that finds no VALID set leaves HBM and the step count (R216). -/
structure Unset (ix : Nat) (s u : State) : Prop where
  /-- HBM. -/
  hbm : u.hbm = s.hbm
  /-- The step count. -/
  steps : (tabGet {} u.tensors ix).steps = (tabGet {} s.tensors ix).steps
  /-- The set. -/
  unset : (paramSet u (tabGet {} u.tensors ix)).valid = false

theorem optTensor_unset {ix : Nat} {s : State} (h : (paramSet s (tabGet {} s.tensors ix)).valid = false) : Unset ix s (optTensor ix s) := by
  obtain ⟨hbm, st, tensor⟩ := checkTensor_keeps ix s
  have sets := (trainFrame_checkTensor ix s).parts (tabGet {} s.tensors ix).part
  have unset : (paramSet (checkTensor ix s) (tabGet {} (checkTensor ix s).tensors ix)).valid = false := by
    rw [tensor, paramSet, sets.1]
    exact h
  rw [optTensor_idle rfl fun _ => unset]
  exact ⟨hbm, by rw [tensor], unset⟩

theorem optTensor_foldl_unset {ix : Nat} {l : List Nat} (only : ∀ x ∈ l, x = ix) {s : State}
    (h : (paramSet s (tabGet {} s.tensors ix)).valid = false) : Unset ix s (l.foldl (fun s ix => optTensor ix s) s) := by
  induction l generalizing s with
  | nil => exact ⟨rfl, rfl, h⟩
  | cons x r ih =>
    obtain rfl := only x List.mem_cons_self
    have one := optTensor_unset h
    have rest := ih (fun y hy => only y (List.mem_cons_of_mem x hy)) one.unset
    exact ⟨rest.hbm.trans one.hbm, rest.steps.trans one.steps, rest.unset⟩

/-- A tensor whose accumulator is cleared. -/
def clearedTensor (T : Tensor) : Tensor := { T with wForce := T.w, outcnt := 0, dirty := false }

/-- A tensor that action 2 has skipped. -/
def skippedTensor (T : Tensor) : Tensor := { clearedTensor T with stepWin := false, stepNan := false }

theorem skipTensor_tensor {ix : Nat} {s : State} (st : (tabGet {} s.tensors ix).st ≠ .empty) :
    tabGet {} (skipTensor ix s).tensors ix = skippedTensor (tabGet {} s.tensors ix) := by
  have cleared : tabGet {} (clearAcc ix s).tensors ix = clearedTensor (tabGet {} s.tensors ix) :=
    tabGet_tabSet_active (T := clearedTensor _) st
  have set : (skipTensor ix s).tensors = tabMod {} (clearAcc ix s).tensors ix
      (fun T => { T with stepWin := false, stepNan := false }) := rfl
  rw [set, tabMod, cleared]
  exact tabGet_tabSet_active (T := skippedTensor _) st

theorem lacksSet_iff {s : State} {T : Tensor} : lacksSet s T = true ↔ T.st = .active ∧ (paramSet s T).valid = false := by
  rw [lacksSet, Bool.and_eq_true, beq_iff_eq, Bool.not_eq_true', paramSet]

/-- Action 2 on a chip with one tensor, which lacks its set: it is skipped. -/
theorem beginAction2_lone {s : State} (acted : s.run.acted < 2) {ix : Nat} {T : Tensor} (lone : s.tensors = [(ix, T)])
    (lacks : lacksSet s T = true) : (beginAction2 s).hbm = memZero s.hbm T.acc (16 * tensorElems s T) ∧
      (tabGet {} (beginAction2 s).tensors ix).steps = T.steps ∧
      (paramSet (beginAction2 s) (tabGet {} (beginAction2 s).tensors ix)).valid = false := by
  obtain ⟨active, unset⟩ := lacksSet_iff.mp lacks
  have frame : TrainFrame (summed s) { countSkips s with uuOpt := Vector.replicate 32 0 } :=
    (trainFrame_countSkips s).trans (trainFrame_of_units rfl)
  have tensors : (countSkips s).tensors = [(ix, T)] := (countSkips_tensors s).trans lone
  have begun : beginAction2 s = skipTensor ix { countSkips s with uuOpt := Vector.replicate 32 0 } := by
    rw [beginAction2_eq acted, tensors, List.foldl_cons, List.foldl_nil]
    refine if_pos ?_
    rw [skipped, (frame.lacksSet T).trans lacks]
    rfl
  have hbm : ({ countSkips s with uuOpt := Vector.replicate 32 0 } : State).hbm = s.hbm := countSkips_hbm s
  have lone' : ({ countSkips s with uuOpt := Vector.replicate 32 0 } : State).tensors = [(ix, T)] := tensors
  rw [begun]
  generalize ({ countSkips s with uuOpt := Vector.replicate 32 0 } : State) = u at *
  have listed : tabGet {} u.tensors ix = T := by
    rw [lone']
    exact if_pos rfl
  have elems : tensorElems u T = tensorElems s T := tensorElems_of_units (by rw [frame.rest]; rfl) T
  have tensor : tabGet {} (skipTensor ix u).tensors ix = skippedTensor T := by
    rw [skipTensor_tensor (by rw [listed, active]; decide), listed]
  have sets : (skipTensor ix u).parts[T.part].hps = s.parts[T.part].hps := (frame.parts T.part).1
  refine ⟨?_, by rw [tensor]; rfl, ?_⟩
  · rw [← hbm, ← elems, ← listed]
    rfl
  · rw [tensor, ← unset, paramSet, paramSet, ← sets]
    rfl

/-! ### A tensor that steps -/

/-- What an optimizer step of a tensor leaves: the memory of its elements' steps, and the tensor with its counts. -/
theorem optTensor_values {ix : Nat} {s : State} (sound : soundAreas s (tabGet {} s.tensors ix)) (may : mayStep s (tabGet {} s.tensors ix))
    (valid : (paramSet s (tabGet {} s.tensors ix)).valid = true) :
    (optTensor ix s).hbm = (List.range (tensorElems s (tabGet {} s.tensors ix))).foldl
        (stepMem (tabGet {} s.tensors ix) (tensorElems s (tabGet {} s.tensors ix))
          (optConst (tabGet {} s.tensors ix) (paramSet s (tabGet {} s.tensors ix))) (paramSet s (tabGet {} s.tensors ix))
          s.parts[(tabGet {} s.tensors ix).part].loss.ls) s.hbm ∧
      ∃ win ovf b, tabGet {} (optTensor ix s).tensors ix = afterStep (optConst (tabGet {} s.tensors ix)
        (paramSet s (tabGet {} s.tensors ix))) (flagged (tabGet {} s.tensors ix) win ovf b) := by
  have active : (tabGet {} s.tensors ix).st ≠ .empty := by
    rw [may.1]
    decide
  obtain ⟨hbm, -, win, ovf, b, tensor⟩ := stepped_foldl active (tensorElems s (tabGet {} s.tensors ix))
    (optConst (tabGet {} s.tensors ix) (paramSet s (tabGet {} s.tensors ix))) (paramSet s (tabGet {} s.tensors ix))
    (tabGet {} s.tensors ix).part (List.range (tensorElems s (tabGet {} s.tensors ix)))
  rw [optTensor_step (checkTensor_of_sound sound) may valid]
  refine ⟨hbm, win, ovf, b, ?_⟩
  rw [← tensor]
  exact tabGet_tabSet_active (T := afterStep _ _) (by rw [stepElems, tensor]; exact active)

end Sys2Proof.Machine
end

section
/-!
PROOFS. The obligation on optimizer steps and regeneration, clause by clause (R73, R156, R215 to R220).
-/

namespace Sys2Proof.Machine

section

variable {h : HbmIx} {s : State} {i : Nat} {w : IWord}

/-- The first MOPT of a step begins action 2: the summary, and one skip for each partition that skips (R213, R215, R216). -/
theorem moptDone_first (w : IWord) (acted : s.run.acted < 2) : (moptDone w s).run.acted = 2 ∧ (moptDone w s).run.summary = summaryNow s ∧
    ∀ p : Part, partSkips s p → s.run.skipParts.getLsbD p.val = false →
      (moptDone w s).parts[p].counted.trainSkip = s.parts[p].counted.trainSkip + 1 := by
  have begun := trainFrame_beginAction2 acted
  have done := trainFrame_moptDone w s
  have frame := begun.trans done
  refine ⟨frame.acted, frame.summary, fun p skips clear => ?_⟩
  have mark := done.mark (beginAction2_marks acted skips)
  obtain ⟨same, -⟩ | ⟨-, -, count⟩ := frame.skip p
  · exact absurd ((same.symm.trans mark).symm.trans clear) Bool.true_eq_false.mp
  · exact count

theorem optAll_of_no_regen (noRegen : bitAt w 82 = false) : moptDone w s = optAll w s :=
  if_neg (by rw [noRegen]; exact Bool.false_ne_true)

theorem wordTensors_lone {ix : Nat} {T : Tensor} (lone : s.tensors = [(ix, T)]) : ∀ x ∈ wordTensors s w, x = ix := by
  intro x hx
  have listed := (List.mem_filter.mp hx).1
  rw [lone] at listed
  exact List.mem_singleton.mp listed

/-- A lone tensor without a VALID set: its accumulator is cleared and it takes no step. -/
theorem moptDone_lone (acted : s.run.acted < 2) (noRegen : bitAt w 82 = false) {ix : Nat} {T : Tensor} (lone : s.tensors = [(ix, T)])
    (lacks : lacksSet s T = true) : (moptDone w s).hbm = memZero s.hbm T.acc (16 * tensorElems s T) ∧
      (tabGet {} (moptDone w s).tensors ix).steps = T.steps := by
  obtain ⟨hbm, steps, unset⟩ := beginAction2_lone acted lone lacks
  have idle : Unset ix (beginAction2 s) (optAll w s) := optTensor_foldl_unset (wordTensors_lone lone) unset
  rw [optAll_of_no_regen noRegen]
  exact ⟨idle.hbm.trans hbm, idle.steps.trans steps⟩

/-- A later MOPT that names one tensor. -/
theorem moptDone_single (acted : 2 ≤ s.run.acted) (noRegen : bitAt w 82 = false) {ix : Nat} (named : wordTensors s w = [ix]) :
    moptDone w s = optTensor ix s := by
  rw [optAll_of_no_regen noRegen, optAll, beginAction2_of_acted acted, named]
  rfl

end

/-- Settles O29: by what action 2 counts and clears, by the steps of the elements, which lie apart, and by the bytes of a tile. -/
theorem optimizerStepped : Obligations.OptimizerStepped := by
  unfold Obligations.OptimizerStepped
  refine ⟨fun h s i w ready op => ⟨?_, fun ix T acted noRegen lone lacks wf => ?_, fun ix acted named noRegen => ?_⟩,
    fun h s i w ready op => ⟨?_, fun ix named => ?_⟩⟩
  · obtain ⟨units, ptr⟩ := trainUnits_moptDone w s
    refine ⟨_, exec_mopt_done ready op, congrArg (tabMod 0 · (211 + h.val) (· + 1)) ptr, by rw [units], fun acted => ?_⟩
    exact moptDone_first w acted
  · obtain ⟨hbm, steps⟩ := moptDone_lone acted noRegen lone lacks
    refine ⟨_, exec_mopt_done ready op, fun k hk => ?_, steps, fun x out => ?_⟩
    · dsimp only
      rw [hbm, accSum, memNat_memZero_inside (by omega) (by omega)]
      rfl
    · dsimp only
      rw [hbm, memByte_memZero, if_neg (by omega)]
  · intro T n H active touched fresh noReset notFrozen noOvf wf _ bad₁ bad₂ bad₃ apart₁ apart₂ apart₃
    have sound : soundAreas s T := ⟨bad₁, bad₂, bad₃⟩
    have may : mayStep s T := ⟨active, touched, fresh, noReset, notFrozen, noOvf⟩
    have apart : AreasApart T n := ⟨apart₁, apart₂, apart₃⟩
    have single := moptDone_single acted noRegen named
    refine ⟨_, exec_mopt_done ready op, ?_, fun valid => ?_, fun invalid => ?_⟩
    · intro x acc master moments
      dsimp only
      rw [single]
      by_cases valid : H.valid = true
      · rw [(optTensor_values sound may valid).1]
        exact memByte_stepMem_foldl_outside apart s.hbm acc master moments
      · rw [optTensor_idle (checkTensor_of_sound sound) fun _ => Bool.eq_false_of_not_eq_true valid]
    · obtain ⟨hbm, win, ovf, b, tensor⟩ := optTensor_values sound may valid
      have values (k : Nat) (hk : k < n) := stepMem_foldl_values (c := optConst T H) (h := H) (ls := s.parts[T.part].loss.ls) apart wf hk
      dsimp only
      rw [single, hbm, tensor]
      exact ⟨fun k hk => (values k hk).1, Nat.min_comm _ _, rfl, rfl, fun k hk => (values k hk).2⟩
    · rw [single, optTensor_idle (checkTensor_of_sound sound) fun _ => invalid]
      exact ⟨rfl, rfl, rfl⟩
  · have regen := regenerated_foldl (wordTensors s w) s
    refine ⟨_, exec_mregen_done ready op, ?_, by rw [regen.rest], fun ix hix st noReset c => ?_⟩
    · exact congrArg (tabMod 0 · (211 + h.val) (· + 1)) regen.frame.ptr
    · exact regions_foldl_regenOne hix st noReset c
  · intro T d els q st noReset one wf fits room
    have hbm : ((wordTensors s w).foldl regenOne s).hbm = regenTile T (targetOf s T.target) (tensorRank s T) d 0 s.hbm := by
      rw [named, List.foldl_cons, List.foldl_nil, regenOne_of_kept st noReset, regenTensor_eq]
      change regenMem s T = _
      rw [regenMem, one]
      rfl
    refine ⟨_, exec_mregen_done ready op, ?_, fun j e he => ?_, fun x scale out => ?_⟩
    all_goals
      dsimp only
      rw [hbm]
    · exact memByte_regenTile_scale wf
    · exact memByte_regenTile_code wf fits room he
    · exact memByte_regenTile_outside fits scale out

end Sys2Proof.Machine
end

section
/-!
PROOFS. Management requests that are not carried out and those that are refused: what each is answered with, and that it leaves
nothing else (R406, R407, R415, Table REGS-16).
-/

namespace Sys2Proof.Machine

@[simp] theorem mgmtHeard_nv (s : State) : (mgmtHeard s).nv = s.nv := rfl

/-! ### The order in which a request is looked at (R406, R407, R415) -/

/-- A request outside its phases leaves the state as it is; one that is answered has SEQ 0, the last request's SEQ, or a new one. -/
theorem mgmt_eq (cmd : Nat) (q : BitVec 16) (avail pend : Bool) (run : State → Nat × List Byte × State) (s : State) :
    mgmt cmd q avail pend run s =
      if avail = false then s
      else if q = 0 then { mgmtHeard s with out := s.out ++ [.mgmt { cmd, seq := 0, status := 2 }] }
      else if q = s.cc.lastSeq then { mgmtHeard s with out := s.out ++ [.mgmt s.cc.lastRsp] }
      else
        let r := if pend && s.cc.pendCmd.isSome then (9, [], mgmtHeard s) else run (mgmtHeard s)
        mgmtSaid cmd q r.1 r.2.1 r.2.2 := by
  unfold mgmt
  refine ite_congr rfl (fun _ => rfl) fun _ => ite_congr rfl (fun h => ?_) fun _ => ?_
  · rw [h]
    rfl
  · exact ite_congr rfl (fun _ => rfl) fun _ => rfl

/-- The outcome of a command is the answer of a management request, wherever that changes no more than a query does. -/
def Asked (cmd : Nat) (pend : Bool) (q : BitVec 16) (run : State → Nat × List Byte × State) (c : Instr) (s : State) : Prop :=
  ∀ t, mgmt cmd q (cmdOpen s) pend run s = t → footQuery s t = t → exec c s = .next t

section
variable {cmd : Nat} {pend : Bool} {q : BitVec 16} {run : State → Nat × List Byte × State} {c : Instr} {s : State}

theorem asked_of_query (h : exec c s = .next (footQuery s (mgmt cmd q (cmdOpen s) pend run s))) : Asked cmd pend q run c s :=
  fun t ht kept => by rw [h, ht, kept]

theorem footCommand_footQuery (s t : State) : footCommand s (footQuery s t) = footQuery s t := footCommand_eq_self rfl rfl rfl rfl rfl

theorem asked_of_command (h : exec c s = .next (footCommand s (mgmt cmd q (cmdOpen s) pend run s))) : Asked cmd pend q run c s :=
  fun t ht kept => by rw [h, ht, ← kept, footCommand_footQuery]

theorem asked_of_end (h : exec c s = .next (footEnd s (mgmt cmd q (cmdOpen s) pend run s))) : Asked cmd pend q run c s :=
  fun t ht kept => by rw [h, ht, ← kept]; rfl

theorem asked_of_transition (h : exec c s = .next (footTransition s (mgmt cmd q (cmdOpen s) pend run s))) : Asked cmd pend q run c s :=
  fun t ht kept => by rw [h, ht, ← kept]; rfl

theorem asked_fuseBypass (core array column : Nat) :
    Asked 0x61 false q (fuseBypassRun core array column) (.fuseBypass q core array column) s := by
  intro t ht kept
  change Host.Outcome.next { footCommand s (mgmt 0x61 q (cmdOpen s) false (fuseBypassRun core array column) s) with
    nv := { s.nv with bypass := (mgmt 0x61 q (cmdOpen s) false (fuseBypassRun core array column) s).nv.bypass } } = .next t
  rw [ht, ← kept, footCommand_footQuery]
  rfl

/-- A RESET of kind 0x0 that is not carried out or is refused is an answer only. -/
theorem asked_resetCold (h : cmdOpen s = false ∨ q = 0 ∨ q = s.cc.lastSeq ∨ (resetColdRun s).1 ≠ 0) :
    Asked 0x50 false q resetColdRun (.resetCold q) s := by
  intro t ht kept
  have stays : (cmdOpen s && q != 0 && q != s.cc.lastSeq && (resetColdRun s).1 == 0) = false := by
    simp only [Bool.and_eq_false_iff, bne_eq_false_iff_eq, beq_eq_false_iff_ne, or_assoc]
    exact h
  change Host.Outcome.next (if _ then _ else _) = _
  rw [if_neg (by rw [stays]; decide), ht, kept]

/-- Where the boot ROM's commands are answered, so is REG_READ. -/
theorem asked_regRead {page n : Byte} {o ch : BitVec 16} (h : cmdOpen s = true) :
    Asked 3 false q (regReadRun page.toNat o.toNat n.toNat ch.toNat) (.regRead q page o n ch) s := by
  refine asked_of_query ?_
  change Host.Outcome.next (footQuery s (mgmt 3 q (cmdOpen s || (wipeRuns s && page == 0)) false _ s)) = _
  rw [h, Bool.true_or]

/-- Outside its phases a request is not answered (R415). -/
theorem Asked.closed (a : Asked cmd pend q run c s) (h : cmdOpen s = false) : exec c s = .next s :=
  a s (by rw [mgmt_eq, if_pos h]) rfl

/-- SEQ 0 lies out of its range. -/
theorem Asked.seq_zero (a : Asked cmd pend 0 run c s) (h : cmdOpen s = true) :
    exec c s = .next { mgmtHeard s with out := s.out ++ [.mgmt { cmd, seq := 0, status := 2 }] } :=
  a _ (by rw [mgmt_eq, if_neg (by rw [h]; decide), if_pos rfl]) rfl

/-- A repetition is answered as the last request was (R406). -/
theorem Asked.repeated (a : Asked cmd pend s.cc.lastSeq run c s) (h : cmdOpen s = true) (h0 : s.cc.lastSeq ≠ 0) :
    exec c s = .next { mgmtHeard s with out := s.out ++ [.mgmt s.cc.lastRsp] } :=
  a _ (by rw [mgmt_eq, if_neg (by rw [h]; decide), if_neg h0, if_pos rfl]) rfl

/-- While a command answered PENDING is incomplete, a further one is BUSY (R407). -/
theorem Asked.busy (a : Asked cmd true q run c s) (fresh : MgmtFresh q s) (h : s.cc.pendCmd.isSome = true) :
    exec c s = .next (mgmtSaid cmd q 9 [] (mgmtHeard s)) :=
  a _ (by rw [mgmt_eq, if_neg (by rw [fresh.phase]; decide), if_neg fresh.seq0, if_neg fresh.new, h]; rfl) rfl

/-- A fresh request that its command refuses is answered with the status, and has no effect. -/
theorem Asked.refused {st : Nat} (a : Asked cmd pend q run c s) (fresh : MgmtFresh q s) (hp : pend = false ∨ s.cc.pendCmd = none)
    (hr : run (mgmtHeard s) = (st, [], mgmtHeard s)) : exec c s = .next (mgmtSaid cmd q st [] (mgmtHeard s)) :=
  a _ (by rw [mgmt_of_fresh fresh hp, hr]) rfl

end

/-! ### RWL_WRITE (R12, R390, R454) -/

/-- The straps set the coordinate of the plane, and report where there is none. -/
theorem strapCoord_frame (s : State) : strapCoord s = { s with plane := (strapCoord s).plane, out := (strapCoord s).out } := by
  unfold strapCoord
  split
  · rfl
  split
  · dsimp only
    split <;> rfl
  · rfl

@[simp] theorem strapCoord_rwl (s : State) : (strapCoord s).plane.rwl = s.plane.rwl := by
  unfold strapCoord
  split
  · rfl
  split
  · dsimp only
    split <;> rfl
  · rfl

theorem setRwl_frame (page : Nat) (v : Word) (s : State) :
    setRwl page v s = { s with plane := (setRwl page v s).plane, out := (setRwl page v s).out } := by
  unfold setRwl
  split
  · exact strapCoord_frame _
  · rfl

/-- An RWL_WRITE leaves all but the plane, what the chip sends, the interrupts and the record of the last request. -/
def RwlKept (s t : State) : Prop :=
  t = { s with plane := t.plane, out := t.out, regs := t.regs, cc := { s.cc with lastSeq := t.cc.lastSeq, lastRsp := t.cc.lastRsp } }

theorem RwlKept.trans {s t u : State} (h : RwlKept s t) (k : RwlKept t u) : RwlKept s u := by
  rw [RwlKept] at h k ⊢
  rw [k, h]

theorem RwlKept.footCommand {s t : State} (h : RwlKept s t) : footCommand s t = t := by
  rw [RwlKept] at h
  rw [h]
  exact footCommand_eq_self rfl rfl rfl rfl rfl

theorem rwlWriteRun_frame (page off : Nat) (v : Word) (s : State) :
    (rwlWriteRun page off v s).2.2 =
      { s with plane := (rwlWriteRun page off v s).2.2.plane, out := (rwlWriteRun page off v s).2.2.out } := by
  obtain h | h := answer_state [(decide (0x1F < page ∨ off % 4 ≠ 0 ∨ 0x1000 ≤ off), 2),
    (!((page == 4 && off == 0x3C) || (page == 6 && off == 0x20)), 3), (!rwlOpen s, 1)] (setRwl page v) s
  · rw [rwlWriteRun, h]
  · rw [rwlWriteRun, h]
    exact setRwl_frame page v s

theorem mgmt_rwlWrite_kept (q : BitVec 16) (avail : Bool) (page off : Nat) (v : Word) (s : State) :
    RwlKept s (mgmt 4 q avail false (rwlWriteRun page off v) s) := by
  rw [mgmt_eq]
  split
  · rfl
  split
  · rfl
  split
  · rfl
  · change RwlKept s (mgmtSaid 4 q _ _ (rwlWriteRun page off v (mgmtHeard s)).2.2)
    rw [rwlWriteRun_frame]
    rfl

/-- An RWL_WRITE waits where the wipe of a transition runs (Table REGS-16). -/
theorem rwlWaits_iff (s : State) :
    rwlWaits s = true ↔ s.sec.wiping = true ∧ 4 ≤ s.cc.bootph ∧ s.cc.bootph ≤ 8 ∧ s.sec.pendLc ≠ none := by
  simp only [rwlWaits, wipeRuns, Bool.and_eq_true, decide_eq_true_eq, Option.isSome_iff_ne_none, and_assoc]

theorem exec_rwlWrite (q : BitVec 16) (page : Byte) (o : BitVec 16) (w : Word) (s : State) :
    exec (.rwlWrite q page o w) s = .next (if rwlWaits s = true
      then { s with cc := { s.cc with rwlHeld := s.cc.rwlHeld ++ [(q, page, o, w)] } }
      else mgmt 4 q (cmdOpen s) false (rwlWriteRun page.toNat o.toNat w) s) := by
  change Host.Outcome.next (footCommand s (if _ then _ else _)) = _
  split
  · exact congrArg _ (footCommand_eq_self rfl rfl rfl rfl rfl)
  · exact congrArg _ (mgmt_rwlWrite_kept q (cmdOpen s) page.toNat o.toNat w s).footCommand

/-! ### Commands that are refused (R110, R388, R403, R408, R411) -/

section
variable {b : Bool} {st cmd : Nat} {q : BitVec 16} {checks : List (Bool × Nat)} {w : PendWork} {act : State → State} {s : State}

theorem answer_first (h : b = true) : answer ((b, st) :: checks) act s = (st, [], s) := by rw [answer, List.find?_cons_of_pos h]

theorem answer_next (h : b = false) : answer ((b, st) :: checks) act s = answer checks act s := by
  rw [answer, List.find?_cons_of_neg (by rw [h]; exact Bool.false_ne_true), answer]

theorem answerPending_first (h : b = true) : answerPending cmd q ((b, st) :: checks) w act s = (st, [], s) := by
  rw [answerPending, List.find?_cons_of_pos h]

end

section
variable {s : State} {q : BitVec 16} {n m k : Nat} {x y z : BitVec 64} {l b : List Byte} {win : Windows} {e : ResCmd}

/-- A partition named by a number in range. -/
theorem parts_getD (h : n ≤ 15) : s.parts.getD n {} = s.parts[(Fin.ofNat 16 n : Part)] := by
  have hn : n % 16 = n := Nat.mod_eq_of_lt (by omega)
  simp [Vector.getD, hn, show n < 16 by omega]

theorem fwBeginRun_bounds (h : l.length ≠ 48 ∨ n = 0) : fwBeginRun n l s = (2, [], s) :=
  answer_first (decide_eq_true (h.imp_right .inl))

theorem fwBeginRun_retired (fits : l.length = 48 ∧ 0 < n ∧ n ≤ 2097408) (h : s.nv.lc = .retired) : fwBeginRun n l s = (1, [], s) := by
  rw [fwBeginRun, answer_next (decide_eq_false (by rw [imageSlotBytes]; omega)), answer_first (by rw [h]; rfl)]

theorem fwDataRun_bounds (h : l.length < 1 ∨ 1024 < l.length) : fwDataRun n l s = (2, [], s) := answer_first (decide_eq_true h)

theorem fwDataRun_beyond (h : s.cc.slotSt = .staging ∧ s.cc.slotLen < n + l.length) : fwDataRun n l s = (2, [], s) := by
  by_cases hl : l.length < 1 ∨ 1024 < l.length
  · exact fwDataRun_bounds hl
  · rw [fwDataRun, answer_next (decide_eq_false hl), answer_first (by rw [h.1, decide_eq_true h.2]; rfl)]

theorem fwActivateRun_state (h : (s.nv.lc = .retired ∨ s.cc.slotImage = none) ∨ s.cc.bootph ≠ 8) : fwActivateRun x s = (1, [], s) := by
  unfold fwActivateRun
  split
  · rfl
  · next f image => rw [if_pos (by simpa [image] using h)]

theorem fwActivateRun_inSlice (h : outOfSlice s = false) : fwActivateRun 0 s = (1, [], s) := by
  unfold fwActivateRun
  split
  · rfl
  · rw [h]
    exact ite_self _

theorem coldGrantRun_bounds (h : n < 1 ∨ 16384 < n) : coldGrantRun x n s = (2, [], s) := answer_first (decide_eq_true h)

theorem coldGrantRun_state (fits : 1 ≤ n ∧ n ≤ 16384) (h : s.parts.toList.all (fun p => p.st == .idle) = false) :
    coldGrantRun x n s = (1, [], s) := by
  rw [coldGrantRun, answer_next (decide_eq_false (by omega)), answer_first (by rw [h]; exact Bool.or_true _)]

theorem sliceStartRun_state (h : notOperational s = true ∨ mayStart s x y = false) : sliceStartRun x y s = (1, [], s) :=
  answer_first (by simpa using h)

theorem sliceLeaveRun_state (h : (notOperational s = true ∨ s.plane.plan = none) ∨ s.plane.leaving = true) :
    sliceLeaveRun s = (1, [], s) := answer_first (by simpa using h)

theorem epochAbortRun_state (h : (notOperational s = true ∨ s.plane.plan = none) ∨ s.epochPend = none) :
    epochAbortRun s = (1, [], s) := answer_first (by simpa using h)

theorem progDropRun_bounds (h : 7 < n) : progDropRun n s = (2, [], s) := answer_first (decide_eq_true h)

theorem progDropRun_state (hn : n ≤ 7) (h : notOperational s = true) : progDropRun n s = (1, [], s) := by
  rw [progDropRun, answer_next (decide_eq_false (by omega)), answer_first h]

theorem progDropRun_selected (hn : n ≤ 7) (op : notOperational s = false) (h : slotSelected s n = true) :
    progDropRun n s = (7, [], s) := by
  rw [progDropRun, answer_next (decide_eq_false (by omega)), answer_next op, answer_first h]

theorem configureRun_part (h : 15 < n) : configureRun n win s = (2, [], s) := answer_first (by rw [decide_eq_true h]; rfl)

theorem configureRun_windows (h : windowFits s (Fin.ofNat 16 n) win = false) : configureRun n win s = (2, [], s) :=
  answer_first (by rw [h]; exact Bool.or_true _)

/-- Windows of the cold tier begin behind the staging unit (R411). -/
theorem windowFits_staging {p : Part} (h : 0 < win.coldCount ∧ win.coldBase = 0) : windowFits s p win = false := by
  have out : windowsIn ((s.plane.grant.map Prod.snd).getD 0) win = false := by
    rw [windowsIn, decide_eq_false (p := win.coldCount = 0 ∨ _) (by omega), Bool.and_false, Bool.false_and]
  rw [windowFits, out, Bool.false_and]

/-- SLOT_COUNT is at most 65,534. -/
theorem windowFits_slots {p : Part} (h : win.slotCount = 0xFFFF) : windowFits s p win = false := by
  have out : windowsIn ((s.plane.grant.map Prod.snd).getD 0) win = false := by
    rw [windowsIn, decide_eq_false (p := win.slotCount ≤ 65534 ∧ _) (by omega), Bool.and_false]
  rw [windowFits, out, Bool.false_and]

/-- Windows meet no other partition's. -/
theorem windowFits_met {p : Part} (h : (List.finRange 16).any (fun x => decide (x ≠ p) &&
    (windowsMeet win s.parts[x].win || windowsMeet win s.parts[x].winNext)) = true) : windowFits s p win = false := by
  obtain ⟨x, hx, met⟩ := List.any_eq_true.mp h
  obtain ⟨other, met⟩ := Bool.and_eq_true_iff.mp met
  refine Bool.and_eq_false_iff.mpr (.inr (List.all_eq_false.mpr ⟨x, hx, ?_⟩))
  rw [decide_eq_false (of_decide_eq_true other), ← Bool.not_or, met]
  decide

theorem unconfigureRun_bounds (h : 15 < n) : unconfigureRun n s = (2, [], s) := answer_first (decide_eq_true h)

theorem unconfigureRun_state (hn : n ≤ 15) (h : notOperational s = true ∨ (s.parts.getD n {}).st ≠ .configured) :
    unconfigureRun n s = (1, [], s) := by
  rw [parts_getD hn] at h
  rw [unconfigureRun, answer_next (decide_eq_false (by omega)), answer_first (by simpa using h)]

theorem coreAssignRun_bounds (h : 63 < n ∨ (0x0F < m ∧ m ≠ 0x1F)) : coreAssignRun n m s = (2, [], s) := by
  unfold coreAssignRun
  by_cases far : 63 < n ∨ 0x1F < m
  · rw [if_pos far]
  · rw [if_neg far, setCorePart, if_pos (by omega)]

theorem coreAssignRun_state (fits : n ≤ 63 ∧ (m ≤ 0x0F ∨ m = 0x1F)) (h : notOperational s = true) :
    coreAssignRun n m s = (1, [], s) := by
  rw [coreAssignRun, if_neg (by omega), setCorePart, if_neg (by omega)]
  dsimp only
  split
  · next heq =>
    split at heq <;> cases heq
  · rfl
  · rw [if_pos h]

theorem pcmdRun_bounds (h : 15 < n) : pcmdRun n e s = (2, [], s) := by rw [pcmdRun, answer_first (decide_eq_true h)]

theorem pcmdRun_state (hn : n ≤ 15) (h : ((notOperational s = true ∨ (s.parts.getD n {}).st ≠ .keyed) ∨
    (s.parts.getD n {}).presetPend.isSome = true) ∨ ringRoom (s.parts.getD n {}).resq = 0) : pcmdRun n e s = (1, [], s) := by
  rw [parts_getD hn] at h
  rw [pcmdRun, answer_next (decide_eq_false (by omega)), answer_first (by simpa [notPreset, Option.isSome_iff_ne_none] using h)]

theorem resetColdRun_state (h : sliceActive s = true ∧ mayWipe s = false) : resetColdRun s = (1, [], s) :=
  answer_first (by rw [h.1, h.2]; exact Bool.or_true _)

theorem resetPortRun_bounds (h : 5 < n) : resetPortRun n s = (2, [], s) := answer_first (decide_eq_true h)

theorem fuseBypassRun_bounds (h : 63 < n ∨ 3 < m ∨ 31 < k) : fuseBypassRun n m k s = (2, [], s) := answer_first (decide_eq_true h)

theorem fuseBypassRun_state (fits : n ≤ 63 ∧ m ≤ 3 ∧ k ≤ 31) (h : s.nv.lc ≠ .service) : fuseBypassRun n m k s = (1, [], s) := by
  rw [fuseBypassRun, answer_next (decide_eq_false (by omega)), answer_first (by simp [notService, h])]

theorem fwEndRun_state (h : s.nv.lc = .retired ∨ s.cc.slotSt ≠ .staging) : fwEndRun q s = (1, [], s) :=
  answerPending_first (by simpa using h)

/-- A transition is refused in a state that Table SEC-10 does not name, and in OPERATIONAL where the chip may not wipe (R388). -/
theorem transitionRun_state {cmd : Nat} {src : List LifeCycle} {dest : LifeCycle}
    (h : s.nv.lc ∉ src ∨ (s.nv.lc = .operational ∧ mayWipe s = false)) : transitionRun cmd q src dest s = (1, [], s) :=
  answerPending_first (by simpa using h)

theorem stagingBad_eq_true (h : y = BitVec.allOnes 64 ∨ Config.coldUnit < x.toNat + y.toNat) : stagingBad x y = true := by
  simpa [stagingBad] using h

theorem sliceAdmitRun_bounds (h : y = BitVec.allOnes 64 ∨ Config.coldUnit < x.toNat + y.toNat) : sliceAdmitRun q x y l s = (2, [], s) :=
  answerPending_first (stagingBad_eq_true h)

/-- A load that names no slot of the chip, or no range of the staging unit, empties no slot (R408). -/
theorem progLoadRun_bounds (h : 7 < n ∨ y = BitVec.allOnes 64 ∨ Config.coldUnit < x.toNat + y.toNat) :
    progLoadRun q n x y l s = (2, [], s) := by
  have first : (decide (7 < n) || stagingBad x y || decide (containerMax < y.toNat)) = true := by
    rcases h with h | h
    · rw [decide_eq_true h]; rfl
    · rw [stagingBad_eq_true h, Bool.or_true]; rfl
  rw [progLoadRun, answerPending_first first]
  by_cases bad : stagingBad x y = false
  · have hn : 8 ≤ n := h.resolve_right fun h => by rw [stagingBad_eq_true h] at bad; cases bad
    rw [if_pos (.inr ⟨rfl, bad⟩), Vector.setIfInBounds_eq_of_size_le hn]
  · rw [if_neg (by simp [bad])]

theorem presetRun_bounds (h : 15 < n) : presetRun q n s = (2, [], s) := answerPending_first (decide_eq_true h)

/-- An epoch block that does not lie in the staging unit is refused, and drops the epoch that is pending (R408). -/
theorem epochPendRun_bounds (plan : s.plane.plan.isSome = true) (h : y.toNat ≠ 448 ∨ Config.coldUnit < x.toNat + y.toNat) :
    epochPendRun x y l z b s = (2, [], dropEpoch s) := by
  have first : (stagingBad x y || decide (y.toNat ≠ epochBlockBytes)) = true := by
    rcases h with h | h
    · rw [decide_eq_true (p := y.toNat ≠ epochBlockBytes) h, Bool.or_true]
    · rw [stagingBad_eq_true (.inr h)]; rfl
  rw [epochPendRun, answer_first first]
  dsimp only
  rw [if_neg (by decide), if_pos plan]

end

/-- Settles O44: by the order in which a request is looked at, and by the checks of each command. -/
theorem managementAnswered : Obligations.ManagementAnswered := by
  unfold Obligations.ManagementAnswered
  refine ⟨fun s page b w o n m k x y z l l' win e => ?_, fun s q fresh => ⟨fun n m k x y l win e => ?_, fun idle n x y l => ?_,
    fun x y z l b op plan h => ?_⟩⟩
  · intro plain long
    have short (q : BitVec 16) (h : cmdOpen s = false ∨ q = 0 ∨ q = s.cc.lastSeq) :
        ∀ c ∈ plain q, ∃ run, Asked c.2 false q run c.1 s := by
      simp only [plain, List.forall_mem_cons, List.not_mem_nil, false_imp_iff, implies_true, and_true]
      exact ⟨⟨_, asked_of_query rfl⟩, ⟨_, asked_of_query rfl⟩, ⟨_, asked_of_command rfl⟩, ⟨_, asked_of_command rfl⟩,
        ⟨_, asked_of_command rfl⟩, ⟨_, asked_of_end rfl⟩, ⟨_, asked_of_command rfl⟩, ⟨_, asked_of_command rfl⟩, ⟨_, asked_of_command rfl⟩,
        ⟨_, asked_of_command rfl⟩, ⟨_, asked_of_end rfl⟩, ⟨_, asked_of_command rfl⟩, ⟨_, asked_of_command rfl⟩,
        ⟨_, asked_resetCold (by tauto)⟩, ⟨_, asked_of_command rfl⟩, ⟨_, asked_of_command rfl⟩, ⟨_, asked_fuseBypass n m k⟩⟩
    have pending (q : BitVec 16) : ∀ c ∈ long q, ∃ run, Asked c.2 true q run c.1 s := by
      simp only [long, List.forall_mem_cons, List.not_mem_nil, false_imp_iff, implies_true, and_true]
      exact ⟨⟨_, asked_of_query rfl⟩, ⟨_, asked_of_transition rfl⟩, ⟨_, asked_of_transition rfl⟩, ⟨_, asked_of_transition rfl⟩,
        ⟨_, asked_of_transition rfl⟩, ⟨_, asked_of_transition rfl⟩, ⟨_, asked_of_transition rfl⟩, ⟨_, asked_of_transition rfl⟩,
        ⟨_, asked_of_query rfl⟩, ⟨_, asked_of_command rfl⟩, ⟨_, asked_of_end rfl⟩, ⟨_, asked_of_query rfl⟩⟩
    have asked (q : BitVec 16) (h : cmdOpen s = false ∨ q = 0 ∨ q = s.cc.lastSeq) :
        ∀ c ∈ plain q ++ long q, ∃ pend run, Asked c.2 pend q run c.1 s := fun c hc =>
      (List.mem_append.mp hc).elim (fun hc => ⟨_, short q h c hc⟩) fun hc => ⟨_, pending q c hc⟩
    refine ⟨fun closed q c hc => ?_, fun q => ?_, fun opened c hc => ?_, fun opened h0 c hc => ?_, fun q fresh busy c hc => ?_⟩
    · obtain ⟨_, _, a⟩ := asked q (.inl closed) c hc
      exact a.closed closed
    · rw [exec_rwlWrite, mgmt_eq]
      simp only [rwlWaits_iff]
      rfl
    · obtain ⟨_, _, a⟩ := asked 0 (.inr (.inl rfl)) c hc
      exact a.seq_zero opened
    · obtain hc | hc := List.mem_append.mp hc
      · obtain ⟨_, _, a⟩ := asked s.cc.lastSeq (.inr (.inr rfl)) c hc
        exact a.repeated opened h0
      · rw [List.mem_singleton.mp hc]
        exact (asked_regRead opened).repeated opened h0
    · obtain ⟨_, a⟩ := pending q c hc
      exact a.busy fresh busy
  · simp only [List.forall_mem_cons, Bool.and_eq_true, Bool.or_eq_true, decide_eq_true_eq, beq_iff_eq, bne_iff_ne, Bool.not_eq_true',
      Option.isNone_iff_eq_none, List.not_mem_nil, false_imp_iff, implies_true, and_true]
    exact ⟨fun h => (asked_of_query rfl).refused fresh (.inl rfl) (fwBeginRun_bounds h),
      fun h => (asked_of_query rfl).refused fresh (.inl rfl) (fwBeginRun_retired h.1 h.2),
      fun h => (asked_of_query rfl).refused fresh (.inl rfl) (fwDataRun_bounds h),
      fun h => (asked_of_query rfl).refused fresh (.inl rfl) (fwDataRun_beyond h),
      fun h => (asked_of_command rfl).refused fresh (.inl rfl) (fwActivateRun_state h),
      fun h => (asked_of_command rfl).refused fresh (.inl rfl) (fwActivateRun_inSlice h),
      fun h => (asked_of_command rfl).refused fresh (.inl rfl) (coldGrantRun_bounds h),
      fun h => (asked_of_command rfl).refused fresh (.inl rfl) (coldGrantRun_state h.1 h.2),
      fun h => (asked_of_command rfl).refused fresh (.inl rfl) (sliceStartRun_state h),
      fun h => (asked_of_end rfl).refused fresh (.inl rfl) (sliceLeaveRun_state h),
      fun h => (asked_of_command rfl).refused fresh (.inl rfl) (epochAbortRun_state h),
      fun h => (asked_of_command rfl).refused fresh (.inl rfl) (progDropRun_bounds h),
      fun h => (asked_of_command rfl).refused fresh (.inl rfl) (progDropRun_state h.1 h.2),
      fun h => (asked_of_command rfl).refused fresh (.inl rfl) (progDropRun_selected h.1.1 h.1.2 h.2),
      fun h => (asked_of_command rfl).refused fresh (.inl rfl) (configureRun_part h),
      fun h => (asked_of_command rfl).refused fresh (.inl rfl) (configureRun_windows (windowFits_staging h)),
      fun h => (asked_of_command rfl).refused fresh (.inl rfl) (configureRun_windows (windowFits_slots h)),
      fun h => (asked_of_command rfl).refused fresh (.inl rfl) (configureRun_windows (windowFits_met h)),
      fun h => (asked_of_end rfl).refused fresh (.inl rfl) (unconfigureRun_bounds h),
      fun h => (asked_of_end rfl).refused fresh (.inl rfl) (unconfigureRun_state h.1 h.2),
      fun h => (asked_of_command rfl).refused fresh (.inl rfl) (coreAssignRun_bounds h),
      fun h => (asked_of_command rfl).refused fresh (.inl rfl) (coreAssignRun_state h.1 h.2),
      fun h => (asked_of_command rfl).refused fresh (.inl rfl) (pcmdRun_bounds h),
      fun h => (asked_of_command rfl).refused fresh (.inl rfl) (pcmdRun_state h.1 h.2),
      fun h => (asked_resetCold (.inr (.inr (.inr (by rw [resetColdRun_state h]; exact Nat.one_ne_zero))))).refused fresh (.inl rfl)
        (resetColdRun_state h),
      fun h => (asked_of_command rfl).refused fresh (.inl rfl) (resetPortRun_bounds h),
      fun h => (asked_fuseBypass n m k).refused fresh (.inl rfl) (fuseBypassRun_bounds h),
      fun h => (asked_fuseBypass n m k).refused fresh (.inl rfl) (fuseBypassRun_state h.1 h.2)⟩
  · simp only [List.forall_mem_cons, Bool.and_eq_true, Bool.or_eq_true, decide_eq_true_eq, beq_iff_eq, bne_iff_ne, Bool.not_eq_true',
      List.not_mem_nil, false_imp_iff, implies_true, and_true]
    exact ⟨fun h => (asked_of_query rfl).refused fresh (.inr idle) (fwEndRun_state h),
      fun h => (asked_of_transition rfl).refused fresh (.inr idle) (transitionRun_state (.inl (by simpa using h))),
      fun h => (asked_of_transition rfl).refused fresh (.inr idle) (transitionRun_state (.inl (by simpa using h))),
      fun h => (asked_of_transition rfl).refused fresh (.inr idle) (transitionRun_state (.inl (by simpa using h))),
      fun h => (asked_of_transition rfl).refused fresh (.inr idle) (transitionRun_state
        (if op : s.nv.lc = .operational then .inr ⟨op, h.resolve_left (not_not_intro op)⟩ else .inl (by simpa using op))),
      fun h => (asked_of_transition rfl).refused fresh (.inr idle) (transitionRun_state (.inl (by simpa using h))),
      fun h => (asked_of_transition rfl).refused fresh (.inr idle) (transitionRun_state (.inl (by simpa using h))),
      fun h => (asked_of_transition rfl).refused fresh (.inr idle) (transitionRun_state (h.imp_left fun h => by simp [h])),
      fun h => (asked_of_query rfl).refused fresh (.inr idle) (sliceAdmitRun_bounds h),
      fun h => (asked_of_command rfl).refused fresh (.inr idle) (progLoadRun_bounds h),
      fun h => (asked_of_end rfl).refused fresh (.inr idle) (presetRun_bounds h),
      fun h => (asked_of_query rfl).refused fresh (.inr idle) (answerPending_first (by simp [notService, h]))⟩
  · exact next_mgmt fresh (.inl rfl) (epochPendRun_bounds plan h) rfl rfl rfl rfl rfl

end Sys2Proof.Machine
end

section
/-!
PROOFS. Life-cycle commands that are accepted, and the RESET kinds, the self-test and the bypass fuses (R110, R388, R390, R398, R413,
R439, R475).
-/

namespace Sys2Proof.Machine

/-! ### A life-cycle transition begins (R388, R390) -/

/-- The state in which the Autumn wipe of a transition runs: the command is PENDING, and the new state waits for the end. -/
def transitionBegun (cmd : Nat) (q : BitVec 16) (dest : LifeCycle) (s : State) : State :=
  mgmtSaid cmd q 0xB []
    (autumnWipe true { pendNoted cmd q (.transition dest) (mgmtHeard s) with sec := { s.sec with pendLc := some dest } })

/-- The commands of Table SEC-10, each with its code, the states that it leaves and the one that it enters. -/
def lifeCycleCommands (q : BitVec 16) : List (Instr × Nat × List LifeCycle × LifeCycle) :=
  [(.provision q, 0x20, [.blank], .provisioned), (.commission q, 0x21, [.provisioned], .operational),
    (.deprovision q, 0x22, [.provisioned, .service], .blank), (.enterService q, 0x23, [.operational], .service),
    (.returnCmd q, 0x24, [.service], .operational), (.reprovision q, 0x25, [.service], .provisioned),
    (.retire q, 0x26, [.blank, .provisioned, .operational, .service], .retired)]

theorem exec_lifeCycleCommands (q : BitVec 16) (s : State) : ∀ c ∈ lifeCycleCommands q,
    exec c.1 s = .next (footTransition s (mgmt c.2.1 q (cmdOpen s) true (transitionRun c.2.1 q c.2.2.1 c.2.2.2) s)) := by
  simp only [lifeCycleCommands, List.forall_mem_cons, List.not_mem_nil, false_imp_iff, implies_true, and_true]
  exact ⟨rfl, rfl, rfl, rfl, rfl, rfl, rfl⟩

/-- A command of Table SEC-10 begins its transition, out of OPERATIONAL only where the chip may wipe. -/
theorem lifeCycleCommands_begin {q : BitVec 16} {s : State} (fresh : MgmtFresh q s) (idle : s.cc.pendCmd = none)
    (may : s.nv.lc = .operational → mayWipe s = true) {c : Instr × Nat × List LifeCycle × LifeCycle} (hc : c ∈ lifeCycleCommands q)
    (src : s.nv.lc ∈ c.2.2.1) : exec c.1 s = .next (transitionBegun c.2.1 q c.2.2.2 s) := by
  have checks : (!c.2.2.1.contains s.nv.lc || (s.nv.lc == .operational && !mayWipe s)) = false := by
    simpa [src] using may
  rw [exec_lifeCycleCommands q s c hc, mgmt_of_fresh fresh (.inr idle), transitionRun, answerPending,
    List.find?_cons_of_neg (by rw [mgmtHeard_nv]; exact ne_true_of_eq_false checks)]
  rfl

section
variable (cmd : Nat) (q : BitVec 16) (dest : LifeCycle) (s : State)

theorem transitionBegun_core (n : CoreIx) : (transitionBegun cmd q dest s).cores[n] = wipedCore s.nv.bypass n.val := by
  simp [transitionBegun, mgmtSaid, autumnWipe, pendNoted]

theorem transitionBegun_port (i : PortIx) :
    (transitionBegun cmd q dest s).ports[i] = { clearPort s.ports[i] with st := .disabled, reason := 0 } := by
  simp [transitionBegun, mgmtSaid, autumnWipe, pendNoted, mgmtHeard]

theorem transitionBegun_part (p : Part) : (transitionBegun cmd q dest s).parts[p] = {} := by
  simp [transitionBegun, mgmtSaid, autumnWipe]

theorem transitionBegun_session (n : Fin 8) : (transitionBegun cmd q dest s).sec.sessions[n] = none := by
  simp [transitionBegun, mgmtSaid, autumnWipe]

end

/-! ### RESET of kind 0x0: the cold reset (R413) -/

theorem resetColdRun_of_ready {s : State} (ready : s.cc.bootph = 8) (h : sliceActive s = false ∨ mayWipe s = true) :
    resetColdRun s = (0, [], s) :=
  answer_of_checks_false (by rcases h with h | h <;> simp [ready, h]) id s

/-! ### RESET of kind 0x1: one port (Table CTRL-8) -/

theorem setLink_frame (i : PortIx) (x : LinkSt) (r : Nat) (s : State) :
    setLink i x r s = { s with ports := (setLink i x r s).ports, regs := (setLink i x r s).regs } := by
  unfold setLink
  split <;> rfl

theorem setLink_at (i : PortIx) (x : LinkSt) (r : Nat) (s : State) :
    (setLink i x r s).ports[i] = { s.ports[i] with st := x, reason := r } := by
  unfold setLink
  split
  · next h =>
    obtain ⟨rfl, rfl⟩ := h
    rfl
  · exact vmod_same s.ports i _

theorem loseParent_frame (i : PortIx) (s : State) :
    loseParent i s = { s with mc := { s.mc with holdover := (loseParent i s).mc.holdover } } := by
  unfold loseParent
  split <;> rfl

/-- What the reset of a port that is not UP does: buffers and keys go; discovery begins where a neighbour is expected, and the loss of
a parent link begins holdover. -/
theorem portReset_cases {i : PortIx} {s : State} (h : s.ports[i].st ≠ .up) :
    ((s.ports[i].en = false ∨ s.ports[i].st = .border ∨ s.plane.plan.isNone = true) ∧ portReset i s = modPort i emptyPort s) ∨
      portReset i s = setLink i .training 0 (modPort i emptyPort s) ∨
      portReset i s = loseParent i (setLink i .training 0 (modPort i emptyPort s)) := by
  unfold portReset
  dsimp only
  split
  · next stays => exact .inl ⟨stays, rfl⟩
  · split
    · exact .inr (.inr rfl)
    · exact .inr (.inl rfl)

theorem portReset_frame {i : PortIx} {s : State} (h : s.ports[i].st ≠ .up) :
    portReset i s = { s with ports := (portReset i s).ports, regs := (portReset i s).regs,
                             mc := { s.mc with holdover := (portReset i s).mc.holdover } } := by
  obtain ⟨-, e⟩ | e | e := portReset_cases h
  · rw [e]
    rfl
  · rw [e, setLink_frame]
    rfl
  · rw [e, loseParent_frame, setLink_frame]
    rfl

theorem portReset_own {i : PortIx} {s : State} (h : s.ports[i].st ≠ .up) :
    ∃ x r, (portReset i s).ports[i] = { emptyPort s.ports[i] with st := x, reason := r } ∧
      (s.ports[i].en = true → s.ports[i].st ≠ .border → s.plane.plan.isSome = true → x = .training) := by
  have empty : (modPort i emptyPort s).ports[i] = emptyPort s.ports[i] := vmod_same _ i _
  have trains : (setLink i .training 0 (modPort i emptyPort s)).ports[i] = { emptyPort s.ports[i] with st := .training, reason := 0 } := by
    rw [setLink_at, empty]
  obtain ⟨stays, e⟩ | e | e := portReset_cases h
  · refine ⟨_, _, by rw [e, empty], fun en inBox plan => ?_⟩
    obtain no | border | free := stays
    · rw [en] at no
      cases no
    · exact absurd border inBox
    · rw [Option.isNone_iff_eq_none.mp free] at plan
      cases plan
  · exact ⟨_, _, by rw [e, trains], fun _ _ _ => rfl⟩
  · exact ⟨_, _, by rw [e, loseParent_frame, trains], fun _ _ _ => rfl⟩

theorem portReset_other {i j : PortIx} {s : State} (h : s.ports[i].st ≠ .up) (hj : j ≠ i) :
    (portReset i s).ports[j] = s.ports[j] := by
  have empty : (modPort i emptyPort s).ports[j] = s.ports[j] := vmod_other _ i _ j j.isLt fun e => hj (Fin.ext e.symm)
  have trains : (setLink i .training 0 (modPort i emptyPort s)).ports[j] = s.ports[j] :=
    (setLink_other i _ _ _ j hj.symm).trans empty
  obtain ⟨-, e⟩ | e | e := portReset_cases h
  · rw [e, empty]
  · rw [e, trains]
  · rw [e, loseParent_frame, trains]

theorem resetPortRun_of_ready {i : PortIx} {s : State} (ready : s.cc.bootph = 8) :
    resetPortRun i.val s = (0, [], portReset i s) := by
  rw [resetPortRun, Fin.ofNat_eq_cast, Fin.cast_val_eq_self]
  exact answer_of_checks_false (by simp [ready]; omega) (portReset i) s

/-! ### RESET of kind 0x2: a restart (R398) -/

theorem resetRestartRun_of_ready {s : State} (ready : s.cc.bootph = 8) : resetRestartRun s = (0, [], restart 6 s) :=
  answer_of_checks_false (by simp [ready]) (restart 6) s

/-! ### Self-test (R439) -/

theorem notService_eq_false {s : State} (ready : s.cc.bootph = 8) (service : s.nv.lc = .service) : notService s = false := by
  simp [notService, ready, service]

/-- In SERVICE a self-test is PENDING. -/
theorem selftest_noted {q : BitVec 16} {m : BitVec 64} {s u : State} (service : notService s = false) :
    answerPending 0x60 q [(notService s, 1)] (.selftest m) id u = (0xB, [], pendNoted 0x60 q (.selftest m) u) := by
  rw [service]
  rfl

/-! ### Bypass fuses (R110, R475) -/

/-- The blown fuses with one more, which may have been blown before. -/
def withFuse (l : List (Fin 256 × Fin 32)) (f : Fin 256 × Fin 32) : List (Fin 256 × Fin 32) := if l.contains f then l else l ++ [f]

theorem mem_withFuse (l : List (Fin 256 × Fin 32)) (f : Fin 256 × Fin 32) : f ∈ withFuse l f := by
  unfold withFuse
  split
  · next h => exact List.contains_iff_mem.mp h
  · simp

theorem withFuse_extends (l : List (Fin 256 × Fin 32)) (f : Fin 256 × Fin 32) : l <+: withFuse l f := by
  unfold withFuse
  split
  · exact List.prefix_rfl
  · exact List.prefix_append _ _

/-- A core whose fields of one array come from its fuses at the next boundary. -/
def coreFused (a : Fin 4) (b : Bypass) (c : CoreSt) : CoreSt := { c with bypNext := vmod c.bypNext a (fun _ => b) }

theorem blowFuse_eq (n : CoreIx) (a : Fin 4) (k : Fin 32) (s : State) :
    blowFuse n.val a.val k.val s =
      let l := withFuse s.nv.bypass (Fin.ofNat 256 (4 * n.val + a.val), k)
      { s with nv := { s.nv with bypass := l }
               cores := vmod s.cores n (coreFused a (fuseBypass l (4 * n.val + a.val))) } := by
  have core : s.cores.getD n.val {} = s.cores[n] := by simp [Vector.getD]
  have column : Fin.ofNat 32 k.val = k := by rw [Fin.ofNat_eq_cast, Fin.cast_val_eq_self]
  rw [blowFuse, core, column]
  dsimp only
  rw [setIfInBounds_eq_vmod, setIfInBounds_eq_vmod]
  rfl

/-- A blown fuse leaves the assignment of the core and the bypass in force (R24, R110). -/
theorem keepAssign_coreFused (n : CoreIx) (a : Fin 4) (b : Bypass) (s t : State) (h : t.cores = vmod s.cores n (coreFused a b)) :
    keepAssign s t = t.cores := by
  refine keepAssign_same s t fun m => ?_
  rw [h, Fin.getElem_fin, vmod_at]
  split <;> exact ⟨rfl, rfl⟩

theorem fuseBypassRun_of_service {n : CoreIx} {a : Fin 4} {k : Fin 32} {s : State} (ready : s.cc.bootph = 8) (service : s.nv.lc = .service) :
    fuseBypassRun n.val a.val k.val s = (0, [], blowFuse n.val a.val k.val s) :=
  answer_of_checks_false (by simp [notService_eq_false ready service]; omega) _ s

/-- A fuse command that is carried out changes the fuses and what the next boundary takes from them. -/
theorem exec_fuseBypass_of_service {q : BitVec 16} {n : CoreIx} {a : Fin 4} {k : Fin 32} {s : State} (fresh : MgmtFresh q s)
    (ready : s.cc.bootph = 8) (service : s.nv.lc = .service) :
    exec (.fuseBypass q n.val a.val k.val) s = .next (mgmtSaid 0x61 q 0 [] (blowFuse n.val a.val k.val (mgmtHeard s))) := by
  change Host.Outcome.next { footCommand s (mgmt 0x61 q (cmdOpen s) false (fuseBypassRun n.val a.val k.val) s) with
    nv := { s.nv with bypass := (mgmt 0x61 q (cmdOpen s) false (fuseBypassRun n.val a.val k.val) s).nv.bypass } } = _
  rw [mgmt_of_fresh fresh (.inl rfl), fuseBypassRun_of_service (s := mgmtHeard s) ready service, blowFuse_eq, footCommand,
    keepAssign_coreFused n a _ s _ rfl]
  rfl

/-- Settles O46: by the state in which the wipe of a transition runs, and by what each RESET, the self-test and a blown fuse do. -/
theorem transitionsAndResets : Obligations.TransitionsAndResets := by
  unfold Obligations.TransitionsAndResets
  refine ⟨fun s q fresh idle may c hc src => ?_, fun s q fresh ready => ?_⟩
  · refine ⟨_, lifeCycleCommands_begin fresh idle may hc src, rfl, rfl, rfl, rfl, rfl, rfl, rfl, rfl, fun n => ?_, rfl, rfl, rfl, rfl, rfl,
      rfl, rfl, rfl, rfl, rfl, rfl, rfl, fun p => ?_, fun n => ?_, fun i => ?_⟩
    · exact transitionBegun_session _ _ _ _ n
    · exact transitionBegun_part _ _ _ _ p
    · have core := transitionBegun_core c.2.1 q c.2.2.2 s n
      exact ⟨congrArg CoreSt.part core, congrArg CoreSt.store core⟩
    · have port := transitionBegun_port c.2.1 q c.2.2.2 s i
      exact ⟨congrArg PortSt.st port, congrArg PortSt.keys port⟩
  · intro u
    refine ⟨fun h => ?_, fun i down => ?_, fun rare => ?_, fun m service idle => ?_, fun n a k service => ?_⟩
    · have goes : (cmdOpen s && q != 0 && q != s.cc.lastSeq && (resetColdRun s).1 == 0) = true := by
        rw [resetColdRun_of_ready ready h, fresh.phase, bne_iff_ne.mpr fresh.seq0, bne_iff_ne.mpr fresh.new]
        rfl
      change Host.Outcome.next (if _ then coldReset (footQuery s (mgmt 0x50 q (cmdOpen s) false resetColdRun s)) else _) = _
      rw [if_pos goes, mgmt_of_fresh fresh (.inl rfl), resetColdRun_of_ready (s := mgmtHeard s) ready h]
      rfl
    · have frame := portReset_frame (s := mgmtHeard s) down
      obtain ⟨x, r, own, trains⟩ := portReset_own (s := mgmtHeard s) down
      refine ⟨_, next_mgmt fresh (.inl rfl) (resetPortRun_of_ready (s := mgmtHeard s) ready) (congrArg State.pending frame :)
          (congrArg State.nv frame :) (congrArg State.sec frame :) (congrArg State.cores frame :) (congrArg State.epoch frame :),
        List.mem_append_right _ (List.mem_singleton_self _), congrArg PortSt.keys own, congrArg PortSt.replay own, fun v => ?_,
        fun en inBox plan => (congrArg PortSt.st own).trans (trains en inBox plan), fun j hj => ?_, (congrArg State.parts frame :),
        (congrArg State.cores frame :), (congrArg State.hbm frame :), (congrArg State.sec frame :), (congrArg (fun t => t.mc.step) frame :)⟩
      · exact (congrArg (fun p => p.rxq[v]) own).trans (Vector.getElem_replicate v.isLt)
      · have other := portReset_other (s := mgmtHeard s) down hj
        exact ⟨congrArg PortSt.st other, congrArg PortSt.keys other, congrArg PortSt.replay other, congrArg PortSt.rxq other⟩
    · obtain ⟨k, goes, restarting, cause, phase, -⟩ := restart_goes 6 (mgmtHeard s) (by rw [mgmtHeard, raiseInt_cc]; omega)
        (by rw [mgmtHeard, raiseInt_cc]; omega) rare
      have run : resetRestartRun (mgmtHeard s) = (0, [], chipLog 0x14 .event 0 0 6 0 { mgmtHeard s with cc := k }) := by
        rw [resetRestartRun_of_ready (s := mgmtHeard s) ready, goes]
        rfl
      exact ⟨_, next_mgmt fresh (.inl rfl) run rfl rfl rfl rfl rfl, List.mem_append_right _ (List.mem_singleton_self _), restarting, cause,
        phase.trans ready, rfl, rfl, rfl, rfl, rfl⟩
    · exact asked_of_query rfl _ (by rw [mgmt_of_fresh fresh (.inr idle), selftest_noted (notService_eq_false ready service)]) rfl
    · have fused := exec_fuseBypass_of_service (n := n) (a := a) (k := k) fresh ready service
      rw [blowFuse_eq] at fused
      have own := vmod_same s.cores n (coreFused a (fuseBypass (withFuse s.nv.bypass (Fin.ofNat 256 (4 * n.val + a.val), k)) (4 * n.val + a.val)))
      refine ⟨_, fused, rfl, mem_withFuse _ _, withFuse_extends _ _, (congrArg CoreSt.byp own :), ?_, fun b hb => ?_, fun m hm => ?_, rfl⟩
      · exact (congrArg (fun c => c.bypNext[a]) own).trans (vmod_same _ a _)
      · exact (congrArg (fun c => c.bypNext[b]) own).trans (vmod_other _ a _ b b.isLt fun e => hb (Fin.ext e.symm))
      · exact vmod_other _ n _ m m.isLt fun e => hm (Fin.ext e.symm)

end Sys2Proof.Machine
end

section
/-!
PROOFS. Cold bring-up up to the image: the phases of Table CTRL-9, the end of the Autumn wipe, and the verification of a staged image
(R378, R383, R387, R388, R390, R402 to R404, R414).
-/

namespace Sys2Proof.Machine

/-! ### The phases of Table CTRL-9 (R414, R415) -/

theorem phaseEnd_of_eq {now next : Nat} {s : State} (h : s.cc.bootph = now) (act : State → State) :
    phaseEnd now next act s = act { s with cc := { s.cc with bootph := next } } := if_pos h

/-- What bring-up leaves of a state that keeps the cores and a transition under way and does not lower SVN_MIN. -/
theorem footBoot_of {s t : State} (cores : t.cores = s.cores) (lc : t.sec.pendLc = s.sec.pendLc) (rises : s.nv.svnMin ≤ t.nv.svnMin) :
    footBoot s t = { s with
      out := t.out, freeIx := t.freeIx, cc := t.cc, sec := t.sec, regs := t.regs, mc := t.mc, plane := t.plane, ports := t.ports,
      run := t.run, err := t.err, nv := { s.nv with svnMin := t.nv.svnMin, lastFatal := t.nv.lastFatal } } := by
  rw [footBoot, keepAssign_cores s t cores, keepLc_sec s t lc, max_eq_right rises]

theorem firmwareStart_frame {s : State} (h : s.cc.bootph = 7) : firmwareStart s =
    { s with cc := { s.cc with bootph := 8 }, plane := (firmwareStart s).plane, out := (firmwareStart s).out } := by
  rw [firmwareStart, phaseEnd_of_eq h]
  exact strapCoord_frame _

theorem firmwareStart_rwl {s : State} (h : s.cc.bootph = 7) : (firmwareStart s).plane.rwl =
    if s.nv.lc = .operational ∨ s.nv.lc = .service then s.nv.prov.getD {} else s.plane.rwl := by
  rw [firmwareStart, phaseEnd_of_eq h]
  exact strapCoord_rwl _

theorem loadBypass_core (s : State) (n : CoreIx) : (loadBypass s).cores[n].part = s.cores[n].part ∧
    ∀ a : Fin 4, (loadBypass s).cores[n].byp[a] = fuseBypass s.nv.bypass (4 * n.val + a.val) ∧
      (loadBypass s).cores[n].bypNext[a] = (loadBypass s).cores[n].byp[a] := by
  simp [loadBypass]

/-! ### The end of the Autumn wipe (R378, R383, R387, R388, R390) -/

/-- The end of the wipe before a transition commits: ZKEY drawn, the wipe counted, the phase of a cold bring-up ended. -/
def wipeCounted (s : State) : State :=
  raiseInt 2 0 { s with
    sec := { s.sec with wiping := false, zkey := some (Config.free 512 s.freeIx) }
    nv := { s.nv with wipes := satAdd cnt16Max s.nv.wipes 1 }
    freeIx := s.freeIx + 1
    cc := { s.cc with bootph := if s.cc.bootph == 4 then 5 else s.cc.bootph } }

/-- The transition that waited for the end of the wipe takes effect. -/
def transitionEnds (d : LifeCycle) (s : State) : State :=
  strapCoord (endPending (fun w => match w with | .transition _ => true | _ => false) 0
    (commitLc d { s with sec := { s.sec with pendLc := none } }))

theorem wipeEnd_eq {s : State} (wiping : s.sec.wiping = true) (h4 : 4 ≤ s.cc.bootph) (h8 : s.cc.bootph ≤ 8) :
    wipeEnd s = match s.sec.pendLc with
      | some d => transitionEnds d (wipeCounted s)
      | none => wipeCounted s := by
  unfold wipeEnd
  dsimp only
  rw [if_neg (by rw [wiping]; simp; omega)]
  rfl

/-- A transition that commits enters its state, and changes what the store keeps of its owner, and the RWL fields. -/
theorem commitLc_frame (d : LifeCycle) (s : State) : commitLc d s = { s with
    nv := { s.nv with lc := d, prov := (commitLc d s).nv.prov, provCount := (commitLc d s).nv.provCount, idkey := (commitLc d s).nv.idkey }
    plane := { s.plane with rwl := (commitLc d s).plane.rwl } } := by
  cases d with
  | blank | service | retired => rfl
  | provisioned | operational =>
    unfold commitLc
    dsimp only
    split <;> rfl

/-- The provisioning record ends with the way back to BLANK or PROVISIONED. -/
theorem commitLc_prov_none {d : LifeCycle} {s : State} (h : d = .blank ∨ (d = .provisioned ∧ s.nv.lc ≠ .blank)) :
    (commitLc d s).nv.prov = none := by
  obtain rfl | ⟨rfl, back⟩ := h
  · rfl
  · rw [commitLc]
    dsimp only
    rw [if_neg back]

/-- COMMISSION writes the RWL fields into the provisioning record (R387). -/
theorem commitLc_prov_some {s : State} (h : s.nv.lc = .provisioned) : (commitLc .operational s).nv.prov = some s.plane.rwl := by
  rw [commitLc]
  dsimp only
  rw [if_pos h]

theorem commitLc_operational_rwl (s : State) : (commitLc .operational s).plane.rwl = s.plane.rwl := by
  unfold commitLc
  dsimp only
  split <;> rfl

theorem endPending_frame (sel : PendWork → Bool) (n : Nat) (s : State) :
    endPending sel n s = { s with cc := { s.cc with
      pendCmd := (endPending sel n s).cc.pendCmd, pendLast := (endPending sel n s).cc.pendLast } } := by
  unfold endPending
  split
  · split <;> rfl
  · rfl

/-- A transition that takes effect changes the store, its PENDING command, and the plane. -/
theorem transitionEnds_frame (d : LifeCycle) (s : State) : transitionEnds d s = { s with
    nv := (commitLc d { s with sec := { s.sec with pendLc := none } }).nv
    sec := { s.sec with pendLc := none }
    cc := { s.cc with pendCmd := (transitionEnds d s).cc.pendCmd, pendLast := (transitionEnds d s).cc.pendLast }
    plane := (transitionEnds d s).plane, out := (transitionEnds d s).out } := by
  have coord := strapCoord_frame
    (endPending (fun w => match w with | .transition _ => true | _ => false) 0 (commitLc d { s with sec := { s.sec with pendLc := none } }))
  rw [transitionEnds, coord, endPending_frame, commitLc_frame]

theorem transitionEnds_pendCmd (d : LifeCycle) (s : State) : (transitionEnds d s).cc.pendCmd =
    match s.cc.pendCmd with
    | some (_, _, .transition _) => none
    | w => w := by
  have cc : (transitionEnds d s).cc =
      (endPending (fun w => match w with | .transition _ => true | _ => false) 0 (commitLc d { s with sec := { s.sec with pendLc := none } })).cc := by
    rw [transitionEnds, strapCoord_frame]
  have kept : (commitLc d { s with sec := { s.sec with pendLc := none } }).cc = s.cc := by rw [commitLc_frame]
  rw [cc, endPending, kept]
  rcases h : s.cc.pendCmd with _ | ⟨c, q, w⟩
  · exact (congrArg Cc.pendCmd kept).trans h
  · cases w with
    | transition => rfl
    | _ => exact (congrArg Cc.pendCmd kept).trans h

/-- The end of the wipe: ZKEY is drawn, nothing waits any more. -/
theorem wipeEnd_sec {s : State} (wiping : s.sec.wiping = true) (h4 : 4 ≤ s.cc.bootph) (h8 : s.cc.bootph ≤ 8) :
    (wipeEnd s).sec = { s.sec with wiping := false, zkey := some (Config.free 512 s.freeIx), pendLc := none } := by
  rw [wipeEnd_eq wiping h4 h8]
  cases h : s.sec.pendLc with
  | none =>
    change { s.sec with wiping := false, zkey := some (Config.free 512 s.freeIx) } = { s.sec with wiping := false, zkey := some (Config.free 512 s.freeIx), pendLc := none }
    rw [← h]
  | some d =>
    dsimp only
    rw [transitionEnds_frame]
    rfl

theorem wipeEnd_wipes {s : State} (wiping : s.sec.wiping = true) (h4 : 4 ≤ s.cc.bootph) (h8 : s.cc.bootph ≤ 8) :
    (wipeEnd s).nv.wipes = min 0xFFFE (s.nv.wipes + 1) := by
  rw [wipeEnd_eq wiping h4 h8]
  cases h : s.sec.pendLc with
  | none => rfl
  | some d =>
    dsimp only
    rw [transitionEnds_frame]
    exact (congrArg (fun u => u.nv.wipes) (commitLc_frame d _) :)

/-- Of the control core the end of the wipe changes the phase of a cold bring-up and the PENDING command of a transition. -/
theorem wipeEnd_cc {s : State} (wiping : s.sec.wiping = true) (h4 : 4 ≤ s.cc.bootph) (h8 : s.cc.bootph ≤ 8) :
    (wipeEnd s).cc = { s.cc with
      bootph := if s.cc.bootph = 4 then 5 else s.cc.bootph
      pendCmd := (wipeEnd s).cc.pendCmd, pendLast := (wipeEnd s).cc.pendLast } := by
  have phase : (wipeCounted s).cc = { s.cc with bootph := if s.cc.bootph = 4 then 5 else s.cc.bootph } := by
    rw [wipeCounted]
    simp
  rw [wipeEnd_eq wiping h4 h8]
  cases h : s.sec.pendLc with
  | none =>
    dsimp only
    rw [phase]
  | some d =>
    dsimp only
    rw [transitionEnds_frame, phase]

/-- The RWL_WRITEs that waited for the end of the wipe. -/
def rwlAnswered (l : List (BitVec 16 × Byte × BitVec 16 × Word)) (s : State) : State :=
  l.foldl (fun s x => mgmt 0x04 x.1 (cmdOpen s) false (rwlWriteRun x.2.1.toNat x.2.2.1.toNat x.2.2.2) s) s

theorem rwlAnswered_kept (l : List (BitVec 16 × Byte × BitVec 16 × Word)) (s : State) : RwlKept s (rwlAnswered l s) := by
  induction l generalizing s with
  | nil => rfl
  | cons x l ih => exact (mgmt_rwlWrite_kept x.1 (cmdOpen s) _ _ _ s).trans (ih _)

/-- The end of the wipe with no RWL_WRITE waiting any more. -/
def heldTaken (s : State) : State := { wipeEnd s with cc := { (wipeEnd s).cc with rwlHeld := [] } }

theorem wipeAnswered_eq {s : State} (wiping : s.sec.wiping = true) (h4 : 4 ≤ s.cc.bootph) (h8 : s.cc.bootph ≤ 8) :
    wipeAnswered s = rwlAnswered s.cc.rwlHeld (heldTaken s) := by
  have ended : ¬ (s.sec.wiping = false ∨ (wipeEnd s).sec.wiping = true) := by
    rw [wiping, wipeEnd_sec wiping h4 h8]
    simp
  have held : (wipeEnd s).cc.rwlHeld = s.cc.rwlHeld := (congrArg Cc.rwlHeld (wipeEnd_cc wiping h4 h8) :)
  rw [wipeAnswered]
  dsimp only
  rw [if_neg ended, held]
  rfl

theorem wipeEnd_of_idle {s : State} (wiping : s.sec.wiping = true) (h4 : 4 ≤ s.cc.bootph) (h8 : s.cc.bootph ≤ 8)
    (idle : s.sec.pendLc = none) : wipeEnd s = wipeCounted s := by rw [wipeEnd_eq wiping h4 h8, idle]

theorem wipeEnd_of_transition {s : State} {d : LifeCycle} (wiping : s.sec.wiping = true) (h4 : 4 ≤ s.cc.bootph) (h8 : s.cc.bootph ≤ 8)
    (waits : s.sec.pendLc = some d) : wipeEnd s = transitionEnds d (wipeCounted s) := by rw [wipeEnd_eq wiping h4 h8, waits]

/-- The store after a transition. -/
theorem transitionEnds_nv (d : LifeCycle) (s : State) :
    (transitionEnds d s).nv = (commitLc d { s with sec := { s.sec with pendLc := none } }).nv := by rw [transitionEnds_frame]

/-- COMMISSION and RETURN keep the RWL fields. -/
theorem transitionEnds_operational_rwl (s : State) : (transitionEnds .operational s).plane.rwl = s.plane.rwl := by
  rw [transitionEnds, strapCoord_rwl, endPending_frame]
  exact commitLc_operational_rwl _

section
variable {s t : State} (h : RwlKept s t)
include h

theorem RwlKept.sec : t.sec = s.sec := by
  rw [RwlKept] at h
  rw [h]

theorem RwlKept.nv : t.nv = s.nv := by
  rw [RwlKept] at h
  rw [h]

theorem RwlKept.cc : t.cc = { s.cc with lastSeq := t.cc.lastSeq, lastRsp := t.cc.lastRsp } := by
  rw [RwlKept] at h
  rw [h]

end

/-- At the end of the wipe a request that waited is carried out. -/
theorem heldTaken_fresh {q : BitVec 16} {s : State} (wiping : s.sec.wiping = true) (h5 : 5 ≤ s.cc.bootph) (h8 : s.cc.bootph ≤ 8)
    (h0 : q ≠ 0) (new : q ≠ s.cc.lastSeq) : MgmtFresh q (heldTaken s) := by
  have h4 : 4 ≤ s.cc.bootph := by omega
  have cc := wipeEnd_cc wiping h4 h8
  have phase : (heldTaken s).cc.bootph = s.cc.bootph := (congrArg Cc.bootph cc).trans (if_neg (by omega))
  have ended : (heldTaken s).sec.wiping = false := (congrArg Sec.wiping (wipeEnd_sec wiping h4 h8) :)
  have last : (heldTaken s).cc.lastSeq = s.cc.lastSeq := (congrArg Cc.lastSeq cc :)
  refine ⟨?_, h0, by rw [last]; exact new⟩
  rw [cmdOpen, phase, ended, decide_eq_true ⟨h5, h8⟩]
  rfl

/-- An RWL_WRITE in OPERATIONAL is refused with STATE (R12). -/
theorem rwlAnswered_operational {q : BitVec 16} {w : Word} {s : State} (fresh : MgmtFresh q s) (lc : s.nv.lc = .operational) :
    rwlAnswered [(q, 4, 0x3C, w)] s = mgmtSaid 4 q 1 [] (mgmtHeard s) := by
  have closed : rwlOpen (mgmtHeard s) = false := by rw [rwlOpen, mgmtHeard_nv, lc]; rfl
  have run : rwlWriteRun 4 0x3C w (mgmtHeard s) = (1, [], mgmtHeard s) := by
    rw [rwlWriteRun, answer_next (by decide), answer_next (by decide), answer_first (by rw [closed]; rfl)]
  change mgmt 4 q (cmdOpen s) false (rwlWriteRun 4 0x3C w) s = _
  rw [mgmt_of_fresh fresh (.inl rfl), run]

/-! ### The verification of an image (R402, R403) -/

/-- The status of a staged image: FORMAT before INTEGRITY. -/
def imageStatus (s : State) : Nat :=
  if imageFormat (slotBytes s) = false then 5 else if imageIntegrity s (slotBytes s) = false then 4 else 0

/-- The FW_END under way ends with a status. -/
def fwEnded (c : Nat) (q : BitVec 16) (s : State) : State :=
  { s with cc := { s.cc with pendCmd := none, pendLast := (c, q, imageStatus s) } }

theorem imageVerify_eq {c : Nat} {q : BitVec 16} {s : State} (h : s.cc.pendCmd = some (c, q, .fwEnd)) :
    imageVerify s =
      if imageStatus s ≠ 0 then { fwEnded c q s with cc :=
        { emptySlot (fwEnded c q s).cc with bootph := if s.cc.bootph = 6 then 5 else s.cc.bootph } }
      else if s.cc.bootph = 6 then { activate (imageOf (slotBytes s)) (fwEnded c q s) with cc :=
        { (activate (imageOf (slotBytes s)) (fwEnded c q s)).cc with bootph := 7 } }
      else { fwEnded c q s with cc := { (fwEnded c q s).cc with slotSt := .pending, slotImage := some (imageOf (slotBytes s)) } } := by
  have status : (if !imageFormat (slotBytes s) then 5 else if !imageIntegrity s (slotBytes s) then 4 else 0) = imageStatus s := by
    simp [imageStatus]
  rw [imageVerify, h]
  dsimp only
  rw [status, endPending, h]
  rfl

/-- Settles O5: by what the event of each phase does, by the end of the wipe with the transition that it commits, and by the three ways
in which an FW_END is decided. -/
theorem coldBringUp : Obligations.ColdBringUp := by
  unfold Obligations.ColdBringUp
  refine ⟨⟨fun s => rfl, fun s h => ?_, fun straps s h => ?_, fun d s h => ?_, fun s h => ?_, fun k s h => ?_, fun s h => ?_⟩,
    fun s wiping h4 h8 => ?_, fun s c q h => ?_⟩
  · change Host.Outcome.next (footBoot s (phaseEnd 0 1 _ s)) = _
    rw [phaseEnd_of_eq h]
    exact congrArg _ (footBoot_of rfl rfl le_rfl)
  · change ∃ t, Host.Outcome.next { s with
      cc := (fuseLoad straps s).cc, plane := (fuseLoad straps s).plane, cores := (fuseLoad straps s).cores } = .next t ∧ _
    rw [fuseLoad, phaseEnd_of_eq h]
    exact ⟨_, rfl, rfl, loadBypass_core _⟩
  · change Host.Outcome.next (footBoot s (phaseEnd 2 3 _ s)) = _
    rw [phaseEnd_of_eq h]
    exact congrArg _ (footBoot_of rfl rfl le_rfl)
  · change Host.Outcome.next (footBoot s (phaseEnd 3 4 _ s)) = _
    rw [phaseEnd_of_eq h]
    exact congrArg _ (footBoot_of rfl rfl le_rfl)
  · change Host.Outcome.next (footBoot s (phaseEnd 3 9 _ s)) = _
    rw [phaseEnd_of_eq h]
    exact congrArg _ (footBoot_of rfl rfl le_rfl)
  · have rwl := firmwareStart_rwl h
    change ∃ t, Host.Outcome.next (footBoot s (firmwareStart s)) = .next t ∧ _
    rw [firmwareStart_frame h]
    exact ⟨_, congrArg _ (footBoot_of rfl rfl le_rfl), rfl, rwl⟩
  · have kept := rwlAnswered_kept s.cc.rwlHeld (heldTaken s)
    rw [← wipeAnswered_eq wiping h4 h8] at kept
    have sec := kept.sec.trans (wipeEnd_sec wiping h4 h8)
    have cc := kept.cc
    have phase : (wipeAnswered s).cc.bootph = if s.cc.bootph = 4 then 5 else s.cc.bootph :=
      (congrArg Cc.bootph cc).trans (congrArg Cc.bootph (wipeEnd_cc wiping h4 h8) :)
    refine ⟨_, rfl, rfl, (congrArg Sec.wiping sec :), (congrArg Sec.zkey sec :),
      (congrArg Nv.wipes kept.nv).trans (wipeEnd_wipes wiping h4 h8), phase, (congrArg Sec.pendLc sec :), fun idle => ?_, fun d waits => ?_⟩
    · have nv : (wipeAnswered s).nv = (wipeCounted s).nv := kept.nv.trans (congrArg State.nv (wipeEnd_of_idle wiping h4 h8 idle) :)
      exact ⟨(congrArg Nv.lc nv :), (congrArg Nv.prov nv :), (congrArg Nv.idkey nv :)⟩
    · have ends := wipeEnd_of_transition wiping h4 h8 waits
      have nv := kept.nv.trans ((congrArg State.nv ends :).trans (transitionEnds_nv d (wipeCounted s)))
      have lc := (congrArg Nv.lc nv).trans (congrArg (fun u => u.nv.lc) (commitLc_frame d _) :)
      refine ⟨lc, (congrArg Cc.pendCmd cc).trans ((congrArg (fun u => u.cc.pendCmd) ends).trans (transitionEnds_pendCmd d _)), ?_, ?_, ?_,
        (congrArg Cc.rwlHeld cc :), ?_⟩
      · rintro rfl
        exact ⟨(congrArg Nv.idkey nv :), (congrArg Nv.prov nv :)⟩
      · exact fun h => (congrArg Nv.prov nv).trans (commitLc_prov_none h)
      · rintro rfl was
        exact (congrArg Nv.prov nv).trans (commitLc_prov_some was)
      · rintro q w one h0 new h5 rfl
        have answered : wipeAnswered s = mgmtSaid 4 q 1 [] (mgmtHeard (heldTaken s)) := by
          rw [wipeAnswered_eq wiping h4 h8, one,
            rwlAnswered_operational (heldTaken_fresh wiping h5 h8 h0 new) ((congrArg Nv.lc kept.nv).symm.trans lc)]
        change _ ∈ (wipeAnswered s).out ∧ (wipeAnswered s).plane.rwl = s.plane.rwl
        rw [answered]
        exact ⟨List.mem_append_right _ (List.mem_singleton_self _),
          (congrArg (fun u => u.plane.rwl) ends).trans (transitionEnds_operational_rwl _)⟩
  · change ∃ t, Host.Outcome.next (footBoot s (imageVerify s)) = .next t ∧ _
    rw [imageVerify_eq h]
    by_cases refused : imageStatus s ≠ 0
    · rw [if_pos refused]
      refine ⟨_, congrArg _ (footBoot_of rfl rfl le_rfl), rfl, rfl, rfl, ?_⟩
      change ite (imageStatus s ≠ 0) _ _
      rw [if_pos refused]
      exact ⟨rfl, rfl, rfl, rfl, rfl⟩
    · rw [if_neg refused]
      by_cases rom : s.cc.bootph = 6
      · rw [if_pos rom]
        refine ⟨_, congrArg _ (footBoot_of rfl rfl (le_max_left _ _)), rfl, rfl, rfl, ?_⟩
        change ite (imageStatus s ≠ 0) _ _
        rw [if_neg refused, if_pos rom]
        exact ⟨rfl, rfl, rfl, rfl⟩
      · rw [if_neg rom]
        refine ⟨_, congrArg _ (footBoot_of rfl rfl le_rfl), rfl, rfl, rfl, ?_⟩
        change ite (imageStatus s ≠ 0) _ _
        rw [if_neg refused, if_neg rom]
        exact ⟨rfl, rfl, rfl, rfl⟩

end Sys2Proof.Machine
end

section
/-!
PROOFS. The agreement on the March: what a message that passes the receive checks leaves, the March control messages, and the barrier
(R132, R309, R314, R321, R348, R350).
-/

namespace Sys2Proof.Machine

/-! ### A message that passes the receive checks -/

theorem takeMsg_of_receive {kind : Nat} {m : Msg} {s t : State} (hk : mKind m = kind) (here : notHere m s = false)
    (ok : receive m s = .ok t) (act : State → State) : takeMsg kind m act s = act t := by
  rw [takeMsg, if_pos (.inl hk), here, ok]
  rfl

/-- A flood that goes on sends and changes nothing else. -/
theorem floodFrom_frame (a : Option PortIx) (m : Msg) (s : State) :
    floodFrom a m s = { s with out := (floodFrom a m s).out, ports := (floodFrom a m s).ports } := by
  unfold floodFrom
  dsimp only
  split
  · split
    · exact floodOn_frame _ m s
    · exact sendAll_frame _ _ m s
  · exact floodOn_frame _ m s

theorem takeFlood_of_receive {kind : Nat} {m : Msg} {s t : State} (hk : mKind m = kind) (here : notHere m s = false)
    (ok : receive m s = .ok t) (act : State → State) : ∃ o p, takeFlood kind m act s = act { t with out := o, ports := p } := by
  rw [takeFlood, takeMsg_of_receive hk here ok]
  split
  · exact ⟨t.out, t.ports, rfl⟩
  · exact ⟨_, _, congrArg act (floodFrom_frame _ m t)⟩

/-- Freed flits change the ports alone. -/
theorem checked_frame (m : Msg) (s : State) :
    checked m s = { s with ports := (checked m s).ports, plane := (checked m s).plane } := by
  unfold checked freeFlits
  split <;> rfl

/-! ### The March control messages (R309, R314, R321) -/

/-- A March control message of its TYPE, once received: sent on as a flood, then its effect. -/
theorem takeMarch_of_checked {m : Msg} {s : State} (h : MsgChecked m s) (hk : mKind m = 6) (act : State → State) :
    ∃ o p, takeMarch (marchType m) m act s = act { s with out := o, ports := p, plane := (checked m s).plane } := by
  obtain ⟨o, p, e⟩ := takeFlood_of_receive hk h.here (receive_checked m s h (by omega)) act
  rw [checked_frame] at e
  exact ⟨o, p, by rw [takeMarch, if_neg fun c => c.2 rfl, e]⟩

theorem takeLate_eq (m : Msg) (s : State) : takeLate m s = { s with
    mc := if s.mc.tick.toNat ≤ s.mc.sNext ∧ mSrc m ∉ s.mc.lates then { s.mc with lates := s.mc.lates ++ [mSrc m] } else s.mc } := by
  have same : (s.mc.lates.contains (mSrc m) = false) ↔ mSrc m ∉ s.mc.lates := by simp
  simp only [takeLate, same]
  split <;> rfl

/-- A NOTICE passes the checks from a refused neighbour and after its boundary too (log entry 130). -/
theorem receive_notice {m : Msg} {s : State} {pl : Plan} (plan : s.plane.plan = some pl) (box : inBox pl (mSrc m) = true)
    (cut : isCut s pl (mSrc m) = false) (fence : fencedOrCut s = false) (epoch : mEpoch m = epochNum s) (kind : mKind m = 6)
    (typ : marchType m = 3) (step : (mStep m).toNat ≤ s.mc.step.toNat) (fresh : msgKey m ∉ s.plane.seen) :
    receive m s = .ok (checked m s) := by
  have cut' : isCut (freeFlits m s) pl (mSrc m) = false := by simpa [isCut] using cut
  have fence' : fencedOrCut (freeFlits m s) = false := by simpa [fencedOrCut, isCut] using fence
  have step' : mStep m ≠ s.mc.step → lateNotice m (freeFlits m s) = true := fun e => by
    have ne : (mStep m).toNat ≠ s.mc.step.toNat := fun c => e (BitVec.eq_of_toNat_eq c)
    have past : (mStep m).toNat < s.mc.step.toNat := by omega
    simp [lateNotice, kind, typ, past]
  simp [receive, plan, box, cut', fence', epoch, epochNum, kind, typ, fresh, checked]
  exact step'

theorem recvNotice_of_receive {m : Msg} {s : State} (hk : mKind m = 6) (typ : marchType m = 3) (here : notHere m s = false)
    (ok : receive m s = .ok (checked m s)) :
    ∃ o p, recvNotice m s = takeNotice m { s with out := o, ports := p, plane := (checked m s).plane } := by
  rw [recvNotice, if_neg fun c => c.2 typ]
  split
  · obtain ⟨o, p, e⟩ := takeFlood_of_receive hk here ok (takeNotice m)
    rw [checked_frame] at e
    exact ⟨o, p, e⟩
  · rw [takeMsg_of_receive hk here ok, checked_frame]
    exact ⟨s.out, _, rfl⟩

/-! ### The barrier (R132, R309) -/


/-- The state in which a chip arrives at the barrier. -/
def atBarrier (s : State) : State :=
  { s with mc := { s.mc with arrived := some s.mc.tick.toNat }
           run := { s.run with acted := 6, ptr := if s.run.void = 0 then tabMod 0 s.run.ptr 215 (· + 1) else s.run.ptr } }

theorem arrive_of_ready {s : State} (h : marchReady s = true) : arrive s =
    if s.mc.ownLate = true then floodMarch 1 s.mc.step s.mc.tick.toNat { atBarrier s with
      mc := { (atBarrier s).mc with dones := s.mc.dones ++ [(s.plane.coord, s.mc.tick.toNat)] } }
    else atBarrier s := by
  rw [arrive, h]
  rfl

/-- A March control message that leaves as a flood sends and changes nothing else. -/
theorem floodMarch_frame (typ : Nat) (step : BitVec 64) (value : Nat) (s : State) :
    floodMarch typ step value s = { s with out := (floodMarch typ step value s).out, ports := (floodMarch typ step value s).ports } :=
  floodOn_frame none _ (send _ s)

/-- Settles O9: by what each March control message does once it is received, and by the two floods of a chip at the barrier. -/
theorem marchAgreed : Obligations.MarchAgreed := by
  unfold Obligations.MarchAgreed
  refine ⟨⟨fun m s h hk => ⟨fun typ => ?_, fun typ => ?_, fun typ => ?_⟩, 
    fun m s pl plan box cut fence here epoch kind typ step fresh => ?_⟩,
    fun s h => ?_, fun s h => ?_, fun s isOpen out notLate due fatal => ?_⟩
  · obtain ⟨o, p, e⟩ := takeMarch_of_checked h hk (takeLate m)
    rw [typ, takeLate_eq] at e
    exact ⟨_, congrArg (fun t => Host.Outcome.next (footSync s t)) e, rfl⟩
  · obtain ⟨o, p, e⟩ := takeMarch_of_checked h hk (takeDone m)
    rw [typ] at e
    exact ⟨_, congrArg (fun t => Host.Outcome.next (footSync s t)) e, rfl⟩
  · obtain ⟨o, p, e⟩ := takeMarch_of_checked h hk (takeSync m)
    rw [typ] at e
    exact ⟨_, congrArg (fun t => Host.Outcome.next (footSync s t)) e, rfl⟩
  · obtain ⟨o, p, e⟩ := recvNotice_of_receive kind typ here (receive_notice plan box cut fence epoch kind typ step fresh)
    exact ⟨_, congrArg (fun t => Host.Outcome.next (footSync s t)) e, rfl⟩
  · have e := arrive_of_ready h
    cases late : s.mc.ownLate
    · rw [late] at e
      exact ⟨_, congrArg (fun t => Host.Outcome.next (footSync s t)) e, rfl, rfl, fun _ => ⟨rfl, rfl⟩, nofun⟩
    · rw [late, if_pos rfl, floodMarch_frame] at e
      refine ⟨_, congrArg (fun t => Host.Outcome.next (footSync s t)) e, rfl, rfl, nofun, fun _ => flood_out 6 1 _ _⟩
  · exact congrArg (fun t => Host.Outcome.next (footSync s t)) (show arrive s = s by rw [arrive, h]; rfl)
  · have e : deadline s = _ := if_pos ⟨isOpen, out, notLate, due, by rw [fatal]; rfl⟩
    rw [floodMarch_frame] at e
    exact ⟨_, congrArg (fun t => Host.Outcome.next (footSync s t)) e, rfl, flood_out 6 0 _ _⟩

end Sys2Proof.Machine
end

section
/-!
PROOFS. The turn of a word: a queue with no word due, the plain words, and a reduction in flight that lands (R118 to R120, R132).
-/

namespace Sys2Proof.Machine

/-! ### A queue with no word due (R118, R119) -/

section

variable {q : Nat} {s : State}

theorem issueWord_idle (none : readyWord s q = none) (sel : IWord → Bool) (down : State → Bool)
    (work : Nat → IWord → State → Option State) : issueWord q sel down work s = s := by rw [issueWord, none]

theorem footWord_issueWord_idle (none : readyWord s q = none) (sel : IWord → Bool) (down : State → Bool)
    (work : Nat → IWord → State → Option State) : footWord s (issueWord q sel down work s) = s := by
  rw [issueWord_idle none, footWord_eq_self rfl]

theorem issueVec_idle {core : CoreIx} (none : readyWord s (64 + core.val) = none) (op : Nat)
    (work : Nat → IWord → State → Option State) : issueVec core op work s = s := footWord_issueWord_idle none _ _ _

theorem issueIn_idle {f : FaceIx} (none : readyWord s (200 + f.val) = none) (kind : Nat)
    (work : Nat → IWord → State → Option State) : issueIn f kind work s = s := by
  rw [issueIn, issuePlain, issueWord_idle (q := faceInQueue f) none, noteLate, show readyWord s (faceInQueue f) = Option.none from none,
    footWord_eq_self rfl]

theorem reduceRun_idle {c : ClusterIx} (none : readyWord s (192 + c.val) = none) (idle : noFlight s (192 + c.val)) (dest : Nat)
    (give : Nat → ReduceWord → Seg → CoreIx → RedVectors → State → State) : reduceRun c dest give s = s := by
  rw [reduceRun, issueFlight, landFlight_eq_none idle, none, ite_self, footWord_eq_self rfl]

end

/-! ### NOP and WAIT (R120, R132) -/

theorem execNop_done {q : QueueIx} {s : State} {i : Nat} {w : IWord} (ready : readyWord s q.val = some (i, w)) (op : wOp w = 0) :
    exec (.nop q) s = .next { s with run := wordOver q.val i 0 w s.run } := by
  have done : issuePlain q.val (fun w => wOp w == 0x00) (fun i _ s => some (setStatus i 0 false s)) s = _ :=
    issueWord_done ready (by rw [op]; rfl) rfl rfl
  change Host.Outcome.next (footWord s _) = _
  rw [done, finishWord_setStatus, footWord_eq_self rfl]

/-- WAIT completes once its token's count has reached NEED. -/
def waitWork (i : Nat) (w : IWord) (s : State) : Option State :=
  if fld w 56 10 ≤ tabGet 0 s.run.tokens (fld w 46 10) then some (setStatus i 0 false s) else none

theorem exec_wait (q : QueueIx) (s : State) :
    exec (.wait q) s = .next (footWord s (issueWord q.val (fun w => wOp w == 0x01) (fun _ => false) waitWork s)) := rfl

/-! ### A reduction in flight (R119, R120) -/

theorem landFlight_of_single {q i : Nat} {s u : State} {p : Program} {sel : IWord → Bool} {work : Nat → IWord → State → Option State}
    (prog : s.run.prog = some p) (flight : s.run.flight = [(q, i)]) (hsel : sel (p.words.getD i 0) = true)
    (hw : work i (p.words.getD i 0) s = some u) : landFlight q sel work s = some (landWord q i (p.words.getD i 0) u) := by
  rw [landFlight, prog, flight]
  dsimp only [List.findSome?]
  rw [if_pos ⟨rfl, hsel⟩, hw]
  rfl

/-- A word in flight completes ahead of the queue's next word. -/
theorem issueFlight_lands {q : Nat} {s t : State} {sel : IWord → Bool} {down : State → Bool} {work : Nat → IWord → State → Option State}
    (isOpen : issueOpen s = true) (lands : landFlight q sel work s = some t) : issueFlight q sel down work s = t := by
  rw [issueFlight, isOpen, lands]
  rfl

/-- No DEST changes the block sums of a reduction. -/
theorem giveOf_reds (c : ClusterIx) (dest i : Nat) (r : ReduceWord) (sg : Seg) (vc : CoreIx) (l : RedVectors) (s : State) :
    (giveOf c dest i r sg vc l s).clusters[c].reds = s.clusters[c].reds := by
  match dest with
  | 0 =>
    rw [giveOf, giveQ_rest]
  | 1 => exact (congrArg ClusterSt.reds (vmod_same s.clusters c _) :)
  | 2 => rfl
  | _ + 3 => rfl

theorem reduceRun_lands {c : ClusterIx} {s : State} {i : Nat} {p : Program} {l : RedVectors} (isOpen : issueOpen s = true)
    (prog : s.run.prog = some p) (flight : s.run.flight = [(192 + c.val, i)]) (wf : tabWf [] s.clusters[c].reds = true) {dest : Nat}
    {w : IWord} (word : w = p.words.getD i 0) (op : wOp w = 0x40) (hd : (reduceWord w).dest = dest)
    (seg : (reduceWord w).seg < s.run.segs.length)
    (target : bitAt (slotOf s (s.run.segs.getD (reduceWord w).seg {}).slot).tmask (reduceWord w).target = true)
    (all : redAll s c i (reduceWord w) (s.run.segs.getD (reduceWord w).seg {}) = some l) :
    (reduceRun c dest (giveOf c dest) s).run.flight = [] ∧
      (reduceRun c dest (giveOf c dest) s).run.ptr = tabMod 0 s.run.ptr (192 + c.val) (· + 0) ∧
      (reduceRun c dest (giveOf c dest) s).run.tokens =
        (if wSet w = 0x3FF then s.run.tokens else tabMod 0 s.run.tokens (wSet w) (· + 1)) ∧
      tabGet [] (reduceRun c dest (giveOf c dest) s).clusters[c].reds (reduceWord w).rid = [] := by
  obtain ⟨code, -, s₁, u, start, done, hw⟩ := reduceWork_done (give := giveOf c dest) hd seg target all
  have units := unitsOnly_giveOf c dest i (reduceWord w) (s.run.segs.getD (reduceWord w).seg {}) (coreOf c (reduceWord w).vc) l s₁
  have kept := giveOf_reds c dest i (reduceWord w) (s.run.segs.getD (reduceWord w).seg {}) (coreOf c (reduceWord w).vc) l s₁
  generalize giveOf c dest i (reduceWord w) (s.run.segs.getD (reduceWord w).seg {}) (coreOf c (reduceWord w).vc) l s₁ = g at *
  have run : u.run = s.run :=
    (congrArg State.run done.rest).trans ((congrArg State.run units :).trans (congrArg State.run start.rest :))
  have reds : u.clusters[c].reds = tabSet [] s.clusters[c].reds (reduceWord w).rid [] := by
    rw [done.clusters, ← start.clusters, ← kept]
    exact congrArg ClusterSt.reds (vmod_same g.clusters c _)
  have sel : (wOp w == 0x40 && fld w 68 2 == dest) = true := by
    rw [op, ← hd]
    simp [reduceWord]
  subst word
  rw [reduceRun, issueFlight_lands isOpen (landFlight_of_single prog flight sel hw)]
  rw [← run] at flight ⊢
  refine ⟨?_, rfl, rfl, ?_⟩
  · change u.run.flight.erase _ = []
    rw [flight, List.erase_cons_head]
  · change tabGet [] u.clusters[c].reds _ = []
    rw [reds]
    exact tabGet_tabSet_wf [] _ _ _ 0 wf

/-- Settles O19: by the queue that has no word due, by the two plain words, and by the landing of a reduction. -/
theorem wordsIssueInTurn : Obligations.WordsIssueInTurn := by
  unfold Obligations.WordsIssueInTurn
  refine ⟨fun s core cl f q b => ⟨fun none => ?_, fun none => ?_, fun none => ?_, fun none => ⟨?_, fun idle => ?_⟩,
    fun none => ?_, fun none => ?_⟩,
    fun q s i w ready => ⟨fun op => execNop_done ready op, fun op count => ?_, fun op count => ?_⟩,
    fun cl s i p l isOpen prog flight wf => ?_⟩
  · have vec := issueVec_idle none
    have cvt : exec (.cvt core) s = .next s := congrArg _ (footWord_issueWord_idle none _ _ _)
    simp only [List.mem_cons, List.not_mem_nil, or_false, forall_eq_or_imp, forall_eq]
    exact ⟨congrArg _ (vec _ _), congrArg _ (vec _ _), congrArg _ (vec _ _), congrArg _ (vec _ _), congrArg _ (vec _ _),
      congrArg _ (vec _ _), congrArg _ (vec _ _), congrArg _ (vec _ _), congrArg _ (vec _ _), congrArg _ (vec _ _), cvt⟩
  · exact ⟨congrArg _ (footWord_issueWord_idle none _ _ _), congrArg _ (footWord_issueWord_idle none _ _ _)⟩
  · exact congrArg _ (footWord_issueWord_idle none _ _ _)
  · exact congrArg _ (footWord_issueWord_idle none _ _ _)
  · have reduce := reduceRun_idle none idle
    simp only [List.mem_cons, List.not_mem_nil, or_false, forall_eq_or_imp, forall_eq]
    exact ⟨congrArg _ (reduce _ _), congrArg _ (reduce _ _), congrArg _ (reduce _ _), congrArg _ (reduce _ _)⟩
  · have facein := issueIn_idle none
    simp only [List.mem_cons, List.not_mem_nil, or_false, forall_eq_or_imp, forall_eq]
    exact ⟨congrArg _ (facein _ _), congrArg _ (facein _ _), congrArg _ (facein _ _), congrArg _ (facein _ _), congrArg _ (facein _ _)⟩
  · exact ⟨congrArg _ (footWord_issueWord_idle none _ _ _), congrArg _ (footWord_issueWord_idle none _ _ _)⟩
  · rw [exec_wait, issueWord_done ready (by rw [op]; rfl) rfl (if_pos count), finishWord_setStatus, footWord_eq_self rfl]
  · rw [exec_wait, issueWord_held ready (by rw [op]; rfl) rfl (if_neg (by omega)), footWord_eq_self rfl]
  · intro w r sg op seg target all
    have lands (dest : Nat) (hd : r.dest = dest) := reduceRun_lands isOpen prog flight wf rfl op hd seg target all
    simp only [List.mem_cons, List.not_mem_nil, or_false, forall_eq_or_imp, forall_eq]
    exact ⟨fun hd => ⟨_, exec_reduceQ cl s, lands 0 hd⟩, fun hd => ⟨_, exec_reduceRcc cl s, lands 1 hd⟩,
      fun hd => ⟨_, exec_reduceU cl s, lands 2 hd⟩, fun hd => ⟨_, exec_reducePart cl s, lands 3 hd⟩⟩

end Sys2Proof.Machine
end

section
/-!
PROOFS. The exchange messages and XSEND: what an XRECV of the step awaits, what none names, and what leaves on the route (R154, R208,
R211, R213, R224, R226, R247, R248, R251, R253, R321, R348, R360, R412).
-/

namespace Sys2Proof.Machine

/-! ### The last of the receive checks: the word that awaits a message (R253, R348) -/

/-- A message that has passed the checks of Table PLANE-9 up to the word that awaits it. -/
def receiveFor (m : Msg) (s : State) : Except State State :=
  let ok : State := { s with plane := { s.plane with seen := s.plane.seen ++ [msgKey m] } }
  if mKind m = 4 ∧ s.run.isOpen = false then .ok ok
  else if mKind m ≤ 5 then
    match xrecvWord s (mSrc m) (mKind m) (mMsg m) with
    | none => .error (countStray m s)
    | some w =>
      if s.cores[xCore w].part ≠ (mPart m).val then
        .error (dropEntry 1 m { s with plane := { s.plane with partDrop := plane16 s.plane.partDrop } })
      else .ok ok
  else .ok ok

theorem receive_of_checked {m : Msg} {s : State} (h : MsgChecked m s) : receive m s = receiveFor m (freeFlits m s) := by
  obtain ⟨⟨pl, plan, box, cut⟩, -, fence, refused, epoch, kind, step, fresh⟩ := h
  have plane := freeFlits_plane m s
  have plan' : (freeFlits m s).plane.plan = some pl := by rw [plane, plan]
  have fence' : ¬ (fencedOrCut (freeFlits m s) && mKind m != 8 && mKind m != 9) = true := by
    have same : fencedOrCut (freeFlits m s) = fencedOrCut s := by simp [fencedOrCut, isCut]
    rcases fence with f | f | f <;> simp [f, same]
  have refused' : refusedSrc (freeFlits m s) (mSrc m) = false := by
    unfold refusedSrc at refused ⊢
    simp only [portOf, freeFlits_plane, freeFlits_mc] at refused ⊢
    split at refused <;> simp_all [freeFlits_ports]
  have cut' : isCut (freeFlits m s) pl (mSrc m) = false := by simpa [isCut] using cut
  have source : ¬ (!inBox pl (mSrc m) || isCut (freeFlits m s) pl (mSrc m) ||
      (refusedSrc (freeFlits m s) (mSrc m) && !(mKind m == 6 && marchType m == 3))) = true := by simp [box, cut', refused']
  have epoch' : ¬ mEpoch m ≠ epochNum (freeFlits m s) := by simp [epoch, epochNum]
  have step' : ¬ (decide (mKind m ≤ 7) && decide (mStep m ≠ (freeFlits m s).mc.step) && !lateNotice m (freeFlits m s)) = true := by
    by_cases q : mKind m ≤ 7
    · simp [step q]
    · simp [q]
  have fresh' : ¬ (freeFlits m s).plane.seen.contains (msgKey m) = true := by simpa [plane] using fresh
  rw [receive]
  dsimp only
  rw [plan']
  dsimp only
  rw [if_neg fence', if_neg source, if_neg epoch', if_neg (by omega), if_neg step', if_neg fresh', ← plan']
  rfl

theorem xrecvWord_freeFlits (m : Msg) (s : State) : xrecvWord (freeFlits m s) = xrecvWord s := by
  unfold freeFlits
  split <;> rfl

theorem receive_awaited {m : Msg} {s : State} (h : MsgAwaited m s) (isOpen : s.run.isOpen = true) : receive m s = .ok (checked m s) := by
  obtain ⟨w, word, part⟩ := h.word
  have part' : ¬ (freeFlits m s).cores[xCore w].part ≠ (mPart m).val := by
    rw [freeFlits_cores]
    exact not_not.mpr part
  have running : ¬ (mKind m = 4 ∧ (freeFlits m s).run.isOpen = false) := by simp [isOpen]
  rw [receive_of_checked h.good, receiveFor, xrecvWord_freeFlits, word]
  dsimp only
  rw [if_neg running, if_pos h.kind, if_neg part', checked, freeFlits_plane]

theorem receive_stray {m : Msg} {s : State} (h : MsgChecked m s) (isOpen : s.run.isOpen = true) (kind : mKind m ≤ 5)
    (word : xrecvWord s (mSrc m) (mKind m) (mMsg m) = none) : receive m s = .error (countStray m (freeFlits m s)) := by
  rw [receive_of_checked h, receiveFor, xrecvWord_freeFlits, word]
  simp [isOpen, kind]

/-- An AGREE before the first step needs no word (R412). -/
theorem receive_early_agree {m : Msg} {s : State} (h : MsgChecked m s) (kind : mKind m = 4) (closed : s.run.isOpen = false) :
    receive m s = .ok (checked m s) := by
  rw [receive_of_checked h, receiveFor]
  simp [closed, kind, checked]

theorem takeMsg_of_refused {kind : Nat} {m : Msg} {s t : State} (hk : mKind m = kind) (here : notHere m s = false)
    (bad : receive m s = .error t) (act : State → State) : takeMsg kind m act s = t := by
  rw [takeMsg, if_pos (.inl hk), here, bad]
  rfl

/-! ### What an exchange command leaves -/

/-- A change within the footprint of an exchange command that keeps every core's assignment is kept whole. -/
theorem footXchg_eq_self {s t : State} (cores : keepAssign s t = t.cores) (rest : t = { footXchg s t with cores := t.cores }) :
    footXchg s t = t :=
  calc footXchg s t = { footXchg s t with cores := keepAssign s t } := rfl
    _ = { footXchg s t with cores := t.cores } := by rw [cores]
    _ = t := rest.symm

theorem keepAssign_of_cores_eq {s t : State} (h : t.cores = s.cores) : keepAssign s t = t.cores := (keepAssign_cores s t h).trans h.symm

/-! ### The exchange messages -/

/-- The commands of the exchange messages, by KIND. -/
def exchangeMsgs (m : Msg) : List (Nat × Instr) :=
  [(0, .psumMsg m), (1, .rowreqMsg m), (2, .rowsMsg m), (3, .gradMsg m), (4, .agreeMsg m), (5, .digestMsg m)]

theorem exec_exchangeMsg {m : Msg} {s : State} (isOpen : s.run.isOpen = true) {p : Nat × Instr} (hp : p ∈ exchangeMsgs m) :
    p.1 ≤ 5 ∧ exec p.2 s = .next (footXchg s (takeMsg p.1 m (deliver m) s)) := by
  have agree : (fun t => if s.run.isOpen then deliver m t else takeAgree (mSrc m) m.body t) = deliver m := by simp [isOpen]
  simp only [exchangeMsgs, List.mem_cons, List.not_mem_nil, or_false] at hp
  rcases hp with rfl | rfl | rfl | rfl | rfl | rfl
  · exact ⟨Nat.le_of_ble_eq_true rfl, rfl⟩
  · exact ⟨Nat.le_of_ble_eq_true rfl, rfl⟩
  · exact ⟨Nat.le_of_ble_eq_true rfl, rfl⟩
  · exact ⟨Nat.le_of_ble_eq_true rfl, rfl⟩
  · exact ⟨Nat.le_of_ble_eq_true rfl, congrArg (fun act => Host.Outcome.next (footXchg s (takeMsg 4 m act s))) agree⟩
  · exact ⟨Nat.le_of_ble_eq_true rfl, rfl⟩

theorem countStray_kept {m : Msg} (kind : mKind m = 0 ∨ mKind m = 2) (s : State) : countStray m s =
    modPart (mPart m) (fun q => { q with counted := { q.counted with resDiscard := q.counted.resDiscard + 1 } }) s := if_pos kind

theorem countStray_other {m : Msg} (kind : ¬ (mKind m = 0 ∨ mKind m = 2)) (s : State) :
    countStray m s = { s with plane := { s.plane with stray := min 0xFFFE (s.plane.stray + 1) } } := if_neg kind

theorem freeFlits_frame (m : Msg) (s : State) : freeFlits m s = { s with ports := (freeFlits m s).ports } := by
  unfold freeFlits
  split <;> rfl

theorem fld_ofNat {k lo n : Nat} (v : Nat) (h : lo + n ≤ k) : fld (BitVec.ofNat k v) lo n = nfld v lo n := by
  rw [fld, nfld, BitVec.toNat_ofNat]
  refine Nat.eq_of_testBit_eq fun j => ?_
  simp only [Nat.testBit_mod_two_pow, Nat.testBit_shiftRight]
  by_cases hj : j < n
  · simp [hj, show lo + j < k by omega]
  · simp [hj]

/-- The AGREE word that is taken: its summary ORed in, the word kept for its neighbour's port. -/
theorem takeAgree_frame (src : Coord) (b : List Byte) (s : State) :
    takeAgree src b s = { s with run := (takeAgree src b s).run, mc := { s.mc with agrees := (takeAgree src b s).mc.agrees } } := by
  unfold takeAgree
  dsimp only
  split <;> rfl

theorem takeAgree_run (src : Coord) (b : List Byte) (s : State) : (takeAgree src b s).run =
    { s.run with summary := s.run.summary ||| BitVec.ofNat 32 (nfld (leAt b 0 64) 160 32), swept := true } := by
  have field : fld (BitVec.ofNat 512 (leAt b 0 64)) 160 32 = nfld (leAt b 0 64) 160 32 := fld_ofNat _ (by decide)
  unfold takeAgree
  dsimp only
  rw [field]
  split <;> rfl

theorem takeAgree_agrees {src : Coord} {s : State} {q : PortIx} (h : portOf s src = some q) (b : List Byte) :
    (takeAgree src b s).mc.agrees[q] = some (BitVec.ofNat 512 (leAt b 0 64)) := by
  have port : portOf (modRun (fun r => { r with
    summary := r.summary ||| BitVec.ofNat 32 (fld (BitVec.ofNat 512 (leAt b 0 64)) 160 32), swept := true }) s) src = some q := h
  rw [takeAgree]
  dsimp only
  rw [port]
  exact Vector.getElem_setIfInBounds_self ..

/-! ### Tile digests (R226) -/

/-- A change of what errors leave: in the running step, in the partitions and in the registers. -/
def ErrUnits (s t : State) : Prop := ∃ r q g, t = { s with run := r, parts := q, regs := g }

theorem ErrUnits.trans {s t u : State} (h : ErrUnits s t) (k : ErrUnits t u) : ErrUnits s u := by
  obtain ⟨r, q, g, rfl⟩ := h
  obtain ⟨r', q', g', rfl⟩ := k
  exact ⟨r', q', g', rfl⟩

theorem errUnits_modRun (f : Run → Run) (s : State) : ErrUnits s (modRun f s) := ⟨f s.run, s.parts, s.regs, rfl⟩

theorem errUnits_modPart (p : Part) (f : PartSt → PartSt) (s : State) : ErrUnits s (modPart p f s) :=
  ⟨s.run, (modPart p f s).parts, s.regs, rfl⟩

theorem errUnits_raiseInt (page : Fin 32) (bit : Nat) (s : State) : ErrUnits s (raiseInt page bit s) :=
  ⟨s.run, s.parts, (raiseInt page bit s).regs, rfl⟩

theorem errUnits_noteErr (p : Part) (e : ErrEntry) (s : State) : ErrUnits s (noteErr p e s) := by
  unfold noteErr partErr
  dsimp only
  split
  · exact errUnits_modRun _ s
  · split
    · exact (((errUnits_modRun _ s).trans (errUnits_modPart p _ _)).trans (errUnits_raiseInt _ 3 _)).trans (errUnits_raiseInt 3 0 _)
    · exact ((errUnits_modRun _ s).trans (errUnits_modPart p _ _)).trans (errUnits_raiseInt _ 4 _)

theorem noteErr_frame (p : Part) (e : ErrEntry) (s : State) :
    noteErr p e s = { s with run := (noteErr p e s).run, parts := (noteErr p e s).parts, regs := (noteErr p e s).regs } := by
  obtain ⟨r, q, g, h⟩ := errUnits_noteErr p e s
  rw [h]

theorem searchTiles_frame (src : Coord) (p : Part) (slot version : Nat) (s : State) : searchTiles src p slot version s =
    { s with run := (searchTiles src p slot version s).run, parts := (searchTiles src p slot version s).parts
             regs := (searchTiles src p slot version s).regs, tdigs := (searchTiles src p slot version s).tdigs } := by
  unfold searchTiles
  dsimp only
  split
  · rfl
  · split
    · rw [noteErr_frame]
    · rfl

/-- The tile digests of a message. -/
def tileDigests (m : Msg) : TDig :=
  let v := leAt m.body 0 32
  { src := mSrc m, part := mPart m, tag := BitVec.ofNat 32 (nfld v 32 32), version := nfld v 16 16, target := nfld v 64 4,
    matB := nfld v 68 1 == 1, first := nfld v 69 15,
    digs := (List.range (min (nfld v 84 16) ((m.body.length - 32) / 8))).map (fun j => BitVec.ofNat 64 (leAt m.body (32 + 8 * j) 8)) }

theorem takeTdig_frame (m : Msg) (s : State) : takeTdig m s =
    { s with run := (takeTdig m s).run, parts := (takeTdig m s).parts, regs := (takeTdig m s).regs, tdigs := (takeTdig m s).tdigs } := by
  unfold takeTdig
  dsimp only
  split
  · rw [searchTiles_frame]
  · rfl

/-- Where no adapter is frozen the digests are kept. -/
theorem takeTdig_of_unfrozen {m : Msg} {s : State} (h : ∀ x ∈ s.slots, x.2.frozen = false) :
    takeTdig m s = { s with tdigs := s.tdigs ++ [tileDigests m] } := by
  unfold takeTdig
  dsimp only
  split
  · next x found =>
    have frozen := List.find?_some found
    rw [h x (List.mem_of_find?_eq_some found)] at frozen
    exact absurd frozen (by simp)
  · rfl

theorem tileDigests_digs (m : Msg) {j : Nat} (hj : j < (tileDigests m).digs.length) :
    (tileDigests m).digs.getD j 0 = BitVec.ofNat 64 (leAt m.body (32 + 8 * j) 8) := by
  rw [List.getD_eq_getElem _ _ hj]
  simp [tileDigests]

/-! ### A message on its route (R358, R360) -/

theorem routeMsg_frame (src : Fin 7) (vc : Fin 4) (det : Bool) (m : Msg) (s : State) : routeMsg src vc det m s =
    { s with out := (routeMsg src vc det m s).out, ports := (routeMsg src vc det m s).ports
             plane := (routeMsg src vc det m s).plane, err := (routeMsg src vc det m s).err
             regs := (routeMsg src vc det m s).regs } := by
  unfold routeMsg
  dsimp only
  split
  · unfold sendOn
    split <;> rfl
  · split
    · rfl
    · rfl

theorem mDst_mkMsg (s : State) (kind msg part : Nat) (dst : Coord) (body : List Byte) : mDst (mkMsg s kind msg part dst body) = dst := by
  refine BitVec.eq_of_toNat_eq ?_
  have h1 := s.mc.step.isLt
  have h2 := (epochNum s).isLt
  have h3 := s.plane.coord.isLt
  have h4 := dst.isLt
  simp only [mDst, mkMsg, put, Nat.shiftLeft_eq]
  rw [fld_ofNat _ (by decide), nfld, BitVec.toNat_ofNat, Nat.shiftRight_eq_div_pow]
  omega

/-- The buffer of a port in which the flits of a channel's normal class wait. -/
def normalQueue (vc : Fin 4) : Fin 8 := Fin.ofNat 8 (2 * vc.val)

/-- A message handed to the link layer of a port in the normal class of a channel. -/
def toLink (src : Fin 7) (q : PortIx) (vc : Fin 4) (m : Msg) (s : State) : State :=
  send (.msg q m) (modPort q (fun x => { x with txq := vmod x.txq (normalQueue vc) (· ++ msgFlits src vc false m) }) s)

theorem routeMsg_of_port {src : Fin 7} {vc : Fin 4} {m : Msg} {s : State} {q : PortIx} (route : routeEntry s false (mDst m) = q.val)
    (carries : portCarries s q vc = true) : routeMsg src vc false m s = toLink src q vc m s := by
  have hq : q.val % 8 = q.val := Nat.mod_eq_of_lt (by omega)
  have normal : (q.val / 8 % 2 == 1) = false := by
    rw [Nat.div_eq_of_lt (by omega)]
    rfl
  have queue : (⟨2 * vc.val + 0, by omega⟩ : Fin 8) = normalQueue vc := Fin.ext (Nat.mod_eq_of_lt (by omega)).symm
  simp only [routeMsg, route, hq, normal, Bool.or_self]
  rw [dif_pos q.isLt, sendOn, if_pos carries]
  simp only [Bool.false_eq_true, if_false, queue]
  rfl

theorem toLink_port (src : Fin 7) (q : PortIx) (vc : Fin 4) (m : Msg) (s : State) :
    (toLink src q vc m s).ports[q] = { s.ports[q] with
      txq := vmod s.ports[q].txq (normalQueue vc) (· ++ msgFlits src vc false m) } := vmod_same s.ports q _

theorem toLink_others {j q : PortIx} (h : j ≠ q) (src : Fin 7) (vc : Fin 4) (m : Msg) (s : State) :
    (toLink src q vc m s).ports[j] = s.ports[j] := vmod_other _ _ _ _ _ fun e => h (Fin.ext e.symm)

/-- Outside the box a message has no route. -/
theorem routeMsg_outside {src : Fin 7} {vc : Fin 4} {m : Msg} {s : State} {pl : Plan} (plan : s.plane.plan = some pl)
    (outside : inBox pl (mDst m) = false) : routeMsg src vc false m s = routeDrop m s := by
  have route : routeEntry s false (mDst m) = 7 := by
    rw [routeEntry, plan]
    simp [outside]
  simp [routeMsg, route]

/-! ### XSEND -/

/-- The message of an XSEND. -/
def xMsg (w : IWord) (s : State) : Msg :=
  mkMsg s (xWord w).kind (xWord w).msg (((corePart s (xWord w).core).map Fin.val).getD 0) (xWord w).peer
    (sendBody s (corePart s (xWord w).core) (xWord w))

/-- The state in which the message of an XSEND leaves: its tiles taken, its agreement word noted. -/
def xReady (w : IWord) (s : State) : State := noteAgree (xWord w) (takeGradOut (corePart s (xWord w).core) (xWord w) s)

/-- The state after an XSEND, but for its word. -/
def xSent (i : Nat) (w : IWord) (s : State) : State :=
  if s.run.sentWords.contains i ∨ peerLost s (xWord w) = true then takeGradOut (corePart s (xWord w).core) (xWord w) s
  else modRun (fun r => { r with sentWords := r.sentWords ++ [i] }) (routeMsg 6 (xWord w).vc false (xMsg w s) (xReady w s))

theorem takeGradOut_frame (p : Option Part) (x : XWord) (s : State) :
    takeGradOut p x s = { s with run := { s.run with gradOut := (takeGradOut p x s).run.gradOut } } := by
  unfold takeGradOut
  split
  · split <;> rfl
  · rfl

theorem noteAgree_frame (x : XWord) (s : State) :
    noteAgree x s = { s with mc := { s.mc with agreeSent := (noteAgree x s).mc.agreeSent } } := by
  unfold noteAgree
  split
  · split <;> rfl
  · rfl

theorem xReady_frame (w : IWord) (s : State) : xReady w s = { s with
    mc := { s.mc with agreeSent := (xReady w s).mc.agreeSent }
    run := { s.run with gradOut := (takeGradOut (corePart s (xWord w).core) (xWord w) s).run.gradOut } } := by
  rw [xReady, noteAgree_frame, takeGradOut_frame]

theorem xSent_frame (i : Nat) (w : IWord) (s : State) : xSent i w s = { s with
    out := (xSent i w s).out, ports := (xSent i w s).ports, plane := (xSent i w s).plane, err := (xSent i w s).err
    regs := (xSent i w s).regs, mc := { s.mc with agreeSent := (xSent i w s).mc.agreeSent }
    run := { s.run with
      gradOut := (takeGradOut (corePart s (xWord w).core) (xWord w) s).run.gradOut, sentWords := (xSent i w s).run.sentWords } } := by
  unfold xSent
  split
  · rw [takeGradOut_frame]
  · rw [routeMsg_frame, xReady_frame]
    rfl

theorem execXsend_of_ready {port : PortIx} {s : State} {i : Nat} {w : IWord} (ready : readyWord s (205 + port.val) = some (i, w))
    (op : wOp w = 0x70) : exec (.xsend port) s = .next { xSent i w s with
      run := wordOver (205 + port.val) i 0 w (xSent i w s).run } := by
  have done : issuePlain (portQueue port) (fun w => wOp w == 0x70) xsendWork s =
      finishWord (205 + port.val) 1 w (setStatus i 0 false (xSent i w s)) :=
    issueWord_done ready (by rw [op]; rfl) rfl rfl
  change Host.Outcome.next (footXchg s _) = _
  rw [done, finishWord_setStatus]
  refine congrArg _ (footXchg_eq_self (keepAssign_of_cores_eq ?_) ?_)
  · rw [xSent_frame]
  · rw [xSent_frame]
    rfl

section

variable {i : Nat} {w : IWord} {s : State}

/-- A word that had sent before a replay, or whose PEER is UNREACHABLE, sends nothing. -/
theorem xSent_silent (h : s.run.sentWords.contains i = true ∨ peerLost s (xWord w) = true) :
    xSent i w s = takeGradOut (corePart s (xWord w).core) (xWord w) s := if_pos h

/-- A PEER outside the box is a ROUTE_DROP. -/
theorem xSent_outside (new : s.run.sentWords.contains i = false) {pl : Plan} (plan : s.plane.plan = some pl)
    (outside : inBox pl (xWord w).peer = false) : (xSent i w s).out = s.out ∧ (xSent i w s).ports = s.ports ∧
      (xSent i w s).plane.routeDrop = min 0xFFFE (s.plane.routeDrop + 1) := by
  have named : peerLost s (xWord w) = false := by
    rw [peerLost, plan]
    simp [outside]
  have ready := xReady_frame w s
  have plane : (xReady w s).plane = s.plane := by rw [ready]
  have dropped : routeMsg 6 (xWord w).vc false (xMsg w s) (xReady w s) = routeDrop (xMsg w s) (xReady w s) :=
    routeMsg_outside (by rw [plane, plan]) (by rw [xMsg, mDst_mkMsg, outside])
  rw [xSent, if_neg (by rw [new, named]; simp), dropped]
  refine ⟨?_, ?_, ?_⟩
  · rw [modRun_out, routeDrop_out, ready]
  · rw [modRun_ports, routeDrop_ports, ready]
  · rw [modRun_plane, routeDrop, dropEntry_plane, plane]
    rfl

/-- On a route that carries its channel the message leaves by its port. -/
theorem xSent_routed (new : s.run.sentWords.contains i = false) {q : PortIx} (route : routeEntry s false (xWord w).peer = q.val)
    (carries : portCarries s q (xWord w).vc = true) : xSent i w s =
      modRun (fun r => { r with sentWords := r.sentWords ++ [i] }) (toLink 6 q (xWord w).vc (xMsg w s) (xReady w s)) := by
  have reached : peerLost s (xWord w) = false := by
    rw [peerLost, route, Nat.mod_eq_of_lt (by omega), Bool.and_eq_false_iff]
    exact .inr (beq_eq_false_iff_ne.mpr (by omega))
  have ready := xReady_frame w s
  have routed : routeMsg 6 (xWord w).vc false (xMsg w s) (xReady w s) = toLink 6 q (xWord w).vc (xMsg w s) (xReady w s) := by
    refine routeMsg_of_port ?_ ?_
    · rw [xMsg, mDst_mkMsg, ready]
      exact route
    · rw [ready]
      exact carries
  rw [xSent, if_neg (by rw [new, reached]; simp), routed]

/-- An AGREE word notes what it sends toward its neighbour. -/
theorem xReady_agree (kind : (xWord w).kind = 4) {n : PortIx} (port : portOf s (xWord w).peer = some n) :
    (xReady w s).mc.agreeSent[n] = some (ownWord s.mc.sNext (s.mc.step + 1) s) := by
  have tiles : takeGradOut (corePart s (xWord w).core) (xWord w) s = s := by
    unfold takeGradOut
    split
    · rw [if_neg (by omega)]
    · rfl
  rw [xReady, tiles, noteAgree, port]
  dsimp only
  rw [if_pos kind]
  exact Vector.getElem_setIfInBounds_self ..

end

/-! ### The rule of the messages and of XSEND -/

theorem execMsg_awaited {m : Msg} {s : State} (isOpen : s.run.isOpen = true) {p : Nat × Instr} (hp : p ∈ exchangeMsgs m)
    (kind : mKind m = p.1) (h : MsgAwaited m s) : exec p.2 s = .next { s with
      ports := (checked m s).ports, plane := (checked m s).plane, run := { s.run with
        inbox := s.run.inbox ++ [InMsg.mk (mSrc m) (mPart m).val (mKind m) (mMsg m) m.body] } } := by
  rw [(exec_exchangeMsg isOpen hp).2, takeMsg_of_receive kind h.good.here (receive_awaited h isOpen), checked_frame]
  exact congrArg _ (footXchg_eq_self (keepAssign_of_cores_eq rfl) rfl)

theorem execMsg_stray {m : Msg} {s : State} (isOpen : s.run.isOpen = true) {p : Nat × Instr} (hp : p ∈ exchangeMsgs m)
    (kind : mKind m = p.1) (h : MsgChecked m s) (none : xrecvWord s (mSrc m) (mKind m) (mMsg m) = none) :
    exec p.2 s = .next (countStray m (freeFlits m s)) := by
  obtain ⟨five, e⟩ := exec_exchangeMsg isOpen hp
  rw [e, takeMsg_of_refused kind h.here (receive_stray h isOpen (kind.trans_le five) none), freeFlits_frame, countStray]
  split
  · exact congrArg _ (footXchg_eq_self (keepAssign_of_cores_eq rfl) rfl)
  · exact congrArg _ (footXchg_eq_self (keepAssign_of_cores_eq rfl) rfl)

theorem execAgree_early {m : Msg} {s : State} (h : MsgChecked m s) (kind : mKind m = 4) (closed : s.run.isOpen = false) :
    exec (.agreeMsg m) s = .next (takeAgree (mSrc m) m.body (checked m s)) := by
  have act : takeMsg 4 m (fun t => if s.run.isOpen then deliver m t else takeAgree (mSrc m) m.body t) s =
      takeAgree (mSrc m) m.body (checked m s) := by
    rw [takeMsg_of_receive kind h.here (receive_early_agree h kind closed), if_neg (by simp [closed])]
  change Host.Outcome.next (footXchg s _) = _
  rw [act]
  refine congrArg _ (footXchg_eq_self (keepAssign_of_cores_eq ?_) ?_)
  · rw [takeAgree_frame, checked_frame]
  · rw [takeAgree_frame, checked_frame]
    rfl

theorem execTdig {m : Msg} {s : State} (h : MsgChecked m s) (kind : mKind m = 9) :
    exec (.tdigMsg m) s = .next (takeTdig m (checked m s)) := by
  change Host.Outcome.next (footXchg s _) = _
  rw [takeMsg_of_receive kind h.here (receive_checked m s h (by omega))]
  refine congrArg _ (footXchg_eq_self (keepAssign_of_cores_eq ?_) ?_)
  · rw [takeTdig_frame, checked_frame]
  · rw [takeTdig_frame, checked_frame]
    rfl

/-- Settles O30: by what each message does that a step awaits or that none names, and by the four ways in which an XSEND ends. -/
theorem exchangeMessagesSent : Obligations.ExchangeMessagesSent := by
  unfold Obligations.ExchangeMessagesSent
  refine ⟨fun m s => ⟨fun p hp kind isOpen => ⟨fun h => execMsg_awaited isOpen hp kind h, fun h none => ?_⟩, fun h kind closed => ?_,
    fun h kind => ?_⟩,
    fun port s i w ready op => ?_⟩
  · refine ⟨_, execMsg_stray isOpen hp kind h none, ?_, fun kept => ?_, fun other => ?_⟩
    · rw [freeFlits_frame, countStray]
      split <;> rfl
    · rw [countStray_kept kept]
      refine ⟨freeFlits_plane m s, ?_⟩
      rw [modPart_parts, freeFlits_parts]
      exact congrArg (fun q : PartSt => q.counted.resDiscard) (vmod_same s.parts (mPart m) _)
    · rw [countStray_other other]
      exact ⟨freeFlits_parts m s, by rw [freeFlits_plane]⟩
  · have kept := takeAgree_frame (mSrc m) m.body (checked m s)
    refine ⟨_, execAgree_early h kind closed, ?_, ?_, fun q port => takeAgree_agrees (s := checked m s) port m.body⟩
    · rw [kept, checked_frame]
    · rw [takeAgree_run, checked_frame]
  · refine ⟨_, execTdig h kind, ?_, fun unfrozen => ?_⟩
    · rw [takeTdig_frame, checked_frame]
    · have slots : (checked m s).slots = s.slots := by rw [checked_frame]
      rw [takeTdig_of_unfrozen (by rw [slots]; exact unfrozen), checked_frame]
      exact ⟨rfl, tileDigests m, rfl, rfl, rfl, rfl, rfl, rfl, fun j hj => tileDigests_digs m hj⟩
  · have sent := xSent_frame i w s
    refine ⟨_, execXsend_of_ready ready op, ?_, ?_, ?_, ?_, fun silent => ?_, fun new pl plan outside => ?_, fun new q route carries => ?_⟩
    · rw [sent]
    · rw [sent]
    · rw [sent]
      rfl
    · rw [sent]
      rfl
    · have kept := takeGradOut_frame (corePart s (xWord w).core) (xWord w) s
      rw [xSent_silent silent, kept]
      exact ⟨rfl, rfl, rfl⟩
    · exact xSent_outside new plan outside
    · have ready' := xReady_frame w s
      have leaves := xSent_routed new route carries
      rw [leaves]
      have ports : (xReady w s).ports = s.ports := by rw [ready']
      have own := toLink_port 6 q (xWord w).vc (xMsg w s) (xReady w s)
      rw [ports] at own
      refine ⟨?_, ?_, fun j hj => ?_, ?_, ?_, fun kind n nb => xReady_agree kind nb⟩
      · change (xReady w s).out ++ _ = _
        rw [ready']
        rfl
      · exact List.mem_append_right _ (List.mem_singleton_self i)
      · exact (toLink_others hj 6 _ _ _).trans (by rw [ports])
      · exact own.trans (congrArg (fun l => { s.ports[q] with txq := l }) (congrArg PortSt.txq own).symm)
      · exact (congrArg (fun x : PortSt => x.txq[normalQueue (xWord w).vc]) own).trans (vmod_same _ _ _)

end Sys2Proof.Machine
end

section
/-!
PROOFS. The contributions of a MACC: what a list of contributions leaves of a tensor, of the other tensors and of HBM (R75, R155, R208,
R211, R212).
-/

namespace Sys2Proof.Machine

/-! ### A list of contributions to the elements of one tensor -/

/-- The contributions of a list to element k, on the tensor's grid. -/
def elemSum (w : Int) (k : Nat) (l : List (Nat × Val)) : Int := ((l.filter (fun x => x.1 == k)).map (fun x => (xaQuant x.2 w).1)).sum

/-- The contributions of a list, each an element and a value, added to tensor ix. -/
structure Added (ix : Nat) (l : List (Nat × Val)) (s u : State) : Prop where
  /-- What they touch. -/
  rest : u = { s with hbm := u.hbm, tensors := u.tensors, uuNow := u.uuNow, uuAdd := u.uuAdd }
  /-- The form of HBM. -/
  wf : Memory.wf u.hbm = true
  /-- What stays of the tensor. -/
  same : (tabGet {} u.tensors ix).acc = (tabGet {} s.tensors ix).acc ∧ (tabGet {} u.tensors ix).wForce = (tabGet {} s.tensors ix).wForce ∧
    (tabGet {} u.tensors ix).steps = (tabGet {} s.tensors ix).steps ∧ (tabGet {} u.tensors ix).st = (tabGet {} s.tensors ix).st
  /-- The other tensors. -/
  others : ∀ jx, jx ≠ ix → tabGet {} u.tensors jx = tabGet {} s.tensors jx
  /-- The mark of a contribution. -/
  touched : (tabGet {} u.tensors ix).touched = ((tabGet {} s.tensors ix).touched || !l.isEmpty)
  /-- The flag of a NaN. -/
  nan : (tabGet {} u.tensors ix).stepNan =
    ((tabGet {} s.tensors ix).stepNan || l.any (fun x => (xaQuant x.2 (tabGet {} s.tensors ix).wForce).2.2))
  /-- The sum of each element. -/
  sum : ∀ k, accSum u.hbm (tabGet {} s.tensors ix) k =
    Int.bmod (accSum s.hbm (tabGet {} s.tensors ix) k + elemSum (tabGet {} s.tensors ix).wForce k l) (2 ^ 128)
  /-- Every other byte. -/
  outside : ∀ a, (∀ x ∈ l, a < (tabGet {} s.tensors ix).acc + 16 * x.1 ∨ (tabGet {} s.tensors ix).acc + 16 * x.1 + 16 ≤ a) →
    memByte u.hbm a = memByte s.hbm a

theorem bmod_accSum (m : Memory) (t : Tensor) (k : Nat) : Int.bmod (accSum m t k) (2 ^ 128) = accSum m t k := bmod_sgn (memNat_lt _ _ 16)

theorem Added.refl {s : State} (wf : Memory.wf s.hbm = true) (ix : Nat) : Added ix [] s s :=
  ⟨rfl, wf, ⟨rfl, rfl, rfl, rfl⟩, fun _ _ => rfl, (Bool.or_false _).symm, (Bool.or_false _).symm,
    fun k => by rw [elemSum, List.filter_nil, List.map_nil, List.sum_nil, add_zero, bmod_accSum], fun _ _ => rfl⟩

theorem elemSum_cons (w : Int) (k : Nat) (x : Nat × Val) (l : List (Nat × Val)) :
    elemSum w k (x :: l) = (if x.1 = k then (xaQuant x.2 w).1 else 0) + elemSum w k l := by
  by_cases h : x.1 = k
  · simp [elemSum, h]
  · simp [elemSum, h]

/-- Contributions to other elements do not count. -/
theorem elemSum_filter {w : Int} {k : Nat} {l : List (Nat × Val)} {p : Nat × Val → Bool} (own : ∀ x ∈ l, x.1 = k → p x = true) :
    elemSum w k (l.filter p) = elemSum w k l := by
  rw [elemSum, List.filter_filter, elemSum, List.filter_congr fun x hx => ?_]
  by_cases h : x.1 = k
  · rw [own x hx h, Bool.and_true]
  · rw [beq_false_of_ne h, Bool.false_and]

/-- One more contribution, before the others. -/
theorem Added.cons {ix e : Nat} {v : Val} {l : List (Nat × Val)} {s u : State} (wf : Memory.wf s.hbm = true)
    (h : Added ix l (addElem ix e v s) u) : Added ix ((e, v) :: l) s u := by
  obtain ⟨n, b, tensor⟩ := addElem_tensor ix e v s
  have one := contributed_addElem wf ix e v
  have acc : (tabGet {} (addElem ix e v s).tensors ix).acc = (tabGet {} s.tensors ix).acc := one.acc
  have grid : (tabGet {} (addElem ix e v s).tensors ix).wForce = (tabGet {} s.tensors ix).wForce := one.grid
  have first (k : Nat) : accSum (addElem ix e v s).hbm (tabGet {} s.tensors ix) k =
      Int.bmod (accSum s.hbm (tabGet {} s.tensors ix) k + if e = k then (xaQuant v (tabGet {} s.tensors ix).wForce).1 else 0) (2 ^ 128) := by
    by_cases own : e = k
    · rw [if_pos own, ← own, one.sum]
    · rw [if_neg own, add_zero, bmod_accSum]
      exact accSum_congr rfl fun x lo hi => one.outside x (by omega)
  obtain ⟨rest, wf', ⟨acc', grid', steps', st'⟩, others, touched, nan, sum, outside⟩ := h
  refine ⟨?_, wf', ⟨acc'.trans acc, grid'.trans grid, steps'.trans ?_, st'.trans ?_⟩, fun jx hj => (others jx hj).trans ?_, ?_, ?_,
    fun k => ?_, fun a ha => ?_⟩
  · rw [rest]
    rfl
  · rw [tensor]
  · rw [tensor]
  · exact tabGet_tabSet_other ({} : Tensor) _ _ ix jx hj
  · rw [touched, tensor]
    simp
  · rw [nan, grid, tensor]
    simp [Bool.or_assoc]
  · have moved : accSum u.hbm (tabGet {} s.tensors ix) k = accSum u.hbm (tabGet {} (addElem ix e v s).tensors ix) k :=
      accSum_congr acc fun _ _ _ => rfl
    have moved' : accSum (addElem ix e v s).hbm (tabGet {} (addElem ix e v s).tensors ix) k =
        accSum (addElem ix e v s).hbm (tabGet {} s.tensors ix) k := accSum_congr acc.symm fun _ _ _ => rfl
    rw [moved, sum, moved', first, Int.bmod_add_bmod, grid, elemSum_cons, add_assoc]
  · rw [outside a (fun x hx => by rw [acc]; exact ha x (List.mem_cons_of_mem _ hx)), one.outside a (ha (e, v) List.mem_cons_self)]

theorem added_foldl {s : State} (wf : Memory.wf s.hbm = true) (ix : Nat) (l : List (Nat × Val)) :
    Added ix l s (l.foldl (fun s x => addElem ix x.1 x.2 s) s) := by
  induction l generalizing s with
  | nil => exact .refl wf ix
  | cons x r ih => exact .cons wf (ih (contributed_addElem wf ix x.1 x.2).wf)

/-! ### A tile of contributions (R211) -/

/-- The contributions of a tile: elements with their values, padding left out (log entry 25). -/
def tileParts (tgt : Target) (matB : Bool) (rank tile : Nat) (vals : List Val) : List (Nat × Val) :=
  ((tileElems tgt matB rank tile).zip vals).filterMap (fun x => x.1.1.map (fun e => (e, x.2)))

/-- The areas of the tensor that a tile is for are read (Table REL-3). -/
def tensorChecked (found : Option Nat) (s : State) : State :=
  match found with
  | some ix => checkTensor ix s
  | none => s

/-- The contributions of a tile on the tensor that takes them. -/
def addParts (p : Part) (slot : Nat) (l : List (Nat × Val)) (found : Option Nat) (s : State) : State :=
  match found with
  | some ix =>
    if (slotOf s slot).frozen then countDiscard p l.length s
    else
      let ok := l.filter (fun x => decide (x.1 < tensorElems s (tabGet {} s.tensors ix)))
      let u := countDiscard p (l.length - ok.length) (ok.foldl (fun s x => addElem ix x.1 x.2 s) s)
      if ok = [] then u else summaryBits p true false u
  | none => countDiscard p l.length s

theorem addTile_eq (p : Part) (slot version target : Nat) (matB : Bool) (tile : Nat) (vals : List Val) (s : State) :
    addTile p slot version target matB tile vals s =
      (let u := tensorChecked (findTensor s p slot version target matB) s
       addParts p slot (tileParts (targetOf s target) matB (slotOf s slot).rank tile vals) (findTensor u p slot version target matB) u) := rfl

/-- With no ACTIVE tensor every contribution is counted as discarded. -/
theorem addTile_of_none {s : State} {p : Part} {slot version target : Nat} {matB : Bool}
    (none : findTensor s p slot version target matB = none) (tile : Nat) (vals : List Val) :
    addTile p slot version target matB tile vals s =
      countDiscard p (tileParts (targetOf s target) matB (slotOf s slot).rank tile vals).length s := by
  rw [addTile_eq, none]
  dsimp only [tensorChecked]
  rw [none]
  rfl

/-- Contributions to an ACTIVE tensor are added, those beyond its elements counted, and the partition marked in the summary. -/
theorem addTile_of_some {s : State} {p : Part} {slot version target : Nat} {matB : Bool} {ix : Nat}
    (found : findTensor s p slot version target matB = some ix) (sound : soundAreas s (tabGet {} s.tensors ix))
    (tile : Nat) (vals : List Val) :
    addTile p slot version target matB tile vals s =
      addParts p slot (tileParts (targetOf s target) matB (slotOf s slot).rank tile vals) (some ix) s := by
  rw [addTile_eq, found]
  dsimp only [tensorChecked]
  rw [checkTensor_of_sound sound, found]

theorem summaryBits_active (p : Part) (ovf : Bool) (s : State) : (summaryBits p true ovf s).run.summary.getLsbD p.val = true := by
  have bit : ∀ (p : Part) (o : Bool), (BitVec.ofNat 32 (b2n true * 2 ^ p.val + b2n o * 2 ^ (16 + p.val))).getLsbD p.val = true := by decide
  rw [summaryBits, modRun_run, BitVec.getLsbD_or, bit, Bool.or_true]

theorem summaryBits_ovf (p : Part) (active : Bool) (s : State) :
    (summaryBits p active true s).run.summary.getLsbD (16 + p.val) = true := by
  have bit : ∀ (p : Part) (a : Bool), (BitVec.ofNat 32 (b2n a * 2 ^ p.val + b2n true * 2 ^ (16 + p.val))).getLsbD (16 + p.val) = true := by
    decide
  rw [summaryBits, modRun_run, BitVec.getLsbD_or, bit, Bool.or_true]

/-- The contributions within a tensor are added, and mark the step. -/
theorem addParts_added {s : State} (wf : Memory.wf s.hbm = true) {p : Part} {slot ix : Nat} (thawed : (slotOf s slot).frozen = false)
    (l : List (Nat × Val)) : ∃ u, Added ix (l.filter (fun x => decide (x.1 < tensorElems s (tabGet {} s.tensors ix)))) s u ∧
      addParts p slot l (some ix) s = { u with
        parts := (addParts p slot l (some ix) s).parts
        run := { s.run with summary := (addParts p slot l (some ix) s).run.summary } } ∧
      ((∃ x ∈ l, x.1 < tensorElems s (tabGet {} s.tensors ix)) →
        (addParts p slot l (some ix) s).run.summary.getLsbD p.val = true) := by
  have added := added_foldl wf ix (l.filter (fun x => decide (x.1 < tensorElems s (tabGet {} s.tensors ix))))
  have rest := added.rest
  refine ⟨_, added, ?_, fun ⟨x, hx, lt⟩ => ?_⟩
  · rw [addParts, if_neg (by rw [thawed]; decide)]
    dsimp only
    split
    · rw [rest]
      rfl
    · rw [rest]
      rfl
  · have some : l.filter (fun x => decide (x.1 < tensorElems s (tabGet {} s.tensors ix))) ≠ [] :=
      List.ne_nil_of_mem (List.mem_filter.mpr ⟨hx, decide_eq_true lt⟩)
    rw [addParts, if_neg (by rw [thawed]; decide)]
    dsimp only
    rw [if_neg some]
    exact summaryBits_active p false _

/-! ### MACC (R155, R208) -/

section

variable {n : CoreIx} {i : Nat} {w : IWord} {s : State}

/-- The bytes of the first tile of a MACC: canonical NaNs where a contained fault has spoiled it (log entry 140). -/
def maccBytes (n : CoreIx) (i : Nat) (w : IWord) (s : State) : List Byte :=
  let els := tileBytes (bitAt w 64) (slotOf s (s.run.segs.getD (fld w 48 12) {}).slot).rank
  if unitPoison s i 0 = true then (List.replicate els (leBytes (contribBytes (fld w 46 2)) (contribFmt (fld w 46 2)).nanc)).flatten
  else memRead s.cores[n].store (fld w 65 15 * 128) (els * contribBytes (fld w 46 2))

/-- The values of the first tile of a MACC. -/
def maccVals (n : CoreIx) (i : Nat) (w : IWord) (s : State) : List Val :=
  (chunk (contribBytes (fld w 46 2)) (tileBytes (bitAt w 64) (slotOf s (s.run.segs.getD (fld w 48 12) {}).slot).rank) (maccBytes n i w s)).map
    (fun b => fpDecode (contribFmt (fld w 46 2)) (leNat b))

theorem maccWork_absent (h : s.run.segs.length ≤ fld w 48 12 ∨
    bitAt (slotOf s (s.run.segs.getD (fld w 48 12) {}).slot).tmask (fld w 60 4) = false) :
    maccWork n i w s = some (setStatus i 4 false s) := if_pos h

variable (seg : fld w 48 12 < s.run.segs.length)
  (target : bitAt (slotOf s (s.run.segs.getD (fld w 48 12) {}).slot).tmask (fld w 60 4) = true)
include seg target

theorem maccWork_idle (trains : segTrains s (s.run.segs.getD (fld w 48 12) {}) = false) :
    maccWork n i w s = some (setStatus i 0 false s) := by
  have present : ¬ (s.run.segs.length ≤ fld w 48 12 ∨
      bitAt (slotOf s (s.run.segs.getD (fld w 48 12) {}).slot).tmask (fld w 60 4) = false) := by
    rw [target]
    simpa using seg
  exact (if_neg present).trans (if_pos trains)

/-- One tile of a tensor without replicas is added on this chip alone. -/
theorem maccWork_single (trains : segTrains s (s.run.segs.getD (fld w 48 12) {}) = true) (one : fld w 95 16 = 1)
    (alone : ∀ ix, findTensor s (s.run.segs.getD (fld w 48 12) {}).part (s.run.segs.getD (fld w 48 12) {}).slot
      (s.run.segs.getD (fld w 48 12) {}).version (fld w 60 4) (bitAt w 64) = some ix → (tabGet {} s.tensors ix).repset = 0xFFF) :
    maccWork n i w s = some (setStatus i 0 false (
      addTile (s.run.segs.getD (fld w 48 12) {}).part (s.run.segs.getD (fld w 48 12) {}).slot (s.run.segs.getD (fld w 48 12) {}).version
        (fld w 60 4) (bitAt w 64) (fld w 80 15) (maccVals n i w s) s)) := by
  have present : ¬ (s.run.segs.length ≤ fld w 48 12 ∨
      bitAt (slotOf s (s.run.segs.getD (fld w 48 12) {}).slot).tmask (fld w 60 4) = false) := by
    rw [target]
    simpa using seg
  rw [maccWork]
  dsimp only
  rw [if_neg present, if_neg (by rw [trains]; decide), one]
  cases found : findTensor s (s.run.segs.getD (fld w 48 12) {}).part (s.run.segs.getD (fld w 48 12) {}).slot
      (s.run.segs.getD (fld w 48 12) {}).version (fld w 60 4) (bitAt w 64) with
  | none =>
    dsimp only
    simp only [homesOf, if_true, List.range_one, List.foldl_cons, List.foldl_nil, Nat.zero_mul, Nat.add_zero]
    rfl
  | some ix =>
    dsimp only
    rw [alone ix found]
    simp only [homesOf, if_true, List.range_one, List.foldl_cons, List.foldl_nil, Nat.zero_mul, Nat.add_zero]
    rfl

end

/-- A change within the footprint of a word. -/
abbrev WordUnits (s t : State) : Prop :=
  t = { s with out := t.out, freeIx := t.freeIx, cores := t.cores, clusters := t.clusters, hbm := t.hbm, tensors := t.tensors,
               parts := t.parts, ports := t.ports, faces := t.faces, vrecs := t.vrecs, slots := t.slots, regs := t.regs,
               recs := t.recs, uuAdd := t.uuAdd, uuOpt := t.uuOpt, uuBusy := t.uuBusy, uuNow := t.uuNow, rcc := t.rcc, run := t.run,
               err := t.err, residentNext := t.residentNext, plane := t.plane, rings := t.rings }

/-- Where every core keeps its assignment such a change is kept whole. -/
theorem footWord_of_kept {s t : State} (cores : keepAssign s t = t.cores) (rest : WordUnits s t) : footWord s t = t := by
  rw [footWord, cores]
  exact rest.symm

section

variable {core : CoreIx} {s : State} {i : Nat} {w : IWord} (ready : WordReady s (64 + core.val) (clusterDown s (clusterOf core)) i w)
  (op : wOp w = 0x80)
include ready op

/-- A MACC whose work changes no core. -/
theorem execMacc_done {code : Nat} {u : State} (hw : maccWork core i w s = some (setStatus i code false u)) (cores : u.cores = s.cores)
    (rest : WordUnits s u) :
    exec (.macc core) s = .next { u with run := wordOver (64 + core.val) i code w u.run } := by
  have done : issueWord (64 + core.val) (fun w => wOp w == 0x80) (fun s => clusterDown s (clusterOf core)) (maccWork core) s =
      finishWord (64 + core.val) 1 w (setStatus i code false u) :=
    issueWord_done ready.next (by rw [op]; rfl) ready.awake hw
  change Host.Outcome.next (footWord s _) = _
  rw [done, finishWord_setStatus]
  refine congrArg _ (footWord_of_kept (keepAssign_of_cores_eq cores) ?_)
  exact (congrArg (fun t => ({ t with run := wordOver (64 + core.val) i code w u.run } : State)) rest :)

theorem execMacc_same {code : Nat} (hw : maccWork core i w s = some (setStatus i code false s)) :
    exec (.macc core) s = .next { s with run := wordOver (64 + core.val) i code w s.run } := by
  exact execMacc_done ready op hw rfl rfl

end

theorem segTrains_thawed {s : State} {sg : Seg} (h : segTrains s sg = true) : (slotOf s sg.slot).frozen = false := by
  simp only [segTrains, Bool.and_eq_true, Bool.not_eq_true'] at h
  exact h.2

/-- Settles O28: by the work of a MACC in each of its cases, and what the contributions of one tile add. -/
theorem gradientsContributed : Obligations.GradientsContributed := by
  unfold Obligations.GradientsContributed
  intro core s i w ready op sg tgt matB e
  refine ⟨fun absent => execMacc_same ready op (maccWork_absent absent), fun seg target idle =>
    execMacc_same ready op (maccWork_idle seg target idle), fun seg target trains one => ?_⟩
  intro wd els raw vals parts
  constructor
  · intro none
    have work := maccWork_single (n := core) (i := i) seg target trains one fun ix h => absurd (none.symm.trans h) nofun
    rw [addTile_of_none none] at work
    refine ⟨_, execMacc_done ready op work rfl rfl, rfl, rfl, ?_⟩
    exact congrArg (fun q : PartSt => q.counted.trainDiscard) (vmod_same s.parts sg.part _)
  · intro ix found T n alone wf _ master moments acc
    have thawed := segTrains_thawed trains
    have work := maccWork_single (n := core) (i := i) seg target trains one fun jx h => by
      rw [Option.some.inj (h.symm.trans found)]
      exact alone
    rw [addTile_of_some found ⟨master, moments, acc⟩] at work
    obtain ⟨u, added, rest, marked⟩ := addParts_added (p := sg.part) (ix := ix) wf thawed parts
    have units := added.rest
    change maccWork core i w s = some (setStatus i 0 false (addParts sg.part sg.slot parts (some ix) s)) at work
    generalize addParts sg.part sg.slot parts (some ix) s = v at *
    have done := execMacc_done ready op work (by rw [rest, units]) (by rw [rest, units])
    have hbm : v.hbm = u.hbm := by rw [rest]
    have tensors : v.tensors = u.tensors := by rw [rest]
    refine ⟨_, done, ?_, ?_, fun k hk => ?_, fun x hx => ?_, fun jx hj => ?_, fun some => ?_, ?_, ?_, ?_⟩
    · rw [rest, units]
      rfl
    · rw [rest, units]
    · rw [sgn_twos]
      change accSum v.hbm T k = _
      rw [hbm, added.sum, elemSum_filter fun y _ own => decide_eq_true (own ▸ hk)]
      rfl
    · change memByte v.hbm x = _
      rw [hbm]
      refine added.outside x fun y hy => ?_
      have lt : y.1 < n := of_decide_eq_true (List.mem_filter.mp hy).2
      change x < T.acc + 16 * y.1 ∨ T.acc + 16 * y.1 + 16 ≤ x
      omega
    · change tabGet {} v.tensors jx = _
      rw [tensors]
      exact added.others jx hj
    · obtain ⟨y, hy, lt⟩ := some
      refine ⟨?_, marked ⟨y, hy, lt⟩⟩
      change (tabGet {} v.tensors ix).touched = true
      rw [tensors, added.touched, Bool.or_eq_true]
      exact .inr (by simpa using ⟨y.1, ⟨y.2, hy⟩, lt⟩)
    · change (tabGet {} v.tensors ix).stepNan = _
      rw [tensors, added.nan, List.any_filter]
    · change (tabGet {} v.tensors ix).steps = _
      rw [tensors]
      exact added.same.2.2.1
    · change (tabGet {} v.tensors ix).st = _
      rw [tensors]
      exact added.same.2.2.2

end Sys2Proof.Machine
end

section
/-!
PROOFS. XRECV: the payload that it takes and keeps, how the word completes, and what a lost source leaves (R11, R119, R154, Table REL-9).
-/

namespace Sys2Proof.Machine

/-! ### What stands of the words of a step -/

/-- Queue positions, status bytes and error entries of the words. -/
def wordMarks (s : State) : Tab Nat × Tab Byte × List (Nat × Part × ErrEntry) := (s.run.ptr, s.run.status, s.run.wordErrs)

theorem wordMarks_noteErr (p : Part) (e : ErrEntry) (s : State) : wordMarks (noteErr p e s) = wordMarks s := by
  unfold noteErr partErr
  dsimp only
  split
  · rfl
  · split <;> rfl

/-! ### The payload, from the replay log or as delivered -/

/-- Another log of payloads. -/
def withLog (log : List (Nat × List Byte)) (bytes : Nat) (stopped : Bool) (s : State) : State :=
  modRun (fun r => { r with log, logBytes := bytes, logStopped := stopped }) s

/-- A state that differs in the log of payloads alone. -/
def Logged (s u : State) : Prop := ∃ a b c, u = withLog a b c s

theorem Logged.refl (s : State) : Logged s s := ⟨s.run.log, s.run.logBytes, s.run.logStopped, rfl⟩

theorem takePayload_logged (i : Nat) (delivered : List Byte) (s : State) :
    (takePayload i delivered s).1 = blockTaken s i delivered ∧ Logged s (takePayload i delivered s).2 := by
  unfold takePayload blockTaken
  cases h : s.run.log.find? (fun x => x.1 == i) with
  | some x => exact ⟨rfl, .refl s⟩
  | none =>
    dsimp only
    split
    · exact ⟨rfl, s.run.log, s.run.logBytes, true, rfl⟩
    · exact ⟨rfl, s.run.log ++ [(i, delivered)], s.run.logBytes + delivered.length, s.run.logStopped, rfl⟩

/-! ### The word -/

theorem footXchg_of_run (s : State) (r : Run) : footXchg s { s with run := r } = { s with run := r } := by
  rw [footXchg, footWord_eq_self rfl]

section

variable {port : PortIx} {s : State} {i : Nat} {w : IWord}

/-- The message that an XRECV awaits. -/
def awaited (w : IWord) (s : State) : Option InMsg :=
  s.run.inbox.find? (fun m => m.src == (xWord w).peer && m.kind == (xWord w).kind && m.msg == (xWord w).msg)

theorem xrecvWork_waits (none : awaited w s = none) (live : lostSource s (xWord w).peer = false) : xrecvWork i w s = Option.none := by
  rw [awaited] at none
  rw [xrecvWork]
  dsimp only
  rw [none]
  exact if_neg (by rw [live]; decide)

theorem xrecvWork_lost (none : awaited w s = none) (lost : lostSource s (xWord w).peer = true) :
    xrecvWork i w s = some (noSource i (xWord w) s) := by
  rw [awaited] at none
  rw [xrecvWork]
  dsimp only
  rw [none]
  exact if_pos lost

theorem xrecvWork_long {m : InMsg} (found : awaited w s = some m) (kind : (xWord w).kind ≤ 3)
    (long : (xWord w).len < (blockTaken s i m.body).length) : ∃ u, Logged s u ∧ xrecvWork i w s = some (noSource i (xWord w) u) := by
  obtain ⟨body, logged⟩ := takePayload_logged i m.body s
  refine ⟨_, logged, ?_⟩
  rw [awaited] at found
  rw [xrecvWork]
  dsimp only
  rw [found]
  dsimp only
  rw [body, if_pos ⟨kind, long⟩]

theorem xrecvWork_taken {m : InMsg} (found : awaited w s = some m)
    (fits : (xWord w).kind ≤ 3 → (blockTaken s i m.body).length ≤ (xWord w).len) :
    ∃ u, Logged s u ∧ xrecvWork i w s = some (xrecvTake i (xWord w) (blockTaken s i m.body) u) := by
  obtain ⟨body, logged⟩ := takePayload_logged i m.body s
  refine ⟨_, logged, ?_⟩
  rw [awaited] at found
  rw [xrecvWork]
  dsimp only
  rw [found]
  dsimp only
  rw [body, if_neg fun h => Nat.not_lt.mpr (fits h.1) h.2]

variable (ready : readyWord s (205 + port.val) = some (i, w)) (idle : noFlight s (205 + port.val)) (op : wOp w = 0x71)
include ready idle op

theorem execXrecv_waits (hw : xrecvWork i w s = none) : exec (.xrecv port) s = .next (departWord (205 + port.val) i s) := by
  have waits := issueFlight_waits ready idle (sel := fun w => wOp w == 0x71) (down := fun _ => false) (by rw [op]; rfl) rfl hw
  exact congrArg Host.Outcome.next ((congrArg (footXchg s) waits).trans (footXchg_of_run s _))

theorem execXrecv_done {v : State} (hw : xrecvWork i w s = some v) :
    exec (.xrecv port) s = .next (footXchg s (finishWord (205 + port.val) 1 w v)) := by
  have done := issueFlight_done ready idle (sel := fun w => wOp w == 0x71) (down := fun _ => false) (by rw [op]; rfl) rfl hw
  exact congrArg (fun t => Host.Outcome.next (footXchg s t)) done

end

theorem wordPassed_of_marks {s v : State} (h : wordMarks v = wordMarks s ∨ v.run.ptr = s.run.ptr) (q : Nat) (w : IWord) :
    wordPassed s (footXchg s (finishWord q 1 w v)) q := by
  have ptr : v.run.ptr = s.run.ptr := h.elim (congrArg Prod.fst) id
  exact congrArg (fun t => tabMod 0 t q (· + 1)) ptr

end Sys2Proof.Machine
end

section
/-!
PROOFS. A source that is lost: the status and the entry of its word, NaN in its node's place, and the freeze of the adapters that it
shares (R225, R248, Table REL-9).
-/

namespace Sys2Proof.Machine

/-! ### The freeze of an adapter (R225, R226) -/

/-- What stands of the words, and the slots. -/
def freezeMarks (s : State) : (Tab Nat × Tab Byte × List (Nat × Part × ErrEntry)) × Tab SlotEnt := (wordMarks s, s.slots)

theorem freezeMarks_routeMsg (src : Fin 7) (vc : Fin 4) (det : Bool) (m : Msg) (s : State) :
    freezeMarks (routeMsg src vc det m s) = freezeMarks s :=
  (congrArg freezeMarks (routeMsg_frame src vc det m s) :)

theorem freezeMarks_busyTensor (t : Tensor) (s : State) : freezeMarks (busyTensor t s) = freezeMarks s :=
  foldl_kept (f := fun s k => busyUnit (t.acc + 16 * k) s) (fun _ _ => rfl) _ s

theorem freezeMarks_sendTdigs (p : Part) (slot version : Nat) (s : State) :
    freezeMarks (sendTdigs p slot version s) = freezeMarks s := by
  unfold sendTdigs
  refine (foldl_kept (fun s t => foldl_kept (fun s c => freezeMarks_routeMsg ..) _ s) _ _).trans ?_
  exact foldl_kept (fun s (t : Nat × Tensor × List (BitVec 64)) => freezeMarks_busyTensor t.2.1 s) _ s

theorem freezeMarks_searchTiles (src : Coord) (p : Part) (slot version : Nat) (s : State) :
    freezeMarks (searchTiles src p slot version s) = freezeMarks s := by
  refine Prod.ext ?_ (congrArg State.slots (searchTiles_frame src p slot version s) :)
  unfold searchTiles
  dsimp only
  split
  · rfl
  · split
    · exact wordMarks_noteErr ..
    · rfl

theorem freezeMarks_freezeSlot {p : Part} {slot : Nat} {peer : Coord} {s : State} (thawed : (slotOf s slot).frozen = false) :
    freezeMarks (freezeSlot p slot peer s) = (wordMarks s, tabSet {} s.slots slot { slotOf s slot with frozen := true }) := by
  rw [freezeSlot]
  dsimp only
  rw [if_neg (by rw [thawed]; decide)]
  refine Eq.trans (b := freezeMarks (s.tensors.foldl (fun s x => if x.2.slot == slot && x.2.st == .active then clearAcc x.1 s else s)
    { s with slots := tabSet {} s.slots slot { slotOf s slot with frozen := true } })) rfl ?_
  exact foldl_kept (f := fun s (x : Nat × Tensor) => if x.2.slot == slot && x.2.st == .active then clearAcc x.1 s else s)
    (fun s x => ite_kept rfl) _ _

theorem freezeMarks_freezeVersion {p : Part} {slot version : Nat} {peer : Coord} {s : State} (thawed : (slotOf s slot).frozen = false) :
    freezeMarks (freezeVersion p slot version peer s) =
      (wordMarks s, tabSet {} s.slots slot { slotOf s slot with frozen := true }) := by
  rw [freezeVersion, if_neg (by rw [thawed]; decide), freezeMarks_searchTiles, freezeMarks_sendTdigs, freezeMarks_freezeSlot thawed]

theorem wordMarks_freezeVersion (p : Part) (slot version : Nat) (peer : Coord) (s : State) :
    wordMarks (freezeVersion p slot version peer s) = wordMarks s := by
  cases thawed : (slotOf s slot).frozen with
  | true => rw [freezeVersion, if_pos thawed]
  | false => exact congrArg Prod.fst (freezeMarks_freezeVersion thawed)

/-- A slot that freezes is frozen, and is otherwise as it was. -/
theorem freezeVersion_slot {s : State} (wf : tabWf {} s.slots = true) (p : Part) (slot version : Nat) (peer : Coord) :
    (slotOf (freezeVersion p slot version peer s) slot).frozen = true ∧
      (slotOf (freezeVersion p slot version peer s) slot).st = (slotOf s slot).st := by
  cases thawed : (slotOf s slot).frozen with
  | true =>
    rw [freezeVersion, if_pos thawed]
    exact ⟨thawed, rfl⟩
  | false =>
    have slots : (freezeVersion p slot version peer s).slots = tabSet {} s.slots slot { slotOf s slot with frozen := true } :=
      congrArg Prod.snd (freezeMarks_freezeVersion thawed)
    have same : slotOf (freezeVersion p slot version peer s) slot = { slotOf s slot with frozen := true } := by
      rw [slotOf, slots]
      exact tabGet_tabSet_wf ({} : SlotEnt) _ s.slots slot 0 wf
    rw [same]
    exact ⟨rfl, rfl⟩

/-! ### Nodes of a reduction (R247, R253) -/

/-- A node enters a list of nodes where none of its place stands. -/
def enterNode (acc : List RedNode) (x : RedNode) : List RedNode :=
  if acc.any (fun y => y.level == x.level && y.node == x.node && y.rgrp == x.rgrp && y.pos == x.pos) then acc else acc ++ [x]

/-- Two nodes of one place in the tree. -/
def samePlace (x y : RedNode) : Prop := x.level = y.level ∧ x.node = y.node ∧ x.rgrp = y.rgrp ∧ x.pos = y.pos

theorem enterNode_kept (acc : List RedNode) (x : RedNode) {y : RedNode} (h : y ∈ acc) : y ∈ enterNode acc x := by
  unfold enterNode
  split
  · exact h
  · exact List.mem_append_left _ h

theorem enterNode_placed (acc : List RedNode) (x : RedNode) : ∃ z ∈ enterNode acc x, samePlace z x := by
  unfold enterNode
  split
  · next stands =>
    obtain ⟨z, hz, place⟩ := List.any_eq_true.mp stands
    refine ⟨z, hz, ?_⟩
    simpa [samePlace, and_assoc] using place
  · exact ⟨x, List.mem_append_right _ (List.mem_singleton_self x), rfl, rfl, rfl, rfl⟩

theorem mem_of_mem_enterNode {acc : List RedNode} {x y : RedNode} (h : y ∈ enterNode acc x) : y ∈ acc ∨ y = x := by
  unfold enterNode at h
  split at h
  · exact .inl h
  · exact (List.mem_append.mp h).imp id List.mem_singleton.mp

theorem foldl_enterNode_kept (l acc : List RedNode) {y : RedNode} (h : y ∈ acc) : y ∈ l.foldl enterNode acc := by
  induction l generalizing acc with
  | nil => exact h
  | cons x r ih => exact ih _ (enterNode_kept acc x h)

theorem foldl_enterNode_placed (l acc : List RedNode) {x : RedNode} (h : x ∈ l) : ∃ z ∈ l.foldl enterNode acc, samePlace z x := by
  induction l generalizing acc with
  | nil => exact absurd h List.not_mem_nil
  | cons y r ih =>
    obtain rfl | tail := List.mem_cons.mp h
    · obtain ⟨z, hz, place⟩ := enterNode_placed acc x
      exact ⟨z, foldl_enterNode_kept r _ hz, place⟩
    · exact ih _ tail

theorem mem_of_mem_foldl_enterNode {l acc : List RedNode} {y : RedNode} (h : y ∈ l.foldl enterNode acc) : y ∈ acc ∨ y ∈ l := by
  induction l generalizing acc with
  | nil => exact .inl h
  | cons x r ih =>
    obtain before | after := ih h
    · exact (mem_of_mem_enterNode before).imp id fun (e : y = x) => e ▸ List.mem_cons_self
    · exact .inr (List.mem_cons_of_mem x after)

theorem enterNodes_reds {c : ClusterIx} {s : State} (wf : tabWf [] s.clusters[c].reds = true) (rid : Nat) (l : List RedNode) :
    tabGet [] (enterNodes c rid l s).clusters[c].reds rid = l.foldl enterNode (tabGet [] s.clusters[c].reds rid) := by
  have cluster : (enterNodes c rid l s).clusters[c].reds = tabMod [] s.clusters[c].reds rid (fun old => l.foldl enterNode old) :=
    congrArg ClusterSt.reds (vmod_same _ c _)
  rw [cluster, tabMod, tabGet_tabSet_wf [] _ _ _ 0 wf]

theorem mem_nanNodes {s : State} {c : ClusterIx} {r : ReduceWord} {sg : Seg} {node : Nat × Nat} {y : RedNode}
    (h : y ∈ nanNodes s c r sg node) : y.level = node.1 ∧ y.node = node.2 ∧ ∀ v ∈ y.lanes, v = f32Nan := by
  obtain ⟨g, -, hg⟩ := List.mem_flatMap.mp h
  obtain ⟨x, -, rfl⟩ := List.mem_map.mp hg
  exact ⟨rfl, rfl, fun v hv => List.eq_of_mem_replicate hv⟩

/-- NaN stands in a node's place where no block sum has come. -/
theorem enterNodes_nan {c : ClusterIx} {s u : State} {rid : Nat} {r : ReduceWord} {sg : Seg} {node : Nat × Nat}
    (wf : tabWf [] s.clusters[c].reds = true) (empty : tabGet [] s.clusters[c].reds rid = []) :
    ∀ y ∈ tabGet [] (enterNodes c rid (nanNodes u c r sg node) s).clusters[c].reds rid,
      y.level = node.1 ∧ y.node = node.2 ∧ ∀ v ∈ y.lanes, v = f32Nan := by
  intro y hy
  rw [enterNodes_reds wf, empty] at hy
  exact mem_nanNodes ((mem_of_mem_foldl_enterNode hy).resolve_left List.not_mem_nil)

/-! ### The word of a lost source (R162, Table REL-9) -/

section

variable (i : Nat) (x : XWord) (s : State)

theorem noSourceWord_frame : noSourceWord i x s = { s with
    run := { s.run with status := (noSourceWord i x s).run.status, wordErrs := (noSourceWord i x s).run.wordErrs } } := by
  unfold noSourceWord
  cases corePart s x.core <;> rfl

variable {i x s}

theorem noSourceWord_status (sound : s.run.hw.any (fun f => faultHits s.run f.1 i) = false) :
    tabGet 0 (noSourceWord i x s).run.status i = 6 := by
  have code (u : State) (sound : u.run.hw.any (fun f => faultHits u.run f.1 i) = false) :
      tabGet 0 (setStatus i 6 false u).run.status i = 6 := by
    rw [setStatus, modRun_run]
    dsimp only
    rw [sound]
    exact tabGet_tabSet_same 0 (6 : Byte) _ i (by decide)
  refine code _ ?_
  cases corePart s x.core <;> exact sound

theorem noSourceWord_entry {p : Part} (own : corePart s x.core = some p) :
    ∃ e, (i, p, e) ∈ (noSourceWord i x s).run.wordErrs ∧ e.code = 6 ∧ e.info1 = x.peer.toNat ∧ e.aux = x.kind := by
  rw [noSourceWord, own]
  exact ⟨_, List.mem_append_right _ (List.mem_singleton_self _), rfl, rfl, rfl⟩

theorem noSourceWord_errs {e : Nat × Part × ErrEntry} (h : e ∈ s.run.wordErrs) : e ∈ (noSourceWord i x s).run.wordErrs := by
  unfold noSourceWord
  cases corePart s x.core with
  | none => exact h
  | some p => exact List.mem_append_left _ h

end

/-- What a lost source does, by KIND, beside its word. -/
def lossEffect (x : XWord) (p : Option Part) (s : State) : State :=
  if x.kind = 0 then
    match psumReduce s x with
    | some r =>
      match shardNode s (s.run.segs.getD r.seg {}) x.peer with
      | some n => enterNodes (clusterOf x.core) x.rid (nanNodes s (clusterOf x.core) r (s.run.segs.getD r.seg {}) n) s
      | none => s
    | none => s
  else if x.kind = 4 then modRun (fun r => { r with summary := r.summary ||| 0xFFFF0000#32, swept := true }) s
  else match p with
    | none => s
    | some p =>
      if x.kind = 3 then summaryBits p false true s
      else if x.kind = 5 then (sharedDigests s p x.peer).foldl (fun s d => freezeVersion p d.1 d.2.1 x.peer s) s
      else s

theorem noSource_eq (i : Nat) (x : XWord) (s : State) : noSource i x s = lossEffect x (corePart s x.core) (noSourceWord i x s) := rfl

theorem wordMarks_lossEffect (x : XWord) (p : Option Part) (s : State) : wordMarks (lossEffect x p s) = wordMarks s := by
  unfold lossEffect
  split
  · split
    · split <;> rfl
    · rfl
  · split
    · rfl
    · split
      · rfl
      · split
        · rfl
        · split
          · exact foldl_kept (fun s d => wordMarks_freezeVersion ..) _ s
          · rfl

section

variable (i : Nat) (x : XWord) (s : State)

theorem wordMarks_noSource : wordMarks (noSource i x s) = wordMarks (noSourceWord i x s) := wordMarks_lossEffect x _ _

theorem noSource_ptr : (noSource i x s).run.ptr = s.run.ptr :=
  ((congrArg Prod.fst (wordMarks_noSource i x s) :).trans (congrArg (fun t => t.run.ptr) (noSourceWord_frame i x s) :) :)

theorem noSource_status : (noSource i x s).run.status = (noSourceWord i x s).run.status :=
  (congrArg (fun m => m.2.1) (wordMarks_noSource i x s) :)

theorem noSource_errs : (noSource i x s).run.wordErrs = (noSourceWord i x s).run.wordErrs :=
  (congrArg (fun m => m.2.2) (wordMarks_noSource i x s) :)

variable {x}

/-- A request that is lost, or its answer, leaves the word alone. -/
theorem noSource_rows (kind : x.kind = 1 ∨ x.kind = 2) : noSource i x s = noSourceWord i x s := by
  rw [noSource_eq, lossEffect.eq_def]
  obtain h | h := kind
  · rw [h]
    cases corePart s x.core <;> rfl
  · rw [h]
    cases corePart s x.core <;> rfl

/-- The gradients that are lost skip the partition's step. -/
theorem noSource_grad (kind : x.kind = 3) : noSource i x s =
    (corePart s x.core).elim (noSourceWord i x s) (fun p => summaryBits p false true (noSourceWord i x s)) := by
  rw [noSource_eq, lossEffect.eq_def, kind]
  cases corePart s x.core <;> rfl

/-- The agreement word that is lost skips every partition's step. -/
theorem noSource_agree (kind : x.kind = 4) : noSource i x s =
    modRun (fun r => { r with summary := r.summary ||| 0xFFFF0000#32, swept := true }) (noSourceWord i x s) := by
  rw [noSource_eq, lossEffect.eq_def, kind]
  rfl

variable {i s}

/-- NaN stands in place of the node of a PSUM that is lost. -/
theorem noSource_psum {r : ReduceWord} {node : Nat × Nat} (kind : x.kind = 0) (red : psumReduce s x = some r)
    (shard : shardNode s (s.run.segs.getD r.seg {}) x.peer = some node)
    (empty : tabGet [] s.clusters[clusterOf x.core].reds x.rid = []) (wf : tabWf [] s.clusters[clusterOf x.core].reds = true) :
    ∀ y ∈ tabGet [] (noSource i x s).clusters[clusterOf x.core].reds x.rid,
      y.level = node.1 ∧ y.node = node.2 ∧ ∀ v ∈ y.lanes, v = f32Nan := by
  have frame := noSourceWord_frame i x s
  rw [noSource_eq]
  generalize noSourceWord i x s = u at frame ⊢
  have red' : psumReduce u x = some r := by
    rw [frame]
    exact red
  have shard' : shardNode u (u.run.segs.getD r.seg {}) x.peer = some node := by
    rw [frame]
    exact shard
  have clusters : u.clusters = s.clusters := by rw [frame]
  rw [lossEffect.eq_def, if_pos kind, red']
  dsimp only
  rw [shard']
  exact enterNodes_nan (by rw [clusters]; exact wf) (by rw [clusters]; exact empty)

end

end Sys2Proof.Machine
end

section
/-!
PROOFS. What an XRECV leaves where its source is lost, and what its payload does by KIND (R154, R211, R213, R225, R248, R251).
-/

namespace Sys2Proof.Machine

/-! ### How the word of a port leaves the machine -/

theorem footXchg_of_units (s : State) (c : Vector CoreSt 64) (k : Vector ClusterSt 8) (m : Memory) (p : Vector PartSt 16) (r : Run) :
    footXchg s { s with cores := c, clusters := k, hbm := m, parts := p, run := r } =
      { s with cores := keepAssign s { s with cores := c }, clusters := k, hbm := m, parts := p, run := r } := by
  rw [footXchg, footWord]
  rfl

/-- A change of cores, clusters, HBM, partitions and the running step alone. -/
abbrev PayloadUnits (s v : State) : Prop :=
  v = { s with cores := v.cores, clusters := v.clusters, hbm := v.hbm, parts := v.parts, run := v.run }

theorem footXchg_of_payload {s v : State} (rest : PayloadUnits s v) (kept : keepAssign s v = v.cores) : footXchg s v = v := by
  have cores : keepAssign s { s with cores := v.cores } = v.cores := kept
  calc footXchg s v = footXchg s { s with cores := v.cores, clusters := v.clusters, hbm := v.hbm, parts := v.parts, run := v.run } :=
        congrArg (footXchg s) rest
    _ = { s with cores := v.cores, clusters := v.clusters, hbm := v.hbm, parts := v.parts, run := v.run } := by
        rw [footXchg_of_units, cores]
    _ = v := rest.symm

theorem xchgOver_run {s v : State} {r : Run} (h : v = { s with run := r }) (q : Nat) (w : IWord) : footXchg s (finishWord q 1 w v) =
    { s with run := (footXchg s (finishWord q 1 w v)).run } := by
  rw [h]
  exact footXchg_of_run s _

theorem modRun_only {s v : State} {r : Run} (f : Run → Run) (h : v = { s with run := r }) : modRun f v = { s with run := f r } := by
  rw [h]
  rfl

/-- A field of a core other than its store. -/
theorem storeWrite_field {β : Type} {g : CoreSt → β} (hg : ∀ k m, g { k with store := m } = g k) (n : CoreIx) (a : Nat) (b : List Byte)
    (s : State) (m : CoreIx) : g (storeWrite n a b s).cores[m] = g s.cores[m] :=
  vmod_field s.cores n (f := fun k => { k with store := memWrite k.store a (b.take (Config.coreStoreBytes - a)) }) (fun k => hg k _) m

theorem keepAssign_storeWrite (n : CoreIx) (a : Nat) (b : List Byte) (s : State) :
    keepAssign s (storeWrite n a b s) = (storeWrite n a b s).cores :=
  keepAssign_same s _ fun m => ⟨storeWrite_field (fun _ _ => rfl) n a b s m, storeWrite_field (fun _ _ => rfl) n a b s m⟩

theorem corePart_storeWrite (n : CoreIx) (a : Nat) (b : List Byte) (s : State) (m : CoreIx) :
    corePart (storeWrite n a b s) m = corePart s m := by
  have part : (storeWrite n a b s).cores[m].part = s.cores[m].part := storeWrite_field (fun _ _ => rfl) n a b s m
  rw [corePart, corePart, part]

/-! ### A lost source -/

section

variable {port : PortIx} {s : State} {i : Nat} {w : IWord} (ready : readyWord s (205 + port.val) = some (i, w))
  (idle : noFlight s (205 + port.val)) (op : wOp w = 0x71)
include ready idle op

/-- What an XRECV leaves that completes NO_SOURCE (Table REL-9). -/
theorem execXrecv_noSource {u : State} (logged : Logged s u) (hw : xrecvWork i w s = some (noSource i (xWord w) u)) :
    let x := xWord w
    ∃ t, exec (.xrecv port) s = .next t ∧ wordPassed s t (205 + port.val) ∧
      (s.run.hw.any (fun f => faultHits s.run f.1 i) = false → tabGet 0 t.run.status i = 6) ∧
      (∀ p, corePart s x.core = some p →
        ∃ e, (i, p, e) ∈ t.run.wordErrs ∧ e.code = 6 ∧ e.info1 = x.peer.toNat ∧ e.aux = x.kind) ∧
      (x.kind = 0 → ∀ r node, psumReduce s x = some r → shardNode s (s.run.segs.getD r.seg {}) x.peer = some node →
        tabGet [] s.clusters[clusterOf x.core].reds x.rid = [] → tabWf [] s.clusters[clusterOf x.core].reds = true →
        ∀ y ∈ tabGet [] t.clusters[clusterOf x.core].reds x.rid, y.level = node.1 ∧ y.node = node.2 ∧ ∀ v ∈ y.lanes, v = f32Nan) ∧
      (x.kind = 1 ∨ x.kind = 2 → t = { s with run := t.run }) ∧
      (x.kind = 3 → t = { s with run := t.run } ∧ ∀ p, corePart s x.core = some p → t.run.summary.getLsbD (16 + p.val) = true) ∧
      (x.kind = 4 → t = { s with run := t.run } ∧ ∀ q : Part, t.run.summary.getLsbD (16 + q.val) = true) := by
  intro x
  have done := execXrecv_done ready idle op hw
  obtain ⟨a, b, c, rfl⟩ := logged
  obtain ⟨r, word⟩ : ∃ r, noSourceWord i x (withLog a b c s) = { s with run := r } := ⟨_, noSourceWord_frame i x (withLog a b c s)⟩
  refine ⟨_, done, wordPassed_of_marks (.inr (noSource_ptr i x _)) _ w, fun sound => ?_, fun p own => ?_,
    fun kind r node red shard empty wf => ?_, fun kind => ?_, fun kind => ?_, fun kind => ?_⟩
  · change tabGet 0 (noSource i x _).run.status i = 6
    rw [noSource_status]
    exact noSourceWord_status sound
  · obtain ⟨e, he, marks⟩ := noSourceWord_entry (i := i) (x := x)
      (s := withLog a b c s) own
    refine ⟨e, ?_, marks⟩
    change (i, p, e) ∈ (noSource i x _).run.wordErrs
    rw [noSource_errs]
    exact he
  · exact noSource_psum (s := withLog a b c s) kind red shard empty wf
  · exact xchgOver_run ((noSource_rows i _ kind).trans word) _ w
  · rw [noSource_grad i _ kind]
    cases own : corePart (withLog a b c s) x.core with
    | none => exact ⟨xchgOver_run word _ w, fun p h => nomatch own.symm.trans h⟩
    | some p =>
      obtain ⟨q, only⟩ : ∃ r, summaryBits p false true (noSourceWord i x (withLog a b c s)) = { s with run := r } :=
        ⟨_, modRun_only _ word⟩
      rw [Option.elim_some]
      refine ⟨xchgOver_run only _ w, fun p' h => ?_⟩
      rw [← Option.some.inj (own.symm.trans h)]
      exact summaryBits_ovf p false _
  · rw [noSource_agree i _ kind]
    refine ⟨xchgOver_run (modRun_only _ word) _ w, fun q => ?_⟩
    have bit : ∀ q : Part, (0xFFFF0000#32).getLsbD (16 + q.val) = true := by decide
    change ((noSourceWord i x _).run.summary ||| 0xFFFF0000#32).getLsbD (16 + q.val) = true
    rw [BitVec.getLsbD_or, bit, Bool.or_true]

end

end Sys2Proof.Machine
end

section
/-!
PROOFS. The payloads of an XRECV: tiles of a mirror and gradient tiles (R208, R211, R251 to R253).
-/

namespace Sys2Proof.Machine

/-! ### Parts of a payload -/

theorem slice_length (l : List Byte) (o n : Nat) : (slice l o n).length = n := by
  simp only [slice, List.length_append, List.length_replicate, List.length_take]
  omega

theorem slice_zero (l : List Byte) {n : Nat} (h : n ≤ l.length) : slice l 0 n = l.take n := by
  rw [slice, List.drop_zero, List.length_take, Nat.min_eq_left h, Nat.sub_self, List.replicate_zero, List.append_nil]

theorem slice_one (l : List Byte) (o : Nat) : slice l o 1 = [l.getD o 0] := by
  rw [List.getD_eq_getElem?_getD, ← Nat.add_zero o, ← List.getElem?_drop, slice]
  cases l.drop o <;> rfl

/-! ### Tiles of a mirror (R251 to R253) -/

/-- The ask of a tile of a ROWS message: its number as the header gives it. -/
def tileAsk (b : List Byte) : RowAsk := { rowAsk b with tile := leAt b 0 8 / 2 ^ 37 % 2 ^ 15 }

/-- A tile's matrix in the directory of an area. -/
def matNo (a : RowAsk) : Nat := 2 * a.target + b2n a.matB

/-- A tile written at its canonical place, and noted for its mirror. -/
def tilePlaced (r : VRec) (k : Nat) (e : DirEnt) (tile : Nat) (b : List Byte) (s : State) : State :=
  modRun (fun x => { x with rowsGot := x.rowsGot ++ [(r.mirNo, k, tile)] })
    { s with hbm := memWrite (memWrite s.hbm (r.area + e.codes + tile * e.tbytes) (slice b 16 e.tbytes)) (r.area + e.scales + tile) <|
               slice b (16 + e.tbytes) 1 }

/-- The mirror that a tile goes to, with the matrix there and the tile's number. -/
def tileWanted (src : Coord) (p : Part) (b : List Byte) (s : State) : Option (VRec × DirEnt × Nat) :=
  (askingMirrors s src p (tileAsk b)).findSome? (fun y =>
    ((List.range (recLayers s y.2 * (dirEnt s.hbm y.2.area (tileAsk b).target (tileAsk b).matB).tpl)).find? (fun t =>
      t % 2 ^ 15 == (tileAsk b).tile && !y.2.arrived.contains (matNo (tileAsk b), t) &&
        !s.run.rowsGot.contains (y.2.mirNo, matNo (tileAsk b), t))).map
          (fun t => (y.2, dirEnt s.hbm y.2.area (tileAsk b).target (tileAsk b).matB, t)))

theorem placeTile_of_ok {src : Coord} {p : Part} {b : List Byte} {s : State} (ok : leAt b 0 8 / 2 ^ 52 % 4 = 0) : placeTile src p b s =
    (askedTileLen s src (tileAsk b) b.length, match tileWanted src p b s with
      | some (r, e, t) => tilePlaced r (matNo (tileAsk b)) e t b s
      | none => s) :=
  if_neg (by rw [ok]; decide)

theorem takeRows_short {src : Coord} {p : Part} {b : List Byte} (n : Nat) (s : State) (short : b.length < 16) : takeRows src p n b s = s := by
  cases n with
  | zero => rfl
  | succ n => exact if_pos short

section

variable {src : Coord} {p : Part} {b : List Byte} {s : State} {y : Nat × VRec} {r : List (Nat × VRec)}
  (ok : leAt b 0 8 / 2 ^ 52 % 4 = 0) (asking : askingMirrors s src p (tileAsk b) = y :: r)
  (new : (matNo (tileAsk b), (tileAsk b).tile) ∉ y.2.arrived) (fresh : (y.2.mirNo, matNo (tileAsk b), (tileAsk b).tile) ∉ s.run.rowsGot)
  (inside : (tileAsk b).tile < recLayers s y.2 * (dirEnt s.hbm y.2.area (tileAsk b).target (tileAsk b).matB).tpl)
include ok asking new fresh inside

/-- An OK tile goes to the first mirror that asked for it: its number has 15 bits, so no tile before it has that number. -/
theorem placeTile_first : placeTile src p b s = (askedTileLen s src (tileAsk b) b.length,
    tilePlaced y.2 (matNo (tileAsk b)) (dirEnt s.hbm y.2.area (tileAsk b).target (tileAsk b).matB) (tileAsk b).tile b s) := by
  have small : (tileAsk b).tile < 2 ^ 15 := Nat.mod_lt _ (by decide)
  have first : (List.range (recLayers s y.2 * (dirEnt s.hbm y.2.area (tileAsk b).target (tileAsk b).matB).tpl)).find? (fun t =>
      t % 2 ^ 15 == (tileAsk b).tile && !y.2.arrived.contains (matNo (tileAsk b), t) &&
        !s.run.rowsGot.contains (y.2.mirNo, matNo (tileAsk b), t)) = some (tileAsk b).tile := by
    refine List.find?_range_eq_some.mpr ⟨?_, List.mem_range.mpr inside, fun j hj => ?_⟩
    · rw [Nat.mod_eq_of_lt small]
      simp [new, fresh]
    · rw [Nat.mod_eq_of_lt (hj.trans small)]
      simp [Nat.ne_of_lt hj]
  have want : tileWanted src p b s = some (y.2, dirEnt s.hbm y.2.area (tileAsk b).target (tileAsk b).matB, (tileAsk b).tile) := by
    rw [tileWanted, asking, List.findSome?_cons, first]
    rfl
  rw [placeTile_of_ok ok, want]

/-- The message of one tile that a mirror awaits. -/
theorem takeRows_single (asked : askedTileLen s src (tileAsk b) b.length = b.length)
    (len : rowsTileLen (dirEnt s.hbm y.2.area (tileAsk b).target (tileAsk b).matB).tbytes = b.length) :
    takeRows src p b.length b s =
      tilePlaced y.2 (matNo (tileAsk b)) (dirEnt s.hbm y.2.area (tileAsk b).target (tileAsk b).matB) (tileAsk b).tile b s := by
  have long : 16 ≤ b.length := by
    rw [← len, rowsTileLen]
    exact Nat.le_add_right ..
  obtain ⟨n, hn⟩ : ∃ n, b.length = n + 1 := ⟨b.length - 1, by omega⟩
  rw [hn, takeRows, if_neg (by omega)]
  dsimp only
  rw [placeTile_first ok asking new fresh inside, asked, Nat.max_eq_right long, List.drop_length]
  exact takeRows_short n _ (Nat.zero_lt_succ 15)

end

/-- The codes and the scale byte of a tile that is placed. -/
theorem tilePlaced_hbm {r : VRec} {k tile : Nat} {e : DirEnt} {b : List Byte} {s : State} (wf : Memory.wf s.hbm = true)
    (apart : e.codes + (tile + 1) * e.tbytes ≤ e.scales) :
    memRead (tilePlaced r k e tile b s).hbm (r.area + e.codes + tile * e.tbytes) e.tbytes = slice b 16 e.tbytes ∧
      memByte (tilePlaced r k e tile b s).hbm (r.area + e.scales + tile) = b.getD (16 + e.tbytes) 0 := by
  have codes : (slice b 16 e.tbytes).length = e.tbytes := slice_length b 16 e.tbytes
  have ends : (tile + 1) * e.tbytes = tile * e.tbytes + e.tbytes := Nat.succ_mul ..
  constructor
  · calc memRead (tilePlaced r k e tile b s).hbm (r.area + e.codes + tile * e.tbytes) e.tbytes
        = memRead (memWrite s.hbm (r.area + e.codes + tile * e.tbytes) (slice b 16 e.tbytes)) (r.area + e.codes + tile * e.tbytes) e.tbytes :=
          memRead_congr fun x _ hx => memByte_memWrite_outside _ (r.area + e.scales + tile) _ x (.inl (by omega))
      _ = memRead (memWrite s.hbm (r.area + e.codes + tile * e.tbytes) (slice b 16 e.tbytes)) (r.area + e.codes + tile * e.tbytes)
            (slice b 16 e.tbytes).length := by rw [codes]
      _ = slice b 16 e.tbytes := memRead_memWrite_same wf _ _
  · have scale : slice b (16 + e.tbytes) 1 = [b.getD (16 + e.tbytes) 0] := slice_one b (16 + e.tbytes)
    have write := memByte_memWrite_inside (memWrite s.hbm (r.area + e.codes + tile * e.tbytes) (slice b 16 e.tbytes)) (r.area + e.scales + tile)
      [b.getD (16 + e.tbytes) 0] 0 (wf_memWrite _ _ _ wf) (Nat.zero_lt_succ 0)
    rw [tilePlaced, scale]
    exact write

/-! ### Gradient tiles (R208, R211) -/

theorem takeGrad_short {p : Part} {b : List Byte} (n : Nat) (s : State) (short : b.length < 8) : takeGrad p n b s = s := by
  cases n with
  | zero => rfl
  | succ n => exact if_pos short

theorem leNat_take (l : List Byte) (n : Nat) : leNat (l.take n) = leNat l % 256 ^ n := by
  induction n generalizing l with
  | zero => rw [List.take_zero, Nat.pow_zero, Nat.mod_one]; rfl
  | succ n ih =>
    cases l with
    | nil => rw [List.take_nil]; exact (Nat.zero_mod _).symm
    | cons b r =>
      have := b.isLt
      rw [List.take_succ_cons, leNat, leNat, ih, Nat.pow_succ, Nat.mul_comm (256 ^ n), Nat.mod_mul,
        show (b.toNat + 256 * leNat r) % 256 = b.toNat by omega, show (b.toNat + 256 * leNat r) / 256 = leNat r by omega]

theorem tileBytes_zero (matB : Bool) : tileBytes matB 0 = 0 := by cases matB <;> rfl

/-- Tiles for a slot that holds no adapter are discarded, and count one (log entry 52). -/
theorem takeGrad_empty {p : Part} {b : List Byte} {s : State} (long : 8 ≤ b.length) (rank : (slotOf s (leAt b 0 2)).rank = 0) :
    takeGrad p b.length b s = countDiscard p 1 s := by
  obtain ⟨n, hn⟩ : ∃ n, b.length = n + 1 := ⟨b.length - 1, by omega⟩
  have slot : nfld (leAt b 0 8) 0 16 = leAt b 0 2 := by
    have pre (k : Nat) (hk : k ≤ b.length) : leAt b 0 k = leNat b % 256 ^ k := by
      rw [leAt, slice_zero b hk, leNat_take]
    rw [nfld, pre 8 long, pre 2 (by omega), Nat.shiftRight_zero]
    exact Nat.mod_mod_of_dvd _ (by decide)
  rw [hn, takeGrad, if_neg (by omega)]
  dsimp only
  rw [slot, rank, tileBytes_zero]
  rfl

theorem wordMarks_addElem (ix e : Nat) (v : Val) (s : State) : wordMarks (addElem ix e v s) = wordMarks s := by
  have run : (addElem ix e v s).run = s.run := rfl
  rw [wordMarks, run]
  rfl

theorem wordMarks_addParts (p : Part) (slot : Nat) (l : List (Nat × Val)) (found : Option Nat) (s : State) :
    wordMarks (addParts p slot l found s) = wordMarks s := by
  have count (n : Nat) (u : State) : wordMarks (countDiscard p n u) = wordMarks u := rfl
  have mark (u : State) : wordMarks (summaryBits p true false u) = wordMarks u := rfl
  have sum (ix : Nat) (l : List (Nat × Val)) : wordMarks (l.foldl (fun s x => addElem ix x.1 x.2 s) s) = wordMarks s :=
    foldl_kept (f := fun s (x : Nat × Val) => addElem ix x.1 x.2 s) (fun s x => wordMarks_addElem ix x.1 x.2 s) l s
  unfold addParts
  dsimp only
  split
  · split
    · exact count ..
    · split
      · exact (count ..).trans (sum ..)
      · exact ((mark _).trans (count ..)).trans (sum ..)
  · exact count ..

theorem wordMarks_addTile (p : Part) (slot version target : Nat) (matB : Bool) (tile : Nat) (vals : List Val) (s : State) :
    wordMarks (addTile p slot version target matB tile vals s) = wordMarks s := by
  have check (found : Option Nat) : wordMarks (tensorChecked found s) = wordMarks s := by
    cases found with
    | none => rfl
    | some ix =>
      obtain same | ⟨-, -, q, e, held⟩ := checkTensor_cases ix s
      · exact congrArg wordMarks same
      · exact (congrArg wordMarks held).trans (wordMarks_noteErr q e _)
  exact (wordMarks_addParts ..).trans (check _)

theorem wordMarks_takeGrad (p : Part) (n : Nat) (b : List Byte) (s : State) : wordMarks (takeGrad p n b s) = wordMarks s := by
  induction n generalizing b s with
  | zero => rfl
  | succ n ih =>
    rw [takeGrad]
    dsimp only
    split
    · rfl
    · split
      · rfl
      · exact (ih _ _).trans (wordMarks_addTile ..)

end Sys2Proof.Machine
end

section
/-!
PROOFS. The partial sums of an XRECV: passed over, entered in the reduction, or discarded with NaN in their place (R10, R248).
-/

namespace Sys2Proof.Machine

section

variable {i : Nat} {x : XWord} {b : List Byte} {s : State}

theorem takePsum_passed (h : psumReduce s x = none ∨ ∃ r, psumReduce s x = some r ∧ s.run.segs.length ≤ r.seg) :
    takePsum i x b s = setStatus i 4 false s := by
  obtain none | ⟨r, red, seg⟩ := h
  · rw [takePsum]
    dsimp only
    rw [none]
  · rw [takePsum]
    dsimp only
    rw [red]
    exact if_pos seg

/-- The parts of a PSUM payload for the segment of a reduction. -/
def psumPartsOf (s : State) (r : ReduceWord) (b : List Byte) : List ((Nat × Nat × Nat × Nat × Nat) × List Byte) :=
  psumParts (s.run.segs.getD r.seg {}).rank (rankGroups (s.run.segs.getD r.seg {}).rank) b

/-- The nodes of a PSUM payload. -/
def psumNodesOf (s : State) (x : XWord) (r : ReduceWord) (b : List Byte) : List RedNode :=
  (psumPartsOf s r b).flatMap
    (psumNodes (s.run.segs.getD r.seg {}).rank (clusterFirst (planRow s r.seg) (clusterOf x.core).val))

/-- A PSUM that enters its reduction. -/
def psumEntered (i : Nat) (x : XWord) (r : ReduceWord) (b : List Byte) (s : State) : State :=
  setStatus i 0 false (enterNodes (clusterOf x.core) x.rid (psumNodesOf s x r b) (storeWrite x.core x.addr b s))

/-- The entry of a PSUM that is discarded. -/
def psumError (i : Nat) (x : XWord) (r : ReduceWord) (b : List Byte) (s : State) : State :=
  wordErr i (some (s.run.segs.getD r.seg {}).part)
    { code := 0x0B, cls := .contained, info0 := x.peer.toNat, info1 := (psumHeader b).2.1 + put 4 (psumHeader b).2.2.1 } s

/-- A PSUM that is discarded: NaN in its node's place. -/
def psumNan (i : Nat) (x : XWord) (r : ReduceWord) (node : Nat × Nat) (b : List Byte) (s : State) : State :=
  enterNodes (clusterOf x.core) x.rid
    (nanNodes (psumError i x r b s) (clusterOf x.core) r (s.run.segs.getD r.seg {}) node) (psumError i x r b s)

/-- The word of a PSUM that is discarded. -/
def psumRejected (i : Nat) (x : XWord) (r : ReduceWord) (node : Nat × Nat) (b : List Byte) (s : State) : State :=
  noSourceWord i x (psumNan i x r node b s)

variable {r : ReduceWord} (red : psumReduce s x = some r) (seg : r.seg < s.run.segs.length)
include red seg

theorem takePsum_entered {node : Nat × Nat} (shard : shardNode s (s.run.segs.getD r.seg {}) x.peer = some node)
    (agrees : psumAgrees node (s.run.segs.getD r.seg {}).version (psumPartsOf s r b) = true) :
    takePsum i x b s = psumEntered i x r b s := by
  rw [psumPartsOf] at agrees
  rw [takePsum]
  dsimp only
  rw [red]
  dsimp only
  rw [if_neg (Nat.not_le.mpr seg), shard]
  dsimp only
  rw [if_pos agrees]
  rfl

theorem takePsum_rejected {node : Nat × Nat} (shard : shardNode s (s.run.segs.getD r.seg {}) x.peer = some node)
    (differs : psumAgrees node (s.run.segs.getD r.seg {}).version (psumPartsOf s r b) = false) :
    takePsum i x b s = psumRejected i x r node b s := by
  rw [psumPartsOf] at differs
  rw [takePsum]
  dsimp only
  rw [red]
  dsimp only
  rw [if_neg (Nat.not_le.mpr seg), shard]
  dsimp only
  rw [if_neg (by rw [differs]; decide)]
  rfl

theorem takePsum_unknown (shard : shardNode s (s.run.segs.getD r.seg {}) x.peer = none) :
    takePsum i x b s = psumRejected i x r ((psumHeader b).2.1, (psumHeader b).2.2.1) b s := by
  rw [takePsum]
  dsimp only
  rw [red]
  dsimp only
  rw [if_neg (Nat.not_le.mpr seg), shard]
  rfl

/-- A PSUM enters its reduction, or is discarded. -/
theorem takePsum_cases : takePsum i x b s = psumEntered i x r b s ∨ ∃ node, takePsum i x b s = psumRejected i x r node b s := by
  cases shard : shardNode s (s.run.segs.getD r.seg {}) x.peer with
  | none => exact .inr ⟨_, takePsum_unknown red seg shard⟩
  | some node =>
    cases agrees : psumAgrees node (s.run.segs.getD r.seg {}).version (psumPartsOf s r b) with
    | true => exact .inl (takePsum_entered red seg shard agrees)
    | false => exact .inr ⟨node, takePsum_rejected red seg shard agrees⟩

end

/-- What a PSUM leaves as it was. -/
structure PsumFrame (s v : State) : Prop where
  /-- Nothing but cores, clusters and the running step. -/
  rest : v = { s with cores := v.cores, clusters := v.clusters, run := v.run }
  /-- The assignment of the cores. -/
  kept : keepAssign s v = v.cores
  /-- The queues. -/
  ptr : v.run.ptr = s.run.ptr

section

variable (i : Nat) (x : XWord) (r : ReduceWord) (node : Nat × Nat) (b : List Byte) (s : State)

theorem psumEntered_frame : PsumFrame s (psumEntered i x r b s) := ⟨rfl, keepAssign_storeWrite x.core x.addr b s, rfl⟩

theorem psumRejected_frame : psumRejected i x r node b s =
    { s with clusters := (psumRejected i x r node b s).clusters, run := (psumRejected i x r node b s).run } := by
  obtain ⟨q, h⟩ : ∃ q, psumRejected i x r node b s = { psumNan i x r node b s with run := q } :=
    ⟨_, noSourceWord_frame i x (psumNan i x r node b s)⟩
  rw [h]
  rfl

theorem psumRejected_run : (psumRejected i x r node b s).run = { s.run with
    status := (psumRejected i x r node b s).run.status, wordErrs := (psumRejected i x r node b s).run.wordErrs } :=
  (congrArg State.run (noSourceWord_frame i x (psumNan i x r node b s)) :)

theorem takePsum_frame {r : ReduceWord} (red : psumReduce s x = some r) (seg : r.seg < s.run.segs.length) :
    PsumFrame s (takePsum i x b s) := by
  obtain entered | ⟨node, rejected⟩ := takePsum_cases (i := i) (b := b) red seg
  · rw [entered]
    exact psumEntered_frame i x r b s
  · rw [rejected]
    have frame := psumRejected_frame i x r node b s
    have cores : (psumRejected i x r node b s).cores = s.cores := (congrArg State.cores frame :)
    refine ⟨?_, keepAssign_of_cores_eq cores, (congrArg Run.ptr (psumRejected_run i x r node b s) :)⟩
    rw [cores]
    exact frame

variable {i x r node b s}

theorem psumRejected_status (sound : s.run.hw.any (fun f => faultHits s.run f.1 i) = false) :
    tabGet 0 (psumRejected i x r node b s).run.status i = 6 := noSourceWord_status sound

/-- The entry of a PSUM that is discarded quotes its source. -/
theorem psumRejected_entry : ∃ e, (i, (s.run.segs.getD r.seg {}).part, e) ∈ (psumRejected i x r node b s).run.wordErrs ∧
    e.code = 0x0B ∧ e.info0 = x.peer.toNat := by
  refine ⟨_, noSourceWord_errs (List.mem_append_right _ (List.mem_singleton_self _)), rfl, rfl⟩

theorem psumRejected_nan (wf : tabWf [] s.clusters[clusterOf x.core].reds = true)
    (empty : tabGet [] s.clusters[clusterOf x.core].reds x.rid = []) :
    ∀ y ∈ tabGet [] (psumRejected i x r node b s).clusters[clusterOf x.core].reds x.rid,
      y.level = node.1 ∧ y.node = node.2 ∧ ∀ v ∈ y.lanes, v = f32Nan := by
  have clusters : (psumRejected i x r node b s).clusters = (psumNan i x r node b s).clusters :=
    (congrArg State.clusters (noSourceWord_frame i x (psumNan i x r node b s)) :)
  rw [clusters]
  exact enterNodes_nan (s := psumError i x r b s) wf empty

theorem psumEntered_status (sound : s.run.hw.any (fun f => faultHits s.run f.1 i) = false) (wf : tabWf 0 s.run.status = true) :
    tabGet 0 (psumEntered i x r b s).run.status i = 0 := by
  have status : (psumEntered i x r b s).run.status = tabSet 0 s.run.status i (BitVec.ofNat 8
    (if s.run.hw.any (fun f => faultHits s.run f.1 i) then 2 else 0)) := rfl
  rw [status, sound]
  exact tabGet_tabSet_wf (0 : Byte) _ s.run.status i 0 wf

theorem psumEntered_reds (wf : tabWf [] s.clusters[clusterOf x.core].reds = true) :
    tabGet [] (psumEntered i x r b s).clusters[clusterOf x.core].reds x.rid =
      (psumNodesOf s x r b).foldl enterNode (tabGet [] s.clusters[clusterOf x.core].reds x.rid) :=
  enterNodes_reds (s := storeWrite x.core x.addr b s) wf x.rid _

end

end Sys2Proof.Machine
end

section
/-!
PROOFS. What an XRECV does with the payload of its message, by KIND (R11, R154, R211, R213, R225, R248, R251).
-/

namespace Sys2Proof.Machine

/-! ### The work by KIND -/

/-- A request that is taken. -/
def requestTaken (i : Nat) (x : XWord) (b : List Byte) (s : State) : State :=
  setStatus i 0 false (modRun (fun r => { r with rowreqIn := r.rowreqIn ++ [(x.peer, x.msg, b)] }) (storeWrite x.core x.addr b s))

section

variable (i : Nat) {x : XWord} (b : List Byte) (s : State)

theorem xrecvTake_psum (kind : x.kind = 0) : xrecvTake i x b s = takePsum i x b s := by
  rw [xrecvTake, if_pos kind]

theorem xrecvTake_request (kind : x.kind = 1) : xrecvTake i x b s = requestTaken i x b s := by
  rw [xrecvTake, kind]
  rfl

theorem xrecvTake_agree (kind : x.kind = 4) : xrecvTake i x b s = setStatus i 0 false (takeAgree x.peer b s) := by
  rw [xrecvTake, kind]
  rfl

/-- Tiles and gradients are stored, and are then the partition's. -/
theorem xrecvTake_stored (kind : x.kind = 2 ∨ x.kind = 3) : xrecvTake i x b s = setStatus i 0 false
    ((corePart s x.core).elim (storeWrite x.core x.addr b s) (fun p =>
      if x.kind = 2 then takeRows x.peer p b.length b (storeWrite x.core x.addr b s)
      else takeGrad p b.length b (storeWrite x.core x.addr b s))) := by
  have part := corePart_storeWrite x.core x.addr b s x.core
  obtain h | h := kind
  · rw [xrecvTake, h]
    change setStatus i 0 false (match corePart (storeWrite x.core x.addr b s) x.core with | none => _ | some p => _) = _
    rw [part]
    cases corePart s x.core <;> rfl
  · rw [xrecvTake, h]
    change setStatus i 0 false (match corePart (storeWrite x.core x.addr b s) x.core with | none => _ | some p => _) = _
    rw [part]
    cases corePart s x.core <;> rfl

theorem xrecvTake_digest (kind : x.kind = 5) : xrecvTake i x b s = setStatus i 0 false
    ((corePart s x.core).elim s (fun p => takeDigest x.peer p b s)) := by
  rw [xrecvTake, kind]
  change setStatus i 0 false (match corePart s x.core with | none => _ | some p => _) = _
  cases corePart s x.core <;> rfl

end

/-! ### Digests compared (R225) -/

section

variable {src : Coord} {p : Part} {b : List Byte} {s : State}

theorem takeDigest_agree (agree : ∀ d ∈ sharedDigests s p src, (d.2.1, (slotOf s d.1).tag.toNat, d.2.2.toNat) ∈
    (chunk 16 (b.length / 16) b).map (fun e => (leAt e 2 2, leAt e 4 4, leAt e 8 8))) : takeDigest src p b s = s := by
  unfold takeDigest
  generalize sharedDigests s p src = l at agree
  induction l with
  | nil => rfl
  | cons d r ih =>
    rw [List.foldl_cons, if_pos (List.contains_iff_mem.mpr (agree d List.mem_cons_self))]
    exact ih fun d hd => agree d (List.mem_cons_of_mem _ hd)

theorem takeDigest_one {d : Nat × Nat × BitVec 64} (one : sharedDigests s p src = [d])
    (differs : (d.2.1, (slotOf s d.1).tag.toNat, d.2.2.toNat) ∉
      (chunk 16 (b.length / 16) b).map (fun e => (leAt e 2 2, leAt e 4 4, leAt e 8 8))) :
    takeDigest src p b s = freezeVersion p d.1 d.2.1 src s := by
  rw [takeDigest, one, List.foldl_cons, List.foldl_nil, if_neg (fun h => differs (List.contains_iff_mem.mp h))]

end

/-! ### The word by KIND -/

theorem payloadUnits_of {s v : State} {c : Vector CoreSt 64} {k : Vector ClusterSt 8} {m : Memory} {p : Vector PartSt 16} {r : Run}
    (h : v = { s with cores := c, clusters := k, hbm := m, parts := p, run := r }) : PayloadUnits s v := by
  rw [h]

theorem Logged.corePart {s u : State} (h : Logged s u) (n : CoreIx) : Machine.corePart u n = Machine.corePart s n := by
  obtain ⟨a, b, c, rfl⟩ := h
  rfl

theorem Logged.ptr {s u : State} (h : Logged s u) : u.run.ptr = s.run.ptr := by
  obtain ⟨a, b, c, rfl⟩ := h
  rfl

theorem xchgOver_of_payload {s v : State} (q : Nat) (w : IWord) (rest : PayloadUnits s v) (kept : keepAssign s v = v.cores) :
    footXchg s (finishWord q 1 w v) = finishWord q 1 w v :=
  footXchg_of_payload (congrArg (finishWord q 1 w) rest :) kept

theorem finishWord_keeps_units {s v : State} (q : Nat) (w : IWord) (rest : v = { s with cores := v.cores, run := v.run }) :
    finishWord q 1 w v = { s with cores := (finishWord q 1 w v).cores, run := (finishWord q 1 w v).run } :=
  (congrArg (finishWord q 1 w) rest :)

/-- A word that changes cores and the running step alone. -/
theorem xchgOver_of_stored {s u v : State} (logged : Logged s u) (rest : v = { u with cores := v.cores, run := v.run })
    (kept : keepAssign u v = v.cores) (ptr : v.run.ptr = u.run.ptr) (q : Nat) (w : IWord) : ∃ t, footXchg s (finishWord q 1 w v) = t ∧
      t = finishWord q 1 w v ∧ wordPassed s t q ∧ t = { s with cores := t.cores, run := t.run } := by
  obtain ⟨a, b, c, rfl⟩ := logged
  exact ⟨finishWord q 1 w v, xchgOver_of_payload q w (payloadUnits_of rest) kept, rfl, congrArg (fun t => tabMod 0 t q (· + 1)) ptr,
    finishWord_keeps_units q w rest⟩

theorem storedAlone_left {s u : State} (logged : Logged s u) (q i : Nat) (w : IWord) (x : XWord) (b : List Byte) :
    ∃ t, footXchg s (finishWord q 1 w (setStatus i 0 false (storeWrite x.core x.addr b u))) = t ∧
      t = finishWord q 1 w (setStatus i 0 false (storeWrite x.core x.addr b u)) ∧ wordPassed s t q ∧
      t = { s with cores := t.cores, run := t.run } :=
  xchgOver_of_stored logged (v := setStatus i 0 false (storeWrite x.core x.addr b u)) rfl (keepAssign_storeWrite x.core x.addr b u) rfl q w

/-- A word that also changes the partitions. -/
theorem xchgOver_of_counted {s u v : State} (logged : Logged s u)
    (rest : v = { u with cores := v.cores, parts := v.parts, run := v.run }) (kept : keepAssign u v = v.cores) (q : Nat) (w : IWord) :
    ∃ t, footXchg s (finishWord q 1 w v) = t ∧ t = { s with cores := t.cores, parts := t.parts, run := t.run } ∧ t.parts = v.parts := by
  obtain ⟨a, b, c, rfl⟩ := logged
  exact ⟨finishWord q 1 w v, xchgOver_of_payload q w (payloadUnits_of rest) kept, (congrArg (finishWord q 1 w) rest :), rfl⟩

/-- A word that also changes HBM. -/
theorem xchgOver_of_placed {s u v : State} (logged : Logged s u)
    (rest : v = { u with cores := v.cores, hbm := v.hbm, run := v.run }) (kept : keepAssign u v = v.cores) (q : Nat) (w : IWord) :
    ∃ t, footXchg s (finishWord q 1 w v) = t ∧ t = { s with cores := t.cores, hbm := t.hbm, run := t.run } ∧ t.hbm = v.hbm ∧
      t.run.rowsGot = v.run.rowsGot := by
  obtain ⟨a, b, c, rfl⟩ := logged
  exact ⟨finishWord q 1 w v, xchgOver_of_payload q w (payloadUnits_of rest) kept, (congrArg (finishWord q 1 w) rest :), rfl, rfl⟩

theorem footXchg_of_agrees (s : State) (a : Vector (Option (BitVec 512)) 6) (r : Run) :
    footXchg s { s with mc := { s.mc with agrees := a }, run := r } = { s with mc := { s.mc with agrees := a }, run := r } := by
  have cores : keepAssign s { s with mc := { s.mc with agrees := a }, run := r } = s.cores := keepAssign_cores s _ rfl
  rw [footXchg, footWord, cores]

section

variable {port : PortIx} {s : State} {i : Nat} {w : IWord} {m : InMsg} (ready : readyWord s (205 + port.val) = some (i, w))
  (idle : noFlight s (205 + port.val)) (op : wOp w = 0x71) (found : awaited w s = some m)
include ready idle op found

/-- A word's payload takes effect. -/
theorem execXrecv_worked (fits : (xWord w).kind ≤ 3 → (blockTaken s i m.body).length ≤ (xWord w).len) {f : State → State}
    (work : ∀ u, xrecvTake i (xWord w) (blockTaken s i m.body) u = f u) :
    ∃ u, Logged s u ∧ exec (.xrecv port) s = .next (footXchg s (finishWord (205 + port.val) 1 w (f u))) := by
  obtain ⟨u, logged, hw⟩ := xrecvWork_taken (i := i) found fits
  exact ⟨u, logged, execXrecv_done ready idle op (hw.trans (congrArg some (work u)))⟩

/-- A request is stored and kept for the owner's answer. -/
theorem execXrecv_request (kind : (xWord w).kind = 1) (fits : (blockTaken s i m.body).length ≤ (xWord w).len) :
    let x := xWord w
    let b := blockTaken s i m.body
    ∃ t, exec (.xrecv port) s = .next t ∧ wordPassed s t (205 + port.val) ∧ t = { s with cores := t.cores, run := t.run } ∧
      t.run.rowreqIn = s.run.rowreqIn ++ [(x.peer, x.msg, b)] ∧ (∀ n : CoreIx, n ≠ x.core → t.cores[n] = s.cores[n]) ∧
      (Memory.wf s.cores[x.core].store = true → x.addr + b.length ≤ Config.coreStoreBytes →
        memRead t.cores[x.core].store x.addr b.length = b ∧
        ∀ a, a < x.addr ∨ x.addr + b.length ≤ a → memByte t.cores[x.core].store a = memByte s.cores[x.core].store a) := by
  intro x b
  obtain ⟨u, logged, done⟩ := execXrecv_worked ready idle op found (fun _ => fits) (fun u => xrecvTake_request i b u kind)
  obtain ⟨t, same, ends, passed, left⟩ := xchgOver_of_stored logged (v := requestTaken i x b u) rfl
    (keepAssign_storeWrite x.core x.addr b u) rfl (205 + port.val) w
  have cores : t.cores = (storeWrite x.core x.addr b u).cores := (congrArg State.cores ends :)
  have rows : t.run.rowreqIn = u.run.rowreqIn ++ [(x.peer, x.msg, b)] := (congrArg (fun t => t.run.rowreqIn) ends :)
  obtain ⟨a, l, c, rfl⟩ := logged
  refine ⟨t, done.trans (congrArg Host.Outcome.next same), passed, left, rows, fun n other => ?_, fun wf room => ?_⟩
  · rw [cores]
    exact storeWrite_others x.core n other x.addr b (withLog a l c s)
  · have whole : b.take (Config.coreStoreBytes - x.addr) = b := List.take_of_length_le (Nat.le_sub_of_add_le' room)
    have store : t.cores[x.core].store = memWrite s.cores[x.core].store x.addr b := by
      rw [cores, storeWrite_store, whole]
      rfl
    rw [store]
    exact ⟨memRead_memWrite_same wf x.addr b, fun a out => memByte_memWrite_outside _ x.addr b a out⟩

/-- Tiles and gradients of a core that no partition has are stored alone. -/
theorem execXrecv_unowned (kind : (xWord w).kind = 2 ∨ (xWord w).kind = 3) (fits : (blockTaken s i m.body).length ≤ (xWord w).len)
    (free : corePart s (xWord w).core = none) : ∃ t, exec (.xrecv port) s = .next t ∧
      wordPassed s t (205 + port.val) ∧ t = { s with cores := t.cores, run := t.run } := by
  obtain ⟨u, logged, done⟩ := execXrecv_worked ready idle op found (fun _ => fits) fun u =>
    xrecvTake_stored i (blockTaken s i m.body) u kind
  rw [logged.corePart, free, Option.elim_none] at done
  obtain ⟨t, same, -, left⟩ := storedAlone_left logged (205 + port.val) i w (xWord w) (blockTaken s i m.body)
  exact ⟨t, done.trans (congrArg Host.Outcome.next same), left⟩

/-- Digests for a core that no partition has are compared with nothing. -/
theorem execXrecv_unshared (kind : (xWord w).kind = 5) (free : corePart s (xWord w).core = none) :
    ∃ t, exec (.xrecv port) s = .next t ∧ wordPassed s t (205 + port.val) ∧ t = { s with run := t.run } := by
  obtain ⟨_, ⟨a, l, c, rfl⟩, done⟩ := execXrecv_worked ready idle op found (fun le => by omega) fun u =>
    xrecvTake_digest i (blockTaken s i m.body) u kind
  rw [Logged.corePart ⟨a, l, c, rfl⟩, free, Option.elim_none] at done
  exact ⟨_, done, rfl, xchgOver_run rfl _ w⟩

/-- An agreement word stands for its neighbour, and its summary is ORed in. -/
theorem execXrecv_agree (kind : (xWord w).kind = 4) :
    let x := xWord w
    let b := blockTaken s i m.body
    ∃ t, exec (.xrecv port) s = .next t ∧ wordPassed s t (205 + port.val) ∧ t = { s with mc := t.mc, run := t.run } ∧
      t.run.summary = s.run.summary ||| BitVec.ofNat 32 (nfld (leAt b 0 64) 160 32) ∧
      ∀ q, portOf s x.peer = some q → t.mc = { s.mc with agrees := t.mc.agrees } ∧
        t.mc.agrees[q] = some (BitVec.ofNat 512 (leAt b 0 64)) := by
  intro x b
  obtain ⟨_, ⟨a, l, c, rfl⟩, done⟩ := execXrecv_worked ready idle op found (fun le => by omega) fun u => xrecvTake_agree i b u kind
  have frame := takeAgree_frame x.peer b (withLog a l c s)
  have run := takeAgree_run x.peer b (withLog a l c s)
  have agrees {q : PortIx} (port : portOf s x.peer = some q) :=
    takeAgree_agrees (s := withLog a l c s) port b
  generalize takeAgree x.peer b _ = v at done frame run agrees
  have left : footXchg s (finishWord (205 + port.val) 1 w (setStatus i 0 false v)) =
      { s with mc := { s.mc with agrees := v.mc.agrees }, run := (finishWord (205 + port.val) 1 w (setStatus i 0 false v)).run } :=
    (congrArg (fun t => footXchg s (finishWord (205 + port.val) 1 w (setStatus i 0 false t))) frame).trans (footXchg_of_agrees s _ _)
  rw [left] at done
  refine ⟨_, done, ?_, rfl, ?_, fun q port => ⟨rfl, agrees port⟩⟩
  · exact congrArg (fun r => tabMod 0 r.ptr (205 + port.val) (· + 1)) run
  · exact congrArg Run.summary run

section

variable {p : Part} (own : corePart s (xWord w).core = some p)
include own

/-- Gradient tiles too short for a header do nothing; tiles for a slot without an adapter are discarded, and count one. -/
theorem execXrecv_grad (kind : (xWord w).kind = 3) (fits : (blockTaken s i m.body).length ≤ (xWord w).len) :
    let b := blockTaken s i m.body
    ∃ t, exec (.xrecv port) s = .next t ∧ wordPassed s t (205 + port.val) ∧
      (b.length < 8 → t = { s with cores := t.cores, run := t.run }) ∧
      (8 ≤ b.length → (slotOf s (leAt b 0 2)).rank = 0 → t = { s with cores := t.cores, parts := t.parts, run := t.run } ∧
        t.parts[p].counted.trainDiscard = s.parts[p].counted.trainDiscard + 1) := by
  intro b
  obtain ⟨u, logged, done⟩ := execXrecv_worked ready idle op found (fun _ => fits) fun u => xrecvTake_stored i b u (.inr kind)
  rw [logged.corePart, own, Option.elim_some, if_neg (by omega)] at done
  refine ⟨_, done, wordPassed_of_marks (.inr ?_) _ w, fun short => ?_, fun long rank => ?_⟩
  · exact (congrArg Prod.fst (wordMarks_takeGrad p b.length b (storeWrite (xWord w).core (xWord w).addr b u)) :).trans logged.ptr
  · obtain ⟨t, same, -, -, left⟩ := storedAlone_left logged (205 + port.val) i w (xWord w) b
    rw [takeGrad_short _ _ short, same]
    exact left
  · have none : (slotOf (storeWrite (xWord w).core (xWord w).addr b u) (leAt b 0 2)).rank = 0 := by
      obtain ⟨a, l, c, rfl⟩ := logged
      exact rank
    obtain ⟨t, same, left, parts⟩ := xchgOver_of_counted logged
      (v := setStatus i 0 false (countDiscard p 1 (storeWrite (xWord w).core (xWord w).addr b u))) rfl
      (keepAssign_storeWrite (xWord w).core (xWord w).addr b u) (205 + port.val) w
    rw [takeGrad_empty long none, same]
    refine ⟨left, ?_⟩
    rw [parts]
    obtain ⟨a, l, c, rfl⟩ := logged
    exact congrArg (fun q : PartSt => q.counted.trainDiscard) (vmod_same s.parts p _)

/-- Tiles too short for a header do nothing. -/
theorem execXrecv_rows_short (kind : (xWord w).kind = 2) (fits : (blockTaken s i m.body).length ≤ (xWord w).len)
    (short : (blockTaken s i m.body).length < 16) : ∃ t, exec (.xrecv port) s = .next t ∧ wordPassed s t (205 + port.val) ∧
      t = { s with cores := t.cores, run := t.run } := by
  obtain ⟨u, logged, done⟩ := execXrecv_worked ready idle op found (fun _ => fits) fun u =>
    xrecvTake_stored i (blockTaken s i m.body) u (.inl kind)
  rw [logged.corePart, own, Option.elim_some, if_pos kind, takeRows_short _ _ short] at done
  obtain ⟨t, same, -, left⟩ := storedAlone_left logged (205 + port.val) i w (xWord w) (blockTaken s i m.body)
  exact ⟨t, done.trans (congrArg Host.Outcome.next same), left⟩

/-- One OK tile goes to the first mirror that awaits it. -/
theorem execXrecv_rows_tile (kind : (xWord w).kind = 2) (fits : (blockTaken s i m.body).length ≤ (xWord w).len) :
    let x := xWord w
    let b := blockTaken s i m.body
    Memory.wf s.hbm = true → leAt b 0 8 / 2 ^ 52 % 4 = 0 →
    ∀ y r, askingMirrors s x.peer p (tileAsk b) = y :: r → (matNo (tileAsk b), (tileAsk b).tile) ∉ y.2.arrived →
      (y.2.mirNo, matNo (tileAsk b), (tileAsk b).tile) ∉ s.run.rowsGot →
      let e := dirEnt s.hbm y.2.area (tileAsk b).target (tileAsk b).matB
      (tileAsk b).tile < recLayers s y.2 * e.tpl → askedTileLen s x.peer (tileAsk b) b.length = b.length →
      rowsTileLen e.tbytes = b.length →
      e.codes + ((tileAsk b).tile + 1) * e.tbytes ≤ e.scales → ∃ t, exec (.xrecv port) s = .next t ∧
        t = { s with cores := t.cores, hbm := t.hbm, run := t.run } ∧ (y.2.mirNo, matNo (tileAsk b), (tileAsk b).tile) ∈ t.run.rowsGot ∧
        memRead t.hbm (y.2.area + e.codes + (tileAsk b).tile * e.tbytes) e.tbytes = slice b 16 e.tbytes ∧
        memByte t.hbm (y.2.area + e.scales + (tileAsk b).tile) = b.getD (16 + e.tbytes) 0 := by
  intro x b wf ok y r asking new fresh e inside asked len apart
  obtain ⟨u, logged, done⟩ := execXrecv_worked ready idle op found (fun _ => fits) fun u => xrecvTake_stored i b u (.inl kind)
  obtain ⟨a, l, c, hu⟩ := id logged
  have placed : takeRows x.peer p b.length b (storeWrite x.core x.addr b u) =
      tilePlaced y.2 (matNo (tileAsk b)) e (tileAsk b).tile b (storeWrite x.core x.addr b u) := by
    rw [hu]
    exact takeRows_single (s := storeWrite x.core x.addr b (withLog a l c s)) ok asking new fresh inside asked len
  rw [logged.corePart, own, Option.elim_some, if_pos kind] at done
  change exec _ _ = .next (footXchg s (finishWord _ 1 w (setStatus i 0 false
    (takeRows x.peer p b.length b (storeWrite x.core x.addr b u))))) at done
  rw [placed] at done
  obtain ⟨t, same, left, hbm, got⟩ := xchgOver_of_placed logged
    (v := setStatus i 0 false (tilePlaced y.2 (matNo (tileAsk b)) e (tileAsk b).tile b (storeWrite x.core x.addr b u))) rfl
    (keepAssign_storeWrite x.core x.addr b u) (205 + port.val) w
  have memory : t.hbm = (tilePlaced y.2 (matNo (tileAsk b)) e (tileAsk b).tile b s).hbm := by
    rw [hbm, hu]
    rfl
  obtain ⟨codes, scale⟩ := tilePlaced_hbm (r := y.2) (k := matNo (tileAsk b)) (tile := (tileAsk b).tile) (e := e) (b := b) wf apart
  refine ⟨t, done.trans (congrArg Host.Outcome.next same), left, ?_, ?_, ?_⟩
  · rw [got]
    exact List.mem_append_right _ (List.mem_singleton_self _)
  · rw [memory]
    exact codes
  · rw [memory]
    exact scale

/-- Digests that agree change nothing. -/
theorem execXrecv_digests_agree (kind : (xWord w).kind = 5) :
    let x := xWord w
    let b := blockTaken s i m.body
    (∀ d ∈ sharedDigests s p x.peer, (d.2.1, (slotOf s d.1).tag.toNat, d.2.2.toNat) ∈
      (chunk 16 (b.length / 16) b).map (fun e => (leAt e 2 2, leAt e 4 4, leAt e 8 8))) →
    ∃ t, exec (.xrecv port) s = .next t ∧ wordPassed s t (205 + port.val) ∧ t = { s with run := t.run } := by
  intro x b agree
  obtain ⟨_, ⟨a, l, c, rfl⟩, done⟩ := execXrecv_worked ready idle op found (fun le => by omega) fun u => xrecvTake_digest i b u kind
  rw [Logged.corePart ⟨a, l, c, rfl⟩, own, Option.elim_some, takeDigest_agree (s := withLog a l c s) agree] at done
  exact ⟨_, done, rfl, xchgOver_run rfl _ w⟩

/-- A digest that differs freezes its adapter. -/
theorem execXrecv_digest_differs (kind : (xWord w).kind = 5) :
    let x := xWord w
    let b := blockTaken s i m.body
    ∀ d, sharedDigests s p x.peer = [d] → (d.2.1, (slotOf s d.1).tag.toNat, d.2.2.toNat) ∉
      (chunk 16 (b.length / 16) b).map (fun e => (leAt e 2 2, leAt e 4 4, leAt e 8 8)) → tabWf {} s.slots = true →
    ∃ t, exec (.xrecv port) s = .next t ∧ wordPassed s t (205 + port.val) ∧ (slotOf t d.1).frozen = true ∧
      (slotOf t d.1).st = (slotOf s d.1).st := by
  intro x b d one differs wf
  obtain ⟨_, ⟨a, l, c, rfl⟩, done⟩ := execXrecv_worked ready idle op found (fun le => by omega) fun u => xrecvTake_digest i b u kind
  rw [Logged.corePart ⟨a, l, c, rfl⟩, own, Option.elim_some, takeDigest_one (s := withLog a l c s) one differs] at done
  refine ⟨_, done, wordPassed_of_marks (.inr ?_) _ w, ?_⟩
  · exact congrArg Prod.fst (wordMarks_freezeVersion p d.1 d.2.1 x.peer _)
  · exact freezeVersion_slot (s := withLog a l c s) wf p d.1 d.2.1 x.peer

end

end

end Sys2Proof.Machine
end

section
/-!
PROOFS. The payload of a PSUM word, and the obligation on exchange messages taken (R10, R248).
-/

namespace Sys2Proof.Machine

section

variable {port : PortIx} {s : State} {i : Nat} {w : IWord} {m : InMsg} (ready : readyWord s (205 + port.val) = some (i, w))
  (idle : noFlight s (205 + port.val)) (op : wOp w = 0x71) (found : awaited w s = some m) (kind : (xWord w).kind = 0)
  (fits : (blockTaken s i m.body).length ≤ (xWord w).len)
include ready idle op found kind fits

/-- A PSUM for no reduction, or for a segment that the batch lacks, is passed over. -/
theorem execXrecv_psum_passed (sound : s.run.hw.any (fun f => faultHits s.run f.1 i) = false)
    (none : psumReduce s (xWord w) = none ∨ ∃ r, psumReduce s (xWord w) = some r ∧ s.run.segs.length ≤ r.seg) :
    ∃ t, exec (.xrecv port) s = .next t ∧ wordPassed s t (205 + port.val) ∧ t = { s with run := t.run } ∧
      tabGet 0 t.run.status i = 4 := by
  obtain ⟨_, ⟨a, l, c, rfl⟩, done⟩ := execXrecv_worked ready idle op found (fun _ => fits) fun u => xrecvTake_psum i _ u kind
  rw [takePsum_passed (s := withLog a l c s) none] at done
  refine ⟨_, done, rfl, xchgOver_run rfl _ w, ?_⟩
  change tabGet 0 (tabSet 0 s.run.status i (BitVec.ofNat 8 (if s.run.hw.any (fun f => faultHits s.run f.1 i) then 2 else 4))) i = 4
  rw [sound]
  exact tabGet_tabSet_same 0 (4 : Byte) _ i (by decide)

/-- A PSUM of a reduction: entered when its headers agree with its source's shard, discarded otherwise. -/
theorem execXrecv_psum (sound : s.run.hw.any (fun f => faultHits s.run f.1 i) = false) (wf : tabWf 0 s.run.status = true)
    {r : ReduceWord} (red : psumReduce s (xWord w) = some r) (seg : r.seg < s.run.segs.length) :
    let x := xWord w
    let b := blockTaken s i m.body
    let sg := s.run.segs.getD r.seg {}
    let reds := tabGet [] s.clusters[clusterOf x.core].reds x.rid
    ∃ t, exec (.xrecv port) s = .next t ∧ wordPassed s t (205 + port.val) ∧
      t = { s with cores := t.cores, clusters := t.clusters, run := t.run } ∧
      ∀ node, shardNode s sg x.peer = some node → tabWf [] s.clusters[clusterOf x.core].reds = true →
      (psumAgrees node sg.version (psumPartsOf s r b) = true → tabGet 0 t.run.status i = 0 ∧
        tabGet [] t.clusters[clusterOf x.core].reds x.rid = (psumNodesOf s x r b).foldl enterNode reds) ∧
      (psumAgrees node sg.version (psumPartsOf s r b) = false →
        tabGet 0 t.run.status i = 6 ∧ t.cores = s.cores ∧
        (∃ e, (i, sg.part, e) ∈ t.run.wordErrs ∧ e.code = 0x0B ∧ e.info0 = x.peer.toNat) ∧
        (reds = [] → ∀ y ∈ tabGet [] t.clusters[clusterOf x.core].reds x.rid,
          y.level = node.1 ∧ y.node = node.2 ∧ ∀ v ∈ y.lanes, v = f32Nan)) := by
  intro x b sg reds
  obtain ⟨_, ⟨a, l, c, rfl⟩, done⟩ := execXrecv_worked ready idle op found (fun _ => fits) fun u => xrecvTake_psum i _ u kind
  obtain ⟨rest, kept, ptr⟩ := takePsum_frame i x b (withLog a l c s) red seg
  have units : PayloadUnits s (takePsum i x b (withLog a l c s)) := payloadUnits_of rest
  have whole := xchgOver_of_payload (205 + port.val) w units kept
  refine ⟨_, done.trans (congrArg Host.Outcome.next whole), congrArg (fun t => tabMod 0 t (205 + port.val) (· + 1)) ptr,
    (congrArg (finishWord (205 + port.val) 1 w) rest :), fun node shard reds' => ⟨fun agrees => ?_, fun differs => ?_⟩⟩
  · have entered := takePsum_entered (i := i) (x := x) (b := b) (s := withLog a l c s) red seg shard agrees
    change tabGet 0 (takePsum i x b (withLog a l c s)).run.status i = 0 ∧
      tabGet [] (takePsum i x b (withLog a l c s)).clusters[clusterOf x.core].reds x.rid = _
    rw [entered]
    exact ⟨psumEntered_status (s := withLog a l c s) sound wf, psumEntered_reds (s := withLog a l c s) reds'⟩
  · have rejected := takePsum_rejected (i := i) (x := x) (b := b) (s := withLog a l c s) red seg shard differs
    change tabGet 0 (takePsum i x b (withLog a l c s)).run.status i = 6 ∧ (takePsum i x b (withLog a l c s)).cores = s.cores ∧
      (∃ e, (i, sg.part, e) ∈ (takePsum i x b (withLog a l c s)).run.wordErrs ∧ _) ∧
      (reds = [] → ∀ y ∈ tabGet [] (takePsum i x b (withLog a l c s)).clusters[clusterOf x.core].reds x.rid, _)
    rw [rejected]
    exact ⟨psumRejected_status (s := withLog a l c s) sound,
      (congrArg State.cores (psumRejected_frame i x r node b (withLog a l c s)) :), psumRejected_entry (s := withLog a l c s),
      fun empty => psumRejected_nan (s := withLog a l c s) reds' empty⟩

end

/-- Settles O31: by the cases of an XRECV's work, the source that is lost among them, and what each KIND of payload does. -/
theorem exchangeMessagesTaken : Obligations.ExchangeMessagesTaken := by
  unfold Obligations.ExchangeMessagesTaken
  refine ⟨fun port s i w ready idle op => ?_, fun port s i w m ready idle op => ?_⟩
  · intro x has
    refine ⟨fun none live => execXrecv_waits ready idle op (xrecvWork_waits none live), fun lost => ?_, fun m found => ?_⟩
    · have work : ∃ u, Logged s u ∧ xrecvWork i w s = some (noSource i x u) := by
        obtain ⟨none, lost⟩ | ⟨m, found, kind, long⟩ := lost
        · exact ⟨s, .refl s, xrecvWork_lost none lost⟩
        · exact xrecvWork_long found kind long
      obtain ⟨u, logged, work⟩ := work
      exact execXrecv_noSource ready idle op logged work
    · intro b
      refine ⟨execXrecv_request ready idle op found, execXrecv_agree ready idle op found, execXrecv_unowned ready idle op found,
        execXrecv_unshared ready idle op found, fun p own => ⟨execXrecv_grad ready idle op found own, fun kind short fits =>
          execXrecv_rows_short ready idle op found own kind fits short, fun kind fits =>
          execXrecv_rows_tile ready idle op found own kind fits, fun kind => execXrecv_digests_agree ready idle op found own kind, fun kind =>
          execXrecv_digest_differs ready idle op found own kind⟩⟩
  · intro x b kind found fits sound wf
    refine ⟨execXrecv_psum_passed ready idle op found kind fits sound, fun r red seg => ?_⟩
    intro sg parts reds
    obtain ⟨t, done, passed, rest, ends⟩ := execXrecv_psum ready idle op found kind fits sound wf red seg
    refine ⟨t, done, passed, rest, fun node shard reds' => ⟨fun agrees => ?_, (ends node shard reds').2⟩⟩
    obtain ⟨status, nodes⟩ := (ends node shard reds').1 agrees
    refine ⟨status, fun y hy => ?_, fun y hy => ?_⟩
    · rw [nodes]
      exact foldl_enterNode_kept _ _ hy
    · rw [nodes]
      exact foldl_enterNode_placed _ _ hy

end Sys2Proof.Machine
end

section
/-!
PROOFS. The steps that a FACEIN word is made of: rows poisoned, rows written to cores, stationary tiles, entries and status; and what they
leave (R151, R153, R199, R200, R482).
-/

namespace Sys2Proof.Machine

/-! ### What the steps of a FACEIN word leave -/

/-- A step of a FACEIN word: cores, clusters, and of the running step the poisoned rows and the training summary, which grow, status
bytes and error entries. -/
structure FaceStep (s t : State) : Prop where
  /-- Nothing else changes. -/
  rest : t = { s with cores := t.cores, clusters := t.clusters, run := t.run }
  /-- Of the running step. -/
  run : t.run = { s.run with
    poison := t.run.poison, summary := t.run.summary, status := t.run.status, wordErrs := t.run.wordErrs, otherErrs := t.run.otherErrs }
  /-- A poisoned row stays poisoned. -/
  poison : ∀ x ∈ s.run.poison, x ∈ t.run.poison
  /-- A bit of the summary stays. -/
  summary : ∀ k, s.run.summary.getLsbD k = true → t.run.summary.getLsbD k = true

theorem FaceStep.refl (s : State) : FaceStep s s := ⟨rfl, rfl, fun _ h => h, fun _ h => h⟩

theorem FaceStep.trans {s t u : State} (h : FaceStep s t) (k : FaceStep t u) : FaceStep s u where
  rest := by rw [k.rest, h.rest]
  run := by rw [k.run, h.run]
  poison x hx := k.poison x (h.poison x hx)
  summary j hj := k.summary j (h.summary j hj)

theorem faceStep_foldl {α : Type} {f : State → α → State} (h : ∀ s x, FaceStep s (f s x)) (l : List α) (s : State) :
    FaceStep s (l.foldl f s) := by
  induction l generalizing s with
  | nil => exact .refl s
  | cons x r ih => exact (h s x).trans (ih (f s x))

theorem faceStep_setStatus (i code : Nat) (s : State) : FaceStep s (setStatus i code false s) := ⟨rfl, rfl, fun _ h => h, fun _ h => h⟩

theorem faceStep_wordErr (i : Nat) (p : Part) (e : ErrEntry) (s : State) : FaceStep s (wordErr i (some p) e s) :=
  ⟨rfl, rfl, fun _ h => h, fun _ h => h⟩

theorem faceStep_stepErr (p : Part) (e : ErrEntry) (s : State) : FaceStep s (stepErr p e s) := ⟨rfl, rfl, fun _ h => h, fun _ h => h⟩

theorem faceStep_modCluster (c : ClusterIx) (g : ClusterSt → ClusterSt) (s : State) : FaceStep s (modCluster c g s) :=
  ⟨rfl, rfl, fun _ h => h, fun _ h => h⟩

theorem faceStep_summaryBits (p : Part) (active ovf : Bool) (s : State) : FaceStep s (summaryBits p active ovf s) := by
  refine ⟨rfl, rfl, fun _ h => h, fun k h => ?_⟩
  rw [summaryBits, modRun_run, BitVec.getLsbD_or, h, Bool.true_or]

/-- A row noted as poisoned. -/
def notePoison (f : FaceIx) (row : Nat) (s : State) : State := modRun (fun r => { r with poison := r.poison ++ [(f, row)] }) s

theorem poisonRow_eq (f : FaceIx) (row : Nat) (s : State) : poisonRow f row s = if tagGrad (tagOf s row) then
    summaryBits (tagPart (tagOf s row)) true true (notePoison f row s) else notePoison f row s := rfl

theorem faceStep_poisonRow (f : FaceIx) (row : Nat) (s : State) : FaceStep s (poisonRow f row s) := by
  have mark : FaceStep s (notePoison f row s) :=
    ⟨rfl, rfl, fun _ h => List.mem_append_left _ h, fun _ h => h⟩
  rw [poisonRow_eq]
  split
  · exact mark.trans (faceStep_summaryBits ..)
  · exact mark

/-! ### Rows that are poisoned (R482) -/

/-- Cores, clusters, and the entries for error rings from outside the words. -/
def faceUnits (s : State) : Vector CoreSt 64 × Vector ClusterSt 8 × List (Part × ErrEntry) := (s.cores, s.clusters, s.run.otherErrs)

theorem poisonRow_units (f : FaceIx) (row : Nat) (s : State) : faceUnits (poisonRow f row s) = faceUnits s := by
  rw [poisonRow_eq]
  split <;> rfl

theorem mem_poison_poisonRow (f : FaceIx) (row : Nat) (s : State) : (f, row) ∈ (poisonRow f row s).run.poison := by
  have mark : (f, row) ∈ s.run.poison ++ [(f, row)] := List.mem_append_right _ (List.mem_singleton_self _)
  rw [poisonRow_eq]
  split
  · exact mark
  · exact mark

/-- Rows of a face poisoned one after another. -/
def poisonRows (f : FaceIx) (rows : List Nat) (s : State) : State := rows.foldl (fun s r => poisonRow f r s) s

theorem faceStep_poisonRows (f : FaceIx) (rows : List Nat) (s : State) : FaceStep s (poisonRows f rows s) :=
  faceStep_foldl (fun s r => faceStep_poisonRow f r s) rows s

theorem mem_poison_poisonRows (f : FaceIx) {rows : List Nat} {r : Nat} (h : r ∈ rows) (s : State) :
    (f, r) ∈ (poisonRows f rows s).run.poison := by
  induction rows generalizing s with
  | nil => exact absurd h List.not_mem_nil
  | cons x rows ih =>
    obtain rfl | tail := List.mem_cons.mp h
    · exact (faceStep_poisonRows f rows _).poison _ (mem_poison_poisonRow f r s)
    · exact ih tail _

theorem poisonRows_units (f : FaceIx) (rows : List Nat) (s : State) : faceUnits (poisonRows f rows s) = faceUnits s :=
  foldl_kept (f := fun s r => poisonRow f r s) (fun s r => poisonRow_units f r s) rows s

/-! ### Partitions marked in the training summary (R213) -/

/-- The summary bits of partitions set. -/
def markParts (parts : List Part) (ovf : Bool) (s : State) : State := parts.foldl (fun s p => summaryBits p true ovf s) s

theorem faceStep_markParts (parts : List Part) (ovf : Bool) (s : State) : FaceStep s (markParts parts ovf s) :=
  faceStep_foldl (fun s p => faceStep_summaryBits p true ovf s) parts s

theorem markParts_units (parts : List Part) (ovf : Bool) (s : State) : faceUnits (markParts parts ovf s) = faceUnits s :=
  foldl_kept (f := fun s p => summaryBits p true ovf s) (fun _ _ => rfl) parts s

theorem markParts_summary {parts : List Part} {p : Part} (h : p ∈ parts) (ovf : Bool) (s : State) :
    (markParts parts ovf s).run.summary.getLsbD p.val = true ∧
      (ovf = true → (markParts parts ovf s).run.summary.getLsbD (16 + p.val) = true) := by
  induction parts generalizing s with
  | nil => exact absurd h List.not_mem_nil
  | cons x parts ih =>
    obtain rfl | tail := List.mem_cons.mp h
    · refine ⟨(faceStep_markParts parts ovf _).summary _ (summaryBits_active p ovf s), fun e => ?_⟩
      rw [e]
      exact (faceStep_markParts parts true _).summary _ (summaryBits_ovf p true s)
    · exact ih tail _

theorem mem_rowParts {s : State} {rows : List Nat} {r : Nat} (h : r ∈ rows) : tagPart (tagOf s r) ∈ rowParts s rows :=
  List.mem_filter.mpr ⟨List.mem_finRange _, List.any_eq_true.mpr ⟨r, h, decide_eq_true rfl⟩⟩

/-! ### Entries and status -/

theorem faceStep_faceBounds (w : FaceWord) (rows : List Nat) (expected got : Nat) (s : State) :
    FaceStep s (faceBounds w rows expected got s) := faceStep_foldl (fun s p => faceStep_stepErr p _ s) _ s

theorem faceBounds_units (w : FaceWord) (rows : List Nat) (expected got : Nat) (s : State) :
    ((faceBounds w rows expected got s).cores, (faceBounds w rows expected got s).clusters) = (s.cores, s.clusters) := by
  unfold faceBounds
  refine foldl_kept (g := fun s => (s.cores, s.clusters)) (fun s p => ?_) (rowParts s rows) s
  rfl

theorem faceStep_facePartTag (i : Nat) (failed : List Nat) (s : State) : FaceStep s (facePartTag i failed s) := by
  unfold facePartTag
  split
  · exact faceStep_setStatus i 0 s
  · exact (faceStep_foldl (fun s p => faceStep_wordErr i p _ s) _ s).trans (faceStep_setStatus i 3 _)

theorem facePartTag_units (i : Nat) (failed : List Nat) (s : State) : faceUnits (facePartTag i failed s) = faceUnits s := by
  have status (u : State) : faceUnits (setStatus i 3 false u) = faceUnits u := rfl
  unfold facePartTag
  split
  · rfl
  · refine (status _).trans (foldl_kept (fun s p => ?_) (rowParts s failed) s)
    rfl

/-! ### Stationary tiles (R200) -/

/-- A change of clusters alone. -/
def Stationed (s t : State) : Prop := FaceStep s t ∧ t.cores = s.cores

theorem Stationed.trans {s t u : State} (h : Stationed s t) (k : Stationed t u) : Stationed s u := ⟨h.1.trans k.1, k.2.trans h.2⟩

theorem stationed_foldl {α : Type} {f : State → α → State} (h : ∀ s x, Stationed s (f s x)) (l : List α) (s : State) :
    Stationed s (l.foldl f s) := by
  induction l generalizing s with
  | nil => exact ⟨.refl s, rfl⟩
  | cons x r ih => exact (h s x).trans (ih (f s x))

theorem stationed_stationTiles (s : State) (cl : ClusterIx) (f8g : Bool) (depth lanes width line seg : Nat) (data : Nat → List Byte)
    (t : State) : Stationed t (stationTiles s cl f8g depth lanes width line seg data t).1 := by
  have cluster (g : ClusterSt → ClusterSt) (u : State) : Stationed u (modCluster cl g u) := ⟨faceStep_modCluster cl g u, rfl⟩
  unfold stationTiles
  dsimp only
  split
  · exact (stationed_foldl (fun u g => stationed_foldl (fun u c => cluster _ u) _ u) _ t).trans (cluster _ _)
  · exact ⟨.refl t, rfl⟩

theorem stationed_stationAll (w : FaceWord) (grad : Bool) (width : Nat) (data : Nat → List Byte) (s : State) :
    Stationed s (stationAll w grad width data s) := by
  have segments (cl : ClusterIx) (l : List Nat) (x : State × Nat) : Stationed x.1 (l.foldl (fun x seg =>
      let rank := if seg < s.run.segs.length then (s.run.segs.getD seg {}).rank else (planRow s seg).rmax
      let d := if grad then shapeDims (bShape rank) else (32, 32)
      stationTiles s cl grad d.1 d.2 width x.2 seg data x.1) x).1 := by
    induction l generalizing x with
    | nil => exact ⟨.refl x.1, rfl⟩
    | cons y r ih => exact (stationed_stationTiles ..).trans (ih _)
  unfold stationAll
  split
  · exact ⟨.refl s, rfl⟩
  · exact stationed_foldl (fun t c => segments (Fin.ofNat 8 c) _ (t, w.addr * 16)) _ s

end Sys2Proof.Machine
end

section
/-!
PROOFS. The rows of a block written to the cores that they reach, whole or a piece each (R151, R153).
-/

namespace Sys2Proof.Machine

/-! ### Writes to core stores -/

/-- Writes to core stores: no assignment changes, and the form of every store stays. -/
structure Spread (s t : State) : Prop where
  /-- Cores alone. -/
  rest : t = { s with cores := t.cores }
  /-- The assignment of every core. -/
  part : ∀ n : CoreIx, t.cores[n].part = s.cores[n].part
  /-- The form of every store. -/
  wf : ∀ n : CoreIx, Memory.wf s.cores[n].store = true → Memory.wf t.cores[n].store = true

theorem Spread.refl (s : State) : Spread s s := ⟨rfl, fun _ => rfl, fun _ h => h⟩

theorem Spread.trans {s t u : State} (h : Spread s t) (k : Spread t u) : Spread s u :=
  ⟨by rw [k.rest, h.rest], fun n => (k.part n).trans (h.part n), fun n w => k.wf n (h.wf n w)⟩

theorem spread_foldl {α : Type} {f : State → α → State} (h : ∀ s x, Spread s (f s x)) (l : List α) (s : State) :
    Spread s (l.foldl f s) := by
  induction l generalizing s with
  | nil => exact .refl s
  | cons x r ih => exact (h s x).trans (ih (f s x))

theorem Spread.faceStep {s t : State} (h : Spread s t) : FaceStep s t := by
  rw [h.rest]
  exact ⟨rfl, rfl, fun _ h => h, fun _ h => h⟩

theorem spread_storeWrite (n : CoreIx) (a : Nat) (b : List Byte) (s : State) : Spread s (storeWrite n a b s) := by
  refine ⟨rfl, fun m => storeWrite_field (fun _ _ => rfl) n a b s m, fun m w => ?_⟩
  by_cases own : m = n
  · rw [own, storeWrite_store]
    rw [own] at w
    exact wf_memWrite _ a _ w
  · rw [storeWrite_others n m own]
    exact w

theorem spread_spreadRow (l : List CoreIx) (a : Nat) (split : Bool) (b : List Byte) (s : State) : Spread s (spreadRow l a split b s) :=
  spread_foldl (fun s (x : CoreIx × Nat) => spread_storeWrite x.1 a _ s) _ s

/-- The last bytes that a list of writes at one address gives a core. -/
theorem foldl_storeWrite_read {a : Nat} {n : CoreIx} {c : List Byte} {g : CoreIx × Nat → List Byte} {l : List (CoreIx × Nat)} {s : State}
    (own : ∀ x ∈ l, x.1 = n → g x = c) (some : ∃ x ∈ l, x.1 = n) (wf : Memory.wf s.cores[n].store = true)
    (room : a + c.length ≤ Config.coreStoreBytes) :
    memRead (l.foldl (fun s x => storeWrite x.1 a (g x) s) s).cores[n].store a c.length = c := by
  induction l using List.reverseRecOn with
  | nil => exact absurd some.choose_spec.1 List.not_mem_nil
  | append_singleton l x ih =>
    rw [List.foldl_append, List.foldl_cons, List.foldl_nil]
    by_cases hx : x.1 = n
    · have whole : (g x).take (Config.coreStoreBytes - a) = c := by
        rw [own x (List.mem_append_right _ (List.mem_singleton_self x)) hx]
        exact List.take_of_length_le (Nat.le_sub_of_add_le' room)
      have before := spread_foldl (fun s (x : CoreIx × Nat) => spread_storeWrite x.1 a (g x) s) l s
      rw [hx, storeWrite_store, whole]
      exact memRead_memWrite_same (before.wf n wf) a c
    · rw [storeWrite_others x.1 n (Ne.symm hx)]
      refine ih (fun y hy => own y (List.mem_append_left _ hy)) ?_
      obtain ⟨y, hy, e⟩ := some
      obtain tail | last := List.mem_append.mp hy
      · exact ⟨y, tail, e⟩
      · exact absurd (List.mem_singleton.mp last ▸ e) hx

/-- A row that is written whole stands in each of its cores. -/
theorem spreadRow_whole {l : List CoreIx} {a : Nat} {b : List Byte} {s : State} {n : CoreIx} (hn : n ∈ l)
    (wf : Memory.wf s.cores[n].store = true) (room : a + b.length ≤ Config.coreStoreBytes) :
    memRead (spreadRow l a false b s).cores[n].store a b.length = b := by
  obtain ⟨k, hk, rfl⟩ := List.getElem_of_mem hn
  exact foldl_storeWrite_read (g := fun _ => b) (fun _ _ _ => rfl)
    ⟨(l[k], k), List.mem_zipIdx_iff_getElem?.mpr (List.getElem?_eq_getElem hk), rfl⟩ wf room

/-- A row that is written in pieces stands a piece in each of its cores. -/
theorem spreadRow_pieces {l : List CoreIx} {a k : Nat} {b : List Byte} {s : State} {n : CoreIx} (hk : l[k]? = some n) (distinct : l.Nodup)
    (wf : Memory.wf s.cores[n].store = true) (room : a + b.length ≤ Config.coreStoreBytes) :
    memRead (spreadRow l a true b s).cores[n].store a (b.length / l.length) = slice b (k * (b.length / l.length)) (b.length / l.length) := by
  obtain ⟨lt, at_k⟩ := List.getElem?_eq_some_iff.mp hk
  have pos : max 1 l.length = l.length := by omega
  have len := slice_length b (k * (b.length / l.length)) (b.length / l.length)
  have piece : b.length / l.length ≤ b.length := Nat.div_le_self ..
  have read := foldl_storeWrite_read (a := a) (n := n) (l := l.zipIdx) (s := s)
    (g := fun x => slice b (x.2 * (b.length / max 1 l.length)) (b.length / max 1 l.length))
    (c := slice b (k * (b.length / l.length)) (b.length / l.length)) (fun x hx e => ?_)
    ⟨(n, k), List.mem_zipIdx_iff_getElem?.mpr hk, rfl⟩ wf (by omega)
  · rw [len] at read
    exact read
  · obtain ⟨lt', at_x⟩ := List.getElem?_eq_some_iff.mp (List.mem_zipIdx_iff_getElem?.mp hx)
    have same : x.2 = k := (List.Nodup.getElem_inj_iff distinct).mp ((at_x.trans e).trans at_k.symm)
    rw [same, pos]

/-! ### The rows of a block (R151, R153) -/

/-- The cores that a row reaches, with the address there and whether they share it. -/
def rowTarget (rank : Nat → Nat) (w : FaceWord) (s : State) (row : Nat) : Option (List CoreIx × Nat × Bool) :=
  if w.route then some (rowCores w 0, w.addr * 128 + rank row * w.stride * 128, false)
  else (rowPlace s row).map (fun x => (rowCores w (placeOf (planRow s x.1) x.2).1,
    (planRow s x.1).abase * 128 + (placeOf (planRow s x.1) x.2).2 * (planRow s x.1).astr * 128, w.split))

/-- A row reaches cores that are not all its partition's. -/
def rowFails (rank : Nat → Nat) (w : FaceWord) (s : State) (row : Nat) : Bool :=
  match rowTarget rank w s row with
  | some x => !coresOwned s x.1 (tagPart (tagOf s row))
  | none => false

/-- A row written where it belongs, or counted among those that fail. -/
def placeRow (rank : Nat → Nat) (w : FaceWord) (acc : List Nat × State) (x : Nat × List Byte) : List Nat × State :=
  match rowTarget rank w acc.2 x.1 with
  | some y =>
    if coresOwned acc.2 y.1 (tagPart (tagOf acc.2 x.1)) then (acc.1, spreadRow y.1 y.2.1 y.2.2 x.2 acc.2) else (acc.1 ++ [x.1], acc.2)
  | none => acc

theorem placeRows_eq (f : FaceIx) (w : FaceWord) (rows : List (Nat × List Byte)) (s : State) :
    placeRows f w rows s = rows.foldl (placeRow (fun r => (faceRows s f).idxOf r) w) ([], s) := by
  unfold placeRows
  refine congrArg (fun g => rows.foldl g ([], s)) (funext fun acc => funext fun x => ?_)
  unfold placeRow rowTarget
  cases w.route with
  | true => rfl
  | false =>
    cases place : rowPlace acc.2 x.1 with
    | none => simp [place]
    | some y => simp [place]

theorem Spread.coresOwned {s t : State} (h : Spread s t) (l : List CoreIx) (p : Part) :
    Machine.coresOwned t l p = Machine.coresOwned s l p := by
  unfold Machine.coresOwned
  exact congrArg (fun g => l.all g) (funext fun n => by rw [h.part n])

theorem Spread.rowTarget {s t : State} (h : Spread s t) (rank : Nat → Nat) (w : FaceWord) (row : Nat) :
    Machine.rowTarget rank w t row = Machine.rowTarget rank w s row := by
  rw [h.rest]
  rfl

theorem Spread.tagOf {s t : State} (h : Spread s t) (row : Nat) : Machine.tagOf t row = Machine.tagOf s row := by
  rw [h.rest]
  rfl

/-- What a list of rows leaves: writes to cores, and the rows that fail. -/
theorem placeRows_done (f : FaceIx) (w : FaceWord) (rows : List (Nat × List Byte)) (s : State) :
    (placeRows f w rows s).1 = (rows.map Prod.fst).filter (rowFails (fun r => (faceRows s f).idxOf r) w s) ∧
      Spread s (placeRows f w rows s).2 := by
  rw [placeRows_eq]
  induction rows using List.reverseRecOn with
  | nil => exact ⟨rfl, .refl s⟩
  | append_singleton l x ih =>
    rw [List.foldl_append, List.foldl_cons, List.foldl_nil, List.map_append, List.filter_append, List.map_singleton]
    obtain ⟨failed, spread⟩ := ih
    generalize l.foldl (placeRow (fun r => (faceRows s f).idxOf r) w) ([], s) = acc at failed spread ⊢
    unfold placeRow
    rw [spread.rowTarget, spread.tagOf]
    cases target : rowTarget (fun r => (faceRows s f).idxOf r) w s x.1 with
    | none =>
      have sound : rowFails (fun r => (faceRows s f).idxOf r) w s x.1 = false := by rw [rowFails, target]
      dsimp only
      rw [List.filter_singleton, sound, failed]
      exact ⟨(List.append_nil _).symm, spread⟩
    | some y =>
      have fails : rowFails (fun r => (faceRows s f).idxOf r) w s x.1 = !coresOwned s y.1 (tagPart (tagOf s x.1)) := by
        rw [rowFails, target]
      dsimp only
      rw [List.filter_singleton, fails, spread.coresOwned, failed]
      cases coresOwned s y.1 (tagPart (tagOf s x.1)) with
      | true => exact ⟨(List.append_nil _).symm, spread.trans (spread_spreadRow ..)⟩
      | false => exact ⟨rfl, spread⟩

/-- The last row of a list is written last. -/
theorem placeRows_last {f : FaceIx} {w : FaceWord} {l : List (Nat × List Byte)} {r : Nat} {b : List Byte} {s : State}
    {y : List CoreIx × Nat × Bool} (target : rowTarget (fun r => (faceRows s f).idxOf r) w s r = some y)
    (owned : coresOwned s y.1 (tagPart (tagOf s r)) = true) :
    (placeRows f w (l ++ [(r, b)]) s).2 = spreadRow y.1 y.2.1 y.2.2 b (placeRows f w l s).2 := by
  have spread := (placeRows_done f w l s).2
  rw [placeRows_eq] at spread
  rw [placeRows_eq, placeRows_eq, List.foldl_append, List.foldl_cons, List.foldl_nil]
  generalize l.foldl (placeRow (fun r => (faceRows s f).idxOf r) w) ([], s) = acc at spread ⊢
  unfold placeRow
  rw [spread.rowTarget, target]
  dsimp only
  rw [spread.coresOwned, spread.tagOf, if_pos owned]

end Sys2Proof.Machine
end

section
/-!
PROOFS. A FACEIN word issues and is over; the blocks of ACT and GRAD, refused and placed (R151, R153, R198, R199, R482).
-/

namespace Sys2Proof.Machine

/-! ### A FACEIN word is over -/

theorem footWord_of_face (s : State) (c : Vector CoreSt 64) (k : Vector ClusterSt 8) (x : Vector FaceSt 2) (r : Run) :
    footWord s { s with cores := c, clusters := k, faces := x, run := r } =
      { s with cores := keepAssign s { s with cores := c }, clusters := k, faces := x, run := r } := by
  rw [footWord]
  rfl

theorem noteLate_faces (f : FaceIx) (s t : State) : ∃ x, noteLate f s t = { t with faces := x } := by
  unfold noteLate
  split
  · split
    · exact ⟨_, rfl⟩
    · exact ⟨t.faces, rfl⟩
  · exact ⟨t.faces, rfl⟩

/-- What a FACEIN word leaves, by what its work leaves. -/
structure FaceLeft (q : Nat) (w : IWord) (s u t : State) : Prop where
  /-- Cores, clusters, faces and the running step alone. -/
  rest : t = { s with cores := t.cores, clusters := t.clusters, faces := t.faces, run := t.run }
  /-- The queue goes on. -/
  passed : wordPassed s t q
  /-- The assignment of the cores. -/
  same : SameAssign s t
  /-- The cores as the work leaves them, but for their assignment. -/
  cores : t.cores = keepAssign s u
  /-- The clusters as the work leaves them. -/
  clusters : t.clusters = u.clusters
  /-- The running step as the work leaves it, the word over. -/
  run : t.run = (finishWord q 1 w u).run

theorem issueIn_left {f : FaceIx} {kind i : Nat} {w : IWord} {s u₀ u : State} {work : Nat → IWord → State → Option State}
    (ready : FaceReady s f kind i w) (logged : Logged s u₀) (hw : work i w s = some u)
    (rest : u = { u₀ with cores := u.cores, clusters := u.clusters, run := u.run }) (ptr : u.run.ptr = u₀.run.ptr) :
    ∃ t, issueIn f kind work s = t ∧ FaceLeft (200 + f.val) w s u t := by
  have ended : issueIn f kind work s = footWord s (noteLate f s (finishWord (200 + f.val) 1 w u)) := by
    rw [issueIn, issuePlain, issueWord_done (q := faceInQueue f) ready.next (by rw [ready.op, ready.kind]; simp) rfl hw]
    rfl
  obtain ⟨x, late⟩ := noteLate_faces f s (finishWord (200 + f.val) 1 w u)
  obtain ⟨a, b, c, rfl⟩ := logged
  have ptr' : u.run.ptr = s.run.ptr := ptr
  generalize hr : (finishWord (200 + f.val) 1 w u).run = r at *
  have whole : noteLate f s (finishWord (200 + f.val) 1 w u) = { s with cores := u.cores, clusters := u.clusters, faces := x, run := r } := by
    rw [late, ← hr]
    exact (congrArg (fun t => ({ finishWord (200 + f.val) 1 w t with faces := x } : State)) rest :)
  rw [whole, footWord_of_face] at ended
  refine ⟨_, ended, rfl, ?_, fun n => ⟨keepAssign_part s _ n, keepAssign_byp s _ n⟩, rfl, rfl, hr.symm⟩
  rw [wordPassed, ← hr]
  exact congrArg (fun t => tabMod 0 t (200 + f.val) (· + 1)) ptr'

/-- A store as the work leaves it. -/
theorem FaceLeft.store {q : Nat} {w : IWord} {s u t : State} (h : FaceLeft q w s u t) (n : CoreIx) : t.cores[n].store = u.cores[n].store := by
  rw [h.cores, Fin.getElem_fin, keepAssign_at]
  rfl

/-- Cores that the work leaves as they were. -/
theorem FaceLeft.cores_same {q : Nat} {w : IWord} {s u t : State} (h : FaceLeft q w s u t) (same : u.cores = s.cores) : t.cores = s.cores := by
  rw [h.cores]
  exact keepAssign_cores s u same

/-! ### Rows of a block that are placed -/

/-- A block that is placed ends: the rows that failed poisoned, the stationary tiles made, the word's status. -/
def rowsEnded (f : FaceIx) (i : Nat) (w : FaceWord) (grad : Bool) (width : Nat) (data : List (Nat × List Byte)) (failed : List Nat)
    (s : State) : State :=
  facePartTag i failed (stationAll w grad width (fun row => ((data.find? (fun x => x.1 == row)).map (·.2)).getD []) (poisonRows f failed s))

section

variable (f : FaceIx) (i : Nat) (w : FaceWord) (grad : Bool) (width : Nat) (data : List (Nat × List Byte)) (failed : List Nat) (s : State)

theorem faceStep_rowsEnded : FaceStep s (rowsEnded f i w grad width data failed s) :=
  ((faceStep_poisonRows f failed s).trans (stationed_stationAll w grad width _ _).1).trans (faceStep_facePartTag i failed _)

theorem rowsEnded_cores : (rowsEnded f i w grad width data failed s).cores = s.cores :=
  (((congrArg Prod.fst (facePartTag_units i failed _) :).trans (stationed_stationAll w grad width _ _).2).trans
    (congrArg Prod.fst (poisonRows_units f failed s)) :)

variable {failed}

theorem rowsEnded_poison {r : Nat} (h : r ∈ failed) : (f, r) ∈ (rowsEnded f i w grad width data failed s).run.poison :=
  ((stationed_stationAll w grad width _ _).1.trans (faceStep_facePartTag i failed _)).poison _ (mem_poison_poisonRows f h s)

end

/-! ### FACEIN ACT -/

section

variable (f : FaceIx) (i : Nat) (w : FaceWord) (b : List Byte) (s : State)

/-- The bytes of a row of an ACT block. -/
abbrev actWidth : Nat := (targetOf s w.target).din

/-- An ACT block that is refused. -/
def actRefused : State :=
  setStatus i 0 false (poisonRows f (rowsMeant s w (faceRows s f))
    (faceBounds w (faceRows s f) ((faceRows s f).length * actWidth w s) b.length s))

/-- The rows of an ACT block with their bytes. -/
def actData : List (Nat × List Byte) := (faceRows s f).zip (chunk (actWidth w s) (faceRows s f).length b)

/-- An ACT block that is placed. -/
def actPlaced : State :=
  rowsEnded f i w false (actWidth w s) (actData f w b s) (placeRows f w (actData f w b s) s).1 (placeRows f w (actData f w b s) s).2

theorem actWork_eq (wd : IWord) : actWork f b i wd s =
    if (takePayload i b s).1.length ≠ (faceRows (takePayload i b s).2 f).length * actWidth (faceWord wd) (takePayload i b s).2 then
      some (actRefused f i (faceWord wd) (takePayload i b s).1 (takePayload i b s).2)
    else some (actPlaced f i (faceWord wd) (takePayload i b s).1 (takePayload i b s).2) := rfl

theorem faceStep_actRefused : FaceStep s (actRefused f i w b s) :=
  ((faceStep_faceBounds ..).trans (faceStep_poisonRows ..)).trans (faceStep_setStatus ..)

theorem actRefused_units : (actRefused f i w b s).cores = s.cores ∧ (actRefused f i w b s).clusters = s.clusters := by
  have rows := poisonRows_units f (rowsMeant s w (faceRows s f)) (faceBounds w (faceRows s f) ((faceRows s f).length * actWidth w s) b.length s)
  have entry := faceBounds_units w (faceRows s f) ((faceRows s f).length * actWidth w s) b.length s
  exact ⟨(congrArg Prod.fst rows :).trans (congrArg Prod.fst entry :), (congrArg (fun x => x.2.1) rows :).trans (congrArg Prod.snd entry :)⟩

variable {s} in
theorem actRefused_poison {r : Nat} (h : r ∈ rowsMeant s w (faceRows s f)) : (f, r) ∈ (actRefused f i w b s).run.poison :=
  mem_poison_poisonRows f h _

theorem faceStep_actPlaced : FaceStep s (actPlaced f i w b s) := (placeRows_done f w _ s).2.faceStep.trans (faceStep_rowsEnded ..)

end

/-! ### The last row of a block -/

theorem chunk_length {α : Type} (n k : Nat) (l : List α) : (chunk n k l).length = k := by
  induction k generalizing l with
  | zero => rfl
  | succ k ih => rw [chunk, List.length_cons, ih]

theorem chunk_succ {α : Type} (n k : Nat) (l : List α) : chunk n (k + 1) l = chunk n k l ++ [(l.drop (k * n)).take n] := by
  induction k generalizing l with
  | zero => rw [Nat.zero_mul]; rfl
  | succ k ih => rw [chunk, ih, List.drop_drop, Nat.succ_mul, Nat.add_comm n]; rfl

/-- The last row takes the last piece of the block. -/
theorem zip_chunk_last (rows : List Nat) (r n : Nat) (b : List Byte) : (rows ++ [r]).zip (chunk n (rows ++ [r]).length b) =
    rows.zip (chunk n rows.length b) ++ [(r, (b.drop (rows.length * n)).take n)] := by
  rw [List.length_append, List.length_singleton, chunk_succ, List.zip_append (chunk_length n rows.length b).symm]
  rfl

theorem zip_chunk_rows (rows : List Nat) (n : Nat) (b : List Byte) : (rows.zip (chunk n rows.length b)).map Prod.fst = rows :=
  List.map_fst_zip (chunk_length n rows.length b).ge

theorem last_piece_length {rows n : Nat} {b : List Byte} (len : b.length = (rows + 1) * n) : ((b.drop (rows * n)).take n).length = n := by
  rw [List.length_take, List.length_drop, len, Nat.succ_mul, Nat.add_sub_cancel_left, Nat.min_self]

section

variable {f : FaceIx} {w : FaceWord} {s : State} {r a : Nat} {cs : List CoreIx} {split : Bool} {l : List (Nat × List Byte)} {b : List Byte}
  (target : rowTarget (fun r => (faceRows s f).idxOf r) w s r = some (cs, a, split))
include target

/-- A row that reaches a core of another partition fails. -/
theorem mem_failed_of_target (foreign : coresOwned s cs (tagPart (tagOf s r)) = false) {data : List (Nat × List Byte)}
    (h : r ∈ data.map Prod.fst) : r ∈ (placeRows f w data s).1 := by
  rw [(placeRows_done f w data s).1]
  refine List.mem_filter.mpr ⟨h, ?_⟩
  rw [rowFails, target]
  dsimp only
  rw [foreign]
  rfl

variable (owned : coresOwned s cs (tagPart (tagOf s r)) = true) (room : a + b.length ≤ Config.coreStoreBytes) {n : CoreIx}
  (wf : Memory.wf s.cores[n].store = true)
include owned room wf

/-- The last row of a block stands whole in each core that it reaches. -/
theorem lastRow_whole (whole : split = false) (hn : n ∈ cs) :
    memRead (placeRows f w (l ++ [(r, b)]) s).2.cores[n].store a b.length = b := by
  rw [placeRows_last target owned, whole]
  exact spreadRow_whole hn ((placeRows_done f w l s).2.wf n wf) room

/-- The last row of a block stands in pieces in the cores that it reaches. -/
theorem lastRow_pieces (pieces : split = true) {k : Nat} (hk : cs[k]? = some n) (distinct : cs.Nodup) :
    memRead (placeRows f w (l ++ [(r, b)]) s).2.cores[n].store a (b.length / cs.length) =
      slice b (k * (b.length / cs.length)) (b.length / cs.length) := by
  rw [placeRows_last target owned, pieces]
  exact spreadRow_pieces hk distinct ((placeRows_done f w l s).2.wf n wf) room

end

/-! ### FACEIN ACT, its rows -/

/-- The cores that a row of ROUTE 0 reaches, and its address there. -/
theorem rowTarget_unrouted {rank : Nat → Nat} {w : IWord} {s : State} {r seg p : Nat} (place : rowPlace s r = some (seg, p))
    (route : bitAt w 107 = false) : rowTarget rank (faceWord w) s r = some (rowCores (faceWord w) (placeOf (planRow s seg) p).1,
      (planRow s seg).abase * 128 + (placeOf (planRow s seg) p).2 * (planRow s seg).astr * 128, bitAt w 106) := by
  rw [rowTarget, if_neg (by rw [show (faceWord w).route = false from route]; decide), place]
  rfl

/-- The cores that a row of ROUTE 1 reaches, and its address there. -/
theorem rowTarget_routed {rank : Nat → Nat} {w : IWord} (route : bitAt w 107 = true) (s : State) (r : Nat) :
    rowTarget rank (faceWord w) s r = some (rowCores (faceWord w) 0, fld w 80 15 * 128 + rank r * fld w 95 11 * 128, false) := by
  rw [rowTarget, if_pos (show (faceWord w).route = true from route)]
  rfl

theorem mem_rowsMeant {s : State} {w : IWord} {rows : List Nat} {r : Nat} (h : r ∈ rows)
    (meant : bitAt w 107 = true ∨ rowPlace s r ≠ none) :
    r ∈ rowsMeant s (faceWord w) rows := by
  refine List.mem_filter.mpr ⟨h, Bool.or_eq_true_iff.mpr (meant.imp id fun place => Option.isSome_iff_ne_none.mpr place)⟩

section

variable {f : FaceIx} {i : Nat} {w : IWord} {b : List Byte} {s : State} {rows : List Nat} {r seg p : Nat}
  (last : faceRows s f = rows ++ [r]) (place : rowPlace s r = some (seg, p)) (route : bitAt w 107 = false)

/-- The cores that the last row reaches. -/
abbrev actCores (w : IWord) (s : State) (seg p : Nat) : List CoreIx := rowCores (faceWord w) (placeOf (planRow s seg) p).1

/-- The address of the last row there. -/
abbrev actAddr (s : State) (seg p : Nat) : Nat :=
  (planRow s seg).abase * 128 + (placeOf (planRow s seg) p).2 * (planRow s seg).astr * 128

include last place route

theorem actPlaced_foreign (foreign : coresOwned s (actCores w s seg p) (tagPart (tagOf s r)) = false) :
    (f, r) ∈ (actPlaced f i (faceWord w) b s).run.poison := by
  refine rowsEnded_poison f i (faceWord w) false _ _ _ (mem_failed_of_target (rowTarget_unrouted place route) foreign ?_)
  rw [actData, zip_chunk_rows, last]
  exact List.mem_append_right _ (List.mem_singleton_self r)

/-- The last row of an ACT block stands in the cores that it reaches. -/
theorem actPlaced_owned (len : b.length = (faceRows s f).length * actWidth (faceWord w) s)
    (owned : coresOwned s (actCores w s seg p) (tagPart (tagOf s r)) = true)
    (room : actAddr s seg p + actWidth (faceWord w) s ≤ Config.coreStoreBytes)
    (wf : ∀ n ∈ actCores w s seg p, Memory.wf s.cores[n].store = true) {k : Nat} {n : CoreIx} (hk : (actCores w s seg p)[k]? = some n) :
    let wd := actWidth (faceWord w) s
    let bytes := (b.drop (rows.length * wd)).take wd
    (bitAt w 106 = false → memRead (actPlaced f i (faceWord w) b s).cores[n].store (actAddr s seg p) wd = bytes) ∧
    (bitAt w 106 = true → (actCores w s seg p).Nodup →
      memRead (actPlaced f i (faceWord w) b s).cores[n].store (actAddr s seg p) (wd / (actCores w s seg p).length) =
        slice bytes (k * (wd / (actCores w s seg p).length)) (wd / (actCores w s seg p).length)) := by
  intro wd bytes
  have target := rowTarget_unrouted (rank := fun r => (faceRows s f).idxOf r) place route
  have full : bytes.length = wd := last_piece_length (by rw [len, last, List.length_append, List.length_singleton])
  have data : actData f (faceWord w) b s = rows.zip (chunk wd rows.length b) ++ [(r, bytes)] := by
    rw [actData, last]
    exact zip_chunk_last rows r wd b
  have hn : n ∈ actCores w s seg p := List.mem_of_getElem? hk
  have fits : actAddr s seg p + bytes.length ≤ Config.coreStoreBytes := by
    rw [full]
    exact room
  rw [actPlaced, rowsEnded_cores, data]
  refine ⟨fun whole => ?_, fun pieces distinct => ?_⟩
  · have read := lastRow_whole (l := rows.zip (chunk wd rows.length b)) (b := bytes) target owned fits (wf n hn) whole hn
    rw [full] at read
    exact read
  · have read := lastRow_pieces (l := rows.zip (chunk wd rows.length b)) (b := bytes) target owned fits (wf n hn) pieces hk distinct
    rw [full] at read
    exact read

end

/-- FACEIN ACT: a block of another length is refused, one of the right length placed. -/
theorem faceinAct_left {f : FaceIx} {b : List Byte} {s : State} {i : Nat} {w : IWord} (ready : FaceReady s f 0 i w) :
    ∃ u₀ u t, Logged s u₀ ∧ exec (.faceinAct f b) s = .next t ∧ FaceLeft (200 + f.val) w s u t ∧
      u = if (blockTaken s i b).length ≠ (faceRows u₀ f).length * actWidth (faceWord w) u₀ then
        actRefused f i (faceWord w) (blockTaken s i b) u₀ else actPlaced f i (faceWord w) (blockTaken s i b) u₀ := by
  obtain ⟨body, logged⟩ := takePayload_logged i b s
  have work := actWork_eq f i b s w
  rw [body] at work
  generalize (takePayload i b s).2 = u₀ at logged work
  by_cases len : (blockTaken s i b).length ≠ (faceRows u₀ f).length * actWidth (faceWord w) u₀
  · rw [if_pos len] at work
    have step := faceStep_actRefused f i (faceWord w) (blockTaken s i b) u₀
    obtain ⟨t, ended, left⟩ := issueIn_left ready logged work step.rest (by rw [step.run])
    exact ⟨u₀, _, t, logged, congrArg Host.Outcome.next ended, left, (if_pos len).symm⟩
  · rw [if_neg len] at work
    have step := faceStep_actPlaced f i (faceWord w) (blockTaken s i b) u₀
    obtain ⟨t, ended, left⟩ := issueIn_left ready logged work step.rest (by rw [step.run])
    exact ⟨u₀, _, t, logged, congrArg Host.Outcome.next ended, left, (if_neg len).symm⟩

end Sys2Proof.Machine
end

section
/-!
PROOFS. The blocks of FACEIN GRAD, refused and placed (R151, R153, R198, R199).
-/

namespace Sys2Proof.Machine

/-! ### What a step of a FACEIN word leaves to read -/

section

variable {s t : State} (h : FaceStep s t)
include h

theorem FaceStep.tagOf (r : Nat) : Machine.tagOf t r = Machine.tagOf s r := by
  rw [Machine.tagOf, h.run]
  rfl

theorem FaceStep.rowPlace (r : Nat) : Machine.rowPlace t r = Machine.rowPlace s r := by
  unfold Machine.rowPlace rowAt
  rw [h.run]

theorem FaceStep.planRow (n : Nat) : Machine.planRow t n = Machine.planRow s n := by
  unfold Machine.planRow
  rw [h.run]

theorem FaceStep.faceRows (f : FaceIx) : Machine.faceRows t f = Machine.faceRows s f := by
  have recs : t.recs = s.recs := by rw [h.rest]
  have tags : t.run.tags = s.run.tags := by rw [h.run]
  unfold Machine.faceRows rowFace recOf
  rw [tags, recs]
  simp only [h.tagOf]

theorem FaceStep.rowTarget (rank : Nat → Nat) (w : FaceWord) (r : Nat) : Machine.rowTarget rank w t r = Machine.rowTarget rank w s r := by
  unfold Machine.rowTarget
  rw [h.rowPlace]
  simp only [h.planRow]

theorem FaceStep.rowParts (rows : List Nat) : Machine.rowParts t rows = Machine.rowParts s rows := by
  unfold Machine.rowParts
  simp only [h.tagOf]

theorem FaceStep.rowsMeant (w : FaceWord) (rows : List Nat) : Machine.rowsMeant t w rows = Machine.rowsMeant s w rows := by
  unfold Machine.rowsMeant
  simp only [h.rowPlace]

end

/-! ### FACEIN GRAD -/

section

variable (f : FaceIx) (i : Nat) (w : FaceWord) (b : List Byte) (s : State)

/-- The elements of a row of a GRAD block. -/
abbrev gradWidth : Nat := (targetOf s w.target).dout

/-- The GRAD rows of a face. -/
abbrev gradRows : List Nat := (faceRows s f).filter (fun r => tagGrad (tagOf s r))

/-- The GRAD rows of the batch. -/
abbrev gradAll : List Nat := (List.range s.run.tags.length).filter (fun r => tagValid (tagOf s r) && tagGrad (tagOf s r))

/-- The entries of a GRAD block that is refused. -/
def gradBounds : State := faceBounds w (gradAll s) ((gradRows f s).length * gradWidth w s * 2) b.length s

/-- The step skipped for the partitions of the batch's GRAD rows. -/
def gradSkipped : State := markParts (rowParts (gradBounds f w b s) (gradAll s)) true (gradBounds f w b s)

/-- The rows of a GRAD block that is refused are poisoned. -/
def gradPoisoned : State := poisonRows f (rowsMeant (gradSkipped f w b s) w (gradRows f s)) (gradSkipped f w b s)

/-- A GRAD block that is refused. -/
def gradRefused : State :=
  setStatus i 0 false (modRun (fun r => { r with gradRefused := r.gradRefused ++ [(f, w.target, w.layer)] }) (gradPoisoned f w b s))

/-- The rows of a GRAD block with their codes. -/
def gradData : List (Nat × List Byte) := ((gradRows f s).zip (chunk (2 * gradWidth w s) (gradRows f s).length b)).map (fun x =>
  (x.1, gradCodes (lossOf s (tagPart (tagOf s x.1))) (gradWidth w s) x.2))

/-- The partitions of the rows of a GRAD block marked as training. -/
def gradMarked : State := markParts (rowParts s (gradRows f s)) false s

/-- Zero codes at the positions of training segments without a GRAD row (R199). -/
def gradZeros (t : State) : State :=
  if w.route then t else s.run.segs.zipIdx.foldl (fun t sg =>
    if segTrains s sg.1 then
      (List.range (planRow s sg.2).maxRows).foldl (fun t q => match tilePosRow s sg.1 q with
        | some _ => t
        | none =>
          if coresOwned t (rowCores w (placeOf (planRow s sg.2) q).1) sg.1.part then
            spreadRow (rowCores w (placeOf (planRow s sg.2) q).1)
              ((planRow s sg.2).abase * 128 + (placeOf (planRow s sg.2) q).2 * (planRow s sg.2).astr * 128) w.split
              (List.replicate (gradWidth w s) 0) t
          else t) t
    else t) t

/-- A GRAD block that is placed. -/
def gradPlaced : State :=
  rowsEnded f i w true (gradWidth w s) (gradData f w b s) (placeRows f w (gradData f w b s) (gradMarked f s)).1
    (gradZeros w s (placeRows f w (gradData f w b s) (gradMarked f s)).2)

theorem gradWork_eq (wd : IWord) : gradWork f b i wd s =
    if (takePayload i b s).1.length ≠
        (gradRows f (takePayload i b s).2).length * gradWidth (faceWord wd) (takePayload i b s).2 * 2 then
      some (gradRefused f i (faceWord wd) (takePayload i b s).1 (takePayload i b s).2)
    else some (gradPlaced f i (faceWord wd) (takePayload i b s).1 (takePayload i b s).2) := rfl

/-! ### A GRAD block that is refused -/

theorem rest_modRun {s v : State} (h : v = { s with cores := v.cores, clusters := v.clusters, run := v.run }) (g : Run → Run) :
    modRun g v = { s with cores := (modRun g v).cores, clusters := (modRun g v).clusters, run := (modRun g v).run } :=
  (congrArg (modRun g) h :)

theorem rest_setStatus {s v : State} (h : v = { s with cores := v.cores, clusters := v.clusters, run := v.run }) (i code : Nat) :
    setStatus i code false v = { s with
      cores := (setStatus i code false v).cores, clusters := (setStatus i code false v).clusters, run := (setStatus i code false v).run } :=
  (congrArg (setStatus i code false) h :)

theorem faceStep_gradBounds : FaceStep s (gradBounds f w b s) := faceStep_faceBounds ..

theorem faceStep_gradSkipped : FaceStep s (gradSkipped f w b s) := (faceStep_gradBounds f w b s).trans (faceStep_markParts ..)

theorem faceStep_gradPoisoned : FaceStep s (gradPoisoned f w b s) := (faceStep_gradSkipped f w b s).trans (faceStep_poisonRows ..)

theorem gradRefused_rest : gradRefused f i w b s =
    { s with cores := (gradRefused f i w b s).cores, clusters := (gradRefused f i w b s).clusters, run := (gradRefused f i w b s).run } :=
  rest_setStatus (rest_modRun (faceStep_gradPoisoned f w b s).rest _) i 0

theorem gradRefused_ptr : (gradRefused f i w b s).run.ptr = s.run.ptr := (congrArg Run.ptr (faceStep_gradPoisoned f w b s).run :)

theorem gradRefused_units : (gradRefused f i w b s).cores = s.cores ∧ (gradRefused f i w b s).clusters = s.clusters := by
  have rows : faceUnits (gradPoisoned f w b s) = faceUnits (gradSkipped f w b s) := poisonRows_units f _ _
  have marks : faceUnits (gradSkipped f w b s) = faceUnits (gradBounds f w b s) := markParts_units _ true _
  have entry : ((gradBounds f w b s).cores, (gradBounds f w b s).clusters) = (s.cores, s.clusters) := faceBounds_units ..
  exact ⟨(congrArg Prod.fst (rows.trans marks) :).trans (congrArg Prod.fst entry :),
    (congrArg (fun x => x.2.1) (rows.trans marks) :).trans (congrArg Prod.snd entry :)⟩

theorem gradRefused_noted : (f, w.target, w.layer) ∈ (gradRefused f i w b s).run.gradRefused :=
  List.mem_append_right _ (List.mem_singleton_self _)

variable {s}

theorem gradRefused_poison {r : Nat} (h : r ∈ rowsMeant s w (gradRows f s)) : (f, r) ∈ (gradRefused f i w b s).run.poison := by
  have kept : (gradRefused f i w b s).run.poison = (gradPoisoned f w b s).run.poison := rfl
  have meant : r ∈ rowsMeant (gradSkipped f w b s) w (gradRows f s) := by
    rw [(faceStep_gradSkipped f w b s).rowsMeant]
    exact h
  rw [kept]
  exact mem_poison_poisonRows f meant (gradSkipped f w b s)

/-- A GRAD block that is refused skips the step of every partition with a GRAD row. -/
theorem gradRefused_summary {r : Nat} (lt : r < s.run.tags.length) (valid : tagValid (tagOf s r) = true) (grad : tagGrad (tagOf s r) = true) :
    (gradRefused f i w b s).run.summary.getLsbD (tagPart (tagOf s r)).val = true ∧
      (gradRefused f i w b s).run.summary.getLsbD (16 + (tagPart (tagOf s r)).val) = true := by
  have all : r ∈ gradAll s := List.mem_filter.mpr ⟨List.mem_range.mpr lt, by rw [valid, grad]; rfl⟩
  have part : tagPart (tagOf s r) ∈ rowParts (gradBounds f w b s) (gradAll s) := by
    rw [(faceStep_gradBounds f w b s).rowParts]
    exact mem_rowParts all
  obtain ⟨active, ovf⟩ := markParts_summary part true (gradBounds f w b s)
  have poisoned : FaceStep (gradSkipped f w b s) (gradPoisoned f w b s) := faceStep_poisonRows ..
  have kept : (gradRefused f i w b s).run.summary = (gradPoisoned f w b s).run.summary := rfl
  rw [kept]
  exact ⟨poisoned.summary _ active, poisoned.summary _ (ovf rfl)⟩

/-! ### A GRAD block that is placed -/

variable (s)

theorem spread_gradZeros (t : State) : Spread t (gradZeros w s t) := by
  unfold gradZeros
  split
  · exact .refl t
  · refine spread_foldl (fun t sg => ?_) _ t
    split
    · refine spread_foldl (fun t q => ?_) _ t
      split
      · exact .refl t
      · split
        · exact spread_spreadRow ..
        · exact .refl t
    · exact .refl t

theorem gradZeros_routed (route : w.route = true) (t : State) : gradZeros w s t = t := if_pos route

theorem faceStep_gradEnded : FaceStep (gradMarked f s) (gradPlaced f i w b s) :=
  ((placeRows_done f w (gradData f w b s) (gradMarked f s)).2.trans (spread_gradZeros w s _)).faceStep.trans (faceStep_rowsEnded ..)

theorem faceStep_gradMarked : FaceStep s (gradMarked f s) := faceStep_markParts ..

theorem faceStep_gradPlaced : FaceStep s (gradPlaced f i w b s) := (faceStep_gradMarked f s).trans (faceStep_gradEnded f i w b s)

variable {s}

/-- The partition of a GRAD row of the block is marked as training. -/
theorem gradPlaced_summary {r : Nat} (h : r ∈ gradRows f s) : (gradPlaced f i w b s).run.summary.getLsbD (tagPart (tagOf s r)).val = true :=
  (faceStep_gradEnded f i w b s).summary _ (markParts_summary (mem_rowParts h) false s).1

end

section

variable {f : FaceIx} {i : Nat} {w : IWord} {b : List Byte} {s : State} {rows : List Nat} {r : Nat}
  (last : gradRows f s = rows ++ [r]) (route : bitAt w 107 = true)

/-- The address of a row with ROUTE 1. -/
abbrev gradAddr (f : FaceIx) (w : IWord) (s : State) (r : Nat) : Nat :=
  fld w 80 15 * 128 + (faceRows s f).idxOf r * fld w 95 11 * 128

theorem rowTarget_gradMarked (route : bitAt w 107 = true) (r : Nat) :
    rowTarget (fun r => (faceRows (gradMarked f s) f).idxOf r) (faceWord w) (gradMarked f s) r =
      some (rowCores (faceWord w) 0, gradAddr f w s r, false) := by
  rw [rowTarget_routed route, (faceStep_gradMarked f s).faceRows]

theorem gradMarked_cores (f : FaceIx) (s : State) : (gradMarked f s).cores = s.cores := congrArg Prod.fst (markParts_units _ false s)

theorem coresOwned_gradMarked (f : FaceIx) (s : State) (l : List CoreIx) (r : Nat) :
    coresOwned (gradMarked f s) l (tagPart (tagOf (gradMarked f s) r)) = coresOwned s l (tagPart (tagOf s r)) := by
  rw [(faceStep_gradMarked f s).tagOf, coresOwned, coresOwned, gradMarked_cores]

theorem gradData_rows (f : FaceIx) (w : FaceWord) (b : List Byte) (s : State) : (gradData f w b s).map Prod.fst = gradRows f s := by
  rw [gradData, List.map_map]
  exact zip_chunk_rows (gradRows f s) _ b

include last route

theorem gradPlaced_foreign (foreign : coresOwned s (rowCores (faceWord w) 0) (tagPart (tagOf s r)) = false) :
    (f, r) ∈ (gradPlaced f i (faceWord w) b s).run.poison := by
  refine rowsEnded_poison f i (faceWord w) true _ _ _ (mem_failed_of_target (rowTarget_gradMarked route r) ?_ ?_)
  · rw [coresOwned_gradMarked]
    exact foreign
  · rw [gradData_rows, last]
    exact List.mem_append_right _ (List.mem_singleton_self r)

/-- The last GRAD row of a block with ROUTE 1 stands in the cores that it reaches. -/
theorem gradPlaced_owned (owned : coresOwned s (rowCores (faceWord w) 0) (tagPart (tagOf s r)) = true)
    (room : gradAddr f w s r + gradWidth (faceWord w) s ≤ Config.coreStoreBytes) {n : CoreIx} (hn : n ∈ rowCores (faceWord w) 0)
    (wf : Memory.wf s.cores[n].store = true) :
    let wd := gradWidth (faceWord w) s
    memRead (gradPlaced f i (faceWord w) b s).cores[n].store (gradAddr f w s r) wd =
      gradCodes s.parts[tagPart (tagOf s r)].loss.ls wd ((b.drop (rows.length * (2 * wd))).take (2 * wd)) := by
  intro wd
  have full (ls : Int) (l : List Byte) : (gradCodes ls wd l).length = wd := by
    rw [gradCodes, List.length_map, chunk_length]
  have data : ∃ l, gradData f (faceWord w) b s = l ++
      [(r, gradCodes s.parts[tagPart (tagOf s r)].loss.ls wd ((b.drop (rows.length * (2 * wd))).take (2 * wd)))] := by
    refine ⟨(rows.zip (chunk (2 * wd) rows.length b)).map (fun x => (x.1, gradCodes (lossOf s (tagPart (tagOf s x.1))) wd x.2)), ?_⟩
    rw [gradData, last, zip_chunk_last, List.map_append]
    rfl
  obtain ⟨l, data⟩ := data
  have owned' := (coresOwned_gradMarked f s (rowCores (faceWord w) 0) r).trans owned
  have wf' : Memory.wf (gradMarked f s).cores[n].store = true := by
    rw [gradMarked_cores]
    exact wf
  rw [gradPlaced, rowsEnded_cores, gradZeros_routed (faceWord w) s route, data]
  have read := lastRow_whole (l := l) (b := gradCodes s.parts[tagPart (tagOf s r)].loss.ls wd ((b.drop (rows.length * (2 * wd))).take (2 * wd)))
    (rowTarget_gradMarked route r) owned' (by rw [full]; exact room) wf' rfl hn
  rw [full] at read
  exact read

end

/-- FACEIN GRAD: a block of another length is refused, one of the right length placed. -/
theorem faceinGrad_left {f : FaceIx} {b : List Byte} {s : State} {i : Nat} {w : IWord} (ready : FaceReady s f 1 i w) :
    ∃ u₀ u t, Logged s u₀ ∧ exec (.faceinGrad f b) s = .next t ∧ FaceLeft (200 + f.val) w s u t ∧
      u = if (blockTaken s i b).length ≠ (gradRows f u₀).length * gradWidth (faceWord w) u₀ * 2 then
        gradRefused f i (faceWord w) (blockTaken s i b) u₀ else gradPlaced f i (faceWord w) (blockTaken s i b) u₀ := by
  obtain ⟨body, logged⟩ := takePayload_logged i b s
  have work := gradWork_eq f i b s w
  rw [body] at work
  generalize (takePayload i b s).2 = u₀ at logged work
  by_cases len : (blockTaken s i b).length ≠ (gradRows f u₀).length * gradWidth (faceWord w) u₀ * 2
  · rw [if_pos len] at work
    obtain ⟨t, ended, left⟩ := issueIn_left ready logged work (gradRefused_rest ..) (gradRefused_ptr ..)
    exact ⟨u₀, _, t, logged, congrArg Host.Outcome.next ended, left, (if_pos len).symm⟩
  · rw [if_neg len] at work
    have step := faceStep_gradPlaced f i (faceWord w) (blockTaken s i b) u₀
    obtain ⟨t, ended, left⟩ := issueIn_left ready logged work step.rest (by rw [step.run])
    exact ⟨u₀, _, t, logged, congrArg Host.Outcome.next ended, left, (if_neg len).symm⟩

end Sys2Proof.Machine
end

section
/-!
PROOFS. The blocks of FACEIN LOGIT, QRY and PROB, kept for the words that use them, and the obligation on face blocks (R151, R153, R187,
R294, R482).
-/

namespace Sys2Proof.Machine

/-! ### Blocks that are kept -/

/-- A block kept for the word that uses it, or kept as refused. -/
def keepBlock (kind : Nat) (f : FaceIx) (w : FaceWord) (bytes : Option (List Byte)) (s : State) : State :=
  modRun (fun r => { r with blocks := r.blocks ++
    [{ kind, face := f, target := w.target, layer := w.layer, addr := w.addr, route := w.route, bytes }] }) s

theorem keepBlock_cores (kind : Nat) (f : FaceIx) (w : FaceWord) (bytes : Option (List Byte)) (s : State) :
    (keepBlock kind f w bytes s).cores = s.cores := rfl

/-- What the work of a FACEIN word leaves that keeps its block. -/
structure BlockKept (kind : Nat) (f : FaceIx) (w : FaceWord) (bytes : Option (List Byte)) (s u : State) : Prop where
  /-- Nothing else changes. -/
  rest : u = { s with cores := u.cores, clusters := u.clusters, run := u.run }
  /-- The clusters. -/
  clusters : u.clusters = s.clusters
  /-- The queues. -/
  ptr : u.run.ptr = s.run.ptr
  /-- The block. -/
  block : u.run.blocks = s.run.blocks ++ [InBlock.mk kind f w.target w.layer w.addr w.route bytes]

/-- Steps before and after a block is kept. -/
theorem blockKept_of_steps {s t u : State} {kind : Nat} {f : FaceIx} {w : FaceWord} {bytes : Option (List Byte)} (before : FaceStep s t)
    (after : FaceStep (keepBlock kind f w bytes t) u) (clusters : t.clusters = s.clusters)
    (clusters' : u.clusters = (keepBlock kind f w bytes t).clusters) : BlockKept kind f w bytes s u where
  rest := by
    have kept := rest_modRun before.rest (fun r => { r with blocks := r.blocks ++
      [{ kind, face := f, target := w.target, layer := w.layer, addr := w.addr, route := w.route, bytes }] })
    change keepBlock kind f w bytes t = _ at kept
    rw [after.rest, kept]
  clusters := clusters'.trans clusters
  ptr := by
    have ptr : t.run.ptr = s.run.ptr := by rw [before.run]
    rw [after.run]
    exact ptr
  block := by
    have blocks : t.run.blocks = s.run.blocks := by rw [before.run]
    rw [after.run, ← blocks]
    rfl

/-! ### FACEIN LOGIT -/

section

variable (f : FaceIx) (i : Nat) (w : FaceWord) (b : List Byte) (s : State)

/-- The rows of a LOGIT block. -/
abbrev logitRows : List Nat := (faceRows s f).filter (fun r => decide (0 < rowTopk s r))

/-- The bytes of a row of a LOGIT block. -/
abbrev logitWidth (r : Nat) : Nat := (targetOf s w.target).dout * deltaWidth s (tagPart (tagOf s r)) f

/-- The bytes of a LOGIT block. -/
abbrev logitSize : Nat := ((logitRows f s).map (logitWidth f w s)).sum

/-- A LOGIT block whose rows are poisoned. -/
def logitPoisoned : State :=
  poisonRows f (rowsMeant s w (logitRows f s)) (faceBounds w (logitRows f s) (logitSize f w s) b.length s)

/-- A LOGIT block that is refused. -/
def logitRefused : State := setStatus i 0 false (keepBlock 4 f w none (logitPoisoned f w b s))

/-- The rows of a LOGIT block with their bytes. -/
def logitData : List (Nat × List Byte) :=
  ((logitRows f s).foldl (fun (acc : List (Nat × List Byte) × Nat) r =>
    (acc.1 ++ [(r, slice b acc.2 (logitWidth f w s r))], acc.2 + logitWidth f w s r)) ([], 0)).1

/-- A LOGIT block whose rows are written, those that fail poisoned. -/
def logitWritten : State :=
  poisonRows f (placeRows f w (logitData f w b s) s).1 (placeRows f w (logitData f w b s) s).2

/-- A LOGIT block that is placed. -/
def logitPlaced : State :=
  facePartTag i (placeRows f w (logitData f w b s) s).1 (keepBlock 4 f w (some b) (logitWritten f w b s))

theorem logitWork_eq (wd : IWord) : logitWork f b i wd s =
    if (takePayload i b s).1.length ≠ logitSize f (faceWord wd) (takePayload i b s).2 then
      some (logitRefused f i (faceWord wd) (takePayload i b s).1 (takePayload i b s).2)
    else some (logitPlaced f i (faceWord wd) (takePayload i b s).1 (takePayload i b s).2) := rfl

theorem logitData_rows : (logitData f w b s).map Prod.fst = logitRows f s := by
  have rows (l : List Nat) (acc : List (Nat × List Byte) × Nat) : ((l.foldl (fun (acc : List (Nat × List Byte) × Nat) r =>
      (acc.1 ++ [(r, slice b acc.2 (logitWidth f w s r))], acc.2 + logitWidth f w s r)) acc).1).map Prod.fst = acc.1.map Prod.fst ++ l := by
    induction l generalizing acc with
    | nil => exact (List.append_nil _).symm
    | cons r l ih =>
      rw [List.foldl_cons, ih, List.map_append, List.append_assoc]
      rfl
  exact rows (logitRows f s) ([], 0)

theorem faceStep_logitPoisoned : FaceStep s (logitPoisoned f w b s) := (faceStep_faceBounds ..).trans (faceStep_poisonRows ..)

theorem logitPoisoned_units : (logitPoisoned f w b s).cores = s.cores ∧ (logitPoisoned f w b s).clusters = s.clusters := by
  have rows : faceUnits (logitPoisoned f w b s) = faceUnits (faceBounds w (logitRows f s) (logitSize f w s) b.length s) :=
    poisonRows_units f _ _
  have entry := faceBounds_units w (logitRows f s) (logitSize f w s) b.length s
  exact ⟨(congrArg Prod.fst rows :).trans (congrArg Prod.fst entry :), (congrArg (fun x => x.2.1) rows :).trans (congrArg Prod.snd entry :)⟩

theorem logitRefused_kept : BlockKept 4 f w none s (logitRefused f i w b s) :=
  blockKept_of_steps (faceStep_logitPoisoned f w b s) (faceStep_setStatus i 0 _) (logitPoisoned_units f w b s).2 rfl

theorem logitRefused_cores : (logitRefused f i w b s).cores = s.cores := by
  rw [logitRefused, setStatus_cores, keepBlock_cores]
  exact (logitPoisoned_units f w b s).1

theorem logitRefused_poison {s : State} {r : Nat} (h : r ∈ rowsMeant s w (logitRows f s)) :
    (f, r) ∈ (logitRefused f i w b s).run.poison := by
  have before : (f, r) ∈ (logitPoisoned f w b s).run.poison := by
    rw [logitPoisoned]
    exact mem_poison_poisonRows f h _
  have kept : (logitRefused f i w b s).run.poison = (logitPoisoned f w b s).run.poison := rfl
  rw [kept]
  exact before

theorem spread_logitRows : Spread s (placeRows f w (logitData f w b s) s).2 := (placeRows_done f w (logitData f w b s) s).2

theorem faceStep_logitWritten : FaceStep s (logitWritten f w b s) := (spread_logitRows f w b s).faceStep.trans (faceStep_poisonRows ..)

theorem logitWritten_units : (logitWritten f w b s).clusters = s.clusters ∧ (logitWritten f w b s).run.otherErrs = s.run.otherErrs := by
  have rows : faceUnits (logitWritten f w b s) = faceUnits (placeRows f w (logitData f w b s) s).2 := poisonRows_units f _ _
  have spread := (spread_logitRows f w b s).rest
  exact ⟨(congrArg (fun x => x.2.1) rows :).trans (congrArg State.clusters spread :),
    (congrArg (fun x => x.2.2) rows :).trans (congrArg (fun t => t.run.otherErrs) spread :)⟩

theorem logitPlaced_units : faceUnits (logitPlaced f i w b s) = faceUnits (keepBlock 4 f w (some b) (logitWritten f w b s)) :=
  facePartTag_units i _ _

theorem logitPlaced_kept : BlockKept 4 f w (some b) s (logitPlaced f i w b s) :=
  blockKept_of_steps (faceStep_logitWritten f w b s) (faceStep_facePartTag i _ _) (logitWritten_units f w b s).1
    (congrArg (fun x => x.2.1) (logitPlaced_units f i w b s))

theorem logitPlaced_errs : (logitPlaced f i w b s).run.otherErrs = s.run.otherErrs :=
  (congrArg (fun x => x.2.2) (logitPlaced_units f i w b s) :).trans (logitWritten_units f w b s).2

variable {s}

theorem logitPlaced_poison {w : IWord} {r : Nat} (route : bitAt w 107 = true) (h : r ∈ logitRows f s)
    (foreign : coresOwned s (rowCores (faceWord w) 0) (tagPart (tagOf s r)) = false) :
    (f, r) ∈ (logitPlaced f i (faceWord w) b s).run.poison := by
  have failed := mem_failed_of_target (f := f) (data := logitData f (faceWord w) b s) (rowTarget_routed route s r) foreign (by
    rw [logitData_rows]
    exact h)
  exact (faceStep_facePartTag i _ _).poison _ (mem_poison_poisonRows f failed (placeRows f (faceWord w) (logitData f (faceWord w) b s) s).2)

end

/-! ### FACEIN QRY and PROB -/

section

variable (key : Bool) (f : FaceIx) (i : Nat) (w : FaceWord) (b : List Byte) (s : State)

/-- The bytes of a QRY or PROB block. -/
abbrev exchangeSize : Nat :=
  ((faceContext s f).map (if key then qrySize s (attWith s key w.target) else probSize s (attWith s key w.target))).sum

/-- The entries of a QRY or PROB block that is refused. -/
def exchangeBounds : State := faceBounds w ((faceContext s f).flatMap (·.rows)) (exchangeSize key f w s) b.length s

/-- A QRY or PROB block that is refused. -/
def exchangeRefused : State := setStatus i 0 false (keepBlock w.kind f w none (exchangeBounds key f w b s))

/-- A QRY or PROB block that is kept. -/
def exchangeTaken : State := setStatus i 0 false (keepBlock w.kind f w (some b) s)

theorem exchangeIn_eq {wd : IWord} (checked : s.run.checked = true) : exchangeIn key f b i wd s =
    if (takePayload i b s).1.length ≠ exchangeSize key f (faceWord wd) (takePayload i b s).2 then
      some (exchangeRefused key f i (faceWord wd) (takePayload i b s).1 (takePayload i b s).2)
    else some (exchangeTaken f i (faceWord wd) (takePayload i b s).1 (takePayload i b s).2) :=
  if_neg (by rw [checked]; decide)

theorem exchangeBounds_units : ((exchangeBounds key f w b s).cores, (exchangeBounds key f w b s).clusters) = (s.cores, s.clusters) :=
  faceBounds_units ..

theorem exchangeRefused_kept : BlockKept w.kind f w none s (exchangeRefused key f i w b s) :=
  blockKept_of_steps (faceStep_faceBounds ..) (faceStep_setStatus i 0 _) (congrArg Prod.snd (exchangeBounds_units key f w b s)) rfl

theorem exchangeRefused_cores : (exchangeRefused key f i w b s).cores = s.cores := congrArg Prod.fst (exchangeBounds_units key f w b s)

theorem exchangeTaken_units : (exchangeTaken f i w b s).cores = s.cores ∧ (exchangeTaken f i w b s).run.otherErrs = s.run.otherErrs :=
  ⟨rfl, rfl⟩

theorem exchangeTaken_kept : BlockKept w.kind f w (some b) s (exchangeTaken f i w b s) :=
  blockKept_of_steps (.refl s) (faceStep_setStatus i 0 _) rfl rfl

end

/-! ### The words -/

theorem FaceLeft.face_rest {q : Nat} {w : IWord} {s u t : State} (h : FaceLeft q w s u t) (clusters : u.clusters = s.clusters) :
    t = { s with cores := t.cores, faces := t.faces, run := t.run } := by
  have same : t.clusters = s.clusters := h.clusters.trans clusters
  have rest := h.rest
  rw [same] at rest
  exact rest

section

variable {f : FaceIx} {b : List Byte} {s : State} {i : Nat} {w : IWord}

/-- FACEIN LOGIT: a block of another length is refused, one of the right length placed and kept. -/
theorem faceinLogit_left (ready : FaceReady s f 4 i w) : ∃ u₀ u t, Logged s u₀ ∧ exec (.faceinLogit f b) s = .next t ∧
    FaceLeft (200 + f.val) w s u t ∧ u = if (blockTaken s i b).length ≠ logitSize f (faceWord w) u₀ then
      logitRefused f i (faceWord w) (blockTaken s i b) u₀ else logitPlaced f i (faceWord w) (blockTaken s i b) u₀ := by
  obtain ⟨body, logged⟩ := takePayload_logged i b s
  have work := logitWork_eq f i b s w
  rw [body] at work
  generalize (takePayload i b s).2 = u₀ at logged work
  by_cases len : (blockTaken s i b).length ≠ logitSize f (faceWord w) u₀
  · rw [if_pos len] at work
    have kept := logitRefused_kept f i (faceWord w) (blockTaken s i b) u₀
    obtain ⟨t, ended, left⟩ := issueIn_left ready logged work kept.rest kept.ptr
    exact ⟨u₀, _, t, logged, congrArg Host.Outcome.next ended, left, (if_pos len).symm⟩
  · rw [if_neg len] at work
    have kept := logitPlaced_kept f i (faceWord w) (blockTaken s i b) u₀
    obtain ⟨t, ended, left⟩ := issueIn_left ready logged work kept.rest kept.ptr
    exact ⟨u₀, _, t, logged, congrArg Host.Outcome.next ended, left, (if_neg len).symm⟩

/-- FACEIN QRY and PROB: a block of the expected length is kept, one of another length kept as refused. -/
theorem issueIn_exchange {key : Bool} {kind : Nat} (ready : FaceReady s f kind i w) (checked : s.run.checked = true) :
    ∃ u₀ u t, Logged s u₀ ∧ issueIn f kind (exchangeIn key f b) s = t ∧ FaceLeft (200 + f.val) w s u t ∧
      u = if (blockTaken s i b).length ≠ exchangeSize key f (faceWord w) u₀ then
        exchangeRefused key f i (faceWord w) (blockTaken s i b) u₀ else exchangeTaken f i (faceWord w) (blockTaken s i b) u₀ := by
  obtain ⟨body, logged⟩ := takePayload_logged i b s
  have work := exchangeIn_eq key f i b s (wd := w) checked
  rw [body] at work
  generalize (takePayload i b s).2 = u₀ at logged work
  by_cases len : (blockTaken s i b).length ≠ exchangeSize key f (faceWord w) u₀
  · rw [if_pos len] at work
    have kept := exchangeRefused_kept key f i (faceWord w) (blockTaken s i b) u₀
    obtain ⟨t, ended, left⟩ := issueIn_left ready logged work kept.rest kept.ptr
    exact ⟨u₀, _, t, logged, ended, left, (if_pos len).symm⟩
  · rw [if_neg len] at work
    have kept := exchangeTaken_kept f i (faceWord w) (blockTaken s i b) u₀
    obtain ⟨t, ended, left⟩ := issueIn_left ready logged work kept.rest kept.ptr
    exact ⟨u₀, _, t, logged, ended, left, (if_neg len).symm⟩

end

end Sys2Proof.Machine
end

section
/-!
PROOFS. The obligation on the blocks of the faces (R151, R153, R187, R198, R199, R294, R482).
-/

namespace Sys2Proof.Machine

section

variable {f : FaceIx} {b : List Byte} {s : State} {i : Nat} {w : IWord}

/-- The clause of an ACT block. -/
theorem faceinAct_taken (ready : FaceReady s f 0 i w) : ∃ t, exec (.faceinAct f b) s = .next t ∧
      t = { s with cores := t.cores, clusters := t.clusters, faces := t.faces, run := t.run } ∧
      wordPassed s t (200 + f.val) ∧ SameAssign s t ∧
      let wd := (targetOf s (fld w 50 4)).din
      ((blockTaken s i b).length ≠ (faceRows s f).length * wd → t.cores = s.cores ∧ t.clusters = s.clusters ∧
        ∀ r ∈ faceRows s f, bitAt w 107 = true ∨ rowPlace s r ≠ none → (f, r) ∈ t.run.poison) ∧
      ((blockTaken s i b).length = (faceRows s f).length * wd → ∀ r seg p l, faceRows s f = l ++ [r] → r ∉ l →
        rowPlace s r = some (seg, p) → bitAt w 107 = false →
        (coresOwned s (actCores w s seg p) (tagPart (tagOf s r)) = false → (f, r) ∈ t.run.poison) ∧
        (coresOwned s (actCores w s seg p) (tagPart (tagOf s r)) = true → actAddr s seg p + wd ≤ Config.coreStoreBytes →
          (∀ n ∈ actCores w s seg p, Memory.wf s.cores[n].store = true) → ∀ (k : Nat) (n : CoreIx), (actCores w s seg p)[k]? = some n →
          (bitAt w 106 = false →
            memRead t.cores[n].store (actAddr s seg p) wd = ((blockTaken s i b).drop (l.length * wd)).take wd) ∧
          (bitAt w 106 = true → (actCores w s seg p).Nodup →
            memRead t.cores[n].store (actAddr s seg p) (wd / (actCores w s seg p).length) =
              slice (((blockTaken s i b).drop (l.length * wd)).take wd) (k * (wd / (actCores w s seg p).length))
                (wd / (actCores w s seg p).length)))) := by
  obtain ⟨_, u, t, ⟨a, l, c, rfl⟩, done, left, ends⟩ := faceinAct_left (b := b) ready
  have poison : t.run.poison = u.run.poison := (congrArg Run.poison left.run :)
  refine ⟨t, done, left.rest, left.passed, left.same, fun differs => ?_, fun len r seg p rows last _ place route => ⟨fun foreign => ?_,
    fun owned room wf k n hk => ?_⟩⟩
  · have refused : u = actRefused f i (faceWord w) (blockTaken s i b) (withLog a l c s) := ends.trans (if_pos differs)
    obtain ⟨cores, clusters⟩ := actRefused_units f i (faceWord w) (blockTaken s i b) (withLog a l c s)
    rw [← refused] at cores clusters
    refine ⟨left.cores_same cores, left.clusters.trans clusters, fun r hr meant => ?_⟩
    rw [poison, refused]
    exact actRefused_poison f i (faceWord w) _ (mem_rowsMeant (s := withLog a l c s) hr meant)
  · have placed : u = actPlaced f i (faceWord w) (blockTaken s i b) (withLog a l c s) := ends.trans (if_neg (not_not_intro len))
    rw [poison, placed]
    exact actPlaced_foreign (s := withLog a l c s) last place route foreign
  · have placed : u = actPlaced f i (faceWord w) (blockTaken s i b) (withLog a l c s) := ends.trans (if_neg (not_not_intro len))
    rw [left.store, placed]
    exact actPlaced_owned (s := withLog a l c s) last place route len owned room wf hk

/-- The clause of a GRAD block. -/
theorem faceinGrad_taken (ready : FaceReady s f 1 i w) : ∃ t, exec (.faceinGrad f b) s = .next t ∧
      t = { s with cores := t.cores, clusters := t.clusters, faces := t.faces, run := t.run } ∧
      wordPassed s t (200 + f.val) ∧ SameAssign s t ∧
      let wd := (targetOf s (fld w 50 4)).dout
      ((blockTaken s i b).length ≠ (gradRows f s).length * wd * 2 → t.cores = s.cores ∧ t.clusters = s.clusters ∧
        (f, fld w 50 4, fld w 54 10) ∈ t.run.gradRefused ∧
        (∀ r ∈ gradRows f s, bitAt w 107 = true ∨ rowPlace s r ≠ none → (f, r) ∈ t.run.poison) ∧
        ∀ r < s.run.tags.length, tagValid (tagOf s r) = true → tagGrad (tagOf s r) = true →
          t.run.summary.getLsbD (tagPart (tagOf s r)).val = true ∧ t.run.summary.getLsbD (16 + (tagPart (tagOf s r)).val) = true) ∧
      ((blockTaken s i b).length = (gradRows f s).length * wd * 2 → t.run.gradRefused = s.run.gradRefused ∧
        (∀ r ∈ gradRows f s, t.run.summary.getLsbD (tagPart (tagOf s r)).val = true) ∧
        ∀ r l, gradRows f s = l ++ [r] → r ∉ l → bitAt w 107 = true →
        (coresOwned s (rowCores (faceWord w) 0) (tagPart (tagOf s r)) = false → (f, r) ∈ t.run.poison) ∧
        (coresOwned s (rowCores (faceWord w) 0) (tagPart (tagOf s r)) = true → gradAddr f w s r + wd ≤ Config.coreStoreBytes →
          ∀ n ∈ rowCores (faceWord w) 0, Memory.wf s.cores[n].store = true → memRead t.cores[n].store (gradAddr f w s r) wd =
            gradCodes s.parts[tagPart (tagOf s r)].loss.ls wd (((blockTaken s i b).drop (l.length * (2 * wd))).take (2 * wd)))) := by
  obtain ⟨_, u, t, ⟨a, l, c, rfl⟩, done, left, ends⟩ := faceinGrad_left (b := b) ready
  have poison : t.run.poison = u.run.poison := (congrArg Run.poison left.run :)
  have summary : t.run.summary = u.run.summary := (congrArg Run.summary left.run :)
  have noted : t.run.gradRefused = u.run.gradRefused := (congrArg Run.gradRefused left.run :)
  refine ⟨t, done, left.rest, left.passed, left.same, fun differs => ?_, fun len => ?_⟩
  · have refused : u = Machine.gradRefused f i (faceWord w) (blockTaken s i b) (withLog a l c s) := ends.trans (if_pos differs)
    obtain ⟨cores, clusters⟩ := gradRefused_units f i (faceWord w) (blockTaken s i b) (withLog a l c s)
    rw [← refused] at cores clusters
    rw [poison, summary, noted, refused]
    refine ⟨left.cores_same cores, left.clusters.trans clusters, gradRefused_noted f i (faceWord w) _ _, fun r hr meant => ?_,
      fun r lt valid grad => ?_⟩
    · exact gradRefused_poison f i (faceWord w) _ (mem_rowsMeant (s := withLog a l c s) hr meant)
    · exact gradRefused_summary f i (faceWord w) _ (s := withLog a l c s) lt valid grad
  · have placed : u = gradPlaced f i (faceWord w) (blockTaken s i b) (withLog a l c s) := ends.trans (if_neg (not_not_intro len))
    have step := faceStep_gradPlaced f i (faceWord w) (blockTaken s i b) (withLog a l c s)
    rw [← placed] at step
    refine ⟨?_, fun r hr => ?_, fun r rows last _ route => ⟨fun foreign => ?_, fun owned room n hn wf => ?_⟩⟩
    · rw [noted, step.run]
      rfl
    · rw [summary, placed]
      exact gradPlaced_summary f i (faceWord w) _ (s := withLog a l c s) hr
    · rw [poison, placed]
      exact gradPlaced_foreign (s := withLog a l c s) last route foreign
    · rw [left.store, placed]
      exact gradPlaced_owned (s := withLog a l c s) last route owned room hn wf

/-- The size that a block must have to be kept, by KIND (Table ARITH-13). -/
def keptSize (s : State) (f : FaceIx) (w : IWord) (kind : Nat) : Nat :=
  if kind = 4 then logitSize f (faceWord w) s else exchangeSize (kind == 2) f (faceWord w) s

/-- What a FACEIN word leaves that keeps its block. -/
structure BlockTaken (f : FaceIx) (b : List Byte) (s : State) (i : Nat) (w : IWord) (kind : Nat) (t : State) : Prop where
  /-- Cores, faces and the running step alone. -/
  rest : t = { s with cores := t.cores, faces := t.faces, run := t.run }
  /-- The queue goes on. -/
  passed : wordPassed s t (200 + f.val)
  /-- The assignment of the cores. -/
  same : SameAssign s t
  /-- Only LOGIT writes core stores. -/
  cores : kind ≠ 4 ∨ (blockTaken s i b).length ≠ keptSize s f w kind → t.cores = s.cores
  /-- The rows of a LOGIT block that is refused. -/
  refused : kind = 4 → (blockTaken s i b).length ≠ keptSize s f w kind → ∀ r ∈ faceRows s f, 0 < rowTopk s r →
    bitAt w 107 = true ∨ rowPlace s r ≠ none → (f, r) ∈ t.run.poison
  /-- The rows of a LOGIT block that reach another partition's core. -/
  foreign : kind = 4 → (blockTaken s i b).length = keptSize s f w kind → bitAt w 107 = true → ∀ r ∈ faceRows s f, 0 < rowTopk s r →
    coresOwned s (rowCores (faceWord w) 0) (tagPart (tagOf s r)) = false → (f, r) ∈ t.run.poison
  /-- The block. -/
  block : t.run.blocks = s.run.blocks ++ [InBlock.mk kind f (fld w 50 4) (fld w 54 10) (fld w 80 15) (bitAt w 107)
    (if (blockTaken s i b).length = keptSize s f w kind then some (blockTaken s i b) else none)]
  /-- No entry for a block that is taken. -/
  errs : (blockTaken s i b).length = keptSize s f w kind → t.run.otherErrs = s.run.otherErrs

theorem faceinLogit_taken (ready : FaceReady s f 4 i w) : ∃ t, exec (.faceinLogit f b) s = .next t ∧ BlockTaken f b s i w 4 t := by
  obtain ⟨_, u, t, ⟨a, l, c, rfl⟩, done, left, ends⟩ := faceinLogit_left (b := b) ready
  have poison : t.run.poison = u.run.poison := (congrArg Run.poison left.run :)
  have blocks : t.run.blocks = u.run.blocks := (congrArg Run.blocks left.run :)
  have errs : t.run.otherErrs = u.run.otherErrs := (congrArg Run.otherErrs left.run :)
  have size : keptSize s f w 4 = logitSize f (faceWord w) (withLog a l c s) := rfl
  refine ⟨t, done, ?_⟩
  by_cases len : (blockTaken s i b).length = keptSize s f w 4
  · have placed : u = logitPlaced f i (faceWord w) (blockTaken s i b) (withLog a l c s) :=
      ends.trans (if_neg (not_not_intro (len.trans size)))
    have kept := logitPlaced_kept f i (faceWord w) (blockTaken s i b) (withLog a l c s)
    have quiet := logitPlaced_errs f i (faceWord w) (blockTaken s i b) (withLog a l c s)
    rw [← placed] at kept quiet
    refine ⟨left.face_rest kept.clusters, left.passed, left.same, fun h => absurd h (by simp [len]), fun _ differs => absurd len differs,
      fun _ _ route r hr topk foreign => ?_, ?_, fun _ => errs.trans quiet⟩
    · rw [poison, placed]
      exact logitPlaced_poison f i _ (s := withLog a l c s) route (List.mem_filter.mpr ⟨hr, decide_eq_true topk⟩) foreign
    · rw [blocks, if_pos len]
      exact kept.block
  · have refused : u = logitRefused f i (faceWord w) (blockTaken s i b) (withLog a l c s) := ends.trans (if_pos (size ▸ len))
    have kept := logitRefused_kept f i (faceWord w) (blockTaken s i b) (withLog a l c s)
    have cores := logitRefused_cores f i (faceWord w) (blockTaken s i b) (withLog a l c s)
    rw [← refused] at kept cores
    refine ⟨left.face_rest kept.clusters, left.passed, left.same, fun _ => left.cores_same cores, fun _ _ r hr topk meant => ?_,
      fun _ same => absurd same len, ?_, fun same => absurd same len⟩
    · rw [poison, refused]
      have row : r ∈ logitRows f (withLog a l c s) := List.mem_filter.mpr ⟨hr, decide_eq_true topk⟩
      exact logitRefused_poison f i (faceWord w) _ (mem_rowsMeant row meant)
    · rw [blocks, if_neg len]
      exact kept.block

/-- QRY where `key` holds, else PROB. -/
theorem issueIn_exchange_taken {key : Bool} {kind : Nat} (ready : FaceReady s f kind i w) (checked : s.run.checked = true)
    (hkind : kind = if key then 2 else 3) : BlockTaken f b s i w kind (issueIn f kind (exchangeIn key f b) s) := by
  obtain ⟨_, u, t, ⟨a, l, c, rfl⟩, rfl, left, ends⟩ := issueIn_exchange (key := key) (b := b) ready checked
  have other : kind ≠ 4 := by
    rw [hkind]
    cases key <;> decide
  have isKey : (kind == 2) = key := by
    rw [hkind]
    cases key <;> rfl
  have number : (faceWord w).kind = kind := ready.kind
  have size : keptSize s f w kind = exchangeSize key f (faceWord w) (withLog a l c s) := by
    rw [keptSize, if_neg other, isKey]
    rfl
  have blocks : (issueIn f kind (exchangeIn key f b) s).run.blocks = u.run.blocks := (congrArg Run.blocks left.run :)
  have errs : (issueIn f kind (exchangeIn key f b) s).run.otherErrs = u.run.otherErrs := (congrArg Run.otherErrs left.run :)
  by_cases len : (blockTaken s i b).length = keptSize s f w kind
  · have taken : u = exchangeTaken f i (faceWord w) (blockTaken s i b) (withLog a l c s) :=
      ends.trans (if_neg (not_not_intro (len.trans size)))
    have kept := exchangeTaken_kept f i (faceWord w) (blockTaken s i b) (withLog a l c s)
    obtain ⟨cores, quiet⟩ := exchangeTaken_units f i (faceWord w) (blockTaken s i b) (withLog a l c s)
    rw [← taken, number] at kept
    rw [← taken] at cores quiet
    refine ⟨left.face_rest kept.clusters, left.passed, left.same, fun _ => left.cores_same cores, fun four => absurd four other,
      fun four => absurd four other, ?_, fun _ => errs.trans quiet⟩
    rw [blocks, if_pos len]
    exact kept.block
  · have refused : u = exchangeRefused key f i (faceWord w) (blockTaken s i b) (withLog a l c s) := ends.trans (if_pos (size ▸ len))
    have kept := exchangeRefused_kept key f i (faceWord w) (blockTaken s i b) (withLog a l c s)
    have cores := exchangeRefused_cores key f i (faceWord w) (blockTaken s i b) (withLog a l c s)
    rw [← refused, number] at kept
    rw [← refused] at cores
    refine ⟨left.face_rest kept.clusters, left.passed, left.same, fun _ => left.cores_same cores, fun four => absurd four other,
      fun four => absurd four other, ?_, fun same => absurd same len⟩
    rw [blocks, if_neg len]
    exact kept.block

end

/-- Settles O24: by what the work of each FACEIN word leaves of a block of the right length and of another. -/
theorem faceBlocksTaken : Obligations.FaceBlocksTaken := by
  unfold Obligations.FaceBlocksTaken
  refine ⟨fun f b s i w => ⟨faceinAct_taken, faceinGrad_taken⟩, fun f b s i w kind size c ready cases => ?_⟩
  have taken : ∃ t, exec c s = .next t ∧ BlockTaken f b s i w kind t ∧ size = keptSize s f w kind := by
    obtain ⟨rfl, rfl, hsize⟩ | ⟨rfl, rfl, checked, hsize⟩ | ⟨rfl, rfl, checked, hsize⟩ := cases
    · obtain ⟨t, done, taken⟩ := faceinLogit_taken (b := b) ready
      exact ⟨t, done, taken, hsize⟩
    · exact ⟨_, rfl, issueIn_exchange_taken (key := true) ready checked rfl, hsize⟩
    · exact ⟨_, rfl, issueIn_exchange_taken (key := false) ready checked rfl, hsize⟩
  obtain ⟨t, done, ⟨rest, passed, same, cores, refused, foreign, block, errs⟩, rfl⟩ := taken
  exact ⟨t, done, rest, passed, same, cores, refused, foreign, block, errs⟩

end Sys2Proof.Machine
end

section
/-!
PROOFS. Page commands: what a command taken from the RCC command ring does to its partition, and what it leaves alone (R181 to R183,
R473).
-/

namespace Sys2Proof.Machine

/-! ### One partition changed -/

theorem vmod_id {α : Type} {n : Nat} (v : Vector α n) (i : Fin n) : vmod v i (fun a => a) = v :=
  Vector.ext fun j h => by rw [vmod_at]; split <;> rfl

theorem vmod_vmod {α : Type} {n : Nat} (v : Vector α n) (i : Fin n) (f g : α → α) : vmod (vmod v i f) i g = vmod v i (fun a => g (f a)) :=
  Vector.ext fun j h => by simp only [vmod_at]; split <;> rfl

/-- A partition changed by `g`, with outputs, registers, bytes of HBM and error records; nothing else of the machine. -/
def PageEdit (p : Part) (g : PartSt → PartSt) (s t : State) : Prop :=
  t = { s with out := t.out, regs := t.regs, hbm := t.hbm, parts := vmod s.parts p g, err := t.err }

section

variable {p : Part} {f g : PartSt → PartSt} {s t u : State}

theorem pageEdit_modPart (p : Part) (g : PartSt → PartSt) (s : State) : PageEdit p g s (modPart p g s) := rfl

theorem PageEdit.refl (p : Part) (s : State) : PageEdit p (fun q => q) s s := by
  rw [PageEdit, vmod_id]

theorem PageEdit.trans (h : PageEdit p f s t) (k : PageEdit p g t u) : PageEdit p (fun q => g (f q)) s u := by
  rw [PageEdit, h, vmod_vmod] at k
  exact k

/-- Changes that touch no partition come before. -/
theorem PageEdit.after (h : t = { s with out := t.out, regs := t.regs, hbm := t.hbm, err := t.err }) (k : PageEdit p g t u) :
    PageEdit p g s u := by
  rw [PageEdit, h] at k
  exact k

/-- Changes that touch no partition come after. -/
theorem PageEdit.then (h : PageEdit p g s t) (k : u = { t with out := u.out, regs := u.regs, hbm := u.hbm, err := u.err }) :
    PageEdit p g s u := by
  rw [h] at k
  exact k

/-- An interrupt that is raised, or not. -/
theorem PageEdit.raised (h : PageEdit p g s t) (c : Prop) [Decidable c] (page : Fin 32) (bit : Nat) :
    PageEdit p g s (if c then raiseInt page bit t else t) ∧ (if c then raiseInt page bit t else t).hbm = t.hbm ∧
      (if c then raiseInt page bit t else t).out = t.out ∧ (if c then raiseInt page bit t else t).err = t.err := by
  split
  · exact ⟨h.then rfl, rfl, rfl, rfl⟩
  · exact ⟨h, rfl, rfl, rfl⟩

theorem PageEdit.parts (h : PageEdit p g s t) : t.parts = vmod s.parts p g := by
  rw [h]

theorem PageEdit.part (h : PageEdit p g s t) : t.parts[p] = g s.parts[p] := by
  rw [h.parts, Fin.getElem_fin, vmod_same]

theorem PageEdit.rest (h : PageEdit p g s t) :
    t = { s with out := t.out, regs := t.regs, hbm := t.hbm, parts := t.parts, err := t.err } := by
  rw [h.parts]
  exact h

theorem PageEdit.others (h : PageEdit p g s t) {q : Part} (ne : q ≠ p) : t.parts[q] = s.parts[q] := by
  rw [h.parts]
  exact vmod_other _ _ _ _ _ (fun e => ne (Fin.ext e.symm))

theorem PageEdit.footPage_eq (h : PageEdit p g s t) : footPage s t = t := by
  have run : t.run = s.run := by rw [h]
  have rcc : t.rcc = s.rcc := by rw [h]
  rw [footPage, run, rcc]
  exact h.rest.symm

theorem PageEdit.gone (h : PageEdit p g s t) (taken : (g s.parts[p]).rccq = ringTake s.parts[p].rccq 1)
    (lists : (g s.parts[p]).plists = s.parts[p].plists) : PageGone s t p where
  rest := h.rest
  taken := by rw [h.part, taken]
  others _ ne := h.others ne
  lists := by rw [h.part, lists]

end

/-! ### Descriptors changed -/

theorem foldl_modDesc (p : Part) (f : PageDesc → PageDesc) (l : List Nat) (s : State) :
    l.foldl (fun s d => modDesc p d f s) s =
      modPart p (fun q => { q with pdescs := l.foldl (fun t d => tabMod {} t d f) q.pdescs }) s := by
  induction l generalizing s with
  | nil => exact (congrArg (fun v => { s with parts := v }) (vmod_id s.parts p)).symm
  | cons d l ih => rw [List.foldl_cons, ih, modDesc, modPart, modPart_parts, vmod_vmod]; rfl

/-- A change that never gives the entry of an unlisted page: every page is changed as often as it is named. -/
theorem tabGet_foldl_tabMod {f : PageDesc → PageDesc} (l : List Nat) (t : Tab PageDesc) (k : Nat)
    (listed : ∀ d ∈ l, ∀ n < l.count d, f^[n + 1] (tabGet {} t d) ≠ {}) :
    tabGet {} (l.foldl (fun t d => tabMod {} t d f) t) k = f^[l.count k] (tabGet {} t k) := by
  induction l generalizing t with
  | nil => rfl
  | cons d l ih =>
    have here : tabGet {} (tabMod {} t d f) d = f (tabGet {} t d) :=
      tabGet_tabSet_same _ _ _ _ (listed d (by simp) 0 (by simp))
    have away {j : Nat} (ne : j ≠ d) : tabGet {} (tabMod {} t d f) j = tabGet {} t j := tabGet_tabSet_other _ _ _ _ _ ne
    rw [List.foldl_cons, ih]
    · by_cases e : k = d
      · subst e
        rw [here, List.count_cons_self, Function.iterate_succ_apply]
      · rw [away e, List.count_cons_of_ne (Ne.symm e)]
    · intro j hj n hn
      by_cases e : j = d
      · subst e
        rw [here, ← Function.iterate_succ_apply]
        exact listed j (by simp) (n + 1) (by simpa using hn)
      · rw [away e]
        exact listed j (by simp [hj]) n (by rwa [List.count_cons_of_ne (Ne.symm e)])

theorem iterate_share (n : Nat) (x : PageDesc) : (fun y : PageDesc => { y with ref := y.ref + 1 })^[n] x = refPlus x n := by
  induction n generalizing x with
  | zero => rfl
  | succ n ih => rw [Function.iterate_succ_apply, ih, refPlus, refPlus]; simp only [Nat.add_assoc, Nat.add_comm 1]

theorem iterate_release (n : Nat) (x : PageDesc) :
    (fun y : PageDesc => { y with ref := y.ref - 1 })^[n] x = { x with ref := x.ref - n } := by
  induction n generalizing x with
  | zero => rfl
  | succ n ih => rw [Function.iterate_succ_apply, ih]; simp only [Nat.sub_sub, Nat.add_comm 1]

theorem pdesc_modDesc_same {p : Part} {d : Nat} {f : PageDesc → PageDesc} {s : State} (listed : f (pdesc s.parts[p] d) ≠ {}) :
    pdesc (modDesc p d f s).parts[p] d = f (pdesc s.parts[p] d) := by
  rw [modDesc, (pageEdit_modPart p _ s).part]
  exact tabGet_tabSet_same _ _ _ _ listed

theorem pdesc_modDesc_other {p : Part} {d k : Nat} (f : PageDesc → PageDesc) (s : State) (ne : k ≠ d) :
    pdesc (modDesc p d f s).parts[p] k = pdesc s.parts[p] k := by
  rw [modDesc, (pageEdit_modPart p _ s).part]
  exact tabGet_tabSet_other _ _ _ _ _ ne

/-- A page that keeps a reference is not released. -/
theorem foldl_dropRef {p : Part} {l : List Nat} {s : State} (held : ∀ d ∈ l, l.count d < (pdesc s.parts[p] d).ref) :
    l.foldl (fun s d => dropRef p d s) s = l.foldl (fun s d => modDesc p d (fun y => { y with ref := y.ref - 1 }) s) s := by
  induction l generalizing s with
  | nil => rfl
  | cons d l ih =>
    have here := held d (by simp)
    rw [List.count_cons_self] at here
    have drop : dropRef p d s = modDesc p d (fun y => { y with ref := y.ref - 1 }) s := if_neg (by omega)
    rw [List.foldl_cons, List.foldl_cons, drop]
    refine ih fun k hk => ?_
    by_cases e : k = d
    · subst e
      rw [pdesc_modDesc_same]
      · dsimp only; omega
      · intro h
        have := congrArg PageDesc.ref h
        dsimp only at this; omega
    · rw [pdesc_modDesc_other _ _ e]
      have := held k (by simp [hk])
      rwa [List.count_cons_of_ne (Ne.symm e)] at this

/-! ### A page released, and an entry on the completion ring (R181, R183) -/

/-- The descriptor of a page released. -/
def freedDesc (x : PageDesc) : PageDesc := { x with st := 0, ref := 0, fill := 0, gen := (x.gen + 1) % 256 }

/-- A partition with a page released. -/
def pageFreed (d : Nat) (q : PartSt) : PartSt := { q with pdescs := tabMod {} q.pdescs d freedDesc, rccr := ringPut q.rccr d }

/-- A partition with an entry on its RCC completion ring. -/
def pageEntered (c : RccCpl) (q : PartSt) : PartSt := { q with rccc := ringPut q.rccc c }

theorem releasePage_frame (p : Part) (d : Nat) {s : State} (kept : (pdesc s.parts[p] d).st ≠ 2) :
    PageEdit p (pageFreed d) s (releasePage p d s) ∧
      (releasePage p d s).hbm = memZero s.hbm (pdesc s.parts[p] d).addr (frameBytes s.parts[p]) := by
  have changed : PageEdit p (pageFreed d) (zeroBytes (pdesc s.parts[p] d).addr (frameBytes s.parts[p]) s)
      (modPart p (fun q => { q with rccr := ringPut q.rccr d }) (modDesc p d freedDesc
        (zeroBytes (pdesc s.parts[p] d).addr (frameBytes s.parts[p]) s))) :=
    (pageEdit_modPart p (fun q => { q with pdescs := tabMod {} q.pdescs d freedDesc }) _).trans (pageEdit_modPart p _ _)
  obtain ⟨edit, hbm, -⟩ := (PageEdit.after rfl changed).raised (s.parts[p].rccr.wait = [] ∧ 0 < ringRoom s.parts[p].rccr) (pmPage p) 2
  simp only [releasePage, if_neg kept]
  exact ⟨edit, hbm⟩

theorem pageDone_frame (p : Part) (ix : Nat) (e : BitVec 256) (st : CplStatus) (s : State) :
    PageEdit p (pageEntered { index := ix, cmd := pcCmd e, status := st, desc := if pcCmd e < 3 then 0 else pcDesc e }) s
        (pageDone p ix e st s) ∧
      (pageDone p ix e st s).hbm = s.hbm ∧ (pageDone p ix e st s).out = s.out ∧ (pageDone p ix e st s).err = s.err :=
  (pageEdit_modPart p _ s).raised _ (pmPage p) 1

/-- A partition with a page's move begun (R183). -/
def pageMoving (m : PageMove) (q : PartSt) : PartSt :=
  { q with pdescs := tabMod {} q.pdescs m.desc (fun y => { y with st := 3 }), moves := q.moves ++ [m] }

theorem modPart_modDesc (p : Part) (g : PartSt → PartSt) (d : Nat) (f : PageDesc → PageDesc) (s : State) :
    modPart p g (modDesc p d f s) = modPart p (fun q => g { q with pdescs := tabMod {} q.pdescs d f }) s := by
  rw [modDesc, modPart, modPart_parts, vmod_vmod]
  rfl

/-! ### The work of each page command (R183, R473) -/

section

variable {p : Part} {ix : Nat} {e : BitVec 256} {s : State}

theorem pageWork_out_of_range (range : pcBounds s.parts[p] e = false) : pageWork p ix e s = (some .bounds, s) := by
  simp only [pageWork, if_pos range]

theorem pageWork_share (range : pcBounds s.parts[p] e = true) (cmd : pcCmd e = 1)
    (fit : ∀ d ∈ pcTouches s.parts[p] e, ((pdesc s.parts[p] d).st = 1 ∨ (pdesc s.parts[p] d).st = 2) ∧
      (pdesc s.parts[p] d).ref + (pcTouches s.parts[p] e).count d ≤ 65534) : pageWork p ix e s =
    (some .ok, (pcTouches s.parts[p] e).foldl (fun s d => modDesc p d (fun y => { y with ref := y.ref + 1 }) s) s) := by
  simp only [pageWork, range, cmd, Bool.true_eq_false, if_true, if_false]
  exact if_pos (by simpa using fit)

theorem pageWork_share_refused (range : pcBounds s.parts[p] e = true) (cmd : pcCmd e = 1)
    (unfit : ∃ d ∈ pcTouches s.parts[p] e, ((pdesc s.parts[p] d).st ≠ 1 ∧ (pdesc s.parts[p] d).st ≠ 2) ∨
      65534 < (pdesc s.parts[p] d).ref + (pcTouches s.parts[p] e).count d) : pageWork p ix e s = (some .state, s) := by
  simp only [pageWork, range, cmd, Bool.true_eq_false, if_true, if_false]
  refine if_neg fun all => ?_
  obtain ⟨d, touched, bad⟩ := unfit
  have := List.all_eq_true.mp all d touched
  simp only [Bool.and_eq_true, Bool.or_eq_true, beq_iff_eq, decide_eq_true_eq] at this
  omega

theorem pageWork_release (range : pcBounds s.parts[p] e = true) (cmd : pcCmd e = 2)
    (held : ∀ d ∈ pcTouches s.parts[p] e, (pcTouches s.parts[p] e).count d ≤ (pdesc s.parts[p] d).ref) :
    pageWork p ix e s = (some .ok, (pcTouches s.parts[p] e).foldl (fun s d => dropRef p d s) s) := by
  simp only [pageWork, range, cmd, Bool.true_eq_false, if_true, if_false, OfNat.ofNat_ne_one]
  exact if_pos (by simpa using held)

theorem pageWork_hold (range : pcBounds s.parts[p] e = true) (cmd : pcCmd e = 3) : pageWork p ix e s =
    if (pdesc s.parts[p] (pcDesc e)).st = 1 ∧ (pdesc s.parts[p] (pcDesc e)).ref = 1
    then (none, modPart p (pageMoving { desc := pcDesc e, index := ix, hold := true, dest := pcCold e }) s)
    else (some .state, s) := by
  simp only [pageWork, range, cmd, Bool.true_eq_false, if_true, if_false, OfNat.ofNat_ne_one, Nat.reduceEqDiff, modPart_modDesc]
  rfl

theorem pageWork_restore (range : pcBounds s.parts[p] e = true) (cmd : pcCmd e = 4) : pageWork p ix e s =
    if (pdesc s.parts[p] (pcDesc e)).st = 2
    then (none, modPart p (pageMoving { desc := pcDesc e, index := ix, hold := false, dest := pcAddr e }) s)
    else (some .state, s) := by
  simp only [pageWork, range, cmd, Bool.true_eq_false, if_true, if_false, OfNat.ofNat_ne_one, Nat.reduceEqDiff, modPart_modDesc]
  rfl

theorem pageWork_wipe (range : pcBounds s.parts[p] e = true) (cmd : pcCmd e = 5) : pageWork p ix e s =
    if (pdesc s.parts[p] (pcDesc e)).ref ≤ 1 ∧ (pdesc s.parts[p] (pcDesc e)).st ≠ 3
    then (some .ok, releasePage p (pcDesc e) s)
    else (some .state, s) := by
  simp only [pageWork, range, cmd, Bool.true_eq_false, if_false, OfNat.ofNat_ne_one, Nat.reduceEqDiff]

end

/-! ### A command taken from the ring (R182, R473) -/

/-- The front entry taken from the RCC command ring. -/
def pageTaken (p : Part) (s : State) : State := modPart p (fun q => { q with rccq := ringTake q.rccq 1 }) s

theorem pageTaken_part (p : Part) (s : State) :
    (pageTaken p s).parts[p] = { s.parts[p] with rccq := ringTake s.parts[p].rccq 1 } := vmod_same _ _ _

section

variable {p : Part} {cmd ix : Nat} {e : BitVec 256} {s u : State} {c : Instr} {st : CplStatus} {g : PartSt → PartSt}

theorem servePage_of_empty (h : s.parts[p].rccq.ents = []) : servePage p cmd s = s := by
  simp only [servePage, h]

/-- A command with another code, of a partition that is not KEYED, or with a page of the running step. -/
theorem servePage_of_waits (head : s.parts[p].rccq.ents.head? = some e)
    (waits : pcCmd e ≠ cmd ∨ s.parts[p].st ≠ .keyed ∨ ∃ d ∈ pcTouches s.parts[p] e, d ∈ stepPages s p) : servePage p cmd s = s := by
  obtain ⟨r, ents⟩ := List.head?_eq_some_iff.mp head
  simp only [servePage, ents]
  refine if_neg fun ⟨keyed, isCmd, free⟩ => ?_
  rcases waits with other | st | ⟨d, touched, named⟩
  · exact other isCmd
  · exact st keyed
  · simpa [named] using List.all_eq_true.mp free d touched

theorem dropBadPage_of_good {n : Nat} (good : ∀ x r, s.parts[p].rccq.ents = x :: r → 1 ≤ pcCmd x ∧ pcCmd x ≤ 5) :
    dropBadPage p n s = s := by
  cases n with
  | zero => rfl
  | succ n =>
    rw [dropBadPage]
    split
    · next x r ents =>
      have := good x r ents
      exact if_neg (by omega)
    · rfl

/-- What the work leaves when it is done with: the completion entry, unless a move has begun. -/
def pageAnswered (p : Part) (ix : Nat) (e : BitVec 256) (r : Option CplStatus × State) : State :=
  match r.1 with
  | some st => pageDone p ix e st r.2
  | none => r.2

theorem servePage_of_front (front : PageFront s p cmd e)
    (ring : (pageAnswered p s.parts[p].rccq.rd.toNat e (pageWork p s.parts[p].rccq.rd.toNat e (pageTaken p s))).parts[p].rccq =
      ringTake s.parts[p].rccq 1) :
    servePage p cmd s = pageAnswered p s.parts[p].rccq.rd.toNat e (pageWork p s.parts[p].rccq.rd.toNat e (pageTaken p s)) := by
  obtain ⟨keyed, isCmd, free, r, ents, good⟩ := front
  have taken : s.parts[p].st = .keyed ∧ pcCmd e = cmd ∧ (pcTouches s.parts[p] e).all (fun d => !(stepPages s p).contains d) = true :=
    ⟨keyed, isCmd, by simpa using free⟩
  have next : (ringTake s.parts[p].rccq 1).ents = r := by rw [ringTake, ents]; rfl
  simp only [servePage, ents]
  rw [if_pos taken]
  exact dropBadPage_of_good fun x y h => good x y (by rw [← h, ← next, ← ring]; rfl)

/-- A command that completes: its entry stands on the completion ring, and its partition is as the work has left it. -/
theorem page_completes (run : exec c s = .next (footPage s (servePage p cmd s))) (front : PageFront s p cmd e)
    (work : pageWork p s.parts[p].rccq.rd.toNat e (pageTaken p s) = (some st, u)) (edit : PageEdit p g (pageTaken p s) u)
    (rccq : ∀ q, (g q).rccq = q.rccq) (rccc : ∀ q, (g q).rccc = q.rccc) (plists : ∀ q, (g q).plists = q.plists) :
    ∃ t, exec c s = .next t ∧ PageGone s t p ∧ t.parts[p].pdescs = u.parts[p].pdescs ∧ t.hbm = u.hbm ∧ t.out = u.out ∧
      pageEntry s t p cmd (if cmd < 3 then 0 else pcDesc e) st := by
  obtain ⟨entered, hbm, out, -⟩ := pageDone_frame p s.parts[p].rccq.rd.toNat e st u
  have whole := ((pageEdit_modPart p (fun q => { q with rccq := ringTake q.rccq 1 }) s).trans edit).trans entered
  have served : servePage p cmd s = pageDone p s.parts[p].rccq.rd.toNat e st u := by
    have ring := whole.part
    rw [servePage_of_front front, work]
    · rfl
    · rw [work]; exact (congrArg PartSt.rccq ring).trans (rccq _)
  rw [served, whole.footPage_eq] at run
  refine ⟨_, run, whole.gone (rccq _) (plists _), ?_, hbm, out, ?_⟩
  · rw [entered.part]; rfl
  · rw [pageEntry, whole.part, ← front.isCmd]
    exact congrArg (ringPut · _) (rccc _)

/-- A command whose move begins: its partition is as the work has left it. -/
theorem page_begins (run : exec c s = .next (footPage s (servePage p cmd s))) (front : PageFront s p cmd e)
    (work : pageWork p s.parts[p].rccq.rd.toNat e (pageTaken p s) = (none, modPart p g (pageTaken p s)))
    (rccq : ∀ q, (g q).rccq = q.rccq) (plists : ∀ q, (g q).plists = q.plists) :
    ∃ t, exec c s = .next t ∧ PageGone s t p ∧ t.hbm = s.hbm ∧
      t.parts[p] = g { s.parts[p] with rccq := ringTake s.parts[p].rccq 1 } := by
  have whole := (pageEdit_modPart p (fun q => { q with rccq := ringTake q.rccq 1 }) s).trans (pageEdit_modPart p g (pageTaken p s))
  have served : servePage p cmd s = modPart p g (pageTaken p s) := by
    have ring := whole.part
    rw [servePage_of_front front, work]
    · rfl
    · rw [work]; exact (congrArg PartSt.rccq ring).trans (rccq _)
  rw [served, whole.footPage_eq] at run
  exact ⟨_, run, whole.gone (rccq _) (plists _), rfl, whole.part⟩

/-! ### The outcomes of the page commands (R182, R183, R473) -/

theorem page_refused (run : exec c s = .next (footPage s (servePage p cmd s))) (front : PageFront s p cmd e)
    (work : pageWork p s.parts[p].rccq.rd.toNat e (pageTaken p s) = (some st, pageTaken p s)) :
    ∃ t, exec c s = .next t ∧ PageGone s t p ∧ t.parts[p].pdescs = s.parts[p].pdescs ∧ t.hbm = s.hbm ∧
      pageEntry s t p cmd (if cmd < 3 then 0 else pcDesc e) st := by
  obtain ⟨t, done, gone, pdescs, hbm, -, entry⟩ := page_completes run front work (.refl p _) (fun _ => rfl) (fun _ => rfl) (fun _ => rfl)
  rw [pageTaken_part] at pdescs
  exact ⟨t, done, gone, pdescs, hbm, entry⟩

theorem pageTaken_bounds : pcBounds (pageTaken p s).parts[p] e = pcBounds s.parts[p] e := by rw [pageTaken_part]; rfl
theorem pageTaken_touches : pcTouches (pageTaken p s).parts[p] e = pcTouches s.parts[p] e := by rw [pageTaken_part]; rfl
theorem pageTaken_pdesc (d : Nat) : pdesc (pageTaken p s).parts[p] d = pdesc s.parts[p] d := by rw [pageTaken_part]; rfl

/-- A command that changes the references of the pages that it names. -/
theorem page_references {f : PageDesc → PageDesc} (run : exec c s = .next (footPage s (servePage p cmd s))) (front : PageFront s p cmd e)
    (work : pageWork p s.parts[p].rccq.rd.toNat e (pageTaken p s) =
      (some .ok, (pcTouches s.parts[p] e).foldl (fun s d => modDesc p d f s) (pageTaken p s)))
    (listed : ∀ d ∈ pcTouches s.parts[p] e, ∀ n < (pcTouches s.parts[p] e).count d, f^[n + 1] (pdesc s.parts[p] d) ≠ {}) :
    ∃ t, exec c s = .next t ∧ PageGone s t p ∧ t.hbm = s.hbm ∧ t.out = s.out ∧
      pageEntry s t p cmd (if cmd < 3 then 0 else pcDesc e) .ok ∧
      ∀ d, pdesc t.parts[p] d = f^[(pcTouches s.parts[p] e).count d] (pdesc s.parts[p] d) := by
  rw [foldl_modDesc] at work
  obtain ⟨t, done, gone, pdescs, hbm, out, entry⟩ := page_completes run front work (pageEdit_modPart _ _ _)
    (fun _ => rfl) (fun _ => rfl) (fun _ => rfl)
  refine ⟨t, done, gone, hbm, out, entry, fun d => ?_⟩
  rw [pdesc, pdescs, (pageEdit_modPart p _ _).part, pageTaken_part]
  exact tabGet_foldl_tabMod _ _ d listed

theorem share_accepted (front : PageFront s p 1 e) (range : pcBounds s.parts[p] e = true)
    (fit : ∀ d ∈ pcTouches s.parts[p] e, ((pdesc s.parts[p] d).st = 1 ∨ (pdesc s.parts[p] d).st = 2) ∧
      (pdesc s.parts[p] d).ref + (pcTouches s.parts[p] e).count d ≤ 65534) :
    ∃ t, exec (.share p) s = .next t ∧ PageGone s t p ∧ t.hbm = s.hbm ∧ t.out = s.out ∧ pageEntry s t p 1 0 .ok ∧
      ∀ d, pdesc t.parts[p] d = refPlus (pdesc s.parts[p] d) ((pcTouches s.parts[p] e).count d) := by
  have work := pageWork_share (ix := s.parts[p].rccq.rd.toNat) (s := pageTaken p s) (by rwa [pageTaken_bounds]) front.isCmd
    (by simpa only [pageTaken_touches, pageTaken_pdesc] using fit)
  rw [pageTaken_touches] at work
  have shared := page_references (c := .share p) rfl front work fun d _ n _ h => by
    rw [iterate_share] at h
    have := congrArg PageDesc.ref h
    simp [refPlus] at this
  simp only [iterate_share] at shared
  exact shared

theorem release_accepted (front : PageFront s p 2 e) (range : pcBounds s.parts[p] e = true)
    (held : ∀ d ∈ pcTouches s.parts[p] e, (pcTouches s.parts[p] e).count d < (pdesc s.parts[p] d).ref) :
    ∃ t, exec (.release p) s = .next t ∧ PageGone s t p ∧ t.hbm = s.hbm ∧ t.out = s.out ∧ pageEntry s t p 2 0 .ok ∧
      ∀ d, pdesc t.parts[p] d = { pdesc s.parts[p] d with ref := (pdesc s.parts[p] d).ref - (pcTouches s.parts[p] e).count d } := by
  have work := pageWork_release (ix := s.parts[p].rccq.rd.toNat) (s := pageTaken p s) (by rwa [pageTaken_bounds]) front.isCmd
    (by simpa only [pageTaken_touches, pageTaken_pdesc] using fun d hd => (held d hd).le)
  rw [pageTaken_touches, foldl_dropRef (by simpa only [pageTaken_pdesc] using held)] at work
  have released := page_references (c := .release p) rfl front work fun d hd n hn h => by
    rw [iterate_release] at h
    have ref := congrArg PageDesc.ref h
    have := held d hd
    simp only [] at ref
    omega
  simp only [iterate_release] at released
  exact released

/-- A command that gives a page's frame back. -/
theorem page_frees {d : Nat} (run : exec c s = .next (footPage s (servePage p cmd s))) (front : PageFront s p cmd e)
    (work : pageWork p s.parts[p].rccq.rd.toNat e (pageTaken p s) = (some .ok, releasePage p d (pageTaken p s)))
    (kept : (pdesc s.parts[p] d).st ≠ 2) (wf : tabWf {} s.parts[p].pdescs = true) :
    ∃ t, exec c s = .next t ∧ PageGone s t p ∧ pageEntry s t p cmd (if cmd < 3 then 0 else pcDesc e) .ok ∧
      pdesc t.parts[p] d = freedDesc (pdesc s.parts[p] d) ∧
      ∀ y, memByte t.hbm y = if (pdesc s.parts[p] d).addr ≤ y ∧ y < (pdesc s.parts[p] d).addr + frameBytes s.parts[p] then 0
        else memByte s.hbm y := by
  obtain ⟨freed, zeroed⟩ := releasePage_frame p d (s := pageTaken p s) (by rwa [pageTaken_pdesc])
  obtain ⟨t, done, gone, pdescs, hbm, -, entry⟩ := page_completes run front work freed (fun _ => rfl) (fun _ => rfl) (fun _ => rfl)
  refine ⟨t, done, gone, entry, ?_, fun y => ?_⟩
  · rw [pdesc, pdescs, freed.part, pageTaken_part]
    exact tabGet_tabSet_wf _ _ _ _ 0 wf
  · rw [hbm, zeroed, memByte_memZero, pageTaken_pdesc, pageTaken_part]
    rfl

/-- The last reference of a live page released. -/
theorem release_last {d : Nat} (front : PageFront s p 2 e) (range : pcBounds s.parts[p] e = true) (named : pcTouches s.parts[p] e = [d])
    (last : (pdesc s.parts[p] d).ref = 1) (live : (pdesc s.parts[p] d).st = 1) (wf : tabWf {} s.parts[p].pdescs = true) :
    ∃ t, exec (.release p) s = .next t ∧ PageGone s t p ∧ pageEntry s t p 2 0 .ok ∧
      pdesc t.parts[p] d = freedDesc (pdesc s.parts[p] d) ∧
      ∀ y, memByte t.hbm y = if (pdesc s.parts[p] d).addr ≤ y ∧ y < (pdesc s.parts[p] d).addr + frameBytes s.parts[p] then 0
        else memByte s.hbm y := by
  have work := pageWork_release (ix := s.parts[p].rccq.rd.toNat) (s := pageTaken p s) (by rwa [pageTaken_bounds]) front.isCmd
    (by simp only [pageTaken_touches, named, pageTaken_pdesc, List.mem_singleton]; rintro _ rfl; rw [last]; simp)
  have drop : dropRef p d (pageTaken p s) = releasePage p d (pageTaken p s) :=
    if_pos (by rw [pageTaken_pdesc]; omega)
  rw [pageTaken_touches, named, List.foldl_cons, List.foldl_nil, drop] at work
  exact page_frees rfl front work (by omega) wf

/-- A HOLD or RESTORE whose move begins. -/
theorem page_moves {m : PageMove} (run : exec c s = .next (footPage s (servePage p cmd s))) (front : PageFront s p cmd e)
    (work : pageWork p s.parts[p].rccq.rd.toNat e (pageTaken p s) = (none, modPart p (pageMoving m) (pageTaken p s))) :
    ∃ t, exec c s = .next t ∧ PageGone s t p ∧ t.hbm = s.hbm ∧ t.parts[p].rccc = s.parts[p].rccc ∧
      pdesc t.parts[p] m.desc = { pdesc s.parts[p] m.desc with st := 3 } ∧ t.parts[p].moves = s.parts[p].moves ++ [m] := by
  obtain ⟨t, done, gone, hbm, part⟩ := page_begins run front work (fun _ => rfl) (fun _ => rfl)
  refine ⟨t, done, gone, hbm, by rw [part]; rfl, ?_, by rw [part]; rfl⟩
  rw [part]
  exact tabGet_tabSet_same _ _ _ _ fun h => by simpa using congrArg PageDesc.st h

end

end Sys2Proof.Machine
end

section
/-!
PROOFS. The end of a page's move, and the obligation on page commands and page moves (R181 to R183, R384, R473, Table RCC-8).
-/

namespace Sys2Proof.Machine

/-! ### The end of a page's move (R183, R384) -/

section

variable {p : Part} {desc : Nat} {obj : List Byte} {s u : State} {m : PageMove}

/-- The command entry that the completion of a move answers. -/
def moveEntry (hold : Bool) (desc : Nat) : BitVec 256 := BitVec.ofNat 256 ((if hold then 3 else 4) + put 64 desc)

theorem pcCmd_moveEntry (hold : Bool) (desc : Nat) : pcCmd (moveEntry hold desc) = if hold then 3 else 4 := by
  rw [pcCmd, moveEntry, fld_ofNat _ (by decide), nfld, put, Nat.shiftLeft_eq, Nat.shiftRight_zero]
  cases hold <;> simp <;> omega

/-- A partition with a move off its list. -/
def pageMoveOff (desc : Nat) (q : PartSt) : PartSt := { q with moves := q.moves.filter (fun y => y.desc != desc) }

/-- The end of a move, with what comes between taking it off the list and changing the descriptor. -/
theorem pageMove_ends {st : CplStatus} {f : PageDesc → PageDesc} (between : PageEdit p (pageMoveOff desc) s u)
    (listed : f (pdesc s.parts[p] desc) ≠ {})
    (moved : pageMoved p desc obj s = pageDone p m.index (moveEntry m.hold desc) st (modDesc p desc f u)) :
    ∃ t, exec (.pageMoveDone p desc obj) s = .next t ∧
      t = { s with out := u.out, hbm := u.hbm, parts := t.parts, regs := t.regs, err := u.err } ∧
      pdesc t.parts[p] desc = f (pdesc s.parts[p] desc) ∧ t.hbm = u.hbm ∧
      t.parts[p].rccc = ringPut s.parts[p].rccc { index := m.index, cmd := if m.hold then 3 else 4, status := st, desc := pcDesc (moveEntry m.hold desc) } := by
  obtain ⟨entered, hbm, out, err⟩ := pageDone_frame p m.index (moveEntry m.hold desc) st (modDesc p desc f u)
  have whole := (between.trans (pageEdit_modPart p _ u)).trans entered
  have rest := whole.rest
  rw [hbm, out, err] at rest
  refine ⟨_, ?_, rest, ?_, hbm, ?_⟩
  · exact congrArg Host.Outcome.next ((congrArg (footPage s) moved).trans whole.footPage_eq)
  · rw [whole.part]
    exact tabGet_tabSet_same _ _ _ _ listed
  · rw [whole.part, pcCmd_moveEntry, if_neg (show ¬ (if m.hold = true then 3 else 4) < 3 by split <;> omega)]
    rfl

/-- A held page leaves as a sealed object. -/
theorem pageMoved_hold (found : s.parts[p].moves.find? (fun m => m.desc == desc) = some m) (named : (pdesc s.parts[p] desc).ref ≠ 0)
    (hold : m.hold = true) : pageMoved p desc obj s = pageDone p m.index (moveEntry m.hold desc) .ok
      (modDesc p desc (fun y => { y with st := 2, addr := m.dest }) (send (.cold p m.dest
        (sealObject s.parts[p] p 1 desc (pdesc s.parts[p] desc).gen m.dest (memRead s.hbm (pdesc s.parts[p] desc).addr (frameBytes s.parts[p]))))
        (zeroBytes (pdesc s.parts[p] desc).addr (frameBytes s.parts[p]) (modPart p (pageMoveOff desc) s)))) := by
  simp only [pageMoved, found, if_neg named, hold, if_true]
  rfl

/-- A page comes back when its object opens. -/
theorem pageMoved_restore {plain : List Byte} (found : s.parts[p].moves.find? (fun m => m.desc == desc) = some m)
    (named : (pdesc s.parts[p] desc).ref ≠ 0) (restore : m.hold = false)
    (opens : openObject s.parts[p] p 1 desc (pdesc s.parts[p] desc).gen (pdesc s.parts[p] desc).addr obj = some plain) :
    pageMoved p desc obj s = pageDone p m.index (moveEntry m.hold desc) .ok
      (modDesc p desc (fun y => { y with st := 1, addr := m.dest }) (send (.coldWipe p (pdesc s.parts[p] desc).addr obj.length)
        (putBytes m.dest (slice plain 0 (frameBytes s.parts[p])) (modPart p (pageMoveOff desc) s)))) := by
  simp only [pageMoved, found, if_neg named, restore, Bool.false_eq_true, if_false, opens]
  rfl

/-- A page stays held when its object does not open. -/
theorem pageMoved_fails (found : s.parts[p].moves.find? (fun m => m.desc == desc) = some m)
    (named : (pdesc s.parts[p] desc).ref ≠ 0) (restore : m.hold = false)
    (closed : openObject s.parts[p] p 1 desc (pdesc s.parts[p] desc).gen (pdesc s.parts[p] desc).addr obj = none) :
    pageMoved p desc obj s = pageDone p m.index (moveEntry m.hold desc) .integrity
      (modDesc p desc (fun y => { y with st := 2 }) (modPart p (pageMoveOff desc) s)) := by
  simp only [pageMoved, found, if_neg named, restore, Bool.false_eq_true, if_false, closed]
  rfl

end

/-! ### The obligation -/

theorem exec_pageCommand {p : Part} {k : Nat × Instr}
    (h : k ∈ [(1, Instr.share p), (2, .release p), (3, .hold p), (4, .restore p), (5, .wipe p)]) (s : State) :
    exec k.2 s = .next (footPage s (servePage p k.1 s)) := by
  simp only [List.mem_cons, List.not_mem_nil, or_false] at h
  rcases h with rfl | rfl | rfl | rfl | rfl <;> rfl

section

variable {p : Part} {cmd : Nat} {e : BitVec 256} {s : State} {c : Instr}

/-- A command whose pages are not in the state that it needs. -/
theorem page_wrong_state (run : exec c s = .next (footPage s (servePage p cmd s))) (front : PageFront s p cmd e)
    (work : pageWork p s.parts[p].rccq.rd.toNat e (pageTaken p s) = (some .state, pageTaken p s)) :
    ∃ t, exec c s = .next t ∧ PageGone s t p ∧ t.parts[p].pdescs = s.parts[p].pdescs ∧
      pageEntry s t p cmd (if cmd < 3 then 0 else pcDesc e) .state := by
  obtain ⟨t, done, gone, pdescs, -, entry⟩ := page_refused run front work
  exact ⟨t, done, gone, pdescs, entry⟩

theorem share_wrong_state (front : PageFront s p 1 e) (range : pcBounds s.parts[p] e = true)
    (unfit : ∃ d ∈ pcTouches s.parts[p] e, ((pdesc s.parts[p] d).st ≠ 1 ∧ (pdesc s.parts[p] d).st ≠ 2) ∨
      65534 < (pdesc s.parts[p] d).ref + (pcTouches s.parts[p] e).count d) :
    ∃ t, exec (.share p) s = .next t ∧ PageGone s t p ∧ t.parts[p].pdescs = s.parts[p].pdescs ∧ pageEntry s t p 1 0 .state :=
  page_wrong_state rfl front (pageWork_share_refused (by rwa [pageTaken_bounds]) front.isCmd
    (by simpa only [pageTaken_touches, pageTaken_pdesc] using unfit))

theorem hold_begins (front : PageFront s p 3 e) (range : pcBounds s.parts[p] e = true) (live : (pdesc s.parts[p] (pcDesc e)).st = 1)
    (one : (pdesc s.parts[p] (pcDesc e)).ref = 1) : ∃ t, exec (.hold p) s = .next t ∧ PageGone s t p ∧ t.hbm = s.hbm ∧
      t.parts[p].rccc = s.parts[p].rccc ∧ pdesc t.parts[p] (pcDesc e) = { pdesc s.parts[p] (pcDesc e) with st := 3 } ∧
      t.parts[p].moves = s.parts[p].moves ++
        [{ desc := pcDesc e, index := s.parts[p].rccq.rd.toNat, hold := true, dest := pcCold e }] :=
  page_moves rfl front ((pageWork_hold (by rwa [pageTaken_bounds]) front.isCmd).trans
    (if_pos (by rw [pageTaken_pdesc]; exact ⟨live, one⟩)))

theorem hold_wrong_state (front : PageFront s p 3 e) (range : pcBounds s.parts[p] e = true)
    (other : (pdesc s.parts[p] (pcDesc e)).st ≠ 1 ∨ (pdesc s.parts[p] (pcDesc e)).ref ≠ 1) :
    ∃ t, exec (.hold p) s = .next t ∧ PageGone s t p ∧ t.parts[p].pdescs = s.parts[p].pdescs ∧ pageEntry s t p 3 (pcDesc e) .state :=
  page_wrong_state rfl front ((pageWork_hold (by rwa [pageTaken_bounds]) front.isCmd).trans
    (if_neg (by rw [pageTaken_pdesc]; omega)))

theorem restore_begins (front : PageFront s p 4 e) (range : pcBounds s.parts[p] e = true) (held : (pdesc s.parts[p] (pcDesc e)).st = 2) :
    ∃ t, exec (.restore p) s = .next t ∧ PageGone s t p ∧ t.hbm = s.hbm ∧
      t.parts[p].rccc = s.parts[p].rccc ∧ pdesc t.parts[p] (pcDesc e) = { pdesc s.parts[p] (pcDesc e) with st := 3 } ∧
      t.parts[p].moves = s.parts[p].moves ++
        [{ desc := pcDesc e, index := s.parts[p].rccq.rd.toNat, hold := false, dest := pcAddr e }] :=
  page_moves rfl front ((pageWork_restore (by rwa [pageTaken_bounds]) front.isCmd).trans (if_pos (by rwa [pageTaken_pdesc])))

theorem restore_wrong_state (front : PageFront s p 4 e) (range : pcBounds s.parts[p] e = true)
    (other : (pdesc s.parts[p] (pcDesc e)).st ≠ 2) : ∃ t, exec (.restore p) s = .next t ∧ PageGone s t p ∧
      t.parts[p].pdescs = s.parts[p].pdescs ∧ pageEntry s t p 4 (pcDesc e) .state :=
  page_wrong_state rfl front ((pageWork_restore (by rwa [pageTaken_bounds]) front.isCmd).trans (if_neg (by rwa [pageTaken_pdesc])))

theorem wipe_frees (front : PageFront s p 5 e) (range : pcBounds s.parts[p] e = true) (one : (pdesc s.parts[p] (pcDesc e)).ref ≤ 1)
    (still : (pdesc s.parts[p] (pcDesc e)).st ≠ 3) (here : (pdesc s.parts[p] (pcDesc e)).st ≠ 2)
    (wf : tabWf {} s.parts[p].pdescs = true) :
    ∃ t, exec (.wipe p) s = .next t ∧ PageGone s t p ∧ pageEntry s t p 5 (pcDesc e) .ok ∧
      pdesc t.parts[p] (pcDesc e) = freedDesc (pdesc s.parts[p] (pcDesc e)) ∧
      ∀ y, memByte t.hbm y = if (pdesc s.parts[p] (pcDesc e)).addr ≤ y ∧
        y < (pdesc s.parts[p] (pcDesc e)).addr + frameBytes s.parts[p] then 0 else memByte s.hbm y :=
  page_frees rfl front ((pageWork_wipe (by rwa [pageTaken_bounds]) front.isCmd).trans
    (if_pos (by rw [pageTaken_pdesc]; exact ⟨one, still⟩))) here wf

theorem wipe_wrong_state (front : PageFront s p 5 e) (range : pcBounds s.parts[p] e = true)
    (other : 1 < (pdesc s.parts[p] (pcDesc e)).ref ∨ (pdesc s.parts[p] (pcDesc e)).st = 3) :
    ∃ t, exec (.wipe p) s = .next t ∧ PageGone s t p ∧ t.parts[p].pdescs = s.parts[p].pdescs ∧ pageEntry s t p 5 (pcDesc e) .state :=
  page_wrong_state rfl front ((pageWork_wipe (by rwa [pageTaken_bounds]) front.isCmd).trans
    (if_neg (by rw [pageTaken_pdesc]; omega)))

/-- The clauses of a page command that waits, or whose operands are out of range. -/
theorem page_waits_or_out_of_range {k : Nat × Instr} (cmd : exec k.2 s = .next (footPage s (servePage p k.1 s))) (e : BitVec 256) :
    (s.parts[p].rccq.ents.head? = some e →
      (pcCmd e ≠ k.1 ∨ s.parts[p].st ≠ .keyed ∨ ∃ d ∈ pcTouches s.parts[p] e, d ∈ stepPages s p) → exec k.2 s = .next s) ∧
    (s.parts[p].rccq.ents = [] → exec k.2 s = .next s) ∧
    (PageFront s p k.1 e → pcBounds s.parts[p] e = false → ∃ t, exec k.2 s = .next t ∧ PageGone s t p ∧
      t.parts[p].pdescs = s.parts[p].pdescs ∧ t.hbm = s.hbm ∧ pageEntry s t p k.1 (if k.1 < 3 then 0 else pcDesc e) .bounds) := by
  refine ⟨fun head waits => ?_, fun empty => ?_, fun front range => ?_⟩
  · rw [cmd, servePage_of_waits head waits]; rfl
  · rw [cmd, servePage_of_empty empty]; rfl
  · exact page_refused cmd front (pageWork_out_of_range (by rwa [pageTaken_bounds]))

/-- The clauses of the end of a move. -/
theorem pageMoveDone_outcomes {desc : Nat} {obj : List Byte} {m : PageMove}
    (found : s.parts[p].moves.find? (fun m => m.desc == desc) = some m) (named : (pdesc s.parts[p] desc).ref ≠ 0) :
    let q := s.parts[p]
    let x := pdesc q desc
    let n := frameBytes q
    (m.hold = true → ∃ t, exec (.pageMoveDone p desc obj) s = .next t ∧
      t = { s with out := s.out ++ [.cold p m.dest (sealObject q p 1 desc x.gen m.dest (memRead s.hbm x.addr n))], hbm := t.hbm, parts := t.parts,
                   regs := t.regs, err := t.err } ∧
      pdesc t.parts[p] desc = { x with st := 2, addr := m.dest } ∧
      (∀ y, memByte t.hbm y = if x.addr ≤ y ∧ y < x.addr + n then 0 else memByte s.hbm y)) ∧
    (∀ plain, m.hold = false → openObject q p 1 desc x.gen x.addr obj = some plain → Memory.wf s.hbm = true →
      ∃ t, exec (.pageMoveDone p desc obj) s = .next t ∧
      t = { s with out := s.out ++ [.coldWipe p x.addr obj.length], hbm := t.hbm, parts := t.parts, regs := t.regs, err := t.err } ∧
      pdesc t.parts[p] desc = { x with st := 1, addr := m.dest } ∧ memRead t.hbm m.dest (slice plain 0 n).length = slice plain 0 n) ∧
    (m.hold = false → openObject q p 1 desc x.gen x.addr obj = none → ∃ t, exec (.pageMoveDone p desc obj) s = .next t ∧
      t = { s with parts := t.parts, regs := t.regs } ∧ pdesc t.parts[p] desc = { x with st := 2 } ∧
      t.parts[p].rccc = ringPut q.rccc { index := m.index, cmd := 4, status := .integrity, desc := pcDesc (moveEntry false desc) }) := by
  have off := pageEdit_modPart p (pageMoveOff desc) s
  refine ⟨fun hold => ?_, fun plain restore opens wf => ?_, fun restore closed => ?_⟩
  · obtain ⟨t, done, rest, moved, hbm, -⟩ := pageMove_ends (off.then rfl) (fun h => by simpa using congrArg PageDesc.st h)
      (pageMoved_hold found named hold)
    refine ⟨t, done, ?_, moved, fun y => ?_⟩
    · rw [rest]; rfl
    · rw [hbm]; exact memByte_memZero _ _ _ _
  · obtain ⟨t, done, rest, moved, hbm, -⟩ := pageMove_ends (off.then rfl) (fun h => by simpa using congrArg PageDesc.st h)
      (pageMoved_restore found named restore opens)
    refine ⟨t, done, ?_, moved, ?_⟩
    · rw [rest]; rfl
    · rw [hbm]; exact memRead_memWrite_same wf _ _
  · obtain ⟨t, done, rest, moved, -, entry⟩ := pageMove_ends off (fun h => by simpa using congrArg PageDesc.st h)
      (pageMoved_fails found named restore closed)
    rw [restore] at entry
    exact ⟨t, done, rest, moved, entry⟩

end

/-- Settles O40: what each page command does to the descriptors that it names, and how a page's move ends. -/
theorem pageCommandsTaken : Obligations.PageCommandsTaken := by
  unfold Obligations.PageCommandsTaken
  refine ⟨fun p s e => ⟨fun k hk => page_waits_or_out_of_range (exec_pageCommand hk s) e,
    fun front range => ⟨share_accepted front range, share_wrong_state front range⟩,
    fun front range => ⟨fun held => ?released, fun d named last live wf => ?last⟩,
    fun front range => ⟨hold_begins front range, hold_wrong_state front range⟩,
    fun front range => ⟨restore_begins front range, restore_wrong_state front range⟩,
    fun front range => ⟨fun one still here wf => ?wiped, wipe_wrong_state front range⟩⟩,
    fun p desc obj s m found named => pageMoveDone_outcomes found named⟩
  case released =>
    obtain ⟨t, done, gone, hbm, out, entry, changed⟩ := release_accepted front range held
    refine ⟨t, done, gone, hbm, out, entry, fun d => ⟨?_, by rw [changed d]⟩⟩
    have : (pcTouches s.parts[p] e).count d ≤ (pdesc s.parts[p] d).ref := by
      by_cases named : d ∈ pcTouches s.parts[p] e
      · exact (held d named).le
      · rw [List.count_eq_zero_of_not_mem named]; exact Nat.zero_le _
    rw [changed d]
    exact Nat.sub_add_cancel this
  case last =>
    obtain ⟨t, done, gone, entry, freed, zeroed⟩ := release_last front range named last live wf
    exact ⟨t, done, gone, entry, by rw [freed]; rfl, by rw [freed]; rfl, by rw [freed]; rfl, zeroed⟩
  case wiped =>
    obtain ⟨t, done, gone, entry, freed, zeroed⟩ := wipe_frees front range one still here wf
    exact ⟨t, done, gone, entry, by rw [freed]; rfl, by rw [freed]; rfl, zeroed⟩

end Sys2Proof.Machine
end

section
/-!
PROOFS. The tail of a step: one batch sealed on each face, and what an accepted report commits (R180, R267, R277, R279, R282).
-/

namespace Sys2Proof.Machine

/-- Every face keeps its acknowledgements and takes one batch of the running step; its refusals are answered. -/
theorem sealBatches_face (s : State) (f : FaceIx) :
    (sealBatches s).faces[f].sealed = s.faces[f].sealed ++ [faceBatch s f (statusWord s)] ∧
      (sealBatches s).faces[f].acks = s.faces[f].acks ∧ (sealBatches s).faces[f].refusals = [] := by
  have face : (sealBatches s).faces[f] =
      { s.faces[f] with sealed := s.faces[f].sealed ++ [faceBatch s f (statusWord s)], current := [], refusals := [] } :=
    Vector.getElem_ofFn f.isLt
  rw [face]
  exact ⟨rfl, rfl, rfl⟩

theorem footTail_self (s : State) : footTail s s = s :=
  congrArg (fun v => { s with cores := v }) (keepAssign_self s)

theorem execTailCommit_ready {s : State} (ready : tailReady s = true) :
    exec .tailCommit s = .next (footTail s (sealBatches (footEnds s (action5 (action4 s))))) :=
  congrArg (fun t => Host.Outcome.next (footTail s t)) (if_pos ready)

theorem execTailCommit_waits {s : State} (waits : tailReady s = false) : exec .tailCommit s = .next s :=
  congrArg Host.Outcome.next ((congrArg (footTail s) (if_neg (ne_true_of_eq_false waits))).trans (footTail_self s))

/-- What the step commits in actions 4 and 5 lies in the footprint of the tail; each face takes one batch of the step. -/
theorem footTail_sealBatches (s u : State) : ∃ t, footTail s (sealBatches (footEnds s u)) = t ∧
    t = { s with instStatus := t.instStatus, freeIx := t.freeIx, regs := t.regs, hbm := t.hbm, tensors := t.tensors, slots := t.slots, vrecs := t.vrecs,
                 recs := t.recs, parts := t.parts, faces := t.faces, cores := t.cores, uuOpt := t.uuOpt, rcc := t.rcc, run := t.run, err := t.err } ∧
    t.run.acted = 5 ∧ t.run.sealedUp = true ∧ SameAssign s t ∧
    ∀ f : FaceIx, ∃ b : Batch, t.faces[f].sealed = s.faces[f].sealed ++ [b] ∧ b.step = s.mc.step ∧ b.face = f ∧
      t.faces[f].acks = s.faces[f].acks ∧ t.faces[f].refusals = [] := by
  refine ⟨_, rfl, rfl, rfl, rfl, .of_keepAssign rfl, fun f => ?_⟩
  obtain ⟨sealed, acks, refusals⟩ := sealBatches_face (footEnds s u) f
  exact ⟨_, sealed, rfl, rfl, acks, refusals⟩

/-- Settles O15: the tail seals one batch a face; an accepted report commits its tokens. -/
theorem stepSealed : Obligations.StepSealed := by
  unfold Obligations.StepSealed
  refine ⟨⟨fun s ready => ?_, fun s waits => execTailCommit_waits waits⟩, fun a r q => ⟨rfl, rfl, rfl, rfl, rfl, rfl⟩⟩
  rw [execTailCommit_ready ready]
  generalize action5 (action4 s) = u
  obtain ⟨t, left, sealed⟩ := footTail_sealBatches s u
  exact ⟨t, congrArg Host.Outcome.next left, sealed⟩

end Sys2Proof.Machine
end

section
/-!
PROOFS. Work of the RCC unit: what UWRITE and the passes leave of the cores, and the entries, values and blocks that they make (R119,
R167, R168, R170, R179, R186 to R188).
-/

namespace Sys2Proof.Machine

/-! ### What the work of the RCC unit leaves -/

/-- Work that changes bytes of HBM and of the cores everything but their stores. -/
structure StoresKept (s t : State) : Prop where
  /-- Nothing but HBM and cores. -/
  rest : t = { s with hbm := t.hbm, cores := t.cores }
  /-- The stores. -/
  store : ∀ n : CoreIx, t.cores[n].store = s.cores[n].store

theorem StoresKept.refl (s : State) : StoresKept s s := ⟨rfl, fun _ => rfl⟩

theorem StoresKept.trans {s t u : State} (h : StoresKept s t) (k : StoresKept t u) : StoresKept s u :=
  ⟨by rw [k.rest, h.rest], fun n => (k.store n).trans (h.store n)⟩

theorem storesKept_foldl {α : Type} {f : State → α → State} (h : ∀ s x, StoresKept s (f s x)) (l : List α) (s : State) :
    StoresKept s (l.foldl f s) := by
  induction l generalizing s with
  | nil => exact .refl s
  | cons x r ih => exact (h s x).trans (ih (f s x))

theorem Latched.storesKept {n : CoreIx} {s t : State} (h : Latched n s t) : StoresKept s t :=
  ⟨by rw [h.rest], h.store⟩

theorem passEvents_kept (clmask : Nat) (p : Part) (i : Nat) (evs : List (PassEvent × Nat)) (s : State) :
    StoresKept s (passEvents clmask p i evs s) ∧ (passEvents clmask p i evs s).hbm = s.hbm := by
  unfold passEvents
  split
  · exact ⟨storesKept_foldl (fun s _ => (latched_coreEvent ..).storesKept) evs s, foldl_kept (g := State.hbm) (fun s _ => coreEvent_hbm ..) evs s⟩
  · exact ⟨.refl s, rfl⟩

theorem leaveTile_kept (clmask : Nat) (p : Part) (tiles : List (List (Int × List (List Byte) × List PassEvent))) (s : State) :
    StoresKept s (leaveTile clmask p tiles s) ∧ (leaveTile clmask p tiles s).hbm = s.hbm := by
  unfold leaveTile
  split
  · refine ⟨⟨rfl, fun m => ?_⟩, rfl⟩
    refine vmod_field (g := CoreSt.store) s.cores _ ?_ m
    intro c
    rfl
  · exact ⟨.refl s, rfl⟩

/-- A word whose work leaves the stores and the assignment of the cores. -/
theorem footWord_storesKept {s u : State} (kept : StoresKept s u) (run : Run) :
    footWord s { u with run } = { s with hbm := u.hbm, cores := keepAssign s u, run } ∧
      ∀ n : CoreIx, (keepAssign s u)[n].store = s.cores[n].store := by
  constructor
  · obtain ⟨rest, -⟩ := kept
    rw [footWord, rest]
    rfl
  · intro n
    rw [Fin.getElem_fin, keepAssign_at]
    exact kept.store n

/-- A word of the RCC queue that waits (R119). -/
theorem footWord_departWord (q i : Nat) (s : State) : footWord s (departWord q i s) = departWord q i s := footWord_eq_self rfl

/-- What follows when a word of the RCC queue completes with work that leaves the stores and the assignment of the cores. -/
structure RccWordDone (s t u : State) : Prop where
  /-- Nothing else changes. -/
  rest : t = { s with hbm := u.hbm, cores := t.cores, run := t.run }
  /-- The queue goes on. -/
  passed : wordPassed s t 204
  /-- The assignment. -/
  same : SameAssign s t
  /-- The stores. -/
  store : ∀ n : CoreIx, t.cores[n].store = s.cores[n].store
  /-- The products of the passes. -/
  made : t.run.made = u.run.made

theorem rccWordDone {i code : Nat} {w : IWord} {s u : State} (kept : StoresKept s { u with run := s.run }) (ptr : u.run.ptr = s.run.ptr) :
    RccWordDone s (footWord s (finishWord 204 1 w (setStatus i code false u))) u := by
  obtain ⟨rest, store⟩ := footWord_storesKept kept (finishWord 204 1 w (setStatus i code false u)).run
  have whole : footWord s (finishWord 204 1 w (setStatus i code false u)) = _ := rest
  rw [whole]
  exact ⟨rfl, by rw [wordPassed, ← ptr]; rfl, .of_keepAssign rfl, store, rfl⟩

/-! ### UWRITE (R179) -/

/-- The requests whose entries an UWRITE writes. -/
def uwriteReqs (w : IWord) (s : State) : List RccReq := (contextList s).filter (fun r => bitAt (slotOf s r.slot).tmask (fld w 60 4))

/-- The rows of an UWRITE: request, batch row, context position. -/
def uwriteJobs (w : IWord) (s : State) : List (RccReq × Nat × Nat) :=
  (uwriteReqs w s).flatMap (fun r => r.rows.zipIdx.map (fun x => (r, x.1, r.clen + x.2)))

/-- The entries of one row written, with its events. -/
def uwriteRow (i : Nat) (w : IWord) (s : State) (j : RccReq × Nat × Nat) : State :=
  match pageAt s j.1 (j.2.2 / 256) with
  | some (addr, f8, _) => match sectionOff s j.1 f8 (fld w 50 10) (fld w 60 4) with
    | some o =>
      let rank := (slotOf s j.1.slot).rank
      let p := j.2.2 % 256
      let b := entryBytes f8 (isPoisoned s (recOf s j.1.req).face j.2.1) ((deliveredU s (fld w 64 8) (fld w 72 6) j.2.1).getD [])
      let m := memWrite s.hbm (addr + o + p * rank * (if f8 then 1 else 2)) b.1
      let m := if f8 then memWrite m (addr + o + 256 * rank + p) [b.2.1] else m
      passEvents (fld w 64 8) j.1.part i (b.2.2.map (fun e => (e, j.2.1))) { s with hbm := m }
    | none => s
  | none => s

theorem mem_uwriteJobs {w : IWord} {s : State} {j : RccReq × Nat × Nat} (h : j ∈ uwriteJobs w s) : j.1 ∈ uwriteReqs w s ∧ j.2.1 ∈ j.1.rows := by
  obtain ⟨r, hr, hj⟩ := List.mem_flatMap.mp h
  obtain ⟨x, hx, rfl⟩ := List.mem_map.mp hj
  have row : x.1 ∈ r.rows := List.fst_mem_of_mem_zipIdx hx
  exact ⟨hr, row⟩

theorem exists_uwriteJob {w : IWord} {s : State} {r : RccReq} {row : Nat} (hr : r ∈ uwriteReqs w s) (hrow : row ∈ r.rows) :
    ∃ j ∈ uwriteJobs w s, j.2.1 = row := by
  obtain ⟨k, hk, rfl⟩ := List.mem_iff_getElem.mp hrow
  exact ⟨_, List.mem_flatMap.mpr ⟨r, hr, List.mem_map.mpr ⟨(r.rows[k], k), List.mem_zipIdx_iff_getElem?.mpr (by simp [hk]), rfl⟩⟩, rfl⟩

theorem uwriteWork_waits {i : Nat} {w : IWord} {s : State} (waits : s.run.checked = false ∨
    ∃ r ∈ uwriteReqs w s, ∃ row ∈ r.rows, deliveredU s (fld w 64 8) (fld w 72 6) row = none) : uwriteWork i w s = none := by
  unfold uwriteWork
  rcases waits with unchecked | ⟨r, hr, row, hrow, absent⟩
  · exact if_pos unchecked
  · obtain ⟨j, hj, rfl⟩ := exists_uwriteJob hr hrow
    have missing : ¬ (uwriteJobs w s).all (fun j => (deliveredU s (fld w 64 8) (fld w 72 6) j.2.1).isSome) = true := fun all => by
      simpa [absent] using List.all_eq_true.mp all j hj
    exact (ite_eq_left_iff.mpr fun _ => if_neg missing)

theorem uwriteWork_done (i : Nat) {w : IWord} {s : State} (checked : s.run.checked = true)
    (all : ∀ r ∈ uwriteReqs w s, ∀ row ∈ r.rows, (deliveredU s (fld w 64 8) (fld w 72 6) row).isSome = true) :
    ∃ code, uwriteWork i w s = some (setStatus i code false ((uwriteJobs w s).foldl (uwriteRow i w) s)) := by
  have every : (uwriteJobs w s).all (fun j => (deliveredU s (fld w 64 8) (fld w 72 6) j.2.1).isSome) = true :=
    List.all_eq_true.mpr fun j hj => all _ (mem_uwriteJobs hj).1 _ (mem_uwriteJobs hj).2
  refine ⟨_, (if_neg (by simp [checked])).trans (if_pos every)⟩

theorem uwriteRow_kept (i : Nat) (w : IWord) (s : State) (j : RccReq × Nat × Nat) : StoresKept s (uwriteRow i w s j) := by
  have memory (m : Memory) : StoresKept s { s with hbm := m } := ⟨rfl, fun _ => rfl⟩
  unfold uwriteRow
  split
  · split
    · exact (memory _).trans (passEvents_kept ..).1
    · exact .refl s
  · exact .refl s

/-- The entry of a finite row that is not poisoned, in B16 (R170). -/
theorem entryBytes_finite {u : List F32} (finite : ∀ x ∈ u, f32Finite x = true) :
    (entryBytes false false u).1 = u.flatMap (fun x => leBytes 2 (fpConvert fmtB16 false (f32Val x)).1) := by
  have none : ¬ (false || u.any (fun x => !f32Finite x)) = true := by simpa using finite
  rw [entryBytes, if_neg none]
  simp only [Bool.false_eq_true, if_false, List.flatMap_map]

theorem uwriteRow_hbm {i a o row pos : Nat} {w : IWord} {s : State} {r : RccReq} {u : List F32}
    (page : pageAt s r (pos / 256) = some (a, false, true)) (sect : sectionOff s r false (fld w 50 10) (fld w 60 4) = some o)
    (delivered : deliveredU s (fld w 64 8) (fld w 72 6) row = some u) (sound : isPoisoned s (recOf s r.req).face row = false)
    (finite : ∀ x ∈ u, f32Finite x = true) : (uwriteRow i w s (r, row, pos)).hbm =
      memWrite s.hbm (a + o + pos % 256 * (slotOf s r.slot).rank * 2) (u.flatMap (fun x => leBytes 2 (fpConvert fmtB16 false (f32Val x)).1)) := by
  simp only [uwriteRow, page, sect, delivered, sound, Option.getD_some, Bool.false_eq_true, if_false, (passEvents_kept ..).2,
    entryBytes_finite finite]

theorem exec_rccUwrite (s : State) : exec .rccUwrite s = .next (footWord s (issueFlight 204 (fun w => wOp w == 0x90 && fld w 46 4 == 0)
    (fun _ => false) uwriteWork s)) := rfl

/-- The clauses of UWRITE. -/
theorem rccUwrite_outcomes {s : State} {i : Nat} {w : IWord} (ready : readyWord s 204 = some (i, w)) (idle : noFlight s 204)
    (op : wOp w = 0x90) (sub : fld w 46 4 = 0) :
    (s.run.checked = false ∨ (∃ r ∈ uwriteReqs w s, ∃ row ∈ r.rows, deliveredU s (fld w 64 8) (fld w 72 6) row = none) →
        exec .rccUwrite s = .next (departWord 204 i s)) ∧
    (s.run.checked = true → (∀ r ∈ uwriteReqs w s, ∀ row ∈ r.rows, (deliveredU s (fld w 64 8) (fld w 72 6) row).isSome = true) →
      ∃ t, exec .rccUwrite s = .next t ∧ RccWordDone s t ((uwriteJobs w s).foldl (uwriteRow i w) s)) := by
  have sel : (fun w : IWord => wOp w == 0x90 && fld w 46 4 == 0) w = true := by simp [op, sub]
  refine ⟨fun waits => ?_, fun checked all => ?_⟩
  · rw [exec_rccUwrite, issueFlight_waits ready idle sel rfl (uwriteWork_waits waits), footWord_departWord]
  · obtain ⟨code, work⟩ := uwriteWork_done i checked all
    have kept := storesKept_foldl (uwriteRow_kept i w) (uwriteJobs w s) s
    have run : ((uwriteJobs w s).foldl (uwriteRow i w) s).run = s.run := by rw [kept.rest]
    rw [exec_rccUwrite, issueFlight_done ready idle sel rfl work]
    exact ⟨_, rfl, rccWordDone (by rw [← run]; exact kept) (by rw [run])⟩

end Sys2Proof.Machine
end

section
/-!
PROOFS. The passes of the RCC unit and the blocks that send what they make, and the obligation on the words of the context cache (R119,
R167, R168, R179, R186, R187, R482).
-/

namespace Sys2Proof.Machine

/-! ### The passes (R167, R168, R187) -/

/-- The context tiles of a request, by rank group. -/
abbrev ReqTiles := List (List (Int × List (List Byte) × List PassEvent))

/-- What a pass makes of a request: values, events, tiles. -/
abbrev ReqMade := List F32 × List (PassEvent × Nat) × ReqTiles

section

variable {key : Bool} {i : Nat} {w : IWord} {s : State} {size : State → AttDesc → RccReq → Nat}
  {work : State → RccReq → AttDesc → Nat → Nat → ReqTiles → List Byte → List (List F32 × List PassEvent)} {count : AttDesc → RccReq → Nat}

/-- The target of a pass. -/
def passTarget (key : Bool) (w : IWord) (s : State) : Nat :=
  if key = true then (attOf s (fld w 72 3)).ktgt else (attOf s (fld w 72 3)).vtgt

/-- The block that a pass awaits for a request. -/
def passInput (key : Bool) (w : IWord) (s : State) (r : RccReq) : Option InBlock :=
  passBlock s r (if key = true then 2 else 3) (passTarget key w s) (fld w 50 10)

theorem passWork_waits (waits : s.run.checked = false ∨ ∃ r ∈ contextList s, passInput key w s r = none) :
    passWork key i w size work count s = none := by
  unfold passWork
  rcases waits with unchecked | ⟨r, hr, absent⟩
  · exact if_pos unchecked
  · have missing : ¬ (contextList s).all (fun r => (passInput key w s r).isSome) = true := fun all => by
      simpa [absent] using List.all_eq_true.mp all r hr
    exact ite_eq_left_iff.mpr fun _ => if_neg missing

/-- The block that a pass leaves for the word that sends it. -/
def passMade (key : Bool) (w : IWord) (s : State) (out : List ReqMade) : MadeBlock :=
  { kind := if key then 0xB else 0xC, desc := passTarget key w s, layer := fld w 50 10, vals := out.map Prod.fst }

/-- The events of a pass noted, and the tiles that it leaves. -/
def passNoted (i : Nat) (w : IWord) (s : State) (out : List ReqMade) : State :=
  ((contextList s).zip out).foldl (fun s x => leaveTile (fld w 64 8) x.1.part x.2.2.2 (passEvents (fld w 64 8) x.1.part i x.2.2.1 s)) s

theorem passNoted_kept (i : Nat) (w : IWord) (s : State) (out : List ReqMade) :
    StoresKept s (passNoted i w s out) ∧ (passNoted i w s out).hbm = s.hbm :=
  ⟨storesKept_foldl (fun _ _ => (passEvents_kept ..).1.trans (leaveTile_kept ..).1) _ s,
    foldl_kept (g := State.hbm) (fun _ _ => (leaveTile_kept ..).2.trans (passEvents_kept ..).2) _ s⟩

theorem passWork_done (checked : s.run.checked = true) (all : ∀ r ∈ contextList s, (passInput key w s r).isSome = true) :
    ∃ code out, out = (contextList s).map (fun r => passReq s key (fld w 50 10) (attOf s (fld w 72 3)) r size work count) ∧
      passWork key i w size work count s =
        some (setStatus i code false (modRun (fun r => { r with made := r.made ++ [passMade key w s out] }) (passNoted i w s out))) :=
  ⟨_, _, rfl, (if_neg (by simp [checked])).trans (if_pos (List.all_eq_true.mpr all))⟩

section

variable {layer : Nat} {d : AttDesc} {r : RccReq}

/-- The block of a request was refused (R187). -/
theorem passReq_refused (refused : (passBlock s r (if key = true then 2 else 3) (if key = true then d.ktgt else d.vtgt) layer).bind (·.bytes) = none) :
    ∀ v ∈ (passReq s key layer d r size work count).1, v = deltaNan (deltaWidth s r.part (recOf s r.req).face) := by
  intro v hv
  simp only [passReq, refused, List.mem_map] at hv
  obtain ⟨_, -, rfl⟩ := hv
  rfl

variable {b : List Byte}
  (taken : (passBlock s r (if key = true then 2 else 3) (if key = true then d.ktgt else d.vtgt) layer).bind (·.bytes) = some b)
include taken

/-- The adapter of a request lacks the target. -/
theorem passReq_lacks (lacks : bitAt (slotOf s r.slot).tmask (if key = true then d.ktgt else d.vtgt) = false) :
    ∀ v ∈ (passReq s key layer d r size work count).1, v = 0 := by
  intro v hv
  simp only [passReq, taken, lacks, Bool.false_eq_true, if_false, List.mem_map] at hv
  obtain ⟨_, -, rfl⟩ := hv
  rfl

theorem passReq_values (carries : bitAt (slotOf s r.slot).tmask (if key = true then d.ktgt else d.vtgt) = true) :
    (passReq s key layer d r size work count).1 =
      (work s r d layer (deltaWidth s r.part (recOf s r.req).face) (contextTiles s r layer (if key = true then d.ktgt else d.vtgt))
        (slice b (blockOffset s r (size s d)) (size s d r))).flatMap Prod.fst := by
  simp only [passReq, taken, carries, if_true]

end

/-- The clauses of a pass. -/
theorem pass_outcomes {c : Instr} {sel : IWord → Bool} (run : exec c s = .next (footWord s (issueFlight 204 sel (fun _ => false)
      (fun i w s => passWork key i w size work count s) s)))
    (ready : readyWord s 204 = some (i, w)) (idle : noFlight s 204) (hsel : sel w = true) :
    let d := attOf s (fld w 72 3)
    let g := if key = true then d.ktgt else d.vtgt
    let have1 := fun r => passBlock s r (if key = true then 2 else 3) g (fld w 50 10)
    (s.run.checked = false ∨ (∃ r ∈ contextList s, have1 r = none) → exec c s = .next (departWord 204 i s)) ∧
    (s.run.checked = true → (∀ r ∈ contextList s, (have1 r).isSome = true) →
      ∃ t m, exec c s = .next t ∧ t = { s with cores := t.cores, run := t.run } ∧ wordPassed s t 204 ∧ SameAssign s t ∧
        (∀ n : CoreIx, t.cores[n].store = s.cores[n].store) ∧ t.run.made = s.run.made ++ [m] ∧
        m.kind = (if key = true then 0xB else 0xC) ∧ m.desc = g ∧ m.layer = fld w 50 10 ∧ m.vals.length = (contextList s).length ∧
        ∀ k r, (contextList s)[k]? = some r →
          ((have1 r).bind (·.bytes) = none → ∀ v ∈ m.vals.getD k [], v = deltaNan (deltaWidth s r.part (recOf s r.req).face)) ∧
          ((have1 r).bind (·.bytes) ≠ none → bitAt (slotOf s r.slot).tmask g = false → ∀ v ∈ m.vals.getD k [], v = 0) ∧
          (∀ b, (have1 r).bind (·.bytes) = some b → bitAt (slotOf s r.slot).tmask g = true →
            m.vals.getD k [] = (work s r d (fld w 50 10) (deltaWidth s r.part (recOf s r.req).face) (contextTiles s r (fld w 50 10) g)
              (slice b (blockOffset s r (size s d)) (size s d r))).flatMap Prod.fst)) := by
  refine ⟨fun waits => ?_, fun checked all => ?_⟩
  · have departs := issueFlight_waits ready idle (down := fun _ => false) (work := fun i w s => passWork key i w size work count s) hsel rfl
      (passWork_waits waits)
    rw [run, departs, footWord_departWord]
  · obtain ⟨code, out, values, makes⟩ := passWork_done (i := i) (size := size) (work := work) (count := count) checked all
    have done := issueFlight_done ready idle (down := fun _ => false) (work := fun i w s => passWork key i w size work count s) hsel rfl makes
    obtain ⟨kept, hbm⟩ := passNoted_kept i w s out
    have same : (passNoted i w s out).run = s.run := by rw [kept.rest]
    obtain ⟨rest, passed, assign, store, made⟩ := rccWordDone (i := i) (code := code) (w := w)
      (u := modRun (fun r => { r with made := r.made ++ [passMade key w s out] }) (passNoted i w s out))
      (by rw [← same]; exact kept) (by rw [modRun, same])
    rw [done] at run
    refine ⟨_, passMade key w s out, run, ?_, passed, assign, store, ?_, rfl, rfl, rfl, by rw [passMade, values, List.length_map, List.length_map],
      fun k r hr => ?_⟩
    · rw [rest]
      simp only [modRun, hbm]
    · rw [made, modRun, same]
    · have vals : (passMade key w s out).vals.getD k [] =
          (passReq s key (fld w 50 10) (attOf s (fld w 72 3)) r size work count).1 := by
        rw [passMade, values, List.getD_eq_getElem?_getD, List.getElem?_map, List.getElem?_map, hr]
        rfl
      rw [vals]
      refine ⟨passReq_refused, fun some lacks => ?_, fun b taken carries => passReq_values taken carries⟩
      obtain ⟨b, taken⟩ := Option.ne_none_iff_exists'.mp some
      exact passReq_lacks taken lacks

end

/-! ### The blocks that send the product of a pass (R186, R482) -/

theorem flatMap_filter {α β : Type} (l : List α) (p : α → Prop) [DecidablePred p] (g : α → List β) :
    (l.filter (fun x => decide (p x))).flatMap g = l.flatMap (fun x => if p x then g x else []) := by
  induction l with
  | nil => rfl
  | cons x r ih =>
    by_cases h : p x
    · simp [h, ih]
    · simp [h, ih]

/-- The bytes of a SCORE or VDELTA block. -/
def productBytes (s : State) (f : FaceIx) (m : MadeBlock) : List Byte :=
  ((contextList s).zip m.vals).flatMap (fun x => if (recOf s x.1.req).face = f
    then x.2.zipIdx.flatMap (fun v => leBytes (deltaWidth s x.1.part f)
      (if isPoisoned s f (x.1.rows.getD (v.2 / max 1 (x.2.length / max 1 x.1.rows.length)) 0) = true then deltaNan (deltaWidth s x.1.part f)
        else v.1).toNat) else [])

theorem exchangeOut_found {f : FaceIx} {i : Nat} {w : IWord} {s : State} {m : MadeBlock}
    (found : s.run.made.find? (fun m => m.kind == fld w 46 4 && m.desc == fld w 50 4 && m.layer == fld w 54 10) = some m) :
    exchangeOut f i w s = some (setStatus i 0 false
      (sendOnce i (.face f (fld w 46 4) (fld w 50 4) (fld w 54 10) (productBytes s f m)) s)) := by
  unfold exchangeOut
  rw [productBytes, ← flatMap_filter]
  dsimp only [faceWord]
  rw [found]

theorem exchangeOut_waits {f : FaceIx} {i : Nat} {w : IWord} {s : State}
    (none : s.run.made.find? (fun m => m.kind == fld w 46 4 && m.desc == fld w 50 4 && m.layer == fld w 54 10) = none) :
    exchangeOut f i w s = Option.none := by
  unfold exchangeOut
  dsimp only [faceWord]
  rw [none]

/-- A word of a face that finds no work. -/
theorem issueOut_held {f : FaceIx} {kind i : Nat} {w : IWord} {work : Nat → IWord → State → Option State} {s : State}
    (due : FaceDue s f kind i w) (held : work i w s = none) : issueOut f kind work s = s := by
  rw [issueOut, issuePlain, issueWord_held due.next (by rw [due.op, due.kind]; simp) rfl held]
  exact footWord_eq_self rfl

/-- The clauses of FACEOUT SCORE and VDELTA. -/
theorem product_outcomes {f : FaceIx} {kind i : Nat} {w : IWord} {s : State} {c : Instr}
    (run : exec c s = .next (issueOut f kind (exchangeOut f) s)) (due : FaceDue s f kind i w) :
    let has := fun (m : MadeBlock) => m.kind == kind && m.desc == fld w 50 4 && m.layer == fld w 54 10
    (s.run.made.find? has = none → exec c s = .next s) ∧
    (∀ m, s.run.made.find? has = some m → ∃ t, exec c s = .next t ∧ t = { s with out := t.out, run := t.run } ∧
      wordPassed s t (202 + f.val) ∧ blockSent s t f kind i w (productBytes s f m)) := by
  have same := due.kind
  subst same
  refine ⟨fun none => ?_, fun m found => ?_⟩
  · rw [run, issueOut_held due (exchangeOut_waits none)]
  · obtain ⟨rest, passed, out, sent⟩ := issueOut_blockLeft due (exchangeOut_found found) (noted_setStatus i 0 false _)
    exact ⟨_, run, rest, passed, out, sent⟩

/-! ### The obligation -/

theorem issueFlight_idle {q : Nat} {s : State} (none : readyWord s q = none) (idle : noFlight s q) (sel : IWord → Bool)
    (down : State → Bool) (work : Nat → IWord → State → Option State) : issueFlight q sel down work s = s := by
  rw [issueFlight, landFlight_eq_none idle, none, ite_self]

theorem exec_flight_idle {q : Nat} {s : State} {c : Instr} {sel : IWord → Bool} {down : State → Bool}
    {work : Nat → IWord → State → Option State} (run : exec c s = .next (footWord s (issueFlight q sel down work s)))
    (none : readyWord s q = none) (idle : noFlight s q) : exec c s = .next s := by
  rw [run, issueFlight_idle none idle, footWord_eq_self rfl]

theorem exec_rccKpass (s : State) : exec .rccKpass s = .next (footWord s (issueFlight 204 (fun w => wOp w == 0x90 && fld w 46 4 == 1)
    (fun _ => false) (fun i w s => passWork true i w qrySize scoreCalc
      (fun d r => r.rows.length * queryHeads d * (r.clen + r.rows.length)) s) s)) := rfl

theorem exec_rccVpass (s : State) : exec .rccVpass s = .next (footWord s (issueFlight 204 (fun w => wOp w == 0x90 && fld w 46 4 == 2)
    (fun _ => false) (fun i w s => passWork false i w probSize valueCalc (fun d r => r.rows.length * queryHeads d * headDim d) s) s)) := rfl

/-- Settles O27: by what UWRITE writes, what each pass makes, and the blocks that send it. -/
theorem contextWordsRead : Obligations.ContextWordsRead := by
  unfold Obligations.ContextWordsRead
  refine fun s i w => ⟨fun ready idle op sub => ?uwrite, fun key c named ready idle op => ?pass, fun f kind c named due => ?product,
    fun none idle => ?idle⟩
  case uwrite =>
    obtain ⟨waits, writes⟩ := rccUwrite_outcomes ready idle op sub
    refine ⟨waits, fun checked all => ?_⟩
    obtain ⟨t, done, rest, passed, same, store, -⟩ := writes checked all
    have hbm : t.hbm = ((uwriteJobs w s).foldl (uwriteRow i w) s).hbm := by rw [rest]
    rw [← hbm] at rest
    refine ⟨t, done, rest, passed, same, store, fun empty => ?_, fun r row u a o one single delivered page sect sound finite wf => ?_⟩
    · rw [hbm, uwriteJobs, show uwriteReqs w s = [] from empty]
      rfl
    · have job : uwriteJobs w s = [(r, row, r.clen)] := by
        rw [uwriteJobs, show uwriteReqs w s = [r] from one, List.flatMap_singleton, single]
        rfl
      rw [job, List.foldl_cons, List.foldl_nil, uwriteRow_hbm page sect delivered sound finite] at hbm
      have len : (u.flatMap (fun x => leBytes 2 (fpConvert fmtB16 false (f32Val x)).1)).length = 2 * u.length :=
        length_flatMap_uniform (fun _ => leBytes_length 2 _) u
      rw [hbm]
      refine ⟨?_, fun x apart => ?_⟩
      · rw [← len]
        exact memRead_memWrite_same wf _ _
      · exact memByte_memWrite_outside _ _ _ _ (by rwa [len])
  case pass =>
    rcases named with ⟨rfl, rfl, sub⟩ | ⟨rfl, rfl, sub⟩
    · exact pass_outcomes (exec_rccKpass s) ready idle (by rw [op, sub]; rfl)
    · exact pass_outcomes (exec_rccVpass s) ready idle (by rw [op, sub]; rfl)
  case product =>
    rcases named with ⟨rfl, rfl⟩ | ⟨rfl, rfl⟩ <;> exact product_outcomes rfl due
  case idle =>
    exact ⟨exec_flight_idle (exec_rccUwrite s) none idle, exec_flight_idle (exec_rccKpass s) none idle,
      exec_flight_idle (exec_rccVpass s) none idle⟩

end Sys2Proof.Machine
end
